-- ==== Sys2Proof/Word.lean ====
section
/-! DEFINITION. The word types of the part, byte order (R7), stamps' device time (R50), and the
plain-data collections the state is made of: a table is a list of (key, value) pairs in ONE
canonical form, keys strictly rising and no entry equal to what an unlisted key reads as. -/

namespace Sys2Proof

abbrev Byte := BitVec 8
abbrev Word := BitVec 32

/-- Bits `hi` down to `lo` of a number (both ends included). -/
def bitsOf (v hi lo : Nat) : Nat := v / 2 ^ lo % 2 ^ (hi + 1 - lo)

/-- Bit `i` of a number. -/
def bitOf (v i : Nat) : Bool := v / 2 ^ i % 2 == 1

/-- `v` with bits `hi` down to `lo` replaced by `x`. -/
def setBits (v hi lo x : Nat) : Nat :=
  v - bitsOf v hi lo * 2 ^ lo + x % 2 ^ (hi + 1 - lo) * 2 ^ lo

/-- The signed reading of the low `n` bits of `v`. -/
def signedOf (n v : Nat) : Int :=
  let u := v % 2 ^ n
  if 2 * u < 2 ^ n then (u : Int) else (u : Int) - (2 ^ n : Nat)

/-- An integer wrapped to `n` bits. -/
def wrapInt (n : Nat) (i : Int) : Nat := (i % ((2 ^ n : Nat) : Int)).toNat

/-- An integer kept within `lo` and `hi` (saturation). -/
def clampInt (lo hi i : Int) : Int := if i < lo then lo else if hi < i then hi else i

/-- A natural number kept within `lo` and `hi`. -/
def clampNat (lo hi i : Nat) : Nat := if i < lo then lo else if hi < i then hi else i

/-- Saturation of a signed result to `n` bits. -/
def satInt (n : Nat) (i : Int) : Int := clampInt (-((2 ^ (n - 1) : Nat) : Int)) (((2 ^ (n - 1) : Nat) : Int) - 1) i

/-- Arithmetic right shift by `n`, truncating towards minus infinity. -/
def asrInt (i : Int) (n : Nat) : Int := i / ((2 ^ n : Nat) : Int)

/-- Right shift by `n` rounding to nearest, halves towards plus infinity. -/
def rndShift (i : Int) (n : Nat) : Int :=
  if n = 0 then i else (i + ((2 ^ (n - 1) : Nat) : Int)) / ((2 ^ n : Nat) : Int)

/-- Increment that holds at `max`. -/
def incHold (max v : Nat) : Nat := if v < max then v + 1 else max

/-- R7: the `n` bytes of a number, least significant first. -/
def leBytes : Nat → Nat → List Byte
  | 0, _ => []
  | n + 1, v => BitVec.ofNat 8 v :: leBytes n (v / 256)

/-- R7: the number that bytes spell, least significant first. -/
def ofBytes : List Byte → Nat
  | [] => 0
  | b :: bs => b.toNat + 256 * ofBytes bs

/-- Bytes `off` to `off + n - 1` of a structure, as a little-endian number; missing bytes are 0. -/
def fieldAt (bs : List Byte) (off n : Nat) : Nat := ofBytes ((bs.drop off).take n)

/-- Whether every byte at offsets `off` to `off + n - 1` is zero. -/
def zeroAt (bs : List Byte) (off n : Nat) : Bool := fieldAt bs off n == 0

/-- A structure of `n` bytes from a list of (offset, size, value). -/
def packNat : List (Nat × Nat × Nat) → Nat
  | [] => 0
  | (off, n, v) :: r => v % 2 ^ (8 * n) * 2 ^ (8 * off) + packNat r

/-- A table: sorted (key, value) pairs. -/
abbrev Table (α : Type) := List (Nat × α)

/-- What key `n` reads as; `d` for an unlisted key. -/
def Table.get {α : Type} (d : α) : Table α → Nat → α
  | [], _ => d
  | (k, v) :: t, n => if n = k then v else Table.get d t n

/-- Remove key `n`. -/
def Table.del {α : Type} : Table α → Nat → Table α
  | [], _ => []
  | (k, v) :: t, n => if n = k then Table.del t n else (k, v) :: Table.del t n

/-- Put `v` at key `n`, keeping the keys sorted. -/
def Table.put {α : Type} : Table α → Nat → α → Table α
  | [], n, v => [(n, v)]
  | (k, w) :: t, n, v =>
    if n = k then (n, v) :: t else if n < k then (n, v) :: (k, w) :: t else (k, w) :: Table.put t n v

/-- Write `v` at key `n`; writing the value an unlisted key reads as removes the entry. -/
def Table.set {α : Type} [DecidableEq α] (d : α) (t : Table α) (n : Nat) (v : α) : Table α :=
  if v = d then Table.del t n else Table.put t n v

/-- Change the value at key `n` by `f`. -/
def Table.upd {α : Type} [DecidableEq α] (d : α) (t : Table α) (n : Nat) (f : α → α) : Table α :=
  Table.set d t n (f (Table.get d t n))

/-- The keys rise strictly from above `b`. -/
def Table.sortedFrom {α : Type} : Nat → Table α → Bool
  | _, [] => true
  | b, (k, _) :: t => decide (b ≤ k) && Table.sortedFrom (k + 1) t

/-- The canonical form: keys strictly rising, no value equal to `d`. -/
def Table.wf {α : Type} [DecidableEq α] (d : α) (t : Table α) : Bool :=
  Table.sortedFrom 0 t && t.all fun e => decide (e.2 ≠ d)

/-- R50: device time, a 48-bit seconds count and a 30-bit nanoseconds count. -/
structure DevTime where
  sec : BitVec 48 := 0
  ns : BitVec 30 := 0
deriving DecidableEq, Repr

/-- Device time as one count of nanoseconds. -/
def DevTime.abs (d : DevTime) : Nat := d.sec.toNat * 1000000000 + d.ns.toNat

/-- The device time at a count of nanoseconds; the seconds wrap at 2^48 (R50). -/
def DevTime.ofInt (i : Int) : DevTime :=
  let n := (i % ((2 ^ 48 * 1000000000 : Nat) : Int)).toNat
  ⟨BitVec.ofNat 48 (n / 1000000000), BitVec.ofNat 30 (n % 1000000000)⟩

/-- R50: the next tick. -/
def DevTime.succ (d : DevTime) : DevTime :=
  if d.ns = 999999999#30 then ⟨d.sec + 1, 0⟩ else ⟨d.sec, d.ns + 1⟩

/-- R58: the fields of a 96-bit stamp. -/
structure Stamp where
  dom : BitVec 2 := 0
  time : DevTime := {}
  frac : BitVec 16 := 0
deriving DecidableEq, Repr

/-- R58: the 96 bits of a stamp as a number (three little-endian words, word 0 lowest). -/
def Stamp.bits (s : Stamp) : Nat :=
  s.frac.toNat + bitsOf s.time.ns.toNat 15 0 * 2 ^ 16
    + bitsOf s.time.ns.toNat 29 16 * 2 ^ 32 + s.dom.toNat * 2 ^ 46
    + bitsOf s.time.sec.toNat 15 0 * 2 ^ 48 + bitsOf s.time.sec.toNat 47 16 * 2 ^ 64

/-- R86: the part of the ordering key a stamp gives: whether DOMAIN is not zero, then seconds,
nanoseconds and FRAC, as one number. -/
def Stamp.key (s : Stamp) : Nat :=
  (if s.dom = 0 then 0 else 1) * 2 ^ 100 + s.time.abs * 2 ^ 16 + s.frac.toNat

/-- R61: the time a host-written 12-byte stamp names (DOMAIN ignored) before its clamp. -/
def stampSec (v : Nat) : Nat := bitsOf v 63 48 + bitsOf v 95 64 * 2 ^ 16
def stampNs (v : Nat) : Nat := bitsOf v 31 16 + bitsOf v 45 32 * 2 ^ 16

end Sys2Proof
end

