-- ==== Sys2Proof/Syntax.lean ====
section
/-! DEFINITION. The commands of the part: one constructor for each row of spec/opcode_table.json,
with the operands the spec gives it and the facts of the outside world it carries (samples, pin
levels, host data, messages of partners). -/

namespace Sys2Proof

/-- R495: what a host memory read serves. -/
inductive ReadFor where
  | entry (ctx index : Nat) (retry : Bool)
  | data (ctx index : Nat) (retry : Bool)
  | stream (quarter stream : Nat)
  | other
deriving DecidableEq, Repr

/-- R527, R532: a lace frame: the fields of its START block and its data blocks D0, D1, ... -/
structure LaceFrame where
  vc : BitVec 2 := 0
  ftype : BitVec 6 := 0
  len : BitVec 6 := 0
  seq : BitVec 12 := 0
  hop : BitVec 3 := 0
  route : BitVec 24 := 0
  hops : BitVec 3 := 0
  data : List (BitVec 64) := []
deriving DecidableEq, Repr

/-- R503: a block of a lace lane as it is sent, bit 0 first: bits 1:0 the sync header, bits 65:2 the payload. -/
abbrev LaceBlock := BitVec 66

/-- R505, R527: how blocks of a frame arrive: the place in its row (k mod W) of the first, and the lanes that lose
lock within the next 64 blocks (R538). `mem` says that the receive buffer holds an uncorrectable error in what closes
(R703 class 6). -/
structure LaceArrival where
  first : Fin 4 := 0
  lost : BitVec 4 := 0
  mem : Bool := false
deriving DecidableEq, Repr

/-- R505, R527: blocks of a frame as a direction brings them, in the order of its stream. -/
structure LaceBlocks extends LaceArrival where
  blocks : List LaceBlock := []
deriving DecidableEq, Repr

/-- A control block with the link it came on. -/
structure LinkBlock where
  link : Fin 8
  blk : LaceBlock
deriving DecidableEq, Repr

/-- R509: an ALIGN block, and the skew of the locked lanes as it arrives, in ps. -/
structure SkewedBlock where
  blk : LaceBlock
  skew : BitVec 16
deriving DecidableEq, Repr

/-- A virtual channel of a link. -/
structure LinkVc where
  link : Fin 8
  vc : Fin 3
deriving DecidableEq, Repr

/-- R564: an edge of the 1 PPS input: its direction, and its time within the tick in 2^-16 ns. -/
structure PpsEdge where
  falling : Bool
  frac : BitVec 16
deriving DecidableEq, Repr

/-- A PTP message as it is on the wire: the fields of IEEE 1588-2019 that chapter 15 uses.
Times are seconds and nanoseconds; corrections are in units of 2^-16 ns. -/
structure PtpMsg where
  major : BitVec 4 := 2
  minor : BitVec 4 := 1
  mtype : BitVec 4 := 0
  /-- messageLength disagrees with the frame or with the messageType -/
  badLen : Bool := false
  domain : BitVec 8 := 0
  sdo : BitVec 12 := 0
  seq : BitVec 16 := 0
  /-- sourcePortIdentity: clockIdentity and portNumber -/
  clock : BitVec 64 := 0
  port : BitVec 16 := 0
  twoStep : Bool := false
  corr : Int := 0
  sec : BitVec 48 := 0
  ns : BitVec 32 := 0
  /-- requestingPortIdentity (clockIdentity · 2^16 + portNumber) of a response -/
  req : BitVec 80 := 0
  /-- Announce: grandmasterIdentity, clockClass, timeSource, stepsRemoved -/
  gm : BitVec 64 := 0
  cls : BitVec 8 := 248
  timeSource : BitVec 8 := 0xA0
  steps : BitVec 16 := 0
deriving DecidableEq, Repr

/-- R703: an uncorrectable word that scrubbing finds: its class, its unit, its address, and whether it
lies in the state memory of a cobbler (R626). -/
structure ScrubErr where
  cls : Fin 11 := 0
  unit : Nat := 0
  addr : BitVec 32 := 0
  state : Bool := false
deriving DecidableEq, Repr

/-- R680, R683: a mailbox request as it is submitted: its TAG, whether its header and payload have the
form that the service asks for (R684 MALFORMED otherwise), and whether its authentication holds (R680). -/
structure MbReq where
  tag : Word := 0
  wellFormed : Bool := true
  authOk : Bool := false
deriving DecidableEq, Repr

/-- R688: an entry of an envelope library as it is decrypted: its 32-byte header and its data. -/
structure SealEnt where
  hdr : List Byte := []
  data : List Byte := []
deriving DecidableEq, Repr

/-- R733: a step of boot that ends, with what it finds: the level of the TMODE ball; the failed test and
its function (R696; 0 a pass); whether the tag and the signature of the patch slots pass; whether a
cobbler's self-test passes; the failed parts of each plane's self-check. -/
inductive BootStep where
  | tmode (level : Bool)
  | sensors
  | tests (failed : Fin 5) (alg : Fin 7)
  | patch (ok0 ok1 : Bool)
  | selftest (cobbler : Fin 2) (pass : Bool)
  | nvRead
  | planes (f0 f1 : BitVec 2)
deriving DecidableEq, Repr

/-- R156, R394: a decision that another device delivers to this one, as BUILD_DONE is told of it: the device, its
TARGET, the mask of the sequencers it names, the time from S at which it leaves that device's planes in 1/16 ns, and
the earliest window-end tick among its inputs. -/
structure RemoteDecision where
  dev : BitVec 18
  tgt : BitVec 12
  mask : BitVec 64
  sent : BitVec 64
  early : BitVec 64
deriving DecidableEq, Repr

/-- R391: the counts of the speed monitors SM00 to SM31 over their 10 µs window. -/
abbrev SpeedCounts := Vector (BitVec 32) 32

/-- R447: the address space of a host access. -/
inductive HostBar where
  | bar0
  | bar2
  | bar4
deriving DecidableEq, Repr

/-- R447: where a host access goes. -/
structure HostAddr where
  bar : HostBar
  off : BitVec 26
deriving DecidableEq, Repr

/-- R46: a record of source or input `src` asks to enter the 128 KiB outbound buffer, of which `free` bytes are free;
`bad` says that it holds an uncorrectable error on its way out (R703). -/
structure Outbound (n : Nat) where
  src : Fin n
  free : Fin 131073
  bad : Bool
deriving DecidableEq, Repr

/-- R617, R626: an error while the active cobbler works: 0 none, 1 a microword, at a ROM address, 2 its state memory, at
an address of that. -/
structure WorkError where
  err : Fin 3
  at_ : BitVec 16
deriving DecidableEq, Repr

/-- R142: a jump request reaches the welt: its sequencer, and the sample of the tick at which it does. -/
structure JumpArrival where
  sq : Fin 64
  smp : Fin 16
deriving DecidableEq, Repr

/-- R443, R444: a state of the host link (0 L0, 1 L1, 2 L1.1), and whether the host initiates it. -/
structure LinkLow where
  host : Bool
  state : Fin 3
deriving DecidableEq, Repr

/-- The commands. Each docstring line is the row's mnemonic, its rule and its summary. -/
inductive Instr where
  /-- REGISTER_WRITE (R13): Host write to a BAR0 register that has no row of its own; the
    value is checked, clamped and stored in the shadow or the register. -/
  | registerWrite (addr : HostAddr) (size : Fin 9) (data : BitVec 64)
  /-- REGISTER_READ_CLEAR (R13): Host read of a register holding an RC field; it returns the
    value and clears the field to its reset value. -/
  | registerReadClear (addr : HostAddr) (size : Fin 9) (bad : BitVec 2)
  /-- TIME_SNAP (R80): A write of 1 to TIME_SNAP.SNAP latches a coarse stamp of device time
    into TIME_NOW0 to TIME_NOW2. -/
  | timeSnap
  /-- TIME_HZN_WRITE (R80): A write to TIME_HZN takes effect at once and stops or reschedules
    horizon records. -/
  | timeHznWrite (value : Word)
  /-- HORIZON_RECORD (R85): The horizon period expires and a horizon record is posted to every
    context with an event ring. -/
  | horizonRecord
  /-- RECORD_RELEASE (R84): A held record can no longer be preceded by an earlier stamp; it is
    numbered and posted. -/
  | recordRelease (r : Outbound 1024)
  /-- JOB_START (R18): The cobbler picks the next ready job in context order, checks it
    against its last and arms its sequencers. -/
  | jobStart (w : WorkError)
  /-- SHOT_START (R31): The start tick of a shot is reached; generator and tone state is set
    and any late start is counted. -/
  | shotStart
  /-- SHOT_END (R20): All five end conditions of a shot hold at a tick; shot or job boundary
    work begins and the job may end. -/
  | shotEnd
  /-- BOUNDARY_WORK_START (R26): Pending boundary work begins: commit copy, staged
    calibration, VDD_INS step, last put into effect, rung change. -/
  | boundaryWorkStart
  /-- BOUNDARY_WORK_END (R27): Boundary work ends and the start lead of the next shot begins.
    -/
  | boundaryWorkEnd
  /-- OUTPUT_SWITCH_START (R118): At tick S - 200 a terminated enabled channel used by the
    last starts switching to active. -/
  | outputSwitchStart (ch : Fin 224)
  /-- OUTPUT_SWITCH_END (R118): The switch ends by S - 80 and the channel is active, driving
    zero until its first pulse. -/
  | outputSwitchEnd (ch : Fin 224)
  /-- TIME_FIRST_ALIGN (R52): While idle, device time is set to the aligned value in one step,
    leaving domain code 0. -/
  | timeFirstAlign (t : DevTime) (dom : BitVec 2)
  /-- TIME_CORRECT (R53): At a job boundary or idle, device time is corrected by a forward
    step or a hold, and a time-correction record is posted. -/
  | timeCorrect
  /-- TIME_HOLD_END (R53): A hold of device time reaches its tick count and device time runs
    on. -/
  | timeHoldEnd
  /-- REFERENCE_LOSS (R57): The system reference is lost; all outputs take fault mutes, the
    shot is invalid and holdover begins. -/
  | referenceLoss
  /-- REFERENCE_RETURN (R701): After 10 ms of valid reference and synthesizer lock, time lock
    returns, holdover clears and faulted channels are terminated. -/
  | referenceReturn
  /-- WELT_EVENT_ENTER (R68): An event from a sequencer enters its welt queue and is judged on
    time or late. -/
  | weltEventEnter (queue : Fin 288)
  /-- WELT_EVENT_RELEASE (R66): The welt applies an event's action on its target sample: pulse
    start, state change, window open, marker or bias action. -/
  | weltEventRelease (queue : Fin 288) (levels : BitVec 16) (bad : Fin 3) (addr : Word) (off : Nat)
  /-- OUTPUT_OVERCURRENT (R121): An active output stage exceeds its current limit for 20 ns;
    the channel takes a fault mute and enters FAULT. -/
  | outputOvercurrent (ch : Fin 224)
  /-- OUTPUT_FAULT_RETEST (R122): At a job boundary or idle a faulted stage is retested into
    its internal load and becomes terminated if it passes. -/
  | outputFaultRetest (ch : Fin 224) (passes : Bool)
  /-- PLAY (R194): Sequencer issues a PLAY stitch, placing a pulse event of a stored or flat
    envelope. -/
  | play (sq : Fin 64) (bad : Bool)
  /-- STREAM (R196): Sequencer issues a STREAM stitch that plays the next samples of a stream
    as one segment. -/
  | stream (sq : Fin 64) (bad : Bool)
  /-- PHASE_ADD (R93): FRAME stitch that adds a phase to a generator's or tone's frame at its
    target sample. -/
  | phaseAdd (sq : Fin 64) (bad : Bool)
  /-- PHASE_SET (R93): FRAME stitch that sets a frame at its target sample. -/
  | phaseSet (sq : Fin 64) (bad : Bool)
  /-- FREQ_SET (R93): FRAME stitch that sets a frequency at its target sample. -/
  | freqSet (sq : Fin 64) (bad : Bool)
  /-- FREQ_ADD (R93): FRAME stitch that adds a signed value to a frequency at its target
    sample. -/
  | freqAdd (sq : Fin 64) (bad : Bool)
  /-- WAIT_REL (R216): WAIT stitch that advances the cursor by TICKS. -/
  | waitRel (sq : Fin 64) (bad : Bool)
  /-- WAIT_ABS (R216): WAIT stitch that moves the cursor to an absolute tick plus the shot's
    REANCHOR shifts. -/
  | waitAbs (sq : Fin 64) (bad : Bool)
  /-- WAIT_END (R216): WAIT stitch that ends the program for the shot; the sequencer enters
    DONE. -/
  | waitEnd (sq : Fin 64) (bad : Bool)
  /-- MEAS (R202): Sequencer issues a MEAS stitch that opens a readout window on a down-
    conversion tone. -/
  | meas (sq : Fin 64) (bad : Bool)
  /-- MARK (R206): Sequencer issues a MARK stitch placing marker drive, release and compare
    events. -/
  | mark (sq : Fin 64) (bad : Bool)
  /-- BRANCH (R223): Immediate branch: continues at once for COND 0, otherwise waits in
    BRANCH_WAIT for its condition. -/
  | branch (sq : Fin 64) (bad : Bool)
  /-- BRANCH_SEGMENT_END (R140): Segment-end branch issues a fork pair into the generator's
    queue and waits. -/
  | branchSegmentEnd (sq : Fin 64) (bad : Bool)
  /-- LOOP_BEGIN (R219): Loads a loop counter and its start address. -/
  | loopBegin (sq : Fin 64) (bad : Bool)
  /-- LOOP_END (R219): Decrements a loop counter and jumps back, or falls through. -/
  | loopEnd (sq : Fin 64) (bad : Bool)
  /-- SYNC (R159): Sequencer arrives at a SYNC barrier use and waits in SYNC_WAIT. -/
  | sync (sq : Fin 64) (bad : Bool)
  /-- TRIG (R173): TRIG stitch takes a latched trigger or waits in TRIG_WAIT. -/
  | trig (sq : Fin 64) (bad : Bool)
  /-- BIAS_SET_STITCH (R214): BIAS.SET stitch steps a bias output to a code at its target
    tick. -/
  | biasSetStitch (sq : Fin 64) (bad : Bool)
  /-- BIAS_WAVE (R214): BIAS.WAVE stitch starts a stored bias waveform at its target tick. -/
  | biasWave (sq : Fin 64) (bad : Bool)
  /-- BIAS_STOP (R214): BIAS.STOP stitch stops a running waveform and holds its value. -/
  | biasStop (sq : Fin 64) (bad : Bool)
  /-- SEQ_QUEUE_RESUME (R70): A full welt queue frees an entry and the waiting sequencer
    continues issuing. -/
  | seqQueueResume (sq : Fin 64)
  /-- DEADLINE_SIGNAL_SEND (R150): At sample 0 of tick D - 6 the welt sends a branch's
    deadline signal. -/
  | deadlineSignalSend (sq : Fin 64)
  /-- DEADLINE_SIGNAL (R151): The deadline signal reaches the sequencer before the condition;
    the branch's policy acts. -/
  | deadlineSignal (sq : Fin 64)
  /-- TIME_REQUEST (R153): A REANCHOR or latched-trigger time request reaches the welt, which
    answers with T_a. -/
  | timeRequest (sq : Fin 64) (frac : Bool)
  /-- TIME_ANSWER (R153): The welt's answer reaches the sequencer; the cursor is shifted or
    set and the branch or trigger resolves. -/
  | timeAnswer (sq : Fin 64)
  /-- REANCHOR_LIMIT (R155): Tick D + REANCHOR_MAX passes without a condition; the default
    path is taken with OUTCOME 1. -/
  | reanchorLimit (sq : Fin 64)
  /-- JUMP_REQUEST (R142): A jump request reaches the welt; before the segment's last sample
    it switches to the target segment, otherwise it is rejected. -/
  | jumpRequest (j : JumpArrival)
  /-- JUMP_REJECT (R143): The welt's reject reaches the sequencer, which stops and posts a
    deadline miss with OUTCOME 2. -/
  | jumpReject (sq : Fin 64)
  /-- JUMP_POINT_SIGNAL (R143): The jump-point signal reaches the sequencer before the
    condition; the fall-through path is followed. -/
  | jumpPointSignal (sq : Fin 64)
  /-- COMPARE_RESULT (R228): A marker compare result reaches the sequencer and may resolve a
    COND 2 branch. -/
  | compareResult (sq : Fin 64)
  /-- EXTERNAL_EVENT (R229): An edge of a branch's source reaches a listening sequencer and
    resolves the COND 3 branch. -/
  | externalEvent (sq : Fin 64)
  /-- MARKER_EDGE (R171): A rising edge on a marker pin is stamped and delivered as trigger,
    external event or monitor trigger. -/
  | markerEdge (pin : Fin 64)
  /-- TRIGGER_ARRIVE (R172): A trigger reaches a sequencer: it resolves a waiting TRIG, is
    latched, or overruns. -/
  | triggerArrive (sq : Fin 64)
  /-- TRIG_SW (R171): A write of 1 to SEQ_CTL.TRIG_SW delivers a software trigger when
    TRIG_SRC is 26. -/
  | trigSw (sq : Fin 64)
  /-- BARRIER_RELEASE (R160): All participants have arrived; each participant's cursor is set
    to the release cursor. -/
  | barrierRelease (bar : Fin 64)
  /-- SYNC_TIMEOUT (R164): A participant waits SYNC_TIMEOUT at a barrier and stops with a SYNC
    timeout record. -/
  | syncTimeout (sq : Fin 64)
  /-- STREAM_DATA_ARRIVE (R166): Stream data read from host memory arrives in the stream
    buffer. -/
  | streamDataArrive (q : Fin 4) (strm : Fin 16) (data : List Byte)
  /-- STREAM_UNDERRUN (R168): A streamed segment's on-time limit passes with its data
    incomplete; the segment does not start and the sequencer stops. -/
  | streamUnderrun (queue : Fin 288)
  /-- ADC_OVERRANGE (R241): An ADC sample reaches a code limit; OVR_CNT increments and the
    first overrange of the shot is recorded. -/
  | adcOverrange (inp : Fin 32) (k : Fin 8)
  /-- WINDOW_END (R263): A readout window closes; point, discrimination, drift update, token
    and result record are produced or handed to the processor. -/
  | windowEnd (q : Fin 4) (t : Fin 128) (codes : List (BitVec 12)) (kerr : Option Word)
  /-- TRACK_RESET (R257): A write of 1 to KS_TRKCTL.RESET resets a kernel set's tracking
    history at once. -/
  | trackReset (q : Fin 4) (ks : Fin 1024)
  /-- CAPTURE_RECORD_COMPLETE (R272): A capture record buffer completes; it is queued or
    dropped when the other buffer still waits. -/
  | captureRecordComplete (inp : Fin 32) (first : Nat) (codes : List (BitVec 12)) (closed : Bool)
  /-- CAPTURE_RECORD_OUTBOUND (R491): A waiting capture record finds ring and outbound space
    and enters the outbound path. -/
  | captureRecordOutbound (r : Outbound 32)
  /-- WAITIN_WAKE (R288): A packet enters the queue of a processor waiting in WAITIN, which
    takes it. -/
  | waitinWake (k : Fin 16)
  /-- DSP_BUDGET_OVERRUN (R290): A packet's handshakes pass BOUND; OVR_CNT increments, a
    record is posted and a void token may be sent. -/
  | dspBudgetOverrun (k : Fin 16)
  /-- MOVE (R299): M-class instruction that makes the parallel X and Y moves only. -/
  | dspMove (k : Fin 16) (bad : BitVec 3)
  /-- CMUL (R299): Complex multiply into A0 and A1. -/
  | cmul (k : Fin 16) (bad : BitVec 3)
  /-- CMAC (R299): Complex multiply-accumulate into A0 and A1. -/
  | cmac (k : Fin 16) (bad : BitVec 3)
  /-- CMACJ (R299): Complex multiply-accumulate with the second operand conjugated. -/
  | cmacj (k : Fin 16) (bad : BitVec 3)
  /-- CMSU (R299): Complex multiply-subtract from A0 and A1. -/
  | cmsu (k : Fin 16) (bad : BitVec 3)
  /-- DMAC (R299): Dual real multiply-accumulate of I and Q parts. -/
  | dmac (k : Fin 16) (bad : BitVec 3)
  /-- DMUL (R299): Dual real multiply of I and Q parts. -/
  | dmul (k : Fin 16) (bad : BitVec 3)
  /-- ADD (R299): G-register add. -/
  | dspAdd (k : Fin 16) (bad : BitVec 3)
  /-- SUB (R299): G-register subtract. -/
  | dspSub (k : Fin 16) (bad : BitVec 3)
  /-- AND (R299): G-register bitwise AND. -/
  | dspAnd (k : Fin 16) (bad : BitVec 3)
  /-- OR (R299): G-register bitwise OR. -/
  | dspOr (k : Fin 16) (bad : BitVec 3)
  /-- XOR (R299): G-register bitwise exclusive OR. -/
  | dspXor (k : Fin 16) (bad : BitVec 3)
  /-- ADDI (R299): Add a signed immediate to a G register. -/
  | addi (k : Fin 16) (bad : BitVec 3)
  /-- LDI (R299): Load a sign-extended immediate into a G register. -/
  | ldi (k : Fin 16) (bad : BitVec 3)
  /-- LDIH (R299): Load an immediate into the upper half of a G register. -/
  | ldih (k : Fin 16) (bad : BitVec 3)
  /-- SHL (R299): Shift a G register left. -/
  | shl (k : Fin 16) (bad : BitVec 3)
  /-- ASR (R299): Shift a G register right arithmetically. -/
  | asr (k : Fin 16) (bad : BitVec 3)
  /-- CMP (R299): Set flags from a subtraction without writing a result. -/
  | cmp (k : Fin 16) (bad : BitVec 3)
  /-- GETA (R303): Pack the shifted, saturated accumulators into a G register and update BLK.
    -/
  | geta (k : Fin 16) (bad : BitVec 3)
  /-- LDA (R299): Load the accumulators from the halves of a G register, shifted. -/
  | lda (k : Fin 16) (bad : BitVec 3)
  /-- CLRA (R299): Clear both accumulators. -/
  | clra (k : Fin 16) (bad : BitVec 3)
  /-- MOVS (R291): Read a special register into a G register. -/
  | movs (k : Fin 16) (bad : BitVec 3)
  /-- MOVT (R291): Write a special register from a G register. -/
  | movt (k : Fin 16) (bad : BitVec 3)
  /-- MAG2 (R299): Squared magnitude of a complex G register. -/
  | mag2 (k : Fin 16) (bad : BitVec 3)
  /-- UMOV (R299): Copy a G register into an operand register. -/
  | umov (k : Fin 16) (bad : BitVec 3)
  /-- GMOV (R299): Copy an operand register into a G register. -/
  | gmov (k : Fin 16) (bad : BitVec 3)
  /-- LD (R292): Load a G register from memory through a pointer and modify the pointer. -/
  | dspLd (k : Fin 16) (bad : BitVec 3)
  /-- ST (R292): Store a G register to memory through a pointer and modify the pointer. -/
  | dspSt (k : Fin 16) (bad : BitVec 3)
  /-- SETP (R294): Set an address pointer. -/
  | setp (k : Fin 16) (bad : BitVec 3)
  /-- SETS (R294): Set a pointer step. -/
  | sets (k : Fin 16) (bad : BitVec 3)
  /-- SETRB (R294): Set a ring base. -/
  | setrb (k : Fin 16) (bad : BitVec 3)
  /-- SETRL (R293): Set a pending ring length effective at the next repeat boundary. -/
  | setrl (k : Fin 16) (bad : BitVec 3)
  /-- MOVP (R299): Set a pointer from a G register. -/
  | movp (k : Fin 16) (bad : BitVec 3)
  /-- DSP_NOP (R299): Processor no-operation. -/
  | dspNop (k : Fin 16) (bad : BitVec 3)
  /-- REP (R295): Start a hardware block repeat with an immediate count. -/
  | rep (k : Fin 16) (bad : BitVec 3)
  /-- REPG (R295): Start a hardware block repeat with a count from a G register. -/
  | repg (k : Fin 16) (bad : BitVec 3)
  /-- JMP (R296): Unconditional jump, ending repeat levels it leaves. -/
  | jmp (k : Fin 16) (bad : BitVec 3)
  /-- JCC (R299): Conditional jump on a flag or packet-queue condition. -/
  | jcc (k : Fin 16) (bad : BitVec 3)
  /-- WAITIN (R288): Release the previous packet, with a void token if owed, and take the next
    packet or wait. -/
  | waitin (k : Fin 16) (bad : BitVec 3)
  /-- TOKEN (R304): Send a token built from a G register and the packet tag to both planes. -/
  | dspToken (k : Fin 16) (bad : BitVec 3)
  /-- RECORD (R305): Post a window result record or a processor record. -/
  | dspRecord (k : Fin 16) (bad : BitVec 3)
  /-- DSP_END (R299): The processor enters STOPPED until the job ends. -/
  | dspEnd (k : Fin 16) (bad : BitVec 3)
  /-- PLANE_TOKEN (R321): A token reaches a decision plane and is routed: discarded,
    forwarded, or entered in a LUT or parity slot. -/
  | planeToken (dp : Fin 2) (tgt : BitVec 12) (bad : Fin 3) (addr : Word)
  /-- DECISION_RECEIVE (R333): A decision copy reaches a sequencer receive port and is
    accepted into the condition store or discarded as a duplicate. -/
  | decisionReceive (sq : Fin 64) (origin : Bool) (bad : Bool)
  /-- INTERLOCK_COMMAND (R342): The owner's side-effect command reaches the interlock unit and
    is performed unless its key is done. -/
  | interlockCommand
  /-- EMUTE_RELEASE (R331): A write of 1 to a DP_EMUTE bit releases an emergency mute group.
    -/
  | emuteRelease (mask : BitVec 16)
  /-- EMUTE_SW (R331): A write of 1 to a DP_EMUTE_SW bit asserts an emergency mute group. -/
  | emuteSw (mask : BitVec 16)
  /-- SELFCHK (R337): A write of 1 to DP_CTL.SELFCHK starts a self-check of both planes. -/
  | selfchk
  /-- SELFCHECK_END (R339): A self-check ends; failing planes are quarantined or SUSPECT is
    set. -/
  | selfcheckEnd (which : Fin 3) (f0 : BitVec 2) (f1 : BitVec 2)
  /-- HEARTBEAT_PULSE (R344): A plane's path-1 pulse at its scheduled tick reaches its peer.
    -/
  | heartbeatPulse (src : Fin 2)
  /-- BEAT_MESSAGE (R344): A plane's path-2 beat message reaches its peer. -/
  | beatMessage (src : Fin 2)
  /-- HEARTBEAT_INTERVAL_END (R345): A peer beat interval ends; M1 and M2 are judged and path
    faults or a peer declaration follow. -/
  | heartbeatIntervalEnd (dp : Fin 2) (path2 : Bool)
  /-- OWNER_REFRESH (R347): The owner refreshes the interlock unit every 100 ns. -/
  | ownerRefresh
  /-- TAKE (R347): A TAKE reaches the interlock unit and is granted or refused; on grant
    pending commands are replayed. -/
  | take (src : Fin 2)
  /-- HANDOVER (R349): A write of 1 to DP_CTL.HANDOVER requests a handover at the next job
    boundary or idle. -/
  | handover
  /-- HANDOVER_EXECUTE (R349): At the job boundary or idle the owner releases the line and the
    standby is granted it. -/
  | handoverExecute
  /-- PLANE_LINK_LOSS (R351): Loss of the plane-to-plane link is detected and recorded. -/
  | planeLinkLoss
  /-- PLANE_LINK_RETRAIN (R351): Every 1 ms a down plane link is retrained. -/
  | planeLinkRetrain
  /-- DP_REPAIR (R352): A write of 1 to DP_CTL.REPAIR requests repair of a quarantined plane.
    -/
  | dpRepair
  /-- PLANE_REPAIR (R352): At a job boundary or idle a quarantined plane reloads, self-checks
    and copies dynamic state. -/
  | planeRepair (dp : Fin 2)
  /-- RESYNC_POINT (R353): At the resync point the repaired plane takes the change set,
    catches up and becomes STANDBY. -/
  | resyncPoint (dp : Fin 2)
  /-- SYNDROME_TOKEN (R366): A syndrome token reaches the decoder and is placed in its round
    or discarded. -/
  | syndromeToken (dp : Fin 2) (tgt : BitVec 12) (bad : Fin 3) (addr : Word)
  /-- ROUND_CLOSE (R367): A round closes when all LOCAL tokens are held or ROUND_WAIT expires;
    missing nodes are erased and boundary frames are sent. -/
  | roundClose (dp : Fin 2)
  /-- DECODE (R369): With the round closed and remote nodes known, the tiles decode the
    window. -/
  | decode (dp : Fin 2)
  /-- DECODE_OUTPUT (R376): A decode completes and both planes send its correction token and
    records. -/
  | decodeOutput (dp : Fin 2)
  /-- REMOTE_WAIT_EXPIRY (R373): A peer's boundary frame is missing REMOTE_WAIT after the
    round; its REMOTE nodes are erased. -/
  | remoteWaitExpiry (dp : Fin 2) (peer : Fin 8)
  /-- BUILD_DONE (R385): A placement build ends; the report is written and the PLACE
    completion is posted. -/
  | buildDone (remote : List RemoteDecision := [])
  /-- PEER_WAIT_EXPIRY (R400): A peer summary does not arrive within PEER_WAIT and the build
    fails with PEER. -/
  | peerWaitExpiry (peer : BitVec 18)
  /-- SLOWNESS_SAMPLE (R392): Every 1 ms the speed monitors are sampled and lasts may become
    stale. -/
  | slownessSample (counts : SpeedCounts)
  /-- REPROOF (R404): A throttle step asks the placement engine to re-prove the live last at a
    lower voltage. -/
  | reproof
  /-- REPROOF_DONE (R404): The re-proof answers pass or fail and a re-proof record is posted.
    -/
  | reproofDone (slow : BitVec 16)
  /-- FF_CLR (R417): A write of 1 to FF_CTL.CLR presets the flux chain state at the next
    boundary. -/
  | ffClr (k : Fin 64)
  /-- BIAS_WAVE_POINT (R424): A waveform point period expires and the next point is applied.
    -/
  | biasWavePoint (k : Fin 256) (bad : Bool)
  /-- RANGE_SEQUENCE (R427): A committed range change starts its ramp-to-zero, hold and ramp
    sequence. -/
  | rangeSequence (k : Fin 256)
  /-- RANGE_HOLD_END (R427): The 20 us zero hold ends and the ramp to the new code starts. -/
  | rangeHoldEnd (k : Fin 256)
  /-- RAMP_DONE (R428): A bias ramp reaches its target code; a range sequence may end with a
    record. -/
  | rampDone (k : Fin 256)
  /-- BIAS_COMPLIANCE (R430): Compliance onset holds for 2 us and its action is taken. -/
  | biasCompliance (k : Fin 256)
  /-- BIAS_COMPLIANCE_CLEAR (R430): Compliance clears after 10 us below threshold. -/
  | biasComplianceClear (k : Fin 256)
  /-- BIAS_OPEN_LOAD (R430): Open-load onset holds for 10 us and its action is taken. -/
  | biasOpenLoad (k : Fin 256)
  /-- BIAS_REARM (R433): A write of 1 to BIA_CTL.REARM returns a HELD or FAULT channel to
    NORMAL. -/
  | biasRearm (k : Fin 256)
  /-- BIAS_NV_SAVE (R436): A write of 1 to BIAS_NVCTL.SAVE stores the NV bias record. -/
  | biasNvSave
  /-- NV_WRITE_DONE (R671): An NV record write completes to its slot and an NV write record is
    posted. -/
  | nvWriteDone (what : Fin 3)
  /-- FUNCTION_LEVEL_RESET (R446): A Function Level Reset acts as a host-interface reset. -/
  | functionLevelReset
  /-- D3HOT_ENTRY (R445): The function enters D3hot; a running job ends at its next shot
    boundary. -/
  | d3hotEntry
  /-- D0_RETURN (R445): The function returns to D0 and held completions are posted. -/
  | d0Return
  /-- LINK_STATE_CHANGE (R444): The PCI Express link enters or leaves a low-power state or
    retrains. -/
  | linkStateChange (low : LinkLow) (flit : Bool) (rate : Fin 7) (width : Fin 17) (l0p : Fin 17)
  /-- HOST_INTERFACE_RESET (R450): GLB_RESET KIND 1 with the key stops contexts and resets
    CTX, EVT and PCIE. -/
  | hostInterfaceReset
  /-- DEVICE_RESET (R450): GLB_RESET KIND 2 with the key resets the device and runs boot. -/
  | deviceReset
  /-- COMMIT (R453): A write of 1 to CFG_COMMIT.COMMIT requests a commit and sets PENDING. -/
  | commit
  /-- DISCARD (R455): A write of 1 to CFG_COMMIT.DISCARD cancels a pending commit and restores
    shadows. -/
  | discard
  /-- VECTOR_HOLDOFF_END (R468): A vector's holdoff ends and one held MSI-X message is sent.
    -/
  | vectorHoldoffEnd (v : Fin 256)
  /-- MSIX_UNMASK (R468): A masked vector with its PBA bit set is unmasked and sends one
    message. -/
  | msixUnmask (v : Fin 256) (func : Bool)
  /-- DOORBELL_SUB_TAIL (R476): A SUB_TAIL doorbell hands the device new submission entries.
    -/
  | doorbellSubTail (c : Fin 1024) (v : Word)
  /-- DOORBELL_CPL_HEAD (R476): A CPL_HEAD doorbell returns completion entries. -/
  | doorbellCplHead (c : Fin 1024) (v : Word)
  /-- DOORBELL_RES_HEAD (R476): A RES_HEAD doorbell returns result entries. -/
  | doorbellResHead (c : Fin 1024) (v : Word)
  /-- DOORBELL_EVT_HEAD (R476): An EVT_HEAD doorbell returns event entries. -/
  | doorbellEvtHead (c : Fin 1024) (v : Word)
  /-- DOORBELL_CAP_HEAD (R476): A CAP_HEAD doorbell returns capture entries. -/
  | doorbellCapHead (c : Fin 1024) (v : Word)
  /-- SUBMISSION_FETCH (R479): With completion space available, the cobbler issues the read of
    the next submission entry. -/
  | submissionFetch (c : Fin 1024) (w : WorkError)
  /-- HOST_READ_COMPLETION (R494): Data of a host memory read arrives for a submission entry,
    load, image or stream. -/
  | hostReadCompletion (r : ReadFor) (data : List Byte)
  /-- HOST_READ_FAILURE (R494): A host read fails; it is retried or the descriptor completes
    with HOST_FAULT, and a host error record is posted. -/
  | hostReadFailure (r : ReadFor) (cause : Fin 5) (addr : BitVec 64)
  /-- CTX_PAUSE (R475): A write to CTX_CTL.PAUSE stops fetching and returns unstarted
    descriptors. -/
  | ctxPause (c : Fin 1024) (pause : Bool)
  /-- CTX_ABORT (R489): A write of 1 to CTX_CTL.ABORT ends the context's job at its next shot
    boundary. -/
  | ctxAbort (c : Fin 1024)
  /-- CTX_RELEASE (R502): A write of 1 to CTX_CTL.RELEASE ends a quarantine. -/
  | ctxRelease (c : Fin 1024)
  /-- NOP (R483): NOP descriptor completes as soon as it starts. -/
  | nop (c : Fin 1024) (idx : BitVec 16)
  /-- LOAD_PROGRAM (R185): Descriptor that checks and writes sequencer, processor instruction,
    X or Y memory. -/
  | loadProgram (c : Fin 1024) (idx : BitVec 16) (bad : Bool)
  /-- LOAD_ENVELOPE (R101): Descriptor that writes an envelope table entry and its data. -/
  | loadEnvelope (c : Fin 1024) (idx : BitVec 16) (bad : Bool)
  /-- LOAD_DECODER (R361): Descriptor that checks and loads a matching graph into both planes.
    -/
  | loadDecoder (c : Fin 1024) (idx : BitVec 16) (bad : Bool)
  /-- PLACE (R382): Descriptor that starts a placement build of a last. -/
  | place (c : Fin 1024) (idx : BitVec 16) (counts : SpeedCounts)
  /-- RUN (R484): Descriptor that is checked against its last and becomes a ready job. -/
  | run (c : Fin 1024) (idx : BitVec 16)
  /-- CAPTURE (R267): Descriptor that is checked and becomes a ready job with capture enabled
    on named inputs. -/
  | capture (c : Fin 1024) (idx : BitVec 16)
  /-- CALIBRATE (R640): Descriptor that runs a calibration of a target and stages results. -/
  | calibrate (c : Fin 1024) (idx : BitVec 16)
  /-- BIAS_SET (R423): Descriptor that steps bias outputs or loads bias waveform points. -/
  | biasSet (c : Fin 1024) (idx : BitVec 16) (bad : Bool)
  /-- STREAM_BIND (R166): Descriptor that binds or unbinds a host memory window to a stream.
    -/
  | streamBind (c : Fin 1024) (idx : BitVec 16)
  /-- QUERY (R485): Descriptor that writes device memory contents or a report to host memory.
    -/
  | query (c : Fin 1024) (idx : BitVec 16)
  /-- FENCE (R480): Descriptor that completes once every earlier descriptor's completion is
    posted. -/
  | fence (c : Fin 1024) (idx : BitVec 16)
  /-- LOAD_DEFERRED_APPLY (R740): A load into a region of the running job waits until the job
    boundary or idle, then reads, checks, writes and completes. -/
  | loadDeferredApply (c : Fin 1024) (idx : BitVec 16)
  /-- LANE_SIGNAL_GAIN (R513): A receive lane gains signal during a wait or ABSENT and
    training attempt 1 starts. -/
  | laneSignalGain (l : Fin 8) (lane : Fin 4)
  /-- LANE_LOCK (R507): A receive lane locks after 64 consecutive valid headers. -/
  | laneLock (l : Fin 8) (lane : Fin 4)
  /-- LANE_LOCK_LOSS (R517): A lane loses lock; a WIDTH block is sent and the width narrows,
    or the link goes down. -/
  | laneLockLoss (l : Fin 8) (lane : Fin 4)
  /-- TRAINING_ATTEMPT (R509): A training attempt starts, sending TRAIN blocks on all lanes.
    -/
  | trainingAttempt (l : Fin 8) (sig : BitVec 4)
  /-- TRAIN_BLOCK (R510): A TRAIN block is received; lane mapping, checks and READY counts
    advance until the link is UP. -/
  | trainBlock (l : Fin 8) (lane : Fin 4) (b : LaceBlock) (drift : BitVec 16)
  /-- ALIGN_BLOCK (R509): An ALIGN row is received and used for deskew. -/
  | alignBlock (l : Fin 8) (b : SkewedBlock)
  /-- TRAINING_TIMEOUT (R511): A training attempt fails at 10 ms or on loss of all signal. -/
  | trainingTimeout (l : Fin 8) (sig : BitVec 4)
  /-- TRAINING_BACKOFF_END (R512): The backoff wait ends and the next attempt starts. -/
  | trainingBackoffEnd (l : Fin 8)
  /-- LANE_RETRAIN (R518): Every 10 ms an unlocked lane retrains on its own. -/
  | laneRetrain (l : Fin 8) (lane : Fin 4)
  /-- WIDTH_BLOCK (R517): A WIDTH block is received; the transmitter changes width from the
    next row. -/
  | widthBlock (l : Fin 8) (b : LaceBlock)
  /-- LC_RETRAIN (R513): A write of 1 to LC_CTL.RETRAIN takes the link down and starts attempt
    1. -/
  | lcRetrain (l : Fin 8)
  /-- LC_RELEASE (R539): A write of 1 to LC_CTL.RELEASE ends a lace quarantine hold. -/
  | lcRelease (l : Fin 8)
  /-- LACE_QUARANTINE_END (R539): The QHOLD of a quarantined partner expires and attempt 1
    starts. -/
  | laceQuarantineEnd (l : Fin 8)
  /-- IDLE_ENTRY (R520): A link direction is quiet for IDLE_AFTER and enters electrical idle.
    -/
  | idleEntry (l : Fin 8)
  /-- EIDLE_BLOCK (R521): An EIDLE row is received and the receiver keeps alignment while the
    partner idles. -/
  | eidleBlock (b : LinkBlock)
  /-- IDLE_EXIT (R522): A frame queued for an idle direction starts the exit with 32 TRAIN
    rows. -/
  | idleExit (l : Fin 8)
  /-- IDLE_EXIT_TIMEOUT (R522): The receiver has not locked 200 ns after exit began and the
    link goes down. -/
  | idleExitTimeout (l : Fin 8)
  /-- ACK (R529): A LINKCTL acknowledge accepts frames up to SEQ and returns credits. -/
  | ack (l : Fin 8) (hdr : BitVec 2) (typ : BitVec 8) (body : BitVec 56)
  /-- NAK (R530): A LINKCTL negative acknowledge causes resend from SEQ. -/
  | nak (l : Fin 8) (hdr : BitVec 2) (typ : BitVec 8) (body : BitVec 56) (bad : Bool)
  /-- RESEND_TIMEOUT (R530): No acknowledge 2 us after sending; unacknowledged frames are
    resent or the link goes down. -/
  | resendTimeout (v : LinkVc) (bad : Bool)
  /-- DECISION_FRAME (R534): A DECISION frame is received and delivered to the named
    sequencers. -/
  | decisionFrame (l : Fin 8) (blocks : List LaceBlock) (a : LaceArrival)
  /-- TRIGGER_FRAME (R534): A TRIGGER frame is received and delivered to named sequencers with
    TRIG_SRC 25. -/
  | triggerFrame (l : Fin 8) (blocks : List LaceBlock) (a : LaceArrival)
  /-- BARRIER_FRAME (R162): A BARRIER frame of a cross-device barrier is received and held. -/
  | barrierFrame (l : Fin 8) (blocks : List LaceBlock) (a : LaceArrival)
  /-- BOUNDARY_FRAME (R373): A decoder BOUNDARY frame is received; the first copy per peer,
    shot and round is kept. -/
  | boundaryFrame (l : Fin 8) (blocks : List LaceBlock) (a : LaceArrival)
  /-- PROBE (R536): A PROBE is received; it is answered with REPLY or forwarded. -/
  | probe (l : Fin 8) (blocks : List LaceBlock) (a : LaceArrival)
  /-- REPLY (R536): A REPLY reaches the probe origin, which keeps the shortest route. -/
  | reply (l : Fin 8) (blocks : List LaceBlock) (a : LaceArrival)
  /-- TEST_FRAME (R702): A TEST frame is received in Diagnostic mode and checked against
    PRBS31. -/
  | testFrame (l : Fin 8) (blocks : List LaceBlock) (a : LaceArrival) (biterr : Word)
  /-- SUMMARY (R400): A peer's placement SUMMARY is received and region ownership is decided.
    -/
  | summary (l : Fin 8) (blocks : List LaceBlock) (a : LaceArrival)
  /-- REJECT (R537): A REJECT frame from the partner is received. -/
  | reject (l : Fin 8) (blocks : List LaceBlock) (a : LaceArrival)
  /-- TIME_FRAME (R533): A TIME frame is received, giving the partner's whole seconds. -/
  | timeFrame (l : Fin 8) (blocks : List LaceBlock) (a : LaceArrival)
  /-- TIME_FRAME_SEND (R533): Every 1 ms a TIME frame is sent on each UP link. -/
  | timeFrameSend (l : Fin 8)
  /-- BEACON_SEND (R540): At each 1,000 ns tick BCN0 and BCN1 are sent and BCN0 departure is
    stamped. -/
  | beaconSend (l : Fin 8) (dep : BitVec 18)
  /-- BCN0 (R540): A BCN0 beacon is received and stamped at arrival. -/
  | bcn0 (l : Fin 8) (hdr : BitVec 2) (payload : BitVec 64) (arr : BitVec 16)
  /-- BCN1 (R541): A BCN1 beacon is received; offset and delay are computed and rank is
    updated. -/
  | bcn1 (l : Fin 8) (hdr : BitVec 2) (typ : BitVec 8) (d : BitVec 32) (rest : BitVec 24)
  /-- LACE_TIME_ALIGN (R543): At a job boundary or idle a following device corrects device
    time to its followed link or chooses a new link. -/
  | laceTimeAlign
  /-- LACE_ID_NVSAVE (R547): A write of 1 to LACE_ID.NVSAVE stores the identifier in NV. -/
  | laceIdNvsave
  /-- PTP_SYNC (R556): A Sync message is received and stamped, forming an offset sample or
    being forwarded. -/
  | ptpSync (n : Fin 2) (m : PtpMsg) (frac : BitVec 16) (res : Word)
  /-- FOLLOW_UP (R554): A Follow_Up is received and completes a two-step Sync sample. -/
  | followUp (n : Fin 2) (m : PtpMsg)
  /-- DELAY_REQ (R551): A Delay_Req is received and answered by a MASTER port. -/
  | delayReq (n : Fin 2) (m : PtpMsg) (frac : BitVec 16) (res : Word)
  /-- DELAY_RESP (R556): A Delay_Resp is received and updates the path delay. -/
  | delayResp (n : Fin 2) (m : PtpMsg)
  /-- PDELAY_REQ (R551): A Pdelay_Req is received and answered. -/
  | pdelayReq (n : Fin 2) (m : PtpMsg) (frac : BitVec 16) (turn : Word)
  /-- PDELAY_RESP (R554): A Pdelay_Resp is received for a peer delay measurement. -/
  | pdelayResp (n : Fin 2) (m : PtpMsg) (frac : BitVec 16)
  /-- PDELAY_RESP_FOLLOW_UP (R554): A Pdelay_Resp_Follow_Up is received and completes a peer
    delay measurement. -/
  | pdelayRespFollowUp (n : Fin 2) (m : PtpMsg)
  /-- ANNOUNCE (R551): An Announce is received and selects or keeps a master. -/
  | announce (n : Fin 2) (m : PtpMsg)
  /-- PTP_IGNORED_MESSAGE (R550): A non-PTP, tagged, bad-FCS, unconfigured, management or
    signaling frame is dropped or ignored and counted. -/
  | ptpIgnoredMessage (n : Fin 2) (drop : Bool)
  /-- SYNC_SEND (R551): A MASTER port sends Sync at the sync interval, with Follow_Up when
    two-step. -/
  | syncSend (n : Fin 2) (d : Fin 2) (frac : BitVec 16)
  /-- ANNOUNCE_SEND (R551): A MASTER port sends Announce at the announce interval. -/
  | announceSend (n : Fin 2) (d : Fin 2)
  /-- DELAY_REQ_SEND (R551): A SLAVE port sends Delay_Req or Pdelay_Req at the LOG_DREQ
    interval. -/
  | delayReqSend (n : Fin 2) (d : Fin 2) (frac : BitVec 16)
  /-- MEMBERSHIP_REPORT (R550): Every 60 s, and at link up, IGMPv3 or MLDv2 membership reports
    are sent. -/
  | membershipReport (n : Fin 2)
  /-- ANNOUNCE_TIMEOUT (R551): Three announce intervals pass without Announce and the selected
    master is lost. -/
  | announceTimeout (n : Fin 2) (d : Fin 2)
  /-- DOMAIN_LOST (R560): Three sync intervals pass without Sync and the domain becomes LOST.
    -/
  | domainLost (d : Fin 2)
  /-- DOMAIN_SWITCH (R561): At a job boundary or idle with the new domain READY, the active
    domain switches and its estimate is applied. -/
  | domainSwitch
  /-- PTP_QUARANTINE_END (R571): A quarantined PTP peer's QHOLD expires. -/
  | ptpQuarantineEnd (n : Fin 2) (peer : BitVec 80)
  /-- PPS_EDGE (R564): A 1 PPS edge is stamped and used for monitoring or phase samples. -/
  | ppsEdge (e : PpsEdge)
  /-- PPS_MISSING (R565): No edge is accepted for 1.5 s and a PPS record is posted. -/
  | ppsMissing
  /-- TIMER_ARM (R567): A write of 1 to TMR_CTL.ARM latches and arms a pulse timer. -/
  | timerArm (n : Fin 8)
  /-- TIMER_DISARM (R572): A write of 0 to TMR_CTL.ARM disarms a pulse timer. -/
  | timerDisarm (n : Fin 8)
  /-- TIMER_FIRE (R566): A timer's fire time is reached; it raises its trigger source and
    drives its pin. -/
  | timerFire (n : Fin 8)
  /-- TIMER_PULSE_END (R566): A timer pin's WID expires and the pin returns to its inactive
    level. -/
  | timerPulseEnd (n : Fin 8)
  /-- AWL_EDGE (R577): An edge on an awl input is accepted or ignored, interpolated, stamped
    and reported or paired. -/
  | awlEdge (k : Fin 32) (falling : Bool) (ref : Fin 16) (n : BitVec 8) (n1 : BitVec 8) (n2 : BitVec 8)
  /-- AWL_GATE_END (R584): A FREQ gate ends and a frequency record is computed and posted. -/
  | awlGateEnd (k : Fin 32)
  /-- SCAN_PASS_START (R600): The scan period expires and a regular scan pass starts. -/
  | scanPassStart
  /-- MON_MODULATOR_START (R598): Multiplexer settling and start-up delay end and the
    modulator run starts. -/
  | monModulatorStart
  /-- MON_CONVERSION_END (R596): A monitor conversion's filter time ends; the result is
    written, checked and posted. -/
  | monConversionEnd (v : Int)
  /-- MON_INJ_GO (R603): A write with MON_INJ.GO set triggers an injected conversion. -/
  | monInjGo (value : Word)
  /-- COBBLER_INTERRUPT (R624): An interrupt is taken at a macro-instruction boundary,
    abandoning an uncommitted routine. -/
  | cobblerInterrupt (abandon : Bool)
  /-- COBBLER_WATCHDOG (R626): The active cobbler's watchdog expires and the standby takes
    over. -/
  | cobblerWatchdog
  /-- SWITCHOVER_RESUME (R629): The new active cobbler has loaded its image and reconciles
    descriptors and boundary items. -/
  | switchoverResume
  /-- STATE_SAVE (R628): In cold mode the active cobbler saves its state image at a job
    boundary or on the idle period. -/
  | stateSave
  /-- WARM_SYNC_DONE (R631): The first full state copy to a warm standby ends and SYNC reads
    1. -/
  | warmSyncDone
  /-- ENG_REPAIR (R633): A write of 1 to ENG_CTL.REPAIR requests the restart of a FAILED
    cobbler. -/
  | engRepair
  /-- COBBLER_REPAIR (R633): At a job boundary or idle a FAILED cobbler restarts, loads its
    patch and self-tests. -/
  | cobblerRepair
  /-- COBBLER_REPAIR_DONE (R633): The restarted cobbler's self-test ends; it becomes standby
    or stays FAILED. -/
  | cobblerRepairDone (ok0 : Bool) (ok1 : Bool) (pass : Bool)
  /-- CAL_STEP_START (R642): A calibration step starts on its unit when the unit is free or a
    boundary allows it. -/
  | calStepStart
  /-- CAL_STEP_END (R639): A calibration step ends; the unit's taps are staged or it fails,
    and a unit result is posted. -/
  | calStepEnd (vals : List Int)
  /-- CAL_SAVE (R646): A write of 1 to CAL_CTL.SAVE stores the live taps in NV. -/
  | calSave
  /-- SCRUB_PASS (R648): A scrubbing pass starts every 10 s, or at the end of an overrunning
    pass. -/
  | scrubPass (errs : List ScrubErr)
  /-- SCRUB_PASS_END (R648): A scrubbing pass ends and a scrub pass record is posted. -/
  | scrubPassEnd (ce : List (Fin 11 × Word))
  /-- TELEMETRY (R650): The telemetry period expires and a telemetry record is queued. -/
  | telemetry
  /-- RUNG_REQUEST (R654): A write to PWR_CTL.RUNG requests a power rung. -/
  | rungRequest (value : Word)
  /-- RUNG_CHANGE (R654): At a job boundary or idle, or on AUTO_WAKE, the device moves to the
    requested rung. -/
  | rungChange
  /-- SENSOR_SAMPLE (R658): A temperature sensor is sampled; broken checks, effective values
    and thresholds are evaluated. -/
  | sensorSample (k : Fin 68) (raw : BitVec 12)
  /-- ORDERLY_STOP_TIMEOUT (R670): At t0 + 1 ms a running shot is muted and stopped; by t0 + 2
    ms the device is at Rest in Safe. -/
  | orderlyStopTimeout
  /-- HARDWARE_CUT (R663): An analog comparator trips at 115 C and the latched hardware cut
    mutes and stops the device. -/
  | hardwareCut (tile : Fin 17)
  /-- THROTTLE_RISE (R664): Throttling starts or 10 ms pass while throttling; L rises and the
    next action may be taken. -/
  | throttleRise (p : BitVec 16)
  /-- THROTTLE_MEASURE_END (R665): The 1 ms power measurement after an action ends, recording
    its drop. -/
  | throttleMeasureEnd (p : BitVec 16)
  /-- THROTTLE_RELEASE_STEP (R667): A release step lowers L and may undo the most recent
    action. -/
  | throttleReleaseStep (p : BitVec 16)
  /-- CORE_RAIL_LOW (R709): VDD_INS, VDD_QD or a SerDes rail is below range for 10 us; an
    orderly stop with cause 3 follows. -/
  | coreRailLow (rail : Fin 3) (mv : BitVec 16)
  /-- RF_RAIL_FAULT (R709): A quarter's VDD_RF rail leaves its range for 2 us; its RF and flux
    outputs take fault mutes. -/
  | rfRailFault (q : Fin 4)
  /-- VBIAS_FAULT (R709): VBIAS_P or VBIAS_N leaves its range for 2 us; every bias output is
    made SAFE. -/
  | vbiasFault
  /-- RAIL_RECOVER (R122): A faulted rail returns to range and affected channels recover at
    the next job boundary or idle. -/
  | railRecover (rail : Fin 9) (mv : BitVec 16)
  /-- STATUS (R682): Mailbox service returning module states, versions and lockouts. -/
  | status (r : MbReq)
  /-- NONCE (R682): Mailbox service issuing a new session nonce. -/
  | nonce (r : MbReq)
  /-- SELFTEST (R693): Mailbox service running the pre-operational tests. -/
  | selftest (r : MbReq) (failed : Fin 5) (alg : Fin 7)
  /-- ZEROIZE (R695): Mailbox service overwriting owner keys, or also DUS and PEK. -/
  | zeroize (r : MbReq) (full : Bool)
  /-- RANDOM (R682): Mailbox service returning DRBG bytes. -/
  | random (r : MbReq) (n : Fin 4097)
  /-- GET_CERTS (R682): Mailbox service returning the DIK and AK certificates. -/
  | getCerts (r : MbReq)
  /-- TAKE_OWNER (R682): Mailbox service installing OPK and a wrapped UAK on an unowned
    device. -/
  | takeOwner (r : MbReq) (opk : List Byte) (uak : List Byte) (tagOk : Bool)
  /-- SET_UAK (R682): Mailbox service replacing UAK. -/
  | setUak (r : MbReq) (uak : List Byte) (tagOk : Bool)
  /-- IMPORT_LK (R682): Mailbox service installing a wrapped library key. -/
  | importLk (r : MbReq) (slot : Fin 16) (key : List Byte) (tagOk : Bool)
  /-- DELETE_LK (R682): Mailbox service zeroizing one library key slot and its sealed items.
    -/
  | deleteLk (r : MbReq) (slot : Fin 16)
  /-- INSTALL_PATCH (R685): Mailbox service verifying a patch and writing it to an NV slot. -/
  | installPatch (r : MbReq) (version : BitVec 16) (rom : BitVec 16) (image : List Byte) (sigOk : Bool)
  /-- ADVANCE_ROLLBACK (R686): Mailbox service advancing the anti-rollback counter. -/
  | advanceRollback (r : MbReq)
  /-- RELEASE_OWNER (R682): Mailbox service releasing ownership as ZEROIZE of owner keys. -/
  | releaseOwner (r : MbReq)
  /-- UNSEAL_LOAD (R689): Mailbox service checking a sealed blob and loading its envelopes. -/
  | unsealLoad (r : MbReq) (c : Fin 1024) (slot : Fin 16) (addr : BitVec 64) (len : Word)
  /-- UNSEAL_PASS_END (R689): A pass over a sealed blob ends; the tag is judged and loading
    starts or is undone. -/
  | unsealPassEnd (tagOk : Bool) (hdr : List Byte) (ents : List SealEnt)
  /-- SEAL_CAL (R682): Mailbox service sealing the live calibration taps into a host buffer.
    -/
  | sealCal (r : MbReq) (c : Fin 1024) (slot : Fin 16) (addr : BitVec 64)
  /-- IMPORT_CAL (R682): Mailbox service staging the taps of a sealed calibration blob. -/
  | importCal (r : MbReq) (slot : Fin 16) (tagOk : Bool) (hdr : List Byte) (taps : List Word)
  /-- ATTEST (R692): Mailbox service returning a signed attestation report. -/
  | attest (r : MbReq) (nonce : List Byte)
  /-- SERVICE_DONE (R684): A mailbox service completes; its response is written and source 913
    fires. -/
  | serviceDone (bad : Bool := false)
  /-- LOCKOUT_END (R681): A role's authentication lockout expires. -/
  | lockoutEnd (co : Bool)
  /-- MAILBOX_QUARANTINE_END (R684): The 100 ms mailbox quarantine ends. -/
  | mailboxQuarantineEnd
  /-- POWER_UP_RESET (R729): A rail leaves range or RESET_N goes low and the power-up reset is
    asserted. -/
  | powerUpReset (aon : Bool)
  /-- POWER_UP_RESET_RELEASE (R729): All rails have been in range for 1 ms with RESET_N high;
    the reset releases and boot starts. -/
  | powerUpResetRelease
  /-- PERST (R731): PERST_N resets the PCI Express function and acts as a host-interface
    reset. -/
  | perst
  /-- BOOT_STEP_END (R733): A boot step ends and the steps that wait on it start. -/
  | bootStepEnd (stp : BootStep)
  /-- TIME_LOCK (R734): The synthesizers lock, the quarters are aligned and device time starts
    from zero. -/
  | timeLock
  /-- BOOT_END (R735): Boot ends at the later of its steps and time lock, or at 50 ms; READY
    becomes 1. -/
  | bootEnd
  /-- PROBE_WAIT_EXPIRY (R535): The wait of a build for REPLY frames to its PROBE ends after
    PLC_CFG.PEER_WAIT and the route with the fewest hops is kept, or the destination fails with
    LACE_ROUTE. -/
  | probeWaitExpiry
  /-- TIMING_PORT_LINK_DOWN (R550): The Ethernet link of timing port TP0 or TP1 goes down and
    TP_STAT.LINK clears. -/
  | timingPortLinkDown (n : Fin 2)
  /-- DOORBELL_UNLISTED_WRITE (R497): A BAR2 write to an offset not listed in R476, or not an
    aligned 32-bit write, is discarded as a doorbell violation counted against the context. -/
  | doorbellUnlistedWrite (off : BitVec 22) (size : Fin 9) (v : BitVec 64)
  /-- DISCARDED_GO (R684): A write of GO while BUSY is 1, during mailbox quarantine, or naming
    an unknown CMD is discarded or answered MALFORMED and counted as a mailbox violation. -/
  | discardedGo (r : MbReq) (cmd : BitVec 16)
  /-- VBIAS_IN_RANGE (R730): VBIAS_P and VBIAS_N come within their operating range, the bias
    stages leave their clamp at code 0 in range 0, T2-64 ramps may start and after 1 ms the rail
    watch begins. -/
  | vbiasInRange
  /-- ENTROPY_HEALTH_FAILURE (R693): A continuous entropy health test of the security module
    fails and the module enters its error state. -/
  | entropyHealthFailure
  /-- RELEASE_SUSPENSION_END (R668): The 100 ms suspension of throttle release steps ends and
    PWR_STAT.RELHOLD clears. -/
  | releaseSuspensionEnd
deriving DecidableEq, Repr

end Sys2Proof
end

