-- ==== Sys2Proof/Decode.lean ====
section
/-! DEFINITION. The words of commands. spec/opcode_table.json gives no row any bits: the commands come
over the buses, links and pins of the part, in forms their operands show (log 2). -/

namespace Sys2Proof

/-- The command that a word of the table spells: none, as no row has bits. -/
def decodeTableWord (_nbits _w : Nat) : Option Instr := none

end Sys2Proof
end

