-- ==== Sys2Proof/Config.lean ====
section
/-! DEFINITION. What the spec leaves open as a value: one uninterpreted constant each, with no
body, so that no statement can rest on a value of it. Each is applied to plain data (a counter of
the state, or the operands it depends on); the log entry that declares it is named. -/

namespace Sys2Proof

/-- R63, log 3: how far (0 to 24 ns, taken modulo 25) the device time held in the insole lags. -/
opaque Config.coarseLag : Nat → BitVec 5

/-- Log 4: the cosine and sine of a phase (2^-32 turn) in signed 1.17 form, where the spec gives
the accuracy and not the value. -/
opaque Config.cosOf : BitVec 32 → BitVec 18
opaque Config.sinOf : BitVec 32 → BitVec 18

/-- R244, log 4: whether the 16-bit COS or SIN of a down-conversion tone is the value above the exact one (the
spec gives 16 bits and not the direction of rounding). -/
opaque Config.cosUp : BitVec 32 → BitVec 1
opaque Config.sinUp : BitVec 32 → BitVec 1

/-- R104, log 4: the interpolated value of a stored envelope (samples I in bits 15:0, Q in bits
31:16), by its stored samples, the interpolation factor and the pulse sample, where that sample is
no stored sample. -/
opaque Config.interp : List (BitVec 32) → Nat → Nat → BitVec 32

/-- Log 5: the bytes the security module's random generator returns. -/
opaque Config.drbgByte : Nat → BitVec 8

/-- Log 6: 256-bit digests, signatures and other cryptographic results the module computes. -/
opaque Config.cryptoByte : Nat → BitVec 8

/-- Log 7: the level a floating pin reads. -/
opaque Config.floatingPin : Nat → BitVec 1

/-- Log 11: whether a value half way between two codes is rounded up, where the spec says only
"rounded to nearest"; by the magnitude of the number rounded. -/
opaque Config.halfUp : Nat → BitVec 1

/-- Log 13: TM_RATE of a domain (R557), by its last 64 samples (2^-16 ns) and their ticks. -/
opaque Config.rateEst : List (Int × Nat) → BitVec 16

/-- R312, log 15: the 7-bit SEC-DED code of a 32-bit half of a token, whose matrix the spec does not give. -/
opaque Config.secded : BitVec 32 → BitVec 7

/-- R312, R313, log 15: what a 32-bit half corrects to whose code is not its own; none where the error is
uncorrectable. -/
opaque Config.secdedFix : BitVec 32 → BitVec 7 → Option (BitVec 32)

/-- R615, log 18: the match register m that a patch image sets; the spec does not give the image's layout. -/
opaque Config.patchMatch : List (BitVec 8) → Nat → BitVec 32

/-- Log 20: the payload of a mailbox service whose layout the spec does not give (R682), by CMD and draw. -/
opaque Config.servicePayload : Nat → Nat → List (BitVec 8)

/-- R692, log 20: the version of the security module's firmware. -/
opaque Config.moduleVersion : BitVec 16

/-- R400, log 19: the CRC-32 of a shared region's edges, by their ends, weight, DR and OBS; the spec does not say
how the edges are laid out for it. -/
opaque Config.edgeCrc : List (Nat × Nat × Nat × Nat × Nat) → BitVec 32

/-- R391: the reference count REF_i of speed monitor i, stored at test. -/
opaque Config.speedRef : Fin 32 → BitVec 32

/-- R391, log 63: whether a ratio REF / count that falls between two units of 1/4,096 is held as the upper one, and
the ratio of a monitor that counts nothing; the spec states neither. -/
opaque Config.slowUp : BitVec 32 → BitVec 32 → BitVec 1
opaque Config.slowStopped : Fin 32 → BitVec 16

/-- Log 8: a value the spec leaves undefined where the machine goes on. -/
opaque Config.freeWord : Nat → BitVec 32

end Sys2Proof
end

