-- ==== Sys2Proof/Machine/RegMap.lean ====
section
/-! DEFINITION. The register set of BAR0 (R449): every register of the manual by its own name, with
its address, its repeats (count and stride), whether it is double-buffered (R453), and for every
field its place, access code (R13), reset value and legal range (R458). Each entry cites the rule
that gives its table. -/

namespace Sys2Proof.Machine

/-- R13: the access codes. -/
inductive Access where
  | rw | ro | wo | w1c | rc
deriving DecidableEq, Repr

/-- R458: what a field does with a value outside its range. -/
inductive Clamp where
  | none
  | range (lo hi : Nat)
  | srange (lo hi : Int)
  | zeroOr (lo hi : Nat)
  | monCh
  | sumShift
deriving DecidableEq, Repr

/-- One field of a register: its bits, its access, its reset value at each index, its range. -/
structure FieldSpec where
  hi : Nat
  lo : Nat
  acc : Access
  reset : List Nat → Nat
  clamp : Clamp

/-- One register of the manual: address of index 0, repeats as (count, stride), and fields. -/
structure RegSpec where
  base : Nat
  dims : List (Nat × Nat)
  dbuf : Bool
  fields : List FieldSpec

/-- The registers, by the manual's names. -/
inductive RegName where
  | GLB_ID
  | GLB_VER
  | GLB_MODE
  | GLB_RESET
  | GLB_LINK
  | GLB_DEVID
  | GLB_SCRATCH
  | CFG_COMMIT
  | CFG_STAT
  | CFG_CTL
  | CFG_CLAMP_CNT
  | CLAMP_LOG
  | PLC_CFG
  | PLC_STAT
  | EVT_ROUTE
  | EVT_VMOD
  | EVT_PEND
  | EVT_CFG
  | MSIX_ADDR_LO
  | MSIX_ADDR_HI
  | MSIX_DATA
  | MSIX_CTL
  | MSIX_PBA
  | CTX_CFG
  | CTX_SIZE
  | CTX_CTL
  | CTX_STAT
  | SUB_BASE_LO
  | SUB_BASE_HI
  | CPL_BASE_LO
  | CPL_BASE_HI
  | RES_BASE_LO
  | RES_BASE_HI
  | EVT_BASE_LO
  | EVT_BASE_HI
  | CAP_BASE_LO
  | CAP_BASE_HI
  | STS_BASE_LO
  | STS_BASE_HI
  | TIME_SNAP
  | TIME_NOW
  | TIME_STAT
  | TIME_HZN
  | TM_CFG
  | TM_STAT
  | TM_SERVO
  | TM_PPS
  | TM_OFS
  | TM_RATE
  | TM_PPS_OFS
  | TM_VIO
  | DOM_CFG
  | TP_CFG
  | TP_STAT
  | TP_MAC_LO
  | TP_MAC_HI
  | TP_IP4
  | TP_IP6
  | TP_ASYM
  | TP_CNT
  | TMR_CFG
  | TMR_CTL
  | TMR_NS
  | TMR_SEC_LO
  | TMR_SEC_HI
  | TMR_PER
  | TMR_WID
  | TMR_CNT
  | LACE_ID
  | LACE_TCFG
  | LACE_TSTAT
  | LC_CFG
  | LC_CTL
  | LC_STAT
  | LC_PARTNER
  | LC_CNT
  | LC_TOFS
  | LC_DELAY
  | LC_ASYM
  | PCIE_CNT
  | WIN_BASE_LO
  | WIN_BASE_HI
  | WIN_SIZE
  | WIN_CTL
  | PWR_CTL
  | PWR_CFG
  | PWR_STAT
  | PWR_QSTAT
  | NV_STAT
  | TS_VAL
  | CAL_CTL
  | CAL_STAT
  | CAL_BG
  | CAL_DAC_IL
  | CAL_ADC_IL
  | CAL_PORT
  | CAL_THRESH
  | CAL_LANE
  | CAL_MON
  | MON_CFG
  | MON_SCAN
  | MON_STAT
  | MON_INJ
  | MON_TRIG
  | MON_IRES
  | MON_SET
  | MON_CHK
  | MON_LIST
  | MON_RES
  | AWL_CFG
  | AWL_CNT
  | AWL_IN_CFG
  | AWL_IN_CFG2
  | AWL_IN_TIME
  | AWL_IN_CNT
  | FF_CFG
  | FF_CTL
  | FF_STAT
  | FF_LEVEL
  | FF_IIR_A
  | FF_IIR_ALPHA
  | FF_FIR
  | BIA_CFG
  | BIA_CTL
  | BIA_STAT
  | BW_A
  | BW_B
  | BIAS_GCTL
  | BIAS_NVCTL
  | DP_CTL
  | DP_STAT
  | DP_CNT
  | DP_EMUTE
  | DP_EMUTE_SW
  | DP_RT0
  | DP_RT1
  | DS_MASK_LO
  | DS_MASK_HI
  | DS_CTL
  | LUT_CFG
  | PM_CFG
  | PM_CFG2
  | EMG_RF
  | EMG_FF
  | DP_LUT
  | DEC_CFG
  | DEC_OUT
  | DEC_WAIT
  | DEC_STAT
  | DEC_CNT
  | DT_STAT
  | CH_CFG
  | CH_CTL
  | CH_STAT
  | GEN_FREQ_LO
  | GEN_FREQ_HI
  | GEN_PHASE
  | GEN_GAIN
  | GEN_CTL
  | IN_CFG
  | IN_STAT
  | CAP_CFG
  | CAP_STAT
  | DDC_FREQ_LO
  | DDC_FREQ_HI
  | DDC_PHASE
  | DDC_CTL
  | KS_CFG
  | KS_LAB
  | KS_LC
  | KS_MAP
  | KS_GRID
  | KS_CENT
  | KS_TRK
  | KS_DRIFT
  | KS_TRKCTL
  | LUT_WORD
  | WELT_CTL
  | WELT_STAT
  | SEQ_CFG
  | SEQ_CTL
  | SEQ_STAT
  | SEQ_CNT
  | DSP_CTL
  | DSP_STAT
  | DSP_BOUND
  | DSP_IBUF
  | DSP_CNT
  | DSP_ROUTE
  | ENG_CFG
  | ENG_STAT
  | ENG_CNT
  | ENG_CTL
  | ENG_PATCH
  | ENG_MATCH
  | DG_FAULT
  | DG_ECC
deriving DecidableEq, Repr

def regSpec : RegName → RegSpec
  | .GLB_ID => -- R451
    ⟨0x0, [], false, [
      ⟨31, 16, .ro, (fun _ => 0x5512), .none⟩,
      ⟨15, 8, .ro, (fun _ => 0x1), .none⟩]⟩
  | .GLB_VER => -- R451
    ⟨0x4, [], false, [
      ⟨31, 16, .ro, (fun _ => 0x1), .none⟩,
      ⟨15, 0, .ro, (fun _ => 0), .none⟩]⟩
  | .GLB_MODE => -- R451
    ⟨0x8, [], false, [
      ⟨8, 8, .ro, (fun _ => 0), .none⟩,
      ⟨2, 0, .ro, (fun _ => 0), .none⟩]⟩
  | .GLB_RESET => -- R450
    ⟨0xC, [], false, [
      ⟨31, 16, .wo, (fun _ => 0), .none⟩,
      ⟨1, 0, .wo, (fun _ => 0), .none⟩]⟩
  | .GLB_LINK => -- R451
    ⟨0x10, [], false, [
      ⟨16, 16, .ro, (fun _ => 0), .none⟩,
      ⟨15, 12, .ro, (fun _ => 0), .none⟩,
      ⟨11, 6, .ro, (fun _ => 0), .none⟩,
      ⟨5, 0, .ro, (fun _ => 0), .none⟩]⟩
  | .GLB_DEVID => -- R451
    ⟨0x14, [], false, [
      ⟨17, 0, .ro, (fun _ => 0), .none⟩]⟩
  | .GLB_SCRATCH => -- R451
    ⟨0x18, [], false, [
      ⟨31, 0, .rw, (fun _ => 0), .none⟩]⟩
  | .CFG_COMMIT => -- R466
    ⟨0x10000, [], false, [
      ⟨1, 1, .wo, (fun _ => 0), .none⟩,
      ⟨0, 0, .wo, (fun _ => 0), .none⟩]⟩
  | .CFG_STAT => -- R466
    ⟨0x10004, [], false, [
      ⟨31, 16, .ro, (fun _ => 0), .none⟩,
      ⟨15, 1, .ro, (fun _ => 0), .none⟩,
      ⟨0, 0, .ro, (fun _ => 0), .none⟩]⟩
  | .CFG_CTL => -- R466
    ⟨0x10008, [], false, [
      ⟨0, 0, .rw, (fun _ => 0), .none⟩]⟩
  | .CFG_CLAMP_CNT => -- R466
    ⟨0x1000C, [], false, [
      ⟨31, 0, .ro, (fun _ => 0), .none⟩]⟩
  | .CLAMP_LOG => -- R462
    ⟨0x11000, [(256, 0x40), (16, 0x4)], false, [
      ⟨31, 0, .ro, (fun _ => 0), .none⟩]⟩
  | .PLC_CFG => -- R409
    ⟨0x1F000, [], true, [
      ⟨31, 24, .rw, (fun _ => 0x5), (.range 1 255)⟩,
      ⟨23, 16, .rw, (fun _ => 0x14), (.range 1 255)⟩,
      ⟨9, 0, .rw, (fun _ => 0), (.range 0 1000)⟩]⟩
  | .PLC_STAT => -- R409
    ⟨0x1F004, [], false, [
      ⟨31, 31, .ro, (fun _ => 0), .none⟩,
      ⟨30, 30, .ro, (fun _ => 0), .none⟩,
      ⟨29, 28, .ro, (fun _ => 0), .none⟩,
      ⟨23, 20, .ro, (fun _ => 0), .none⟩,
      ⟨19, 16, .ro, (fun _ => 0), .none⟩,
      ⟨15, 0, .ro, (fun _ => 0), .none⟩]⟩
  | .EVT_ROUTE => -- R469
    ⟨0x20000, [(1024, 0x4)], false, [
      ⟨31, 31, .rw, (fun _ => 0), .none⟩,
      ⟨7, 0, .rw, (fun i => i.headD 0 / 4), .none⟩]⟩
  | .EVT_VMOD => -- R469
    ⟨0x21000, [(256, 0x4)], false, [
      ⟨15, 0, .rw, (fun _ => 0), .none⟩]⟩
  | .EVT_PEND => -- R469
    ⟨0x22000, [(32, 0x4)], false, [
      ⟨31, 0, .w1c, (fun _ => 0), .none⟩]⟩
  | .EVT_CFG => -- R469
    ⟨0x22080, [], false, [
      ⟨9, 0, .rw, (fun _ => 0), .none⟩]⟩
  | .MSIX_ADDR_LO => -- R469
    ⟨0x30000, [(256, 0x10)], false, [
      ⟨31, 2, .rw, (fun _ => 0), .none⟩]⟩
  | .MSIX_ADDR_HI => -- R469
    ⟨0x30004, [(256, 0x10)], false, [
      ⟨31, 0, .rw, (fun _ => 0), .none⟩]⟩
  | .MSIX_DATA => -- R469
    ⟨0x30008, [(256, 0x10)], false, [
      ⟨31, 0, .rw, (fun _ => 0), .none⟩]⟩
  | .MSIX_CTL => -- R469
    ⟨0x3000C, [(256, 0x10)], false, [
      ⟨0, 0, .rw, (fun _ => 0x1), .none⟩]⟩
  | .MSIX_PBA => -- R469
    ⟨0x31000, [(8, 0x4)], false, [
      ⟨31, 0, .ro, (fun _ => 0), .none⟩]⟩
  | .CTX_CFG => -- R472
    ⟨0x40000, [(1024, 0x40)], true, [
      ⟨31, 31, .rw, (fun _ => 0), .none⟩,
      ⟨30, 24, .rw, (fun _ => 0xA), (.range 1 127)⟩,
      ⟨23, 16, .rw, (fun _ => 0x10), (.range 1 255)⟩,
      ⟨7, 0, .rw, (fun i => i.headD 0 % 256), .none⟩]⟩
  | .CTX_SIZE => -- R472
    ⟨0x40004, [(1024, 0x40)], true, [
      ⟨24, 20, .rw, (fun _ => 0), (.zeroOr 4 16)⟩,
      ⟨19, 15, .rw, (fun _ => 0), (.zeroOr 4 16)⟩,
      ⟨14, 10, .rw, (fun _ => 0), (.zeroOr 4 16)⟩,
      ⟨9, 5, .rw, (fun _ => 0), (.zeroOr 4 16)⟩,
      ⟨4, 0, .rw, (fun _ => 0), (.zeroOr 4 16)⟩]⟩
  | .CTX_CTL => -- R472
    ⟨0x40008, [(1024, 0x40)], false, [
      ⟨2, 2, .wo, (fun _ => 0), .none⟩,
      ⟨1, 1, .wo, (fun _ => 0), .none⟩,
      ⟨0, 0, .rw, (fun _ => 0), .none⟩]⟩
  | .CTX_STAT => -- R472
    ⟨0x4000C, [(1024, 0x40)], false, [
      ⟨31, 31, .ro, (fun _ => 0), .none⟩,
      ⟨30, 30, .ro, (fun _ => 0), .none⟩,
      ⟨29, 29, .ro, (fun _ => 0), .none⟩,
      ⟨15, 0, .ro, (fun _ => 0), .none⟩]⟩
  | .SUB_BASE_LO => -- R472
    ⟨0x40010, [(1024, 0x40)], true, [
      ⟨31, 12, .rw, (fun _ => 0), .none⟩]⟩
  | .SUB_BASE_HI => -- R472
    ⟨0x40014, [(1024, 0x40)], true, [
      ⟨31, 0, .rw, (fun _ => 0), .none⟩]⟩
  | .CPL_BASE_LO => -- R472
    ⟨0x40018, [(1024, 0x40)], true, [
      ⟨31, 12, .rw, (fun _ => 0), .none⟩]⟩
  | .CPL_BASE_HI => -- R472
    ⟨0x4001C, [(1024, 0x40)], true, [
      ⟨31, 0, .rw, (fun _ => 0), .none⟩]⟩
  | .RES_BASE_LO => -- R472
    ⟨0x40020, [(1024, 0x40)], true, [
      ⟨31, 12, .rw, (fun _ => 0), .none⟩]⟩
  | .RES_BASE_HI => -- R472
    ⟨0x40024, [(1024, 0x40)], true, [
      ⟨31, 0, .rw, (fun _ => 0), .none⟩]⟩
  | .EVT_BASE_LO => -- R472
    ⟨0x40028, [(1024, 0x40)], true, [
      ⟨31, 12, .rw, (fun _ => 0), .none⟩]⟩
  | .EVT_BASE_HI => -- R472
    ⟨0x4002C, [(1024, 0x40)], true, [
      ⟨31, 0, .rw, (fun _ => 0), .none⟩]⟩
  | .CAP_BASE_LO => -- R472
    ⟨0x40030, [(1024, 0x40)], true, [
      ⟨31, 12, .rw, (fun _ => 0), .none⟩]⟩
  | .CAP_BASE_HI => -- R472
    ⟨0x40034, [(1024, 0x40)], true, [
      ⟨31, 0, .rw, (fun _ => 0), .none⟩]⟩
  | .STS_BASE_LO => -- R472
    ⟨0x40038, [(1024, 0x40)], true, [
      ⟨31, 12, .rw, (fun _ => 0), .none⟩]⟩
  | .STS_BASE_HI => -- R472
    ⟨0x4003C, [(1024, 0x40)], true, [
      ⟨31, 0, .rw, (fun _ => 0), .none⟩]⟩
  | .TIME_SNAP => -- R80
    ⟨0x100000, [], false, [
      ⟨0, 0, .wo, (fun _ => 0), .none⟩]⟩
  | .TIME_NOW => -- R80
    ⟨0x100004, [(3, 0x4)], false, [
      ⟨31, 0, .ro, (fun _ => 0), .none⟩]⟩
  | .TIME_STAT => -- R80
    ⟨0x100010, [], false, [
      ⟨3, 3, .ro, (fun _ => 0), .none⟩,
      ⟨2, 2, .ro, (fun _ => 0), .none⟩,
      ⟨1, 0, .ro, (fun _ => 0), .none⟩]⟩
  | .TIME_HZN => -- R80
    ⟨0x100014, [], false, [
      ⟨13, 0, .rw, (fun _ => 0), (.zeroOr 10 10000)⟩]⟩
  | .TM_CFG => -- R572
    ⟨0x100100, [], true, [
      ⟨2, 2, .rw, (fun _ => 0x1), .none⟩,
      ⟨1, 0, .rw, (fun _ => 0), (.range 0 2)⟩]⟩
  | .TM_STAT => -- R572
    ⟨0x100104, [], false, [
      ⟨11, 10, .ro, (fun _ => 0), .none⟩,
      ⟨9, 8, .ro, (fun _ => 0), .none⟩,
      ⟨4, 4, .ro, (fun _ => 0), .none⟩,
      ⟨1, 0, .ro, (fun _ => 0), .none⟩]⟩
  | .TM_SERVO => -- R572
    ⟨0x100108, [], true, [
      ⟨31, 24, .rw, (fun _ => 0xA), (.range 1 255)⟩,
      ⟨19, 16, .rw, (fun _ => 0x3), (.range 0 6)⟩,
      ⟨15, 0, .rw, (fun _ => 0x32), (.range 1 65535)⟩]⟩
  | .TM_PPS => -- R572
    ⟨0x10010C, [], true, [
      ⟨31, 30, .rw, (fun _ => 0), (.range 0 2)⟩,
      ⟨29, 29, .rw, (fun _ => 0), .none⟩,
      ⟨15, 0, .rw, (fun _ => 0), .none⟩]⟩
  | .TM_OFS => -- R572
    ⟨0x100110, [(2, 0x4)], false, [
      ⟨31, 0, .ro, (fun _ => 0), .none⟩]⟩
  | .TM_RATE => -- R572
    ⟨0x100118, [], false, [
      ⟨31, 16, .ro, (fun _ => 0), .none⟩,
      ⟨15, 0, .ro, (fun _ => 0), .none⟩]⟩
  | .TM_PPS_OFS => -- R572
    ⟨0x10011C, [], false, [
      ⟨31, 0, .ro, (fun _ => 0), .none⟩]⟩
  | .TM_VIO => -- R572
    ⟨0x100120, [], true, [
      ⟨23, 16, .rw, (fun _ => 0x10), (.range 1 255)⟩,
      ⟨15, 8, .rw, (fun _ => 0xA), (.range 1 255)⟩,
      ⟨7, 0, .rw, (fun _ => 0x64), (.range 1 255)⟩]⟩
  | .DOM_CFG => -- R572
    ⟨0x100140, [(2, 0x4)], true, [
      ⟨31, 24, .rw, (fun i => i.headD 0), (.range 0 127)⟩,
      ⟨23, 12, .rw, (fun _ => 0), .none⟩,
      ⟨11, 8, .rw, (fun _ => 0xD), (.srange (-7) 4)⟩,
      ⟨7, 4, .rw, (fun _ => 0x1), (.srange (-3) 4)⟩,
      ⟨3, 0, .rw, (fun _ => 0), (.srange (-7) 5)⟩]⟩
  | .TP_CFG => -- R572
    ⟨0x100200, [(2, 0x40)], true, [
      ⟨31, 31, .rw, (fun _ => 0), .none⟩,
      ⟨30, 30, .rw, (fun _ => 0), .none⟩,
      ⟨29, 28, .rw, (fun _ => 0), (.range 0 2)⟩,
      ⟨27, 27, .rw, (fun _ => 0x1), .none⟩,
      ⟨23, 22, .rw, (fun _ => 0), .none⟩,
      ⟨21, 20, .rw, (fun _ => 0), .none⟩,
      ⟨19, 19, .rw, (fun _ => 0), .none⟩,
      ⟨18, 18, .rw, (fun _ => 0), .none⟩]⟩
  | .TP_STAT => -- R572
    ⟨0x100204, [(2, 0x40)], false, [
      ⟨31, 31, .ro, (fun _ => 0), .none⟩,
      ⟨30, 30, .ro, (fun _ => 0), .none⟩,
      ⟨29, 29, .ro, (fun _ => 0), .none⟩,
      ⟨4, 0, .ro, (fun _ => 0), .none⟩]⟩
  | .TP_MAC_LO => -- R572
    ⟨0x100208, [(2, 0x40)], true, [
      ⟨31, 0, .rw, (fun _ => 0), .none⟩]⟩
  | .TP_MAC_HI => -- R572
    ⟨0x10020C, [(2, 0x40)], true, [
      ⟨15, 0, .rw, (fun _ => 0), .none⟩]⟩
  | .TP_IP4 => -- R572
    ⟨0x100210, [(2, 0x40)], true, [
      ⟨31, 0, .rw, (fun _ => 0), .none⟩]⟩
  | .TP_IP6 => -- R572
    ⟨0x100214, [(2, 0x40), (4, 0x4)], true, [
      ⟨31, 0, .rw, (fun _ => 0), .none⟩]⟩
  | .TP_ASYM => -- R572
    ⟨0x100224, [(2, 0x40)], true, [
      ⟨31, 0, .rw, (fun _ => 0), .none⟩]⟩
  | .TP_CNT => -- R572
    ⟨0x100228, [(2, 0x40)], false, [
      ⟨31, 24, .rc, (fun _ => 0), .none⟩,
      ⟨23, 16, .rc, (fun _ => 0), .none⟩,
      ⟨15, 8, .rc, (fun _ => 0), .none⟩,
      ⟨7, 0, .rc, (fun _ => 0), .none⟩]⟩
  | .TMR_CFG => -- R572
    ⟨0x100400, [(8, 0x20)], false, [
      ⟨31, 31, .rw, (fun _ => 0), .none⟩,
      ⟨30, 30, .rw, (fun _ => 0), .none⟩,
      ⟨6, 0, .rw, (fun _ => 0), (.range 0 64)⟩]⟩
  | .TMR_CTL => -- R572
    ⟨0x100404, [(8, 0x20)], false, [
      ⟨1, 1, .ro, (fun _ => 0), .none⟩,
      ⟨0, 0, .rw, (fun _ => 0), .none⟩]⟩
  | .TMR_NS => -- R572
    ⟨0x100408, [(8, 0x20)], false, [
      ⟨29, 0, .rw, (fun _ => 0), (.range 0 999999999)⟩]⟩
  | .TMR_SEC_LO => -- R572
    ⟨0x10040C, [(8, 0x20)], false, [
      ⟨31, 0, .rw, (fun _ => 0), .none⟩]⟩
  | .TMR_SEC_HI => -- R572
    ⟨0x100410, [(8, 0x20)], false, [
      ⟨15, 0, .rw, (fun _ => 0), .none⟩]⟩
  | .TMR_PER => -- R572
    ⟨0x100414, [(8, 0x20)], false, [
      ⟨31, 0, .rw, (fun _ => 0), (.range 8 4294967295)⟩]⟩
  | .TMR_WID => -- R572
    ⟨0x100418, [(8, 0x20)], false, [
      ⟨31, 0, .rw, (fun _ => 0), (.range 1 4294967295)⟩]⟩
  | .TMR_CNT => -- R572
    ⟨0x10041C, [(8, 0x20)], false, [
      ⟨31, 0, .ro, (fun _ => 0), .none⟩]⟩
  | .LACE_ID => -- R547
    ⟨0x110000, [], true, [
      ⟨31, 31, .ro, (fun _ => 0), .none⟩,
      ⟨30, 30, .wo, (fun _ => 0), .none⟩,
      ⟨17, 0, .rw, (fun _ => 0), .none⟩]⟩
  | .LACE_TCFG => -- R547
    ⟨0x110004, [], true, [
      ⟨31, 30, .rw, (fun _ => 0), (.range 0 2)⟩,
      ⟨26, 24, .rw, (fun _ => 0), .none⟩,
      ⟨15, 0, .rw, (fun _ => 0x51F), .none⟩]⟩
  | .LACE_TSTAT => -- R547
    ⟨0x110008, [], false, [
      ⟨31, 28, .ro, (fun _ => 0xF), .none⟩,
      ⟨27, 27, .ro, (fun _ => 0), .none⟩,
      ⟨26, 24, .ro, (fun _ => 0), .none⟩,
      ⟨17, 0, .ro, (fun _ => 0), .none⟩]⟩
  | .LC_CFG => -- R547
    ⟨0x111000, [(8, 0x40)], true, [
      ⟨31, 31, .rw, (fun _ => 0x1), .none⟩,
      ⟨30, 30, .rw, (fun _ => 0x1), .none⟩,
      ⟨29, 24, .rw, (fun _ => 0xA), (.range 1 63)⟩,
      ⟨23, 16, .rw, (fun _ => 0x10), (.range 1 255)⟩,
      ⟨15, 8, .rw, (fun _ => 0xA), (.range 1 255)⟩,
      ⟨7, 0, .rw, (fun _ => 0x64), (.range 1 255)⟩]⟩
  | .LC_CTL => -- R547
    ⟨0x111004, [(8, 0x40)], false, [
      ⟨1, 1, .wo, (fun _ => 0), .none⟩,
      ⟨0, 0, .wo, (fun _ => 0), .none⟩]⟩
  | .LC_STAT => -- R547
    ⟨0x111008, [(8, 0x40)], false, [
      ⟨31, 29, .ro, (fun _ => 0x1), .none⟩,
      ⟨28, 26, .ro, (fun _ => 0), .none⟩,
      ⟨25, 23, .ro, (fun _ => 0), .none⟩,
      ⟨19, 16, .ro, (fun _ => 0), .none⟩,
      ⟨15, 12, .ro, (fun _ => 0), .none⟩,
      ⟨2, 0, .ro, (fun _ => 0), .none⟩]⟩
  | .LC_PARTNER => -- R547
    ⟨0x11100C, [(8, 0x40)], false, [
      ⟨31, 31, .ro, (fun _ => 0), .none⟩,
      ⟨17, 0, .ro, (fun _ => 0), .none⟩]⟩
  | .LC_CNT => -- R547
    ⟨0x111010, [(8, 0x40)], false, [
      ⟨31, 24, .rc, (fun _ => 0), .none⟩,
      ⟨23, 16, .rc, (fun _ => 0), .none⟩,
      ⟨15, 8, .rc, (fun _ => 0), .none⟩,
      ⟨7, 0, .rc, (fun _ => 0), .none⟩]⟩
  | .LC_TOFS => -- R547
    ⟨0x111014, [(8, 0x40)], false, [
      ⟨31, 0, .ro, (fun _ => 0), .none⟩]⟩
  | .LC_DELAY => -- R547
    ⟨0x111018, [(8, 0x40)], false, [
      ⟨31, 0, .ro, (fun _ => 0), .none⟩]⟩
  | .LC_ASYM => -- R547
    ⟨0x11101C, [(8, 0x40)], true, [
      ⟨15, 0, .rw, (fun _ => 0), .none⟩]⟩
  | .PCIE_CNT => -- R496
    ⟨0x120000, [], false, [
      ⟨31, 16, .rc, (fun _ => 0), .none⟩,
      ⟨15, 0, .rc, (fun _ => 0), .none⟩]⟩
  | .WIN_BASE_LO => -- R493
    ⟨0x121000, [(256, 0x10)], true, [
      ⟨31, 12, .rw, (fun _ => 0), .none⟩]⟩
  | .WIN_BASE_HI => -- R493
    ⟨0x121004, [(256, 0x10)], true, [
      ⟨31, 0, .rw, (fun _ => 0), .none⟩]⟩
  | .WIN_SIZE => -- R493
    ⟨0x121008, [(256, 0x10)], true, [
      ⟨31, 0, .rw, (fun _ => 0x1), (.range 1 4294967295)⟩]⟩
  | .WIN_CTL => -- R493
    ⟨0x12100C, [(256, 0x10)], true, [
      ⟨31, 31, .rw, (fun _ => 0), .none⟩,
      ⟨30, 30, .rw, (fun _ => 0), .none⟩,
      ⟨29, 29, .rw, (fun _ => 0), .none⟩,
      ⟨9, 0, .rw, (fun _ => 0), .none⟩]⟩
  | .PWR_CTL => -- R673
    ⟨0x130000, [], false, [
      ⟨2, 0, .rw, (fun _ => 0), (.range 0 4)⟩]⟩
  | .PWR_CFG => -- R673
    ⟨0x130004, [], true, [
      ⟨31, 31, .rw, (fun _ => 0x1), .none⟩,
      ⟨3, 0, .rw, (fun _ => 0x6), (.range 0 10)⟩]⟩
  | .PWR_STAT => -- R673
    ⟨0x130008, [], false, [
      ⟨31, 29, .ro, (fun _ => 0), .none⟩,
      ⟨28, 25, .ro, (fun _ => 0), .none⟩,
      ⟨24, 19, .ro, (fun _ => 0), .none⟩,
      ⟨18, 18, .ro, (fun _ => 0), .none⟩,
      ⟨17, 17, .ro, (fun _ => 0), .none⟩,
      ⟨16, 16, .ro, (fun _ => 0), .none⟩,
      ⟨15, 0, .ro, (fun _ => 0), .none⟩]⟩
  | .PWR_QSTAT => -- R673
    ⟨0x13000C, [], false, [
      ⟨31, 28, .ro, (fun _ => 0x6), .none⟩,
      ⟨7, 0, .ro, (fun _ => 0), .none⟩]⟩
  | .NV_STAT => -- R673
    ⟨0x130010, [], false, [
      ⟨31, 31, .ro, (fun _ => 0), .none⟩,
      ⟨30, 30, .ro, (fun _ => 0), .none⟩,
      ⟨5, 0, .ro, (fun _ => 0), .none⟩]⟩
  | .TS_VAL => -- R673
    ⟨0x130100, [(68, 0x4)], false, [
      ⟨31, 31, .ro, (fun _ => 0), .none⟩,
      ⟨30, 30, .ro, (fun _ => 0), .none⟩,
      ⟨29, 29, .ro, (fun _ => 0), .none⟩,
      ⟨28, 28, .ro, (fun _ => 0), .none⟩,
      ⟨27, 27, .ro, (fun _ => 0), .none⟩,
      ⟨23, 12, .ro, (fun _ => 0), .none⟩,
      ⟨11, 0, .ro, (fun _ => 0), .none⟩]⟩
  | .CAL_CTL => -- R651
    ⟨0x140000, [], false, [
      ⟨0, 0, .wo, (fun _ => 0), .none⟩]⟩
  | .CAL_STAT => -- R651
    ⟨0x140004, [], false, [
      ⟨31, 31, .ro, (fun _ => 0), .none⟩,
      ⟨30, 30, .ro, (fun _ => 0), .none⟩,
      ⟨29, 29, .ro, (fun _ => 0), .none⟩,
      ⟨11, 9, .ro, (fun _ => 0), .none⟩,
      ⟨8, 0, .ro, (fun _ => 0), .none⟩]⟩
  | .CAL_BG => -- R651
    ⟨0x140008, [], true, [
      ⟨15, 0, .rw, (fun _ => 0), .none⟩]⟩
  | .CAL_DAC_IL => -- R651
    ⟨0x140100, [(160, 0x4)], false, [
      ⟨23, 0, .ro, (fun _ => 0), .none⟩]⟩
  | .CAL_ADC_IL => -- R651
    ⟨0x140400, [(32, 0x4)], false, [
      ⟨23, 0, .ro, (fun _ => 0), .none⟩]⟩
  | .CAL_PORT => -- R651
    ⟨0x140500, [(320, 0x4)], false, [
      ⟨7, 0, .ro, (fun _ => 0), .none⟩]⟩
  | .CAL_THRESH => -- R651
    ⟨0x140A00, [(64, 0x4)], false, [
      ⟨6, 0, .ro, (fun _ => 0), .none⟩]⟩
  | .CAL_LANE => -- R651
    ⟨0x140B00, [(8, 0x4)], false, [
      ⟨31, 0, .ro, (fun _ => 0), .none⟩]⟩
  | .CAL_MON => -- R651
    ⟨0x140B20, [(2, 0x4)], false, [
      ⟨23, 0, .ro, (fun _ => 0), .none⟩]⟩
  | .MON_CFG => -- R608
    ⟨0x150000, [], true, [
      ⟨31, 31, .rw, (fun _ => 0), .none⟩,
      ⟨30, 30, .rw, (fun _ => 0x1), .none⟩,
      ⟨22, 16, .rw, (fun _ => 0x1), (.range 1 64)⟩,
      ⟨9, 0, .rw, (fun _ => 0), .none⟩]⟩
  | .MON_SCAN => -- R608
    ⟨0x150004, [], true, [
      ⟨15, 0, .rw, (fun _ => 0x3E8), .none⟩]⟩
  | .MON_STAT => -- R608
    ⟨0x150008, [], false, [
      ⟨31, 16, .rc, (fun _ => 0), .none⟩,
      ⟨15, 15, .ro, (fun _ => 0), .none⟩,
      ⟨14, 14, .ro, (fun _ => 0), .none⟩,
      ⟨13, 12, .ro, (fun _ => 0), .none⟩,
      ⟨5, 0, .ro, (fun _ => 0), .none⟩]⟩
  | .MON_INJ => -- R608
    ⟨0x15000C, [], false, [
      ⟨31, 31, .wo, (fun _ => 0), .none⟩,
      ⟨13, 12, .wo, (fun _ => 0), .none⟩,
      ⟨9, 0, .wo, (fun _ => 0), .none⟩]⟩
  | .MON_TRIG => -- R608
    ⟨0x150010, [], true, [
      ⟨30, 24, .rw, (fun _ => 0), (.range 0 72)⟩,
      ⟨13, 12, .rw, (fun _ => 0), .none⟩,
      ⟨9, 0, .rw, (fun _ => 0), .monCh⟩]⟩
  | .MON_IRES => -- R608
    ⟨0x150014, [], false, [
      ⟨31, 0, .ro, (fun _ => 0), .none⟩]⟩
  | .MON_SET => -- R608
    ⟨0x150020, [(4, 0x4)], true, [
      ⟨15, 8, .rw, (fun _ => 0xA), .none⟩,
      ⟨7, 6, .rw, (fun _ => 0), .none⟩,
      ⟨5, 4, .rw, (fun _ => 0x1), (.range 0 2)⟩,
      ⟨3, 0, .rw, (fun _ => 0x6), .none⟩]⟩
  | .MON_CHK => -- R608
    ⟨0x150030, [], true, [
      ⟨23, 0, .rw, (fun _ => 0x1000), .none⟩]⟩
  | .MON_LIST => -- R608
    ⟨0x150100, [(64, 0x4)], true, [
      ⟨15, 15, .rw, (fun _ => 0), .none⟩,
      ⟨13, 12, .rw, (fun _ => 0), .none⟩,
      ⟨9, 0, .rw, (fun _ => 0), .monCh⟩]⟩
  | .MON_RES => -- R608
    ⟨0x150200, [(64, 0x4)], false, [
      ⟨31, 0, .ro, (fun _ => 0), .none⟩]⟩
  | .AWL_CFG => -- R590
    ⟨0x160000, [], true, [
      ⟨9, 0, .rw, (fun _ => 0), .none⟩]⟩
  | .AWL_CNT => -- R590
    ⟨0x160008, [], false, [
      ⟨31, 0, .rc, (fun _ => 0), .none⟩]⟩
  | .AWL_IN_CFG => -- R590
    ⟨0x160100, [(32, 0x10)], true, [
      ⟨31, 31, .rw, (fun _ => 0), .none⟩,
      ⟨30, 29, .rw, (fun _ => 0), (.range 0 2)⟩,
      ⟨28, 27, .rw, (fun _ => 0), (.range 0 2)⟩,
      ⟨20, 16, .rw, (fun _ => 0), .none⟩,
      ⟨15, 8, .rw, (fun _ => 0), .none⟩]⟩
  | .AWL_IN_CFG2 => -- R590
    ⟨0x160104, [(32, 0x10)], true, [
      ⟨25, 16, .rw, (fun _ => 0x1C2), (.range 0 900)⟩,
      ⟨5, 0, .rw, (fun _ => 0x5), (.range 0 50)⟩]⟩
  | .AWL_IN_TIME => -- R590
    ⟨0x160108, [(32, 0x10)], true, [
      ⟨31, 12, .rw, (fun _ => 0x3E8), (.range 1 1000000)⟩,
      ⟨11, 0, .rw, (fun _ => 0x1), (.range 1 4095)⟩]⟩
  | .AWL_IN_CNT => -- R590
    ⟨0x16010C, [(32, 0x10)], false, [
      ⟨31, 16, .rc, (fun _ => 0), .none⟩,
      ⟨15, 0, .rc, (fun _ => 0), .none⟩]⟩
  | .FF_CFG => -- R437
    ⟨0x170000, [(64, 0x100)], true, [
      ⟨8, 8, .rw, (fun _ => 0), .none⟩,
      ⟨3, 0, .rw, (fun _ => 0), .none⟩]⟩
  | .FF_CTL => -- R437
    ⟨0x170004, [(64, 0x100)], true, [
      ⟨1, 1, .wo, (fun _ => 0), .none⟩,
      ⟨0, 0, .rw, (fun _ => 0), .none⟩]⟩
  | .FF_STAT => -- R437
    ⟨0x170008, [(64, 0x100)], false, [
      ⟨31, 16, .rc, (fun _ => 0), .none⟩,
      ⟨15, 8, .ro, (fun _ => 0), .none⟩,
      ⟨1, 0, .ro, (fun _ => 0), .none⟩]⟩
  | .FF_LEVEL => -- R437
    ⟨0x17000C, [(64, 0x100)], true, [
      ⟨31, 16, .rw, (fun _ => 0x8000), (.range 0 32768)⟩,
      ⟨15, 0, .rw, (fun _ => 0), .none⟩]⟩
  | .FF_IIR_A => -- R437
    ⟨0x170010, [(64, 0x100), (4, 0x8)], true, [
      ⟨19, 0, .rw, (fun _ => 0), .none⟩]⟩
  | .FF_IIR_ALPHA => -- R437
    ⟨0x170014, [(64, 0x100), (4, 0x8)], true, [
      ⟨23, 0, .rw, (fun _ => 0x1), (.range 1 16777215)⟩]⟩
  | .FF_FIR => -- R437
    ⟨0x170040, [(64, 0x100), (16, 0x4)], true, [
      ⟨31, 16, .rw, (fun _ => 0), .none⟩,
      ⟨15, 0, .rw, (fun i => if i.getLastD 1 = 0 then 0x4000 else 0), .none⟩]⟩
  | .BIA_CFG => -- R437
    ⟨0x174000, [(256, 0x10)], true, [
      ⟨29, 28, .rw, (fun _ => 0x2), (.range 0 2)⟩,
      ⟨27, 26, .rw, (fun _ => 0), (.range 0 2)⟩,
      ⟨25, 21, .rw, (fun _ => 0x13), (.range 2 20)⟩,
      ⟨17, 16, .rw, (fun _ => 0x1), .none⟩,
      ⟨1, 0, .rw, (fun _ => 0), (.range 0 2)⟩]⟩
  | .BIA_CTL => -- R437
    ⟨0x174004, [(256, 0x10)], false, [
      ⟨0, 0, .wo, (fun _ => 0), .none⟩]⟩
  | .BIA_STAT => -- R437
    ⟨0x174008, [(256, 0x10)], false, [
      ⟨31, 12, .ro, (fun _ => 0), .none⟩,
      ⟨11, 10, .ro, (fun _ => 0), .none⟩,
      ⟨4, 4, .ro, (fun _ => 0), .none⟩,
      ⟨3, 3, .ro, (fun _ => 0), .none⟩,
      ⟨1, 0, .ro, (fun _ => 0), .none⟩]⟩
  | .BW_A => -- R437
    ⟨0x176000, [(4, 0x800), (256, 0x8)], true, [
      ⟨17, 0, .rw, (fun _ => 0), .none⟩]⟩
  | .BW_B => -- R437
    ⟨0x176004, [(4, 0x800), (256, 0x8)], true, [
      ⟨31, 31, .rw, (fun _ => 0), .none⟩,
      ⟨28, 16, .rw, (fun _ => 0x1), (.range 1 4096)⟩,
      ⟨15, 0, .rw, (fun _ => 0x1), (.range 1 65535)⟩]⟩
  | .BIAS_GCTL => -- R437
    ⟨0x178000, [], true, [
      ⟨0, 0, .rw, (fun _ => 0), .none⟩]⟩
  | .BIAS_NVCTL => -- R437
    ⟨0x178004, [], false, [
      ⟨2, 2, .ro, (fun _ => 0), .none⟩,
      ⟨1, 1, .ro, (fun _ => 0), .none⟩,
      ⟨0, 0, .wo, (fun _ => 0), .none⟩]⟩
  | .DP_CTL => -- R354
    ⟨0x180000, [], false, [
      ⟨3, 3, .rw, (fun _ => 0x1), .none⟩,
      ⟨2, 2, .wo, (fun _ => 0), .none⟩,
      ⟨1, 1, .wo, (fun _ => 0), .none⟩,
      ⟨0, 0, .wo, (fun _ => 0), .none⟩]⟩
  | .DP_STAT => -- R354
    ⟨0x180004, [], false, [
      ⟨14, 14, .ro, (fun _ => 0), .none⟩,
      ⟨13, 13, .ro, (fun _ => 0), .none⟩,
      ⟨12, 12, .ro, (fun _ => 0), .none⟩,
      ⟨11, 8, .ro, (fun _ => 0), .none⟩,
      ⟨7, 7, .ro, (fun _ => 0), .none⟩,
      ⟨6, 6, .ro, (fun _ => 0), .none⟩,
      ⟨5, 4, .ro, (fun _ => 0x1), .none⟩,
      ⟨3, 2, .ro, (fun _ => 0x1), .none⟩,
      ⟨1, 0, .ro, (fun _ => 0), .none⟩]⟩
  | .DP_CNT => -- R354
    ⟨0x180008, [], false, [
      ⟨31, 16, .rc, (fun _ => 0), .none⟩,
      ⟨15, 8, .rc, (fun _ => 0), .none⟩,
      ⟨7, 0, .rc, (fun _ => 0), .none⟩]⟩
  | .DP_EMUTE => -- R354
    ⟨0x18000C, [], false, [
      ⟨15, 0, .w1c, (fun _ => 0), .none⟩]⟩
  | .DP_EMUTE_SW => -- R354
    ⟨0x180010, [], false, [
      ⟨15, 0, .wo, (fun _ => 0), .none⟩]⟩
  | .DP_RT0 => -- R354
    ⟨0x190000, [(4096, 0x8)], true, [
      ⟨25, 22, .rw, (fun _ => 0), .none⟩,
      ⟨21, 16, .rw, (fun _ => 0), .none⟩,
      ⟨15, 8, .rw, (fun _ => 0), .none⟩,
      ⟨5, 4, .rw, (fun _ => 0), .none⟩,
      ⟨2, 0, .rw, (fun _ => 0), (.range 0 3)⟩]⟩
  | .DP_RT1 => -- R354
    ⟨0x190004, [(4096, 0x8)], true, [
      ⟨11, 0, .rw, (fun _ => 0), .none⟩]⟩
  | .DS_MASK_LO => -- R354
    ⟨0x198000, [(256, 0x10)], true, [
      ⟨31, 0, .rw, (fun _ => 0), .none⟩]⟩
  | .DS_MASK_HI => -- R354
    ⟨0x198004, [(256, 0x10)], true, [
      ⟨31, 0, .rw, (fun _ => 0), .none⟩]⟩
  | .DS_CTL => -- R354
    ⟨0x198008, [(256, 0x10)], true, [
      ⟨31, 31, .rw, (fun _ => 0), .none⟩,
      ⟨29, 12, .rw, (fun _ => 0), .none⟩,
      ⟨11, 8, .rw, (fun _ => 0), .none⟩,
      ⟨5, 4, .rw, (fun _ => 0), (.range 0 2)⟩,
      ⟨2, 2, .rw, (fun _ => 0), .none⟩,
      ⟨0, 0, .rw, (fun _ => 0x1), .none⟩]⟩
  | .LUT_CFG => -- R354
    ⟨0x199000, [(64, 0x4)], true, [
      ⟨31, 24, .rw, (fun _ => 0), .none⟩,
      ⟨23, 12, .rw, (fun _ => 0), .none⟩,
      ⟨11, 0, .rw, (fun _ => 0), .none⟩]⟩
  | .PM_CFG => -- R354
    ⟨0x199100, [(64, 0x8)], true, [
      ⟨27, 16, .rw, (fun _ => 0), .none⟩,
      ⟨15, 0, .rw, (fun _ => 0), .none⟩]⟩
  | .PM_CFG2 => -- R354
    ⟨0x199104, [(64, 0x8)], true, [
      ⟨12, 8, .rw, (fun _ => 0), .none⟩,
      ⟨7, 0, .rw, (fun _ => 0), .none⟩]⟩
  | .EMG_RF => -- R354
    ⟨0x199400, [(16, 0x20), (5, 0x4)], true, [
      ⟨31, 0, .rw, (fun _ => 0), .none⟩]⟩
  | .EMG_FF => -- R354
    ⟨0x199414, [(16, 0x20), (2, 0x4)], true, [
      ⟨31, 0, .rw, (fun _ => 0), .none⟩]⟩
  | .DP_LUT => -- R354
    ⟨0x1A0000, [(64, 0x1000), (1024, 0x4)], true, [
      ⟨31, 0, .rw, (fun _ => 0), .none⟩]⟩
  | .DEC_CFG => -- R380
    ⟨0x1E0000, [], true, [
      ⟨2, 2, .rw, (fun _ => 0), .none⟩,
      ⟨1, 1, .rw, (fun _ => 0), .none⟩,
      ⟨0, 0, .rw, (fun _ => 0), .none⟩]⟩
  | .DEC_OUT => -- R380
    ⟨0x1E0004, [], true, [
      ⟨31, 24, .rw, (fun _ => 0), .none⟩,
      ⟨23, 12, .rw, (fun _ => 0), .none⟩]⟩
  | .DEC_WAIT => -- R380
    ⟨0x1E0008, [], true, [
      ⟨31, 16, .rw, (fun _ => 0xC8), (.range 100 65535)⟩,
      ⟨15, 0, .rw, (fun _ => 0x1F4), (.range 100 65535)⟩]⟩
  | .DEC_STAT => -- R380
    ⟨0x1E000C, [], false, [
      ⟨31, 16, .ro, (fun _ => 0), .none⟩,
      ⟨15, 15, .ro, (fun _ => 0), .none⟩,
      ⟨6, 0, .ro, (fun _ => 0), .none⟩]⟩
  | .DEC_CNT => -- R380
    ⟨0x1E0010, [], false, [
      ⟨31, 24, .rc, (fun _ => 0), .none⟩,
      ⟨23, 16, .rc, (fun _ => 0), .none⟩,
      ⟨15, 8, .rc, (fun _ => 0), .none⟩,
      ⟨7, 0, .rc, (fun _ => 0), .none⟩]⟩
  | .DT_STAT => -- R380
    ⟨0x1E0100, [(2, 0x40), (16, 0x4)], false, [
      ⟨31, 16, .rc, (fun _ => 0), .none⟩,
      ⟨10, 0, .ro, (fun _ => 0), .none⟩]⟩
  | .CH_CFG => -- R125
    ⟨0x200000, [(4, 0x400000), (40, 0x40)], true, [
      ⟨11, 8, .rw, (fun _ => 0), .none⟩,
      ⟨7, 5, .rw, (fun _ => 0), .sumShift⟩,
      ⟨1, 0, .rw, (fun _ => 0x1), (.range 1 2)⟩]⟩
  | .CH_CTL => -- R125
    ⟨0x200004, [(4, 0x400000), (40, 0x40)], true, [
      ⟨0, 0, .rw, (fun _ => 0), .none⟩]⟩
  | .CH_STAT => -- R125
    ⟨0x200008, [(4, 0x400000), (40, 0x40)], false, [
      ⟨31, 16, .rc, (fun _ => 0), .none⟩,
      ⟨15, 8, .ro, (fun _ => 0), .none⟩,
      ⟨1, 0, .ro, (fun _ => 0), .none⟩]⟩
  | .GEN_FREQ_LO => -- R125
    ⟨0x210000, [(4, 0x400000), (256, 0x20)], true, [
      ⟨31, 0, .rw, (fun _ => 0), .none⟩]⟩
  | .GEN_FREQ_HI => -- R125
    ⟨0x210004, [(4, 0x400000), (256, 0x20)], true, [
      ⟨15, 0, .rw, (fun _ => 0x1000), .none⟩]⟩
  | .GEN_PHASE => -- R125
    ⟨0x210008, [(4, 0x400000), (256, 0x20)], true, [
      ⟨31, 0, .rw, (fun _ => 0), .none⟩]⟩
  | .GEN_GAIN => -- R125
    ⟨0x21000C, [(4, 0x400000), (256, 0x20)], true, [
      ⟨15, 0, .rw, (fun _ => 0x8000), (.range 0 32768)⟩]⟩
  | .GEN_CTL => -- R125
    ⟨0x210010, [(4, 0x400000), (256, 0x20)], true, [
      ⟨9, 2, .rw, (fun _ => 0), .none⟩,
      ⟨1, 1, .rw, (fun _ => 0), .none⟩,
      ⟨0, 0, .rw, (fun _ => 0), .none⟩]⟩
  | .IN_CFG => -- R275
    ⟨0x220000, [(4, 0x400000), (8, 0x10)], true, [
      ⟨11, 8, .rw, (fun _ => 0), .none⟩,
      ⟨1, 0, .rw, (fun _ => 0x2), (.range 1 2)⟩]⟩
  | .IN_STAT => -- R275
    ⟨0x220004, [(4, 0x400000), (8, 0x10)], false, [
      ⟨31, 16, .rc, (fun _ => 0), .none⟩]⟩
  | .CAP_CFG => -- R275
    ⟨0x220008, [(4, 0x400000), (8, 0x10)], true, [
      ⟨31, 16, .rw, (fun _ => 0), .none⟩,
      ⟨15, 12, .rw, (fun _ => 0), .none⟩,
      ⟨11, 8, .rw, (fun _ => 0), (.range 0 12)⟩,
      ⟨5, 4, .rw, (fun _ => 0), (.range 0 2)⟩,
      ⟨0, 0, .rw, (fun _ => 0), .none⟩]⟩
  | .CAP_STAT => -- R275
    ⟨0x22000C, [(4, 0x400000), (8, 0x10)], false, [
      ⟨31, 16, .rc, (fun _ => 0), .none⟩,
      ⟨0, 0, .ro, (fun _ => 0), .none⟩]⟩
  | .DDC_FREQ_LO => -- R275
    ⟨0x221000, [(4, 0x400000), (128, 0x20)], true, [
      ⟨31, 0, .rw, (fun _ => 0), .none⟩]⟩
  | .DDC_FREQ_HI => -- R275
    ⟨0x221004, [(4, 0x400000), (128, 0x20)], true, [
      ⟨15, 0, .rw, (fun _ => 0x6000), .none⟩]⟩
  | .DDC_PHASE => -- R275
    ⟨0x221008, [(4, 0x400000), (128, 0x20)], true, [
      ⟨31, 0, .rw, (fun _ => 0), .none⟩]⟩
  | .DDC_CTL => -- R275
    ⟨0x22100C, [(4, 0x400000), (128, 0x20)], true, [
      ⟨0, 0, .rw, (fun _ => 0), .none⟩]⟩
  | .KS_CFG => -- R275
    ⟨0x230000, [(4, 0x400000), (1024, 0x40)], true, [
      ⟨31, 24, .rw, (fun _ => 0), .none⟩,
      ⟨23, 18, .rw, (fun _ => 0x10), (.range 0 47)⟩,
      ⟨17, 16, .rw, (fun _ => 0x1), (.range 1 3)⟩,
      ⟨15, 15, .rw, (fun _ => 0), .none⟩,
      ⟨14, 12, .rw, (fun _ => 0), (.range 0 4)⟩,
      ⟨11, 0, .rw, (fun _ => 0xFFF), .none⟩]⟩
  | .KS_LAB => -- R275
    ⟨0x230004, [(4, 0x400000), (1024, 0x40), (3, 0x8)], true, [
      ⟨31, 16, .rw, (fun _ => 0), .none⟩,
      ⟨15, 0, .rw, (fun _ => 0), .none⟩]⟩
  | .KS_LC => -- R275
    ⟨0x230008, [(4, 0x400000), (1024, 0x40), (3, 0x8)], true, [
      ⟨31, 0, .rw, (fun _ => 0), .none⟩]⟩
  | .KS_MAP => -- R275
    ⟨0x23001C, [(4, 0x400000), (1024, 0x40)], true, [
      ⟨27, 24, .rw, (fun _ => 0xC), .none⟩,
      ⟨20, 16, .rw, (fun _ => 0x8), .none⟩,
      ⟨15, 0, .rw, (fun _ => 0x4), .none⟩]⟩
  | .KS_GRID => -- R275
    ⟨0x230020, [(4, 0x400000), (1024, 0x40)], true, [
      ⟨31, 16, .rw, (fun _ => 0), .none⟩,
      ⟨15, 0, .rw, (fun _ => 0), .none⟩]⟩
  | .KS_CENT => -- R275
    ⟨0x230024, [(4, 0x400000), (1024, 0x40), (4, 0x4)], true, [
      ⟨31, 16, .rw, (fun _ => 0), .none⟩,
      ⟨15, 0, .rw, (fun _ => 0), .none⟩]⟩
  | .KS_TRK => -- R275
    ⟨0x230034, [(4, 0x400000), (1024, 0x40)], true, [
      ⟨31, 31, .rw, (fun _ => 0), .none⟩,
      ⟨27, 24, .rw, (fun _ => 0x8), (.range 2 12)⟩,
      ⟨20, 16, .rw, (fun _ => 0x10), .none⟩,
      ⟨14, 0, .rw, (fun _ => 0x800), .none⟩]⟩
  | .KS_DRIFT => -- R275
    ⟨0x230038, [(4, 0x400000), (1024, 0x40)], false, [
      ⟨31, 16, .ro, (fun _ => 0), .none⟩,
      ⟨15, 0, .ro, (fun _ => 0), .none⟩]⟩
  | .KS_TRKCTL => -- R275
    ⟨0x23003C, [(4, 0x400000), (1024, 0x40)], false, [
      ⟨31, 31, .wo, (fun _ => 0), .none⟩,
      ⟨8, 0, .ro, (fun _ => 0), .none⟩]⟩
  | .LUT_WORD => -- R275
    ⟨0x240000, [(4, 0x400000), (256, 0x40), (16, 0x4)], true, [
      ⟨30, 24, .rw, (fun _ => 0), .none⟩,
      ⟨22, 16, .rw, (fun _ => 0), .none⟩,
      ⟨14, 8, .rw, (fun _ => 0), .none⟩,
      ⟨6, 0, .rw, (fun _ => 0), .none⟩]⟩
  | .WELT_CTL => -- R79
    ⟨0x500000, [(4, 0x400000), (72, 0x10)], true, [
      ⟨1, 0, .rw, (fun _ => 0), (.range 0 2)⟩]⟩
  | .WELT_STAT => -- R79
    ⟨0x500004, [(4, 0x400000), (72, 0x10)], false, [
      ⟨31, 16, .rc, (fun _ => 0), .none⟩,
      ⟨9, 9, .ro, (fun _ => 0), .none⟩,
      ⟨8, 0, .ro, (fun _ => 0), .none⟩]⟩
  | .SEQ_CFG => -- R178
    ⟨0x540000, [(4, 0x400000), (16, 0x10)], true, [
      ⟨31, 16, .rw, (fun _ => 0x2710), (.range 1 65535)⟩,
      ⟨15, 8, .rw, (fun _ => 0xA), (.range 1 255)⟩,
      ⟨5, 0, .rw, (fun _ => 0), (.range 0 26)⟩]⟩
  | .SEQ_CTL => -- R178
    ⟨0x540004, [(4, 0x400000), (16, 0x10)], false, [
      ⟨0, 0, .wo, (fun _ => 0), .none⟩]⟩
  | .SEQ_STAT => -- R178
    ⟨0x540008, [(4, 0x400000), (16, 0x10)], false, [
      ⟨31, 16, .rc, (fun _ => 0), .none⟩,
      ⟨15, 12, .ro, (fun _ => 0), .none⟩,
      ⟨11, 0, .ro, (fun _ => 0), .none⟩]⟩
  | .SEQ_CNT => -- R178
    ⟨0x54000C, [(4, 0x400000), (16, 0x10)], false, [
      ⟨31, 16, .rc, (fun _ => 0), .none⟩,
      ⟨15, 0, .rc, (fun _ => 0), .none⟩]⟩
  | .DSP_CTL => -- R308
    ⟨0x560000, [(4, 0x400000), (4, 0x100)], true, [
      ⟨11, 0, .rw, (fun _ => 0), .none⟩]⟩
  | .DSP_STAT => -- R308
    ⟨0x560004, [(4, 0x400000), (4, 0x100)], false, [
      ⟨15, 14, .ro, (fun _ => 0), .none⟩,
      ⟨11, 0, .ro, (fun _ => 0), .none⟩]⟩
  | .DSP_BOUND => -- R308
    ⟨0x560008, [(4, 0x400000), (4, 0x100)], true, [
      ⟨15, 0, .rw, (fun _ => 0x100), (.range 16 65535)⟩]⟩
  | .DSP_IBUF => -- R308
    ⟨0x56000C, [(4, 0x400000), (4, 0x100)], true, [
      ⟨30, 16, .rw, (fun _ => 0x2000), (.range 64 16384)⟩,
      ⟨13, 0, .rw, (fun _ => 0x2000), .none⟩]⟩
  | .DSP_CNT => -- R308
    ⟨0x560010, [(4, 0x400000), (4, 0x100)], false, [
      ⟨31, 16, .rc, (fun _ => 0), .none⟩,
      ⟨15, 0, .rc, (fun _ => 0), .none⟩]⟩
  | .DSP_ROUTE => -- R308
    ⟨0x560040, [(4, 0x400000), (4, 0x100), (16, 0x4)], true, [
      ⟨31, 30, .rw, (fun _ => 0), (.range 0 2)⟩,
      ⟨29, 28, .rw, (fun _ => 0), (.range 0 2)⟩,
      ⟨27, 26, .rw, (fun _ => 0), (.range 0 2)⟩,
      ⟨25, 24, .rw, (fun _ => 0), (.range 0 2)⟩,
      ⟨23, 22, .rw, (fun _ => 0), (.range 0 2)⟩,
      ⟨21, 20, .rw, (fun _ => 0), (.range 0 2)⟩,
      ⟨19, 18, .rw, (fun _ => 0), (.range 0 2)⟩,
      ⟨17, 16, .rw, (fun _ => 0), (.range 0 2)⟩,
      ⟨15, 14, .rw, (fun _ => 0), (.range 0 2)⟩,
      ⟨13, 12, .rw, (fun _ => 0), (.range 0 2)⟩,
      ⟨11, 10, .rw, (fun _ => 0), (.range 0 2)⟩,
      ⟨9, 8, .rw, (fun _ => 0), (.range 0 2)⟩,
      ⟨7, 6, .rw, (fun _ => 0), (.range 0 2)⟩,
      ⟨5, 4, .rw, (fun _ => 0), (.range 0 2)⟩,
      ⟨3, 2, .rw, (fun _ => 0), (.range 0 2)⟩,
      ⟨1, 0, .rw, (fun _ => 0), (.range 0 2)⟩]⟩
  | .ENG_CFG => -- R635
    ⟨0x2000000, [], true, [
      ⟨1, 1, .rw, (fun _ => 0x1), .none⟩,
      ⟨0, 0, .rw, (fun _ => 0), .none⟩]⟩
  | .ENG_STAT => -- R635
    ⟨0x2000004, [], false, [
      ⟨9, 9, .ro, (fun _ => 0), .none⟩,
      ⟨8, 8, .ro, (fun _ => 0), .none⟩,
      ⟨5, 4, .ro, (fun _ => 0x1), .none⟩,
      ⟨3, 2, .ro, (fun _ => 0), .none⟩,
      ⟨0, 0, .ro, (fun _ => 0), .none⟩]⟩
  | .ENG_CNT => -- R635
    ⟨0x2000008, [], false, [
      ⟨31, 24, .rc, (fun _ => 0), .none⟩,
      ⟨15, 0, .rc, (fun _ => 0), .none⟩]⟩
  | .ENG_CTL => -- R635
    ⟨0x200000C, [], false, [
      ⟨0, 0, .wo, (fun _ => 0), .none⟩]⟩
  | .ENG_PATCH => -- R635
    ⟨0x2000010, [], false, [
      ⟨31, 16, .ro, (fun _ => 0), .none⟩,
      ⟨3, 2, .ro, (fun _ => 0), .none⟩,
      ⟨1, 0, .ro, (fun _ => 0), .none⟩]⟩
  | .ENG_MATCH => -- R635
    ⟨0x2000100, [(2, 0x100), (64, 0x4)], false, [
      ⟨31, 31, .ro, (fun _ => 0), .none⟩,
      ⟨30, 16, .ro, (fun _ => 0), .none⟩,
      ⟨9, 0, .ro, (fun _ => 0), .none⟩]⟩
  | .DG_FAULT => -- R704
    ⟨0x3000000, [], false, [
      ⟨31, 29, .ro, (fun _ => 0), .none⟩,
      ⟨23, 20, .ro, (fun _ => 0), .none⟩,
      ⟨15, 15, .ro, (fun _ => 0), .none⟩,
      ⟨4, 0, .ro, (fun _ => 0), .none⟩]⟩
  | .DG_ECC => -- R704
    ⟨0x3000100, [(11, 0x4)], false, [
      ⟨31, 16, .ro, (fun _ => 0), .none⟩,
      ⟨15, 0, .ro, (fun _ => 0), .none⟩]⟩

def allRegs0 : List RegName := [.GLB_ID, .GLB_VER, .GLB_MODE, .GLB_RESET, .GLB_LINK, .GLB_DEVID, .GLB_SCRATCH, .CFG_COMMIT, .CFG_STAT, .CFG_CTL, .CFG_CLAMP_CNT, .CLAMP_LOG, .PLC_CFG, .PLC_STAT, .EVT_ROUTE, .EVT_VMOD, .EVT_PEND, .EVT_CFG, .MSIX_ADDR_LO, .MSIX_ADDR_HI, .MSIX_DATA, .MSIX_CTL, .MSIX_PBA, .CTX_CFG, .CTX_SIZE, .CTX_CTL, .CTX_STAT, .SUB_BASE_LO, .SUB_BASE_HI, .CPL_BASE_LO, .CPL_BASE_HI, .RES_BASE_LO, .RES_BASE_HI, .EVT_BASE_LO, .EVT_BASE_HI, .CAP_BASE_LO, .CAP_BASE_HI, .STS_BASE_LO, .STS_BASE_HI, .TIME_SNAP]
def allRegs1 : List RegName := [.TIME_NOW, .TIME_STAT, .TIME_HZN, .TM_CFG, .TM_STAT, .TM_SERVO, .TM_PPS, .TM_OFS, .TM_RATE, .TM_PPS_OFS, .TM_VIO, .DOM_CFG, .TP_CFG, .TP_STAT, .TP_MAC_LO, .TP_MAC_HI, .TP_IP4, .TP_IP6, .TP_ASYM, .TP_CNT, .TMR_CFG, .TMR_CTL, .TMR_NS, .TMR_SEC_LO, .TMR_SEC_HI, .TMR_PER, .TMR_WID, .TMR_CNT, .LACE_ID, .LACE_TCFG, .LACE_TSTAT, .LC_CFG, .LC_CTL, .LC_STAT, .LC_PARTNER, .LC_CNT, .LC_TOFS, .LC_DELAY, .LC_ASYM, .PCIE_CNT]
def allRegs2 : List RegName := [.WIN_BASE_LO, .WIN_BASE_HI, .WIN_SIZE, .WIN_CTL, .PWR_CTL, .PWR_CFG, .PWR_STAT, .PWR_QSTAT, .NV_STAT, .TS_VAL, .CAL_CTL, .CAL_STAT, .CAL_BG, .CAL_DAC_IL, .CAL_ADC_IL, .CAL_PORT, .CAL_THRESH, .CAL_LANE, .CAL_MON, .MON_CFG, .MON_SCAN, .MON_STAT, .MON_INJ, .MON_TRIG, .MON_IRES, .MON_SET, .MON_CHK, .MON_LIST, .MON_RES, .AWL_CFG, .AWL_CNT, .AWL_IN_CFG, .AWL_IN_CFG2, .AWL_IN_TIME, .AWL_IN_CNT, .FF_CFG, .FF_CTL, .FF_STAT, .FF_LEVEL, .FF_IIR_A]
def allRegs3 : List RegName := [.FF_IIR_ALPHA, .FF_FIR, .BIA_CFG, .BIA_CTL, .BIA_STAT, .BW_A, .BW_B, .BIAS_GCTL, .BIAS_NVCTL, .DP_CTL, .DP_STAT, .DP_CNT, .DP_EMUTE, .DP_EMUTE_SW, .DP_RT0, .DP_RT1, .DS_MASK_LO, .DS_MASK_HI, .DS_CTL, .LUT_CFG, .PM_CFG, .PM_CFG2, .EMG_RF, .EMG_FF, .DP_LUT, .DEC_CFG, .DEC_OUT, .DEC_WAIT, .DEC_STAT, .DEC_CNT, .DT_STAT, .CH_CFG, .CH_CTL, .CH_STAT, .GEN_FREQ_LO, .GEN_FREQ_HI, .GEN_PHASE, .GEN_GAIN, .GEN_CTL, .IN_CFG]
def allRegs4 : List RegName := [.IN_STAT, .CAP_CFG, .CAP_STAT, .DDC_FREQ_LO, .DDC_FREQ_HI, .DDC_PHASE, .DDC_CTL, .KS_CFG, .KS_LAB, .KS_LC, .KS_MAP, .KS_GRID, .KS_CENT, .KS_TRK, .KS_DRIFT, .KS_TRKCTL, .LUT_WORD, .WELT_CTL, .WELT_STAT, .SEQ_CFG, .SEQ_CTL, .SEQ_STAT, .SEQ_CNT, .DSP_CTL, .DSP_STAT, .DSP_BOUND, .DSP_IBUF, .DSP_CNT, .DSP_ROUTE, .ENG_CFG, .ENG_STAT, .ENG_CNT, .ENG_CTL, .ENG_PATCH, .ENG_MATCH, .DG_FAULT, .DG_ECC]
/-- Every register, in ascending order of its block. -/
def allRegs : List RegName := allRegs0 ++ allRegs1 ++ allRegs2 ++ allRegs3 ++ allRegs4

/-- A named field of a register. -/
structure Fld where
  reg : RegName
  hi : Nat
  lo : Nat
deriving DecidableEq, Repr

def Reg.GLB_ID.PART : Fld := ⟨.GLB_ID, 31, 16⟩
def Reg.GLB_ID.STEP : Fld := ⟨.GLB_ID, 15, 8⟩
def Reg.GLB_VER.ROM : Fld := ⟨.GLB_VER, 31, 16⟩
def Reg.GLB_VER.PATCH : Fld := ⟨.GLB_VER, 15, 0⟩
def Reg.GLB_MODE.READY : Fld := ⟨.GLB_MODE, 8, 8⟩
def Reg.GLB_MODE.MODE : Fld := ⟨.GLB_MODE, 2, 0⟩
def Reg.GLB_RESET.KEY : Fld := ⟨.GLB_RESET, 31, 16⟩
def Reg.GLB_RESET.KIND : Fld := ⟨.GLB_RESET, 1, 0⟩
def Reg.GLB_LINK.FLIT : Fld := ⟨.GLB_LINK, 16, 16⟩
def Reg.GLB_LINK.RATE : Fld := ⟨.GLB_LINK, 15, 12⟩
def Reg.GLB_LINK.WIDTH : Fld := ⟨.GLB_LINK, 11, 6⟩
def Reg.GLB_LINK.L0P_WIDTH : Fld := ⟨.GLB_LINK, 5, 0⟩
def Reg.GLB_DEVID.DEVID : Fld := ⟨.GLB_DEVID, 17, 0⟩
def Reg.GLB_SCRATCH.SCRATCH : Fld := ⟨.GLB_SCRATCH, 31, 0⟩
def Reg.CFG_COMMIT.DISCARD : Fld := ⟨.CFG_COMMIT, 1, 1⟩
def Reg.CFG_COMMIT.COMMIT : Fld := ⟨.CFG_COMMIT, 0, 0⟩
def Reg.CFG_STAT.XCLAMP : Fld := ⟨.CFG_STAT, 31, 16⟩
def Reg.CFG_STAT.CSEQ : Fld := ⟨.CFG_STAT, 15, 1⟩
def Reg.CFG_STAT.PENDING : Fld := ⟨.CFG_STAT, 0, 0⟩
def Reg.CFG_CTL.VIEW : Fld := ⟨.CFG_CTL, 0, 0⟩
def Reg.CFG_CLAMP_CNT.NUM : Fld := ⟨.CFG_CLAMP_CNT, 31, 0⟩
def Reg.CLAMP_LOG.WORD : Fld := ⟨.CLAMP_LOG, 31, 0⟩
def Reg.PLC_CFG.PEER_WAIT : Fld := ⟨.PLC_CFG, 31, 24⟩
def Reg.PLC_CFG.HOST_LAT : Fld := ⟨.PLC_CFG, 23, 16⟩
def Reg.PLC_CFG.GUARD : Fld := ⟨.PLC_CFG, 9, 0⟩
def Reg.PLC_STAT.BUSY : Fld := ⟨.PLC_STAT, 31, 31⟩
def Reg.PLC_STAT.LIVE_V : Fld := ⟨.PLC_STAT, 30, 30⟩
def Reg.PLC_STAT.LIVE : Fld := ⟨.PLC_STAT, 29, 28⟩
def Reg.PLC_STAT.STALE : Fld := ⟨.PLC_STAT, 23, 20⟩
def Reg.PLC_STAT.BUILT : Fld := ⟨.PLC_STAT, 19, 16⟩
def Reg.PLC_STAT.SLOW : Fld := ⟨.PLC_STAT, 15, 0⟩
def Reg.EVT_ROUTE.EN : Fld := ⟨.EVT_ROUTE, 31, 31⟩
def Reg.EVT_ROUTE.VECTOR : Fld := ⟨.EVT_ROUTE, 7, 0⟩
def Reg.EVT_VMOD.HOLDOFF : Fld := ⟨.EVT_VMOD, 15, 0⟩
def Reg.EVT_PEND.PEND : Fld := ⟨.EVT_PEND, 31, 0⟩
def Reg.EVT_CFG.HOME_CTX : Fld := ⟨.EVT_CFG, 9, 0⟩
def Reg.MSIX_ADDR_LO.ADDR : Fld := ⟨.MSIX_ADDR_LO, 31, 2⟩
def Reg.MSIX_ADDR_HI.ADDR : Fld := ⟨.MSIX_ADDR_HI, 31, 0⟩
def Reg.MSIX_DATA.DATA : Fld := ⟨.MSIX_DATA, 31, 0⟩
def Reg.MSIX_CTL.MASK : Fld := ⟨.MSIX_CTL, 0, 0⟩
def Reg.MSIX_PBA.PEND : Fld := ⟨.MSIX_PBA, 31, 0⟩
def Reg.CTX_CFG.ENABLE : Fld := ⟨.CTX_CFG, 31, 31⟩
def Reg.CTX_CFG.VIO_WIN : Fld := ⟨.CTX_CFG, 30, 24⟩
def Reg.CTX_CFG.VIO_LIM : Fld := ⟨.CTX_CFG, 23, 16⟩
def Reg.CTX_CFG.VECTOR : Fld := ⟨.CTX_CFG, 7, 0⟩
def Reg.CTX_SIZE.CAP : Fld := ⟨.CTX_SIZE, 24, 20⟩
def Reg.CTX_SIZE.EVT : Fld := ⟨.CTX_SIZE, 19, 15⟩
def Reg.CTX_SIZE.RES : Fld := ⟨.CTX_SIZE, 14, 10⟩
def Reg.CTX_SIZE.CPL : Fld := ⟨.CTX_SIZE, 9, 5⟩
def Reg.CTX_SIZE.SUB : Fld := ⟨.CTX_SIZE, 4, 0⟩
def Reg.CTX_CTL.RELEASE : Fld := ⟨.CTX_CTL, 2, 2⟩
def Reg.CTX_CTL.ABORT : Fld := ⟨.CTX_CTL, 1, 1⟩
def Reg.CTX_CTL.PAUSE : Fld := ⟨.CTX_CTL, 0, 0⟩
def Reg.CTX_STAT.QUAR : Fld := ⟨.CTX_STAT, 31, 31⟩
def Reg.CTX_STAT.PAUSED : Fld := ⟨.CTX_STAT, 30, 30⟩
def Reg.CTX_STAT.JOB : Fld := ⟨.CTX_STAT, 29, 29⟩
def Reg.CTX_STAT.INFLT : Fld := ⟨.CTX_STAT, 15, 0⟩
def Reg.SUB_BASE_LO.ADDR_LO : Fld := ⟨.SUB_BASE_LO, 31, 12⟩
def Reg.SUB_BASE_HI.ADDR_HI : Fld := ⟨.SUB_BASE_HI, 31, 0⟩
def Reg.CPL_BASE_LO.ADDR_LO : Fld := ⟨.CPL_BASE_LO, 31, 12⟩
def Reg.CPL_BASE_HI.ADDR_HI : Fld := ⟨.CPL_BASE_HI, 31, 0⟩
def Reg.RES_BASE_LO.ADDR_LO : Fld := ⟨.RES_BASE_LO, 31, 12⟩
def Reg.RES_BASE_HI.ADDR_HI : Fld := ⟨.RES_BASE_HI, 31, 0⟩
def Reg.EVT_BASE_LO.ADDR_LO : Fld := ⟨.EVT_BASE_LO, 31, 12⟩
def Reg.EVT_BASE_HI.ADDR_HI : Fld := ⟨.EVT_BASE_HI, 31, 0⟩
def Reg.CAP_BASE_LO.ADDR_LO : Fld := ⟨.CAP_BASE_LO, 31, 12⟩
def Reg.CAP_BASE_HI.ADDR_HI : Fld := ⟨.CAP_BASE_HI, 31, 0⟩
def Reg.STS_BASE_LO.ADDR_LO : Fld := ⟨.STS_BASE_LO, 31, 12⟩
def Reg.STS_BASE_HI.ADDR_HI : Fld := ⟨.STS_BASE_HI, 31, 0⟩
def Reg.TIME_SNAP.SNAP : Fld := ⟨.TIME_SNAP, 0, 0⟩
def Reg.TIME_NOW.WORD : Fld := ⟨.TIME_NOW, 31, 0⟩
def Reg.TIME_STAT.HOLD : Fld := ⟨.TIME_STAT, 3, 3⟩
def Reg.TIME_STAT.HOLDOVER : Fld := ⟨.TIME_STAT, 2, 2⟩
def Reg.TIME_STAT.DOMAIN : Fld := ⟨.TIME_STAT, 1, 0⟩
def Reg.TIME_HZN.PERIOD : Fld := ⟨.TIME_HZN, 13, 0⟩
def Reg.TM_CFG.AUTO : Fld := ⟨.TM_CFG, 2, 2⟩
def Reg.TM_CFG.SRC : Fld := ⟨.TM_CFG, 1, 0⟩
def Reg.TM_STAT.STATE_B : Fld := ⟨.TM_STAT, 11, 10⟩
def Reg.TM_STAT.STATE_A : Fld := ⟨.TM_STAT, 9, 8⟩
def Reg.TM_STAT.PPS_OK : Fld := ⟨.TM_STAT, 4, 4⟩
def Reg.TM_STAT.ACTIVE : Fld := ⟨.TM_STAT, 1, 0⟩
def Reg.TM_SERVO.OUTLIER : Fld := ⟨.TM_SERVO, 31, 24⟩
def Reg.TM_SERVO.AVG : Fld := ⟨.TM_SERVO, 19, 16⟩
def Reg.TM_SERVO.CMIN : Fld := ⟨.TM_SERVO, 15, 0⟩
def Reg.TM_PPS.MODE : Fld := ⟨.TM_PPS, 31, 30⟩
def Reg.TM_PPS.EDGE : Fld := ⟨.TM_PPS, 29, 29⟩
def Reg.TM_PPS.DLY : Fld := ⟨.TM_PPS, 15, 0⟩
def Reg.TM_OFS.OFS : Fld := ⟨.TM_OFS, 31, 0⟩
def Reg.TM_RATE.A : Fld := ⟨.TM_RATE, 31, 16⟩
def Reg.TM_RATE.B : Fld := ⟨.TM_RATE, 15, 0⟩
def Reg.TM_PPS_OFS.OFS : Fld := ⟨.TM_PPS_OFS, 31, 0⟩
def Reg.TM_VIO.VIO_LIM : Fld := ⟨.TM_VIO, 23, 16⟩
def Reg.TM_VIO.VIO_WIN : Fld := ⟨.TM_VIO, 15, 8⟩
def Reg.TM_VIO.QHOLD : Fld := ⟨.TM_VIO, 7, 0⟩
def Reg.DOM_CFG.NUMBER : Fld := ⟨.DOM_CFG, 31, 24⟩
def Reg.DOM_CFG.SDOID : Fld := ⟨.DOM_CFG, 23, 12⟩
def Reg.DOM_CFG.LOG_SYNC : Fld := ⟨.DOM_CFG, 11, 8⟩
def Reg.DOM_CFG.LOG_ANN : Fld := ⟨.DOM_CFG, 7, 4⟩
def Reg.DOM_CFG.LOG_DREQ : Fld := ⟨.DOM_CFG, 3, 0⟩
def Reg.TP_CFG.EN : Fld := ⟨.TP_CFG, 31, 31⟩
def Reg.TP_CFG.SPEED : Fld := ⟨.TP_CFG, 30, 30⟩
def Reg.TP_CFG.TRANS : Fld := ⟨.TP_CFG, 29, 28⟩
def Reg.TP_CFG.ONE_STEP : Fld := ⟨.TP_CFG, 27, 27⟩
def Reg.TP_CFG.MODE_A : Fld := ⟨.TP_CFG, 23, 22⟩
def Reg.TP_CFG.MODE_B : Fld := ⟨.TP_CFG, 21, 20⟩
def Reg.TP_CFG.DLY_A : Fld := ⟨.TP_CFG, 19, 19⟩
def Reg.TP_CFG.DLY_B : Fld := ⟨.TP_CFG, 18, 18⟩
def Reg.TP_STAT.LINK : Fld := ⟨.TP_STAT, 31, 31⟩
def Reg.TP_STAT.SEL_A : Fld := ⟨.TP_STAT, 30, 30⟩
def Reg.TP_STAT.SEL_B : Fld := ⟨.TP_STAT, 29, 29⟩
def Reg.TP_STAT.QUAR : Fld := ⟨.TP_STAT, 4, 0⟩
def Reg.TP_MAC_LO.MAC : Fld := ⟨.TP_MAC_LO, 31, 0⟩
def Reg.TP_MAC_HI.MAC : Fld := ⟨.TP_MAC_HI, 15, 0⟩
def Reg.TP_IP4.ADDR : Fld := ⟨.TP_IP4, 31, 0⟩
def Reg.TP_IP6.ADDR : Fld := ⟨.TP_IP6, 31, 0⟩
def Reg.TP_ASYM.ASYM : Fld := ⟨.TP_ASYM, 31, 0⟩
def Reg.TP_CNT.VIO : Fld := ⟨.TP_CNT, 31, 24⟩
def Reg.TP_CNT.IGN : Fld := ⟨.TP_CNT, 23, 16⟩
def Reg.TP_CNT.DROP : Fld := ⟨.TP_CNT, 15, 8⟩
def Reg.TP_CNT.OUTL : Fld := ⟨.TP_CNT, 7, 0⟩
def Reg.TMR_CFG.MODE : Fld := ⟨.TMR_CFG, 31, 31⟩
def Reg.TMR_CFG.POL : Fld := ⟨.TMR_CFG, 30, 30⟩
def Reg.TMR_CFG.PIN : Fld := ⟨.TMR_CFG, 6, 0⟩
def Reg.TMR_CTL.LATE : Fld := ⟨.TMR_CTL, 1, 1⟩
def Reg.TMR_CTL.ARM : Fld := ⟨.TMR_CTL, 0, 0⟩
def Reg.TMR_NS.NS : Fld := ⟨.TMR_NS, 29, 0⟩
def Reg.TMR_SEC_LO.SEC : Fld := ⟨.TMR_SEC_LO, 31, 0⟩
def Reg.TMR_SEC_HI.SEC : Fld := ⟨.TMR_SEC_HI, 15, 0⟩
def Reg.TMR_PER.PER : Fld := ⟨.TMR_PER, 31, 0⟩
def Reg.TMR_WID.WID : Fld := ⟨.TMR_WID, 31, 0⟩
def Reg.TMR_CNT.CNT : Fld := ⟨.TMR_CNT, 31, 0⟩
def Reg.LACE_ID.VALID : Fld := ⟨.LACE_ID, 31, 31⟩
def Reg.LACE_ID.NVSAVE : Fld := ⟨.LACE_ID, 30, 30⟩
def Reg.LACE_ID.ID : Fld := ⟨.LACE_ID, 17, 0⟩
def Reg.LACE_TCFG.ROLE : Fld := ⟨.LACE_TCFG, 31, 30⟩
def Reg.LACE_TCFG.LINK : Fld := ⟨.LACE_TCFG, 26, 24⟩
def Reg.LACE_TCFG.TOL : Fld := ⟨.LACE_TCFG, 15, 0⟩
def Reg.LACE_TSTAT.RHOPS : Fld := ⟨.LACE_TSTAT, 31, 28⟩
def Reg.LACE_TSTAT.FOLLOW : Fld := ⟨.LACE_TSTAT, 27, 27⟩
def Reg.LACE_TSTAT.LINK : Fld := ⟨.LACE_TSTAT, 26, 24⟩
def Reg.LACE_TSTAT.ROOT : Fld := ⟨.LACE_TSTAT, 17, 0⟩
def Reg.LC_CFG.EN : Fld := ⟨.LC_CFG, 31, 31⟩
def Reg.LC_CFG.IDLE_EN : Fld := ⟨.LC_CFG, 30, 30⟩
def Reg.LC_CFG.IDLE_AFTER : Fld := ⟨.LC_CFG, 29, 24⟩
def Reg.LC_CFG.VIO_LIM : Fld := ⟨.LC_CFG, 23, 16⟩
def Reg.LC_CFG.VIO_WIN : Fld := ⟨.LC_CFG, 15, 8⟩
def Reg.LC_CFG.QHOLD : Fld := ⟨.LC_CFG, 7, 0⟩
def Reg.LC_CTL.RELEASE : Fld := ⟨.LC_CTL, 1, 1⟩
def Reg.LC_CTL.RETRAIN : Fld := ⟨.LC_CTL, 0, 0⟩
def Reg.LC_STAT.STATE : Fld := ⟨.LC_STAT, 31, 29⟩
def Reg.LC_STAT.RXW : Fld := ⟨.LC_STAT, 28, 26⟩
def Reg.LC_STAT.TXW : Fld := ⟨.LC_STAT, 25, 23⟩
def Reg.LC_STAT.LANES : Fld := ⟨.LC_STAT, 19, 16⟩
def Reg.LC_STAT.ATTEMPT : Fld := ⟨.LC_STAT, 15, 12⟩
def Reg.LC_STAT.PLINK : Fld := ⟨.LC_STAT, 2, 0⟩
def Reg.LC_PARTNER.VALID : Fld := ⟨.LC_PARTNER, 31, 31⟩
def Reg.LC_PARTNER.PID : Fld := ⟨.LC_PARTNER, 17, 0⟩
def Reg.LC_CNT.VIO : Fld := ⟨.LC_CNT, 31, 24⟩
def Reg.LC_CNT.NAK : Fld := ⟨.LC_CNT, 23, 16⟩
def Reg.LC_CNT.REPLAY : Fld := ⟨.LC_CNT, 15, 8⟩
def Reg.LC_CNT.LOCKLOSS : Fld := ⟨.LC_CNT, 7, 0⟩
def Reg.LC_TOFS.THETA : Fld := ⟨.LC_TOFS, 31, 0⟩
def Reg.LC_DELAY.DELTA : Fld := ⟨.LC_DELAY, 31, 0⟩
def Reg.LC_ASYM.ASYM : Fld := ⟨.LC_ASYM, 15, 0⟩
def Reg.PCIE_CNT.VIO_CNT : Fld := ⟨.PCIE_CNT, 31, 16⟩
def Reg.PCIE_CNT.HERR_CNT : Fld := ⟨.PCIE_CNT, 15, 0⟩
def Reg.WIN_BASE_LO.ADDR_LO : Fld := ⟨.WIN_BASE_LO, 31, 12⟩
def Reg.WIN_BASE_HI.ADDR_HI : Fld := ⟨.WIN_BASE_HI, 31, 0⟩
def Reg.WIN_SIZE.PAGES : Fld := ⟨.WIN_SIZE, 31, 0⟩
def Reg.WIN_CTL.EN : Fld := ⟨.WIN_CTL, 31, 31⟩
def Reg.WIN_CTL.WR : Fld := ⟨.WIN_CTL, 30, 30⟩
def Reg.WIN_CTL.ALL : Fld := ⟨.WIN_CTL, 29, 29⟩
def Reg.WIN_CTL.CTX : Fld := ⟨.WIN_CTL, 9, 0⟩
def Reg.PWR_CTL.RUNG : Fld := ⟨.PWR_CTL, 2, 0⟩
def Reg.PWR_CFG.AUTO_WAKE : Fld := ⟨.PWR_CFG, 31, 31⟩
def Reg.PWR_CFG.VINS : Fld := ⟨.PWR_CFG, 3, 0⟩
def Reg.PWR_STAT.RUNG : Fld := ⟨.PWR_STAT, 31, 29⟩
def Reg.PWR_STAT.LEVEL : Fld := ⟨.PWR_STAT, 28, 25⟩
def Reg.PWR_STAT.ACTIONS : Fld := ⟨.PWR_STAT, 24, 19⟩
def Reg.PWR_STAT.THROT : Fld := ⟨.PWR_STAT, 18, 18⟩
def Reg.PWR_STAT.RELHOLD : Fld := ⟨.PWR_STAT, 17, 17⟩
def Reg.PWR_STAT.CUT : Fld := ⟨.PWR_STAT, 16, 16⟩
def Reg.PWR_STAT.POWER : Fld := ⟨.PWR_STAT, 15, 0⟩
def Reg.PWR_QSTAT.VINS : Fld := ⟨.PWR_QSTAT, 31, 28⟩
def Reg.PWR_QSTAT.LOW : Fld := ⟨.PWR_QSTAT, 7, 0⟩
def Reg.NV_STAT.BUSY : Fld := ⟨.NV_STAT, 31, 31⟩
def Reg.NV_STAT.REFUSE : Fld := ⟨.NV_STAT, 30, 30⟩
def Reg.NV_STAT.VALID : Fld := ⟨.NV_STAT, 5, 0⟩
def Reg.TS_VAL.BROKEN : Fld := ⟨.TS_VAL, 31, 31⟩
def Reg.TS_VAL.VALID : Fld := ⟨.TS_VAL, 30, 30⟩
def Reg.TS_VAL.SHUT : Fld := ⟨.TS_VAL, 29, 29⟩
def Reg.TS_VAL.THROT : Fld := ⟨.TS_VAL, 28, 28⟩
def Reg.TS_VAL.WARN : Fld := ⟨.TS_VAL, 27, 27⟩
def Reg.TS_VAL.RAW : Fld := ⟨.TS_VAL, 23, 12⟩
def Reg.TS_VAL.VALUE : Fld := ⟨.TS_VAL, 11, 0⟩
def Reg.CAL_CTL.SAVE : Fld := ⟨.CAL_CTL, 0, 0⟩
def Reg.CAL_STAT.BUSY : Fld := ⟨.CAL_STAT, 31, 31⟩
def Reg.CAL_STAT.STAGED : Fld := ⟨.CAL_STAT, 30, 30⟩
def Reg.CAL_STAT.NVBUSY : Fld := ⟨.CAL_STAT, 29, 29⟩
def Reg.CAL_STAT.TARGET : Fld := ⟨.CAL_STAT, 11, 9⟩
def Reg.CAL_STAT.UNIT : Fld := ⟨.CAL_STAT, 8, 0⟩
def Reg.CAL_BG.TEL_PERIOD : Fld := ⟨.CAL_BG, 15, 0⟩
def Reg.CAL_DAC_IL.SKEW : Fld := ⟨.CAL_DAC_IL, 23, 0⟩
def Reg.CAL_ADC_IL.SKEW : Fld := ⟨.CAL_ADC_IL, 23, 0⟩
def Reg.CAL_PORT.DELAY : Fld := ⟨.CAL_PORT, 7, 0⟩
def Reg.CAL_THRESH.TRIM : Fld := ⟨.CAL_THRESH, 6, 0⟩
def Reg.CAL_LANE.LANES : Fld := ⟨.CAL_LANE, 31, 0⟩
def Reg.CAL_MON.VALUE : Fld := ⟨.CAL_MON, 23, 0⟩
def Reg.MON_CFG.SCAN_EN : Fld := ⟨.MON_CFG, 31, 31⟩
def Reg.MON_CFG.PD_EN : Fld := ⟨.MON_CFG, 30, 30⟩
def Reg.MON_CFG.SCAN_LEN : Fld := ⟨.MON_CFG, 22, 16⟩
def Reg.MON_CFG.CTX : Fld := ⟨.MON_CFG, 9, 0⟩
def Reg.MON_SCAN.PERIOD : Fld := ⟨.MON_SCAN, 15, 0⟩
def Reg.MON_STAT.INJ_OVR : Fld := ⟨.MON_STAT, 31, 16⟩
def Reg.MON_STAT.PD : Fld := ⟨.MON_STAT, 15, 15⟩
def Reg.MON_STAT.QUEUED : Fld := ⟨.MON_STAT, 14, 14⟩
def Reg.MON_STAT.STATE : Fld := ⟨.MON_STAT, 13, 12⟩
def Reg.MON_STAT.ENTRY : Fld := ⟨.MON_STAT, 5, 0⟩
def Reg.MON_INJ.GO : Fld := ⟨.MON_INJ, 31, 31⟩
def Reg.MON_INJ.SET : Fld := ⟨.MON_INJ, 13, 12⟩
def Reg.MON_INJ.CH : Fld := ⟨.MON_INJ, 9, 0⟩
def Reg.MON_TRIG.TSRC : Fld := ⟨.MON_TRIG, 30, 24⟩
def Reg.MON_TRIG.TSET : Fld := ⟨.MON_TRIG, 13, 12⟩
def Reg.MON_TRIG.TCH : Fld := ⟨.MON_TRIG, 9, 0⟩
def Reg.MON_IRES.WORD : Fld := ⟨.MON_IRES, 31, 0⟩
def Reg.MON_SET.MSET : Fld := ⟨.MON_SET, 15, 8⟩
def Reg.MON_SET.NOTCH : Fld := ⟨.MON_SET, 7, 6⟩
def Reg.MON_SET.FILT : Fld := ⟨.MON_SET, 5, 4⟩
def Reg.MON_SET.ODR : Fld := ⟨.MON_SET, 3, 0⟩
def Reg.MON_CHK.TOL : Fld := ⟨.MON_CHK, 23, 0⟩
def Reg.MON_LIST.CHECK : Fld := ⟨.MON_LIST, 15, 15⟩
def Reg.MON_LIST.SET : Fld := ⟨.MON_LIST, 13, 12⟩
def Reg.MON_LIST.CH : Fld := ⟨.MON_LIST, 9, 0⟩
def Reg.MON_RES.WORD : Fld := ⟨.MON_RES, 31, 0⟩
def Reg.AWL_CFG.CTX : Fld := ⟨.AWL_CFG, 9, 0⟩
def Reg.AWL_CNT.DROP : Fld := ⟨.AWL_CNT, 31, 0⟩
def Reg.AWL_IN_CFG.EN : Fld := ⟨.AWL_IN_CFG, 31, 31⟩
def Reg.AWL_IN_CFG.MODE : Fld := ⟨.AWL_IN_CFG, 30, 29⟩
def Reg.AWL_IN_CFG.EDGE : Fld := ⟨.AWL_IN_CFG, 28, 27⟩
def Reg.AWL_IN_CFG.STOP : Fld := ⟨.AWL_IN_CFG, 20, 16⟩
def Reg.AWL_IN_CFG.HOLDOFF : Fld := ⟨.AWL_IN_CFG, 15, 8⟩
def Reg.AWL_IN_CFG2.THR : Fld := ⟨.AWL_IN_CFG2, 25, 16⟩
def Reg.AWL_IN_CFG2.HYST : Fld := ⟨.AWL_IN_CFG2, 5, 0⟩
def Reg.AWL_IN_TIME.GATE : Fld := ⟨.AWL_IN_TIME, 31, 12⟩
def Reg.AWL_IN_TIME.WIN : Fld := ⟨.AWL_IN_TIME, 11, 0⟩
def Reg.AWL_IN_CNT.IGN : Fld := ⟨.AWL_IN_CNT, 31, 16⟩
def Reg.AWL_IN_CNT.UNPAIR : Fld := ⟨.AWL_IN_CNT, 15, 0⟩
def Reg.FF_CFG.FIR_EN : Fld := ⟨.FF_CFG, 8, 8⟩
def Reg.FF_CFG.IIR_EN : Fld := ⟨.FF_CFG, 3, 0⟩
def Reg.FF_CTL.CLR : Fld := ⟨.FF_CTL, 1, 1⟩
def Reg.FF_CTL.ENABLE : Fld := ⟨.FF_CTL, 0, 0⟩
def Reg.FF_STAT.CLIP_CNT : Fld := ⟨.FF_STAT, 31, 16⟩
def Reg.FF_STAT.FAULT_CAUSE : Fld := ⟨.FF_STAT, 15, 8⟩
def Reg.FF_STAT.STATE : Fld := ⟨.FF_STAT, 1, 0⟩
def Reg.FF_LEVEL.GAIN : Fld := ⟨.FF_LEVEL, 31, 16⟩
def Reg.FF_LEVEL.OFFSET : Fld := ⟨.FF_LEVEL, 15, 0⟩
def Reg.FF_IIR_A.A : Fld := ⟨.FF_IIR_A, 19, 0⟩
def Reg.FF_IIR_ALPHA.ALPHA : Fld := ⟨.FF_IIR_ALPHA, 23, 0⟩
def Reg.FF_FIR.TAP_HI : Fld := ⟨.FF_FIR, 31, 16⟩
def Reg.FF_FIR.TAP_LO : Fld := ⟨.FF_FIR, 15, 0⟩
def Reg.BIA_CFG.OACT : Fld := ⟨.BIA_CFG, 29, 28⟩
def Reg.BIA_CFG.CACT : Fld := ⟨.BIA_CFG, 27, 26⟩
def Reg.BIA_CFG.VLIM : Fld := ⟨.BIA_CFG, 25, 21⟩
def Reg.BIA_CFG.RAMP : Fld := ⟨.BIA_CFG, 17, 16⟩
def Reg.BIA_CFG.RANGE : Fld := ⟨.BIA_CFG, 1, 0⟩
def Reg.BIA_CTL.REARM : Fld := ⟨.BIA_CTL, 0, 0⟩
def Reg.BIA_STAT.CODE : Fld := ⟨.BIA_STAT, 31, 12⟩
def Reg.BIA_STAT.RANGE : Fld := ⟨.BIA_STAT, 11, 10⟩
def Reg.BIA_STAT.OPEN : Fld := ⟨.BIA_STAT, 4, 4⟩
def Reg.BIA_STAT.COMPL : Fld := ⟨.BIA_STAT, 3, 3⟩
def Reg.BIA_STAT.STATE : Fld := ⟨.BIA_STAT, 1, 0⟩
def Reg.BW_A.START : Fld := ⟨.BW_A, 17, 0⟩
def Reg.BW_B.MODE : Fld := ⟨.BW_B, 31, 31⟩
def Reg.BW_B.LENGTH : Fld := ⟨.BW_B, 28, 16⟩
def Reg.BW_B.PERIOD : Fld := ⟨.BW_B, 15, 0⟩
def Reg.BIAS_GCTL.T2MODE : Fld := ⟨.BIAS_GCTL, 0, 0⟩
def Reg.BIAS_NVCTL.VALID : Fld := ⟨.BIAS_NVCTL, 2, 2⟩
def Reg.BIAS_NVCTL.BUSY : Fld := ⟨.BIAS_NVCTL, 1, 1⟩
def Reg.BIAS_NVCTL.SAVE : Fld := ⟨.BIAS_NVCTL, 0, 0⟩
def Reg.DP_CTL.AUTO_REPAIR : Fld := ⟨.DP_CTL, 3, 3⟩
def Reg.DP_CTL.SELFCHK : Fld := ⟨.DP_CTL, 2, 2⟩
def Reg.DP_CTL.REPAIR : Fld := ⟨.DP_CTL, 1, 1⟩
def Reg.DP_CTL.HANDOVER : Fld := ⟨.DP_CTL, 0, 0⟩
def Reg.DP_STAT.SUSPECT : Fld := ⟨.DP_STAT, 14, 14⟩
def Reg.DP_STAT.SELFCHK : Fld := ⟨.DP_STAT, 13, 13⟩
def Reg.DP_STAT.LINK : Fld := ⟨.DP_STAT, 12, 12⟩
def Reg.DP_STAT.PATHS : Fld := ⟨.DP_STAT, 11, 8⟩
def Reg.DP_STAT.PF1 : Fld := ⟨.DP_STAT, 7, 7⟩
def Reg.DP_STAT.PF0 : Fld := ⟨.DP_STAT, 6, 6⟩
def Reg.DP_STAT.STATE1 : Fld := ⟨.DP_STAT, 5, 4⟩
def Reg.DP_STAT.STATE0 : Fld := ⟨.DP_STAT, 3, 2⟩
def Reg.DP_STAT.OWNER : Fld := ⟨.DP_STAT, 1, 0⟩
def Reg.DP_CNT.DIS_CNT : Fld := ⟨.DP_CNT, 31, 16⟩
def Reg.DP_CNT.PATHF_CNT : Fld := ⟨.DP_CNT, 15, 8⟩
def Reg.DP_CNT.NOROUTE : Fld := ⟨.DP_CNT, 7, 0⟩
def Reg.DP_EMUTE.ACTIVE : Fld := ⟨.DP_EMUTE, 15, 0⟩
def Reg.DP_EMUTE_SW.ASSERT : Fld := ⟨.DP_EMUTE_SW, 15, 0⟩
def Reg.DP_RT0.SLOT : Fld := ⟨.DP_RT0, 25, 22⟩
def Reg.DP_RT0.UNIT : Fld := ⟨.DP_RT0, 21, 16⟩
def Reg.DP_RT0.DSTSET : Fld := ⟨.DP_RT0, 15, 8⟩
def Reg.DP_RT0.VAL : Fld := ⟨.DP_RT0, 5, 4⟩
def Reg.DP_RT0.MODE : Fld := ⟨.DP_RT0, 2, 0⟩
def Reg.DP_RT1.OUT_TGT : Fld := ⟨.DP_RT1, 11, 0⟩
def Reg.DS_MASK_LO.MASK : Fld := ⟨.DS_MASK_LO, 31, 0⟩
def Reg.DS_MASK_HI.MASK : Fld := ⟨.DS_MASK_HI, 31, 0⟩
def Reg.DS_CTL.REMOTE_EN : Fld := ⟨.DS_CTL, 31, 31⟩
def Reg.DS_CTL.REMOTE_DEV : Fld := ⟨.DS_CTL, 29, 12⟩
def Reg.DS_CTL.MGRP : Fld := ⟨.DS_CTL, 11, 8⟩
def Reg.DS_CTL.ACTION : Fld := ⟨.DS_CTL, 5, 4⟩
def Reg.DS_CTL.REC : Fld := ⟨.DS_CTL, 2, 2⟩
def Reg.DS_CTL.LOCAL : Fld := ⟨.DS_CTL, 0, 0⟩
def Reg.LUT_CFG.DSTSET : Fld := ⟨.LUT_CFG, 31, 24⟩
def Reg.LUT_CFG.OUT_TGT : Fld := ⟨.LUT_CFG, 23, 12⟩
def Reg.LUT_CFG.IN_MASK : Fld := ⟨.LUT_CFG, 11, 0⟩
def Reg.PM_CFG.OUT_TGT : Fld := ⟨.PM_CFG, 27, 16⟩
def Reg.PM_CFG.IN_MASK : Fld := ⟨.PM_CFG, 15, 0⟩
def Reg.PM_CFG2.CMIN : Fld := ⟨.PM_CFG2, 12, 8⟩
def Reg.PM_CFG2.DSTSET : Fld := ⟨.PM_CFG2, 7, 0⟩
def Reg.EMG_RF.MASK : Fld := ⟨.EMG_RF, 31, 0⟩
def Reg.EMG_FF.MASK : Fld := ⟨.EMG_FF, 31, 0⟩
def Reg.DP_LUT.ENTRIES : Fld := ⟨.DP_LUT, 31, 0⟩
def Reg.DEC_CFG.EDGE_REC : Fld := ⟨.DEC_CFG, 2, 2⟩
def Reg.DEC_CFG.REC : Fld := ⟨.DEC_CFG, 1, 1⟩
def Reg.DEC_CFG.EN : Fld := ⟨.DEC_CFG, 0, 0⟩
def Reg.DEC_OUT.DSTSET : Fld := ⟨.DEC_OUT, 31, 24⟩
def Reg.DEC_OUT.OUT_TGT : Fld := ⟨.DEC_OUT, 23, 12⟩
def Reg.DEC_WAIT.REMOTE_WAIT : Fld := ⟨.DEC_WAIT, 31, 16⟩
def Reg.DEC_WAIT.ROUND_WAIT : Fld := ⟨.DEC_WAIT, 15, 0⟩
def Reg.DEC_STAT.ROUND : Fld := ⟨.DEC_STAT, 31, 16⟩
def Reg.DEC_STAT.LOADED : Fld := ⟨.DEC_STAT, 15, 15⟩
def Reg.DEC_STAT.WINDOW : Fld := ⟨.DEC_STAT, 6, 0⟩
def Reg.DEC_CNT.LATE : Fld := ⟨.DEC_CNT, 31, 24⟩
def Reg.DEC_CNT.NOMAP : Fld := ⟨.DEC_CNT, 23, 16⟩
def Reg.DEC_CNT.ERASE : Fld := ⟨.DEC_CNT, 15, 8⟩
def Reg.DEC_CNT.OVF : Fld := ⟨.DEC_CNT, 7, 0⟩
def Reg.DT_STAT.PEAK : Fld := ⟨.DT_STAT, 31, 16⟩
def Reg.DT_STAT.NODES : Fld := ⟨.DT_STAT, 10, 0⟩
def Reg.CH_CFG.ATTEN : Fld := ⟨.CH_CFG, 11, 8⟩
def Reg.CH_CFG.SUM_SHIFT : Fld := ⟨.CH_CFG, 7, 5⟩
def Reg.CH_CFG.ZONE : Fld := ⟨.CH_CFG, 1, 0⟩
def Reg.CH_CTL.ENABLE : Fld := ⟨.CH_CTL, 0, 0⟩
def Reg.CH_STAT.CLIP_CNT : Fld := ⟨.CH_STAT, 31, 16⟩
def Reg.CH_STAT.FAULT_CAUSE : Fld := ⟨.CH_STAT, 15, 8⟩
def Reg.CH_STAT.STATE : Fld := ⟨.CH_STAT, 1, 0⟩
def Reg.GEN_FREQ_LO.FREQ_LO : Fld := ⟨.GEN_FREQ_LO, 31, 0⟩
def Reg.GEN_FREQ_HI.FREQ_HI : Fld := ⟨.GEN_FREQ_HI, 15, 0⟩
def Reg.GEN_PHASE.INIT : Fld := ⟨.GEN_PHASE, 31, 0⟩
def Reg.GEN_GAIN.GAIN : Fld := ⟨.GEN_GAIN, 15, 0⟩
def Reg.GEN_CTL.FOLLOW_SRC : Fld := ⟨.GEN_CTL, 9, 2⟩
def Reg.GEN_CTL.FOLLOW_EN : Fld := ⟨.GEN_CTL, 1, 1⟩
def Reg.GEN_CTL.PHASE_REF : Fld := ⟨.GEN_CTL, 0, 0⟩
def Reg.IN_CFG.ATTEN : Fld := ⟨.IN_CFG, 11, 8⟩
def Reg.IN_CFG.ZONE : Fld := ⟨.IN_CFG, 1, 0⟩
def Reg.IN_STAT.OVR_CNT : Fld := ⟨.IN_STAT, 31, 16⟩
def Reg.CAP_CFG.MASK : Fld := ⟨.CAP_CFG, 31, 16⟩
def Reg.CAP_CFG.SHIFT : Fld := ⟨.CAP_CFG, 15, 12⟩
def Reg.CAP_CFG.D : Fld := ⟨.CAP_CFG, 11, 8⟩
def Reg.CAP_CFG.GATE : Fld := ⟨.CAP_CFG, 5, 4⟩
def Reg.CAP_CFG.TAP : Fld := ⟨.CAP_CFG, 0, 0⟩
def Reg.CAP_STAT.DROP_CNT : Fld := ⟨.CAP_STAT, 31, 16⟩
def Reg.CAP_STAT.SUSP : Fld := ⟨.CAP_STAT, 0, 0⟩
def Reg.DDC_FREQ_LO.FREQ_LO : Fld := ⟨.DDC_FREQ_LO, 31, 0⟩
def Reg.DDC_FREQ_HI.FREQ_HI : Fld := ⟨.DDC_FREQ_HI, 15, 0⟩
def Reg.DDC_PHASE.INIT : Fld := ⟨.DDC_PHASE, 31, 0⟩
def Reg.DDC_CTL.PHASE_REF : Fld := ⟨.DDC_CTL, 0, 0⟩
def Reg.KS_CFG.LUT_SEL : Fld := ⟨.KS_CFG, 31, 24⟩
def Reg.KS_CFG.KSHIFT : Fld := ⟨.KS_CFG, 23, 18⟩
def Reg.KS_CFG.LINES : Fld := ⟨.KS_CFG, 17, 16⟩
def Reg.KS_CFG.MODE : Fld := ⟨.KS_CFG, 15, 15⟩
def Reg.KS_CFG.DEC : Fld := ⟨.KS_CFG, 14, 12⟩
def Reg.KS_CFG.KERNEL : Fld := ⟨.KS_CFG, 11, 0⟩
def Reg.KS_LAB.A : Fld := ⟨.KS_LAB, 31, 16⟩
def Reg.KS_LAB.B : Fld := ⟨.KS_LAB, 15, 0⟩
def Reg.KS_LC.C : Fld := ⟨.KS_LC, 31, 0⟩
def Reg.KS_MAP.GSH : Fld := ⟨.KS_MAP, 27, 24⟩
def Reg.KS_MAP.CSH : Fld := ⟨.KS_MAP, 20, 16⟩
def Reg.KS_MAP.REGION_MAP : Fld := ⟨.KS_MAP, 15, 0⟩
def Reg.KS_GRID.GI0 : Fld := ⟨.KS_GRID, 31, 16⟩
def Reg.KS_GRID.GQ0 : Fld := ⟨.KS_GRID, 15, 0⟩
def Reg.KS_CENT.I : Fld := ⟨.KS_CENT, 31, 16⟩
def Reg.KS_CENT.Q : Fld := ⟨.KS_CENT, 15, 0⟩
def Reg.KS_TRK.TRK_EN : Fld := ⟨.KS_TRK, 31, 31⟩
def Reg.KS_TRK.TRK_SH : Fld := ⟨.KS_TRK, 27, 24⟩
def Reg.KS_TRK.TRK_MINC : Fld := ⟨.KS_TRK, 20, 16⟩
def Reg.KS_TRK.TRK_LIM : Fld := ⟨.KS_TRK, 14, 0⟩
def Reg.KS_DRIFT.DI : Fld := ⟨.KS_DRIFT, 31, 16⟩
def Reg.KS_DRIFT.DQ : Fld := ⟨.KS_DRIFT, 15, 0⟩
def Reg.KS_TRKCTL.RESET : Fld := ⟨.KS_TRKCTL, 31, 31⟩
def Reg.KS_TRKCTL.NSHOT : Fld := ⟨.KS_TRKCTL, 8, 0⟩
def Reg.LUT_WORD.ENT3 : Fld := ⟨.LUT_WORD, 30, 24⟩
def Reg.LUT_WORD.ENT2 : Fld := ⟨.LUT_WORD, 22, 16⟩
def Reg.LUT_WORD.ENT1 : Fld := ⟨.LUT_WORD, 14, 8⟩
def Reg.LUT_WORD.ENT0 : Fld := ⟨.LUT_WORD, 6, 0⟩
def Reg.WELT_CTL.LATE_POLICY : Fld := ⟨.WELT_CTL, 1, 0⟩
def Reg.WELT_STAT.LATE_CNT : Fld := ⟨.WELT_STAT, 31, 16⟩
def Reg.WELT_STAT.HALTED : Fld := ⟨.WELT_STAT, 9, 9⟩
def Reg.WELT_STAT.DEPTH : Fld := ⟨.WELT_STAT, 8, 0⟩
def Reg.SEQ_CFG.REANCHOR_MAX : Fld := ⟨.SEQ_CFG, 31, 16⟩
def Reg.SEQ_CFG.SYNC_TIMEOUT : Fld := ⟨.SEQ_CFG, 15, 8⟩
def Reg.SEQ_CFG.TRIG_SRC : Fld := ⟨.SEQ_CFG, 5, 0⟩
def Reg.SEQ_CTL.TRIG_SW : Fld := ⟨.SEQ_CTL, 0, 0⟩
def Reg.SEQ_STAT.TRIG_OVR : Fld := ⟨.SEQ_STAT, 31, 16⟩
def Reg.SEQ_STAT.STATE : Fld := ⟨.SEQ_STAT, 15, 12⟩
def Reg.SEQ_STAT.PC : Fld := ⟨.SEQ_STAT, 11, 0⟩
def Reg.SEQ_CNT.MISS_CNT : Fld := ⟨.SEQ_CNT, 31, 16⟩
def Reg.SEQ_CNT.SHIFT_CNT : Fld := ⟨.SEQ_CNT, 15, 0⟩
def Reg.DSP_CTL.ENTRY : Fld := ⟨.DSP_CTL, 11, 0⟩
def Reg.DSP_STAT.STATE : Fld := ⟨.DSP_STAT, 15, 14⟩
def Reg.DSP_STAT.PC : Fld := ⟨.DSP_STAT, 11, 0⟩
def Reg.DSP_BOUND.BOUND : Fld := ⟨.DSP_BOUND, 15, 0⟩
def Reg.DSP_IBUF.ILEN : Fld := ⟨.DSP_IBUF, 30, 16⟩
def Reg.DSP_IBUF.IBASE : Fld := ⟨.DSP_IBUF, 13, 0⟩
def Reg.DSP_CNT.DROP_CNT : Fld := ⟨.DSP_CNT, 31, 16⟩
def Reg.DSP_CNT.OVR_CNT : Fld := ⟨.DSP_CNT, 15, 0⟩
def Reg.DSP_ROUTE.ROUTE15 : Fld := ⟨.DSP_ROUTE, 31, 30⟩
def Reg.DSP_ROUTE.ROUTE14 : Fld := ⟨.DSP_ROUTE, 29, 28⟩
def Reg.DSP_ROUTE.ROUTE13 : Fld := ⟨.DSP_ROUTE, 27, 26⟩
def Reg.DSP_ROUTE.ROUTE12 : Fld := ⟨.DSP_ROUTE, 25, 24⟩
def Reg.DSP_ROUTE.ROUTE11 : Fld := ⟨.DSP_ROUTE, 23, 22⟩
def Reg.DSP_ROUTE.ROUTE10 : Fld := ⟨.DSP_ROUTE, 21, 20⟩
def Reg.DSP_ROUTE.ROUTE9 : Fld := ⟨.DSP_ROUTE, 19, 18⟩
def Reg.DSP_ROUTE.ROUTE8 : Fld := ⟨.DSP_ROUTE, 17, 16⟩
def Reg.DSP_ROUTE.ROUTE7 : Fld := ⟨.DSP_ROUTE, 15, 14⟩
def Reg.DSP_ROUTE.ROUTE6 : Fld := ⟨.DSP_ROUTE, 13, 12⟩
def Reg.DSP_ROUTE.ROUTE5 : Fld := ⟨.DSP_ROUTE, 11, 10⟩
def Reg.DSP_ROUTE.ROUTE4 : Fld := ⟨.DSP_ROUTE, 9, 8⟩
def Reg.DSP_ROUTE.ROUTE3 : Fld := ⟨.DSP_ROUTE, 7, 6⟩
def Reg.DSP_ROUTE.ROUTE2 : Fld := ⟨.DSP_ROUTE, 5, 4⟩
def Reg.DSP_ROUTE.ROUTE1 : Fld := ⟨.DSP_ROUTE, 3, 2⟩
def Reg.DSP_ROUTE.ROUTE0 : Fld := ⟨.DSP_ROUTE, 1, 0⟩
def Reg.ENG_CFG.AUTO_REPAIR : Fld := ⟨.ENG_CFG, 1, 1⟩
def Reg.ENG_CFG.STANDBY : Fld := ⟨.ENG_CFG, 0, 0⟩
def Reg.ENG_STAT.SYNC : Fld := ⟨.ENG_STAT, 9, 9⟩
def Reg.ENG_STAT.WARM : Fld := ⟨.ENG_STAT, 8, 8⟩
def Reg.ENG_STAT.STATE1 : Fld := ⟨.ENG_STAT, 5, 4⟩
def Reg.ENG_STAT.STATE0 : Fld := ⟨.ENG_STAT, 3, 2⟩
def Reg.ENG_STAT.ACTIVE : Fld := ⟨.ENG_STAT, 0, 0⟩
def Reg.ENG_CNT.SWITCH : Fld := ⟨.ENG_CNT, 31, 24⟩
def Reg.ENG_CNT.ABANDON : Fld := ⟨.ENG_CNT, 15, 0⟩
def Reg.ENG_CTL.REPAIR : Fld := ⟨.ENG_CTL, 0, 0⟩
def Reg.ENG_PATCH.VERSION : Fld := ⟨.ENG_PATCH, 31, 16⟩
def Reg.ENG_PATCH.RESULT : Fld := ⟨.ENG_PATCH, 3, 2⟩
def Reg.ENG_PATCH.TRIED : Fld := ⟨.ENG_PATCH, 1, 0⟩
def Reg.ENG_MATCH.EN : Fld := ⟨.ENG_MATCH, 31, 31⟩
def Reg.ENG_MATCH.ROM_ADDR : Fld := ⟨.ENG_MATCH, 30, 16⟩
def Reg.ENG_MATCH.PATCH_ADDR : Fld := ⟨.ENG_MATCH, 9, 0⟩
def Reg.DG_FAULT.ACT : Fld := ⟨.DG_FAULT, 31, 29⟩
def Reg.DG_FAULT.SAFE : Fld := ⟨.DG_FAULT, 23, 20⟩
def Reg.DG_FAULT.TMODE : Fld := ⟨.DG_FAULT, 15, 15⟩
def Reg.DG_FAULT.DEG : Fld := ⟨.DG_FAULT, 4, 0⟩
def Reg.DG_ECC.UE : Fld := ⟨.DG_ECC, 31, 16⟩
def Reg.DG_ECC.CE : Fld := ⟨.DG_ECC, 15, 0⟩

/-- The BAR0 offset of a register at an index (one number per repeat). -/
def regOffset : List (Nat × Nat) → List Nat → Nat
  | (_, st) :: ds, i :: is => i * st + regOffset ds is
  | _, _ => 0

def regAddr (r : RegName) (idx : List Nat) : Nat := (regSpec r).base + regOffset (regSpec r).dims idx

/-- The index a BAR0 offset within a register's repeats names, if it names one exactly. -/
def regIndex : List (Nat × Nat) → Nat → Option (List Nat)
  | [], 0 => some []
  | [], _ + 1 => none
  | (c, st) :: ds, off =>
    if off / st < c then (regIndex ds (off % st)).map (off / st :: ·) else none

def regAt (r : RegName) (addr : Nat) : Option (List Nat) :=
  if addr < (regSpec r).base then none else regIndex (regSpec r).dims (addr - (regSpec r).base)

/-- The register at a BAR0 offset (R449). -/
def regFindIn : List RegName → Nat → Option (RegName × List Nat)
  | [], _ => none
  | r :: rs, a =>
    match regAt r a with
    | some i => some (r, i)
    | none => regFindIn rs a

def regFind (addr : Nat) : Option (RegName × List Nat) := regFindIn allRegs addr

/-- The reset value of a register at an index. -/
def resetWord (r : RegName) (idx : List Nat) : Word :=
  BitVec.ofNat 32 ((regSpec r).fields.foldl (fun a f => a + f.reset idx * 2 ^ f.lo) 0)

/-- R458: the value a field takes when `v` is written to it at index `idx`. -/
def clampField (f : FieldSpec) (idx : List Nat) (v : Nat) : Nat :=
  match f.clamp with
  | .none => v
  | .range lo hi => clampNat lo hi v
  | .srange lo hi => wrapInt (f.hi + 1 - f.lo) (clampInt lo hi (signedOf (f.hi + 1 - f.lo) v))
  | .zeroOr lo hi => if v = 0 then 0 else clampNat lo hi v
  | .monCh =>
    if 272 ≤ v && v ≤ 511 then 271 else if 768 ≤ v && v ≤ 1023 then 767 else v
  | .sumShift => if idx.getLastD 0 < 32 then clampNat 0 2 v else clampNat 0 4 v

/-- Whether a field's values are signed, so that the clamp log extends their sign (R462). -/
def fieldSigned (f : FieldSpec) : Bool :=
  match f.clamp with
  | .srange _ _ => true
  | _ => false

end Sys2Proof.Machine
end

