-- ==== Sys2Proof/Machine/State.lean ====
section
/-! DEFINITION. The state of the part as plain data: every register, queue, buffer, counter, mode and
pin the spec gives it, and the queue of waiting commands. INVENTORY.md lists each piece with its
rule and its reset value. -/

namespace Sys2Proof.Machine

/-! ### Device time (chapter 02) -/

/-- R47 to R57, R80: the tick count of the reference-derived clocks, device time, the value of it
held in the insole (R63), its domain, holds and holdover, and the last snapshot. -/
structure TimeSt where
  /-- ticks of the reference-derived clocks since power-up (R56) -/
  now : Nat := 0
  dev : DevTime := {}
  /-- R63: the device time now held in the insole, which coarse stamps take -/
  coarse : DevTime := {}
  domain : BitVec 2 := 0
  holding : Bool := false
  holdLeft : Nat := 0
  /-- the whole length of the hold in progress -/
  holdLen : Nat := 0
  holdover : Bool := false
  lostAt : Nat := 0
  /-- R734: the synthesizers are locked and device time runs -/
  locked : Bool := false
  snap : Stamp := {}
  /-- R80: the tick at which the next horizon record is due -/
  hznNext : Nat := 0
deriving DecidableEq, Repr

/-! ### Registers, commit and the clamp log (chapter 12) -/

/-- The BAR0 registers: shadow and live copies of the double-buffered ones (R453), and the others.
A table lists only registers that differ from their reset value. -/
structure RegSt where
  shadow : Table Word := []
  live : Table Word := []
  direct : Table Word := []
deriving DecidableEq, Repr

/-- R462: one entry of the clamp log. -/
structure ClampEntry where
  id : Word := 0
  aux : Word := 0
  written : BitVec 64 := 0
  used : BitVec 64 := 0
  stamp : Stamp := {}
  num : Word := 0
deriving DecidableEq, Repr

/-- R453 to R466: commit state and the clamp log. -/
structure CfgSt where
  pending : Bool := false
  /-- R453: a further commit was requested after the boundary work of the pending one started -/
  again : Bool := false
  /-- R454: writes to double-buffered registers held back until the copy has ended -/
  heldWrites : List (Nat × Word) := []
  /-- R457, R464: the cross-field clamps of the commit in progress, stamped when it is live -/
  xlog : List (Word × Word × BitVec 64 × BitVec 64) := []
  cseq : BitVec 15 := 0
  xclamp : Nat := 0
  clampNum : Word := 0
  clampLog : Table ClampEntry := []
deriving DecidableEq, Repr

/-! ### Records and host memory writes (chapters 02, 12, 13) -/

/-- R492: the ring of a context a record goes to. -/
inductive Ring where
  | result | event
deriving DecidableEq, Repr

/-- R84: a record held by its source until it can be numbered and posted. -/
structure Held where
  ctx : Nat := 0
  ring : Ring := .event
  src : Nat := 0
  kind : Nat := 0
  flags : Nat := 0
  stamp : Stamp := {}
  /-- bytes 0x14 to 0x1F, little-endian -/
  body : BitVec 96 := 0
  /-- the record is one of the running job's (R35, RECLOST of R490) -/
  ofJob : Bool := false
deriving DecidableEq, Repr

/-- What the device sends to the host: a write to host memory or an MSI-X message (R468). -/
inductive HostOut where
  | write (addr : Nat) (data : List Byte)
  | msix (vector : Nat) (addr : Nat) (data : Word)
  /-- a read of host memory that the device issues -/
  | read (addr : Nat) (len : Nat)
deriving DecidableEq, Repr

/-- R81 to R84, R467, R468: held records, sequence counters, and the interrupt path. -/
structure RecSt where
  held : List Held := []
  seq : Table Word := []
  /-- R468: per vector, the tick of its last message plus one (0: none yet) -/
  lastMsg : Table Nat := []
  /-- R468: vectors signalled within their holdoff -/
  heldVec : List Nat := []
  /-- MSI-X pending bits, by vector -/
  pba : Table Bool := []
  /-- the function mask of the MSI-X capability -/
  funcMask : Bool := false
  /-- R585: the tick at which the awl FIFO can give its next record -/
  awlNext : Nat := 0
  /-- everything sent to the host, newest first -/
  out : List HostOut := []
deriving DecidableEq, Repr

/-! ### Contexts, rings and descriptors (chapter 13) -/

/-- R480, R740: how far a fetched descriptor has come. -/
inductive DescPhase where
  /-- fetched, not started -/
  | fetched
  /-- started; the read of its data from host memory is outstanding -/
  | reading
  /-- started; its data has arrived -/
  | loaded
  /-- R740: started, waits for the job boundary or idle, holding no data -/
  | deferred
  /-- a PLACE, CALIBRATE or sealed load under way -/
  | working
  /-- a RUN or CAPTURE that is ready to start under R18 -/
  | ready
  /-- the running job -/
  | running
deriving DecidableEq, Repr

/-- A fetched and uncompleted submission entry (R479). -/
structure Desc where
  index : Nat := 0
  bytes : List Byte := []
  phase : DescPhase := .fetched
  data : List Byte := []
  /-- CLAMPED and RECLOST of CFLAGS (R486) -/
  clamped : Bool := false
  recLost : Bool := false
deriving DecidableEq, Repr

/-- R471 to R502: what the device holds of one context beside its registers. -/
structure Ctx where
  subHead : Nat := 0
  subTail : Nat := 0
  cplTail : Nat := 0
  cplHead : Nat := 0
  resTail : Nat := 0
  resHead : Nat := 0
  evtTail : Nat := 0
  evtHead : Nat := 0
  capTail : Nat := 0
  capHead : Nat := 0
  resLost : Word := 0
  evtLost : Word := 0
  quar : Bool := false
  /-- R500: the ticks of the violations within the sliding interval, newest first -/
  vios : List Nat := []
  fetched : List Desc := []
deriving DecidableEq, Repr

/-- R441 to R446, R479, R494: the PCI Express function and outstanding host memory reads. -/
structure HostSt where
  reads : List ReadFor := []
  d3hot : Bool := false
  /-- R445: completions held while the function is in D3hot: context and entry -/
  heldCpl : List (Nat × List Byte × Bool) := []
  /-- the value of the last register read (R448) -/
  readData : BitVec 64 := 0
  /-- link: FLIT, rate code, trained width, active width under L0p; and the conditions of R443 -/
  flit : Bool := false
  rate : Nat := 0
  width : Nat := 0
  l0p : Nat := 0
  mps256 : Bool := true
  tags10 : Bool := true
  linkLow : Nat := 0
  perst : Bool := false
deriving DecidableEq, Repr

/-! ### Jobs, shots and boundaries (chapter 01) -/

/-- R19 to R21: where the device stands between jobs and shots. -/
inductive JobPhase where
  | idle
  /-- a job's sequencers are armed and its first shot has not started -/
  | armed
  | inShot
  /-- between two shots of one job -/
  | shotBoundary
deriving DecidableEq, Repr

/-- The running job (R17, R483 RUN and CAPTURE). -/
structure Job where
  ctx : Nat := 0
  index : Nat := 0
  capture : Bool := false
  shots : Nat := 1
  period : Nat := 0
  /-- R29, R61: the named start time in ns of device time -/
  start : Option Nat := none
  lastId : Nat := 0
  abortInv : Bool := false
  inputs : Nat := 0
  shot : Nat := 0
  done : Nat := 0
  late : Nat := 0
  invalid : Nat := 0
  /-- the present shot is marked invalid (R25) -/
  shotInvalid : Bool := false
  startSlip : Bool := false
  /-- R489: 0 none, else the abort cause for the next shot boundary -/
  abort : Nat := 0
  /-- R86: the latest stamp among the job's posted records -/
  lastStamp : Option Stamp := none
deriving DecidableEq, Repr

/-- R35, R86: a job that has ended and whose last records are still to be posted: its context and ring index,
the fields of its completion, and the latest stamp among its records. `quiet`: no completion is posted. -/
structure Closing where
  ctx : Nat := 0
  index : Nat := 0
  quiet : Bool := false
  status : Nat := 0
  done : Nat := 0
  aux : Nat := 0
  cflags : Nat := 0
  lastStamp : Option Stamp := none
deriving DecidableEq, Repr

/-- R18 to R32: the job machine and the boundary in progress. -/
structure JobSt where
  phase : JobPhase := .idle
  job : Option Job := none
  /-- R18: the context after which the next job is looked for, plus one (0: begin with context 0) -/
  lastCtx : Nat := 0
  /-- the tick from which the start lead counts (arming, or the end of boundary work) -/
  leadFrom : Nat := 0
  /-- S: the start tick of the present shot -/
  startTick : Nat := 0
  /-- the start tick of the shot before (R31) -/
  prevStart : Nat := 0
  /-- R27: the sequencers run for the shot that starts next -/
  prepared : Bool := false
  /-- boundary work is in progress (R26) -/
  work : Bool := false
  /-- what the boundary work in progress applies: commit, taps, VDD_INS, last, rung -/
  workCommit : Bool := false
  workTaps : Bool := false
  workVins : Bool := false
  workLast : Bool := false
  workRung : Bool := false
  /-- R384: the last to be put into effect before the next job -/
  nextLast : Option Nat := none
  /-- R42: a non-interruptible calibration step has delayed the next shot: its start tick before,
  plus one (0: not delayed) -/
  delayedFrom : Nat := 0
  /-- the host-interface reset dropped the job's context (R450): no completion or record -/
  silent : Bool := false
  /-- R697: the activity (1 RUN, 2 CAPTURE) of a job that has ended while another is ready -/
  bridge : Nat := 0
  /-- R20, R457: work was pending when the last job ended, so it is the job boundary's -/
  atEnd : Bool := false
  /-- the boundary of the work in progress: 0 shot, 1 job, 2 idle (R457) -/
  workAt : Nat := 0
  /-- R697: the context of a job whose completion has not been posted yet -/
  ending : Option Nat := none
  /-- R35, R86: the completion of a job that has ended, until its capture records are posted -/
  closing : Option Closing := none
  /-- R630: a switch-over gap has delayed the next shot -/
  gapLate : Bool := false
  /-- R23: a change that became pending during the work of this job boundary waits for the next boundary -/
  worked : Bool := false
  /-- the step of VDD_INS that the boundary work in progress puts in force -/
  workStep : Nat := 0
deriving DecidableEq, Repr

/-! ### Tones, output channels and the welt (chapters 02, 03, 05) -/

/-- R104: where the samples of a pulse come from. -/
inductive PulseSrc where
  | stored (env : Nat)
  | flat (amp : Int)
  /-- a streamed segment: stream, RATE, first sample of the segment in the shot's data -/
  | stream (strm rate pos : Nat)
  | flux (env : Nat)
deriving DecidableEq, Repr

/-- R146: a target segment played after a jump: its sequencer, branch stitch and queue, its first muted
sample and how many of its samples were muted. -/
structure SegGap where
  seq : Nat := 0
  stitch : Nat := 0
  queue : Nat := 0
  first : Option Nat := none
  count : Nat := 0
deriving DecidableEq, Repr

/-- A pulse on a generator: its source, first sample, samples covered, SCALE, and END_HOLD (R105).
`cut` is the sample from which it plays zero (R106, R110); `gap` is set for a target segment of a jump. -/
structure Pulse where
  src : PulseSrc := .flat 0
  start : Nat := 0
  len : Nat := 0
  interp : Nat := 16
  scale : Nat := 0x8000
  hold : Bool := false
  cut : Option Nat := none
  gap : Option SegGap := none
deriving DecidableEq, Repr

/-- R89 to R97: a tone generator, or a down-conversion tone (R201). `acc` is the accumulator at
sample `accAt` of the reference-derived clock; at a later sample k it is acc + freq × (k − accAt). -/
structure Gen where
  freq : BitVec 48 := 0
  frame : BitVec 32 := 0
  acc : BitVec 48 := 0
  accAt : Nat := 0
  pulse : Option Pulse := none
deriving DecidableEq, Repr

/-- R117 to R123, R418: the output stage of an RF or fast flux channel. -/
structure Chan where
  /-- CH_STAT.STATE: 0 terminated, 1 active, 2 FAULT -/
  st : BitVec 2 := 0
  switching : Bool := false
  /-- R118: the channel outputs zero until its first pulse sample -/
  virgin : Bool := true
  cause : Nat := 0
  /-- R122: fault causes that still hold the channel -/
  causes : List Nat := []
  /-- R122 cause 3: the groups whose emergency mutes muted the channel -/
  groups : List Nat := []
  /-- R123: ticks of the overcurrent faults within the last second -/
  ocAt : List Nat := []
  /-- R123: 0 free, 1 locked until a commit makes ENABLE 0, 2 until a later one makes it 1 -/
  lock : Nat := 0
  clipSeen : Bool := false
  inactSeen : Bool := false
  /-- samples before this one have been computed -/
  evalTo : Nat := 0
  /-- R76: one more than the last sample that a pulse covered -/
  playedTo : Nat := 0
  /-- the sample the DAC plays -/
  out : Int := 0
deriving DecidableEq, Repr

/-- A readout window as its MEAS stitch opens it (R202). -/
structure WinCfg where
  tone : Nat := 0
  kset : Nat := 0
  len : Nat := 8
  tgt : Nat := 0
  syn : Bool := false
  recd : Bool := false
  tok : Bool := false
deriving DecidableEq, Repr

/-- What an event does on its target sample (R66, R190). -/
inductive WAct where
  | play (gen : Nat) (p : Pulse)
  | phaseAdd (gen : Nat) (p : BitVec 32)
  | phaseSet (gen : Nat) (p : BitVec 32)
  | freqSet (gen : Nat) (f : BitVec 48)
  | freqAdd (gen : Nat) (f : BitVec 48)
  | window (w : WinCfg)
  /-- four pins of one queue: two mode bits a pin, levels, releases; the compare it belongs to -/
  | mark (mode value rel : Nat) (cmp : Nat)
  | biasSet (ch : Nat) (code : Int)
  | biasWave (ch wave : Nat)
  | biasStop (ch : Nat)
  /-- R140: the fork pair, fall-through first -/
  | fork (gen : Nat) (fall target : Pulse)
deriving DecidableEq, Repr

/-- R68 to R77: how the welt has judged an event at its entry. -/
inductive Judged where
  | onTime | drop | slip (sample : Nat) | halt | state (sample : Nat)
deriving DecidableEq, Repr

/-- One event: absolute target tick, sample offset, action, issuing sequencer and stitch. -/
structure WEvent where
  tick : Nat := 0
  off : Nat := 0
  act : WAct := .phaseAdd 0 0
  seq : Nat := 0
  stitch : Nat := 0
  how : Judged := .onTime
deriving DecidableEq, Repr

/-- A welt queue (R65): events in order of entry, the events on the shank towards it, the halt of
R77, the sample of the last released event (plus one; 0 none) for R69, and the underrun of R168. -/
structure WQueue where
  events : List WEvent := []
  shank : List WEvent := []
  halted : Bool := false
  lastRel : Nat := 0
  /-- R168: after a stream underrun the channel outputs zero from this sample -/
  zeroFrom : Option Nat := none
deriving DecidableEq, Repr

/-- R209: a comparing MARK that is not yet made: its id, sequencer, slot, the quarter, the compared
pins and expected levels, and how many of its events are still to be applied. -/
structure MarkCmp where
  id : Nat := 0
  seq : Nat := 0
  slot : Nat := 0
  quarter : Nat := 0
  pins : Nat := 0
  value : Nat := 0
  left : Nat := 0
deriving DecidableEq, Repr

/-- R206, R211: a marker pin as the device drives it (no drive: high impedance). -/
structure Pin where
  drive : Option Bool := none
  /-- R566: a pulse timer drives the pin to this level -/
  timer : Option Bool := none
deriving DecidableEq, Repr

/-- An exact dyadic number num / 2^exp (R414: intermediate values are held exactly). -/
structure Dyadic where
  num : Int := 0
  exp : Nat := 0
deriving DecidableEq, Repr

/-- R416: the predistortion chain of a fast flux channel. -/
structure FluxChain where
  s : List Dyadic := []
  h : List Dyadic := []
  /-- R417: FF_CTL.CLR was written; the chain is preset at the next boundary -/
  clr : Bool := false
deriving DecidableEq, Repr

/-- The outputs and the welt. Keys: generator q·256 + n; tone q·128 + t; channel q·40 + c, flux
output 160 + k; queue q·72 + i; pin k. -/
structure OutSt where
  gens : Table Gen := []
  tones : Table Gen := []
  chans : Table Chan := []
  queues : Table WQueue := []
  pins : Table Pin := []
  flux : Table FluxChain := []
  cmps : List MarkCmp := []
  nextCmp : Nat := 1
deriving DecidableEq, Repr

/-! ### Sequencers (chapters 04, 05) -/

/-- R137: the sequencer's states, in the order of their codes. -/
inductive SeqState where
  | idle | issue | queueWait | branchWait | syncWait | trigWait | done | stopped
deriving DecidableEq, Repr

/-- R312: a token. -/
structure Token where
  kind : BitVec 4 := 0
  origin : Bool := false
  seq : BitVec 15 := 0
  target : BitVec 12 := 0
  payload : BitVec 32 := 0
  /-- R330: the last ADC sample of the latest window behind the token (8 to the tick) -/
  smp : Nat := 0
deriving DecidableEq, Repr

/-- R210: a compare slot; a result carries the stamp of the tick of its compare (R209, R62). -/
inductive CSlot where
  | void | pending | made (isMatch : Bool) (stamp : Stamp)
deriving DecidableEq, Repr

/-- A time request on its way (R153, R175): T_a once the welt has answered. -/
structure TimeReq where
  forTrig : Bool := false
  answer : Option Int := none
deriving DecidableEq, Repr

/-- A conditional branch the sequencer waits at (R150 to R157, R230). -/
structure Branch where
  segEnd : Bool := false
  /-- D in ticks from S, or the last sample of the jump-point segment (absolute samples) -/
  d : Nat := 0
  lastSample : Nat := 0
  /-- S + cursor at issue, from which COND 3 listens (R229) -/
  listenFrom : Nat := 0
  reanchor : Bool := false
  signalSent : Bool := false
  /-- the deadline or jump-point signal has arrived and REANCHOR keeps waiting -/
  signalled : Bool := false
  /-- the path chosen by the condition, while a time request or a jump request is out -/
  chosen : Option Bool := none
  /-- R75: the branch has consumed a void token or tests a void slot; DEF is taken at its signal -/
  voided : Bool := false
deriving DecidableEq, Repr

/-- R171: a trigger as it arrives: its stamp, and its tick rounded up. -/
structure Trig where
  stamp : Stamp := {}
  tick : Nat := 0
deriving DecidableEq, Repr

/-- R142: a jump request on its way to the welt. -/
structure JumpReq where
  queue : Nat := 0
  gen : Nat := 0
  /-- the branch's stitch, its condition source code (R179), and the jump-point sample -/
  stitch : Nat := 0
  source : Nat := 0
  lastSample : Nat := 0
  /-- R143: the welt has rejected the request -/
  rejected : Bool := false
deriving DecidableEq, Repr

/-- R130 to R178: one sequencer. -/
structure Seq where
  st : SeqState := .idle
  pc : BitVec 12 := 0
  cursor : Nat := 0
  /-- four loop counters and their start addresses (R219) -/
  loopCnt : Vector Nat 4 := Vector.replicate 4 0
  loopStart : Vector Nat 4 := Vector.replicate 4 0
  shiftSum : Nat := 0
  latch : Option Trig := none
  /-- R226: the condition store, oldest first -/
  conds : List Token := []
  cslots : Vector CSlot 4 := Vector.replicate 4 CSlot.void
  branch : Option Branch := none
  timeReq : Option TimeReq := none
  /-- jump requests on their way to the welt, oldest first -/
  jumps : List JumpReq := []
  /-- R230: per queue·16 + generator, the last sample (plus one) of the segment issued last -/
  segEnds : Table Nat := []
  /-- R159: per barrier, the uses counted in this shot -/
  uses : Table Nat := []
  /-- the tick at which the wait at a barrier began (R164) -/
  waitFrom : Nat := 0
  /-- R77: stopped by HALT at its next stitch -/
  haltPend : Bool := false
  /-- R333: per TARGET, one more than the number of the newest accepted decision -/
  recv : Table Nat := []
  recvCopy : List Token := []
  /-- R152: per TARGET, the SEQUENCE of each decision that a branch has gone on without, oldest first -/
  owed : Table (List Nat) := []
  /-- R171: edges and triggers on their way to the sequencer: source code and trigger, oldest first -/
  edges : List (Nat × Trig) := []
  entry : BitVec 12 := 0
deriving DecidableEq, Repr

/-- R158 to R164: one use of a barrier: its number, its use count, the sequencers that have arrived
with their cursors, the frames of other devices, and whether this device's own frame is sent. -/
structure BarUse where
  bar : Nat := 0
  use : Nat := 0
  arrived : List (Nat × Nat) := []
  sent : Bool := false
  /-- R164: a participant timed out; frames that arrive later for this use are discarded -/
  dead : Bool := false
deriving DecidableEq, Repr

/-- R166, R484 STREAM_BIND: a stream of a quarter. -/
structure Stream where
  bound : Bool := false
  ctx : Nat := 0
  base : Nat := 0
  stride : Nat := 0
  /-- where in the buffer the present shot's data begins, in samples -/
  off : Nat := 0
  /-- samples that have arrived, counted from the present shot's first -/
  arrived : Nat := 0
  /-- R169: an underrun in this shot -/
  under : Bool := false
  /-- samples consumed by STREAM stitches issued in this shot -/
  issued : Nat := 0
  /-- samples played in this shot (their buffer space is free) -/
  played : Nat := 0
  /-- R169: after an underrun, the samples of the next shot that have arrived -/
  next : Nat := 0
deriving DecidableEq, Repr

/-- The sequencers, the barriers, and the streams (key q·16 + stream). -/
structure SeqSt where
  seqs : Table Seq := []
  bars : List BarUse := []
  /-- R162: held barrier frames: barrier, use count mod 256, shot index (low 16 bits), device, and
  cursor in ns of device time -/
  frames : List (Nat × Nat × Nat × Nat × Nat) := []
  streams : Table Stream := []
  /-- R164: frames that a timed-out use still expects and that are discarded when they come: barrier, use
  count mod 256, shot index (low 16 bits), device -/
  late : List (Nat × Nat × Nat × Nat) := []
deriving DecidableEq, Repr

/-! ### Placement (chapter 10) -/

/-- R381 to R408: a built last: what it assigns, what it was proved from, and its report. -/
structure LastMap where
  built : Bool := false
  stale : Bool := false
  /-- cause code of R410 of the staleness -/
  staleCause : Nat := 0
  /-- counts the builds of this LAST_ID (R384: replaced content counts as a new last) -/
  version : Nat := 0
  /-- sequencer, entry address, 72-bit mask of queues owned -/
  seqs : List (Nat × Nat × Nat) := []
  /-- quarter, stream, buffer length in granules, first granule -/
  streams : List (Nat × Nat × Nat × Nat) := []
  /-- peer, owned by this device, pinned, shared edges -/
  regions : List (Nat × Bool × Bool × Nat) := []
  /-- destination, first-hop link, hops, use bits -/
  routes : List (Nat × Nat × Nat × Nat) := []
  /-- barrier and its local participants -/
  bars : List (Nat × List Nat) := []
  /-- barrier and a participating device -/
  xbars : List (Nat × Nat) := []
  capin : Nat := 0
  usesDecoder : Bool := false
  /-- R252: quarter and index of the kernel sets the job uses -/
  ksets : List (Nat × Nat) := []
  /-- R271, R274: the placed capture demand of each input of CAPIN -/
  capDemand : List (Nat × Nat) := []
  /-- quarter and ENV_ID of envelopes the job plays, and those pinned resident (R390) -/
  envs : List (Nat × Nat) := []
  resident : List (Nat × Nat) := []
  /-- processors used, readout inputs used, bias outputs used -/
  dsps : List Nat := []
  /-- quarter and WAVE_ID of the bias waveforms the job plays -/
  waves : List (Nat × Nat) := []
  /-- stream bytes one shot consumes: quarter·16 + stream, bytes -/
  consume : List (Nat × Nat) := []
  /-- R401: the registers (BAR0 offsets) of its proof set, the s it used, the links on its routes -/
  proofRegs : List Nat := []
  slow : Nat := 0
  links : List Nat := []
  report : List Byte := []
  /-- R410: the context that submitted its PLACE -/
  ctx : Nat := 0
  progs : List (Nat × Nat) := []
  /-- R363: the tile of each node of the graph, and the graph load it was built from -/
  tiles : List Nat := []
  graph : Nat := 0
  /-- R402: the content an incremental build starts from: each stream with its rate and the bytes a shot consumes,
  the pins (kind and arguments), the sequencers whose program memory a load has changed since, and what other devices
  deliver (R156) -/
  demand : List (Nat × Nat × Nat) := []
  pins : List (Nat × Nat × Nat) := []
  dirty : List Nat := []
  remote : List RemoteDecision := []
deriving DecidableEq, Repr

/-- R382, R400: the build in progress: descriptor, image fields, and what its waits have given. -/
structure Build where
  ctx : Nat := 0
  index : Nat := 0
  startAt : Nat := 0
  image : List Byte := []
  /-- s as sampled at the start (R392) -/
  slow : Nat := 0
  peerFail : List Nat := []
  /-- R535: destinations probed for, until the wait ends -/
  probes : List Nat := []
  /-- every reply: destination and links (R536) -/
  found : List (Nat × List Nat) := []
  /-- PLC_CFG as live at the start (R409), and the RF and flux ports then enabled, as KIND × 256 + port (R398) -/
  plc : Word := 0
  on : List Nat := []
deriving DecidableEq, Repr

/-- The lasts, the build, the live last, and the latest slowness s (R391). -/
structure PlaceSt where
  lasts : Vector LastMap 4 := Vector.replicate 4 {}
  build : Option Build := none
  live : Option Nat := none
  /-- version of the live last that is in effect, and the copy in effect (R384) -/
  inEffect : LastMap := {}
  slow : Nat := 0
  /-- R391, R392: the counts of the speed monitors at the latest sample, and when the latest 1 ms sample was -/
  counts : Vector (BitVec 32) 32 := Vector.replicate 32 0
  sampledAt : Nat := 0
  /-- R400: the latest summary of each peer that no build has used: device,
  LAST_ID, count of LOCAL nodes, CRC, region pin (0 none, 1 its sender owns the region, 2 this device does) -/
  summaries : List (Nat × Nat × Nat × Nat × Nat) := []
  /-- R404: 0 a re-proof is asked for, 1 it runs -/
  reproof : Option Nat := none
deriving DecidableEq, Repr



/-! ### Readout inputs (chapter 06) -/

/-- R248, R266: an open window, or (`void`) one that did not open. Δ, DCLAMP and TRACK are those in
force when it opened (R257, R260). -/
structure Win where
  q : Nat := 0
  cfg : WinCfg := {}
  /-- its first ADC sample, 8 to the tick -/
  first : Nat := 0
  slip : Bool := false
  void : Bool := false
  di : Int := 0
  dq : Int := 0
  dclamp : Bool := false
  track : Bool := false
  /-- R283: where in the input buffer its data begins, how many GROUPS words are written, and whether one of
  their samples was an overrange -/
  at_ : Option Nat := none
  done : Nat := 0
  ovr : Bool := false
  /-- R284: a word would have overwritten a packet's data -/
  full : Bool := false
  /-- R248: the sum of the group that is not complete, and its samples so far -/
  part : Int × Int := (0, 0)
  taken : Nat := 0
deriving DecidableEq, Repr

/-- R257 to R262: the tracking history of a kernel set. A tracked centroid is absent while no point
has updated it since the history reset (it then equals C_s). -/
structure KTrack where
  cent : Vector (Option (Int × Int)) 4 := Vector.replicate 4 none
  nshot : Nat := 0
  /-- the set produced a non-void point in this shot -/
  produced : Bool := false
  di : Int := 0
  dq : Int := 0
  dclamp : Bool := false
  /-- Δ was taken from tracked centroids (TRACK of R265) -/
  track : Bool := false
deriving DecidableEq, Repr

/-- R269: an interval in which a slot captures: its first ADC sample that no record has taken, the sample
after its last one once that is known, and its shot. -/
structure CapIval where
  start : Nat := 0
  stop : Option Nat := none
  shot : Nat := 0
deriving DecidableEq, Repr

/-- R269, R272 to R274: a capture slot: the intervals that records have still to take, in time order, the
record that waits for the outbound path (numbered, with its bytes), the gap not yet reported (first and
last stamp), and suspension. -/
structure CapSlot where
  ivals : List CapIval := []
  waiting : Option (Stamp × List Byte) := none
  gap : Option (Stamp × Stamp) := none
  susp : Bool := false
  /-- the context of the record that waits -/
  ctx : Nat := 0
deriving DecidableEq, Repr

/-- The readout inputs. Keys: tone q·128 + t; kernel set q·1024 + ks; input q·8 + i. -/
structure ReadSt where
  wins : List Win := []
  /-- R76: the windows that have closed in this shot: quarter, tone, first and last ADC sample -/
  closed : List (Nat × Nat × Nat × Nat) := []
  /-- the frequency and frame history of a tone in this shot: it had this setting before the sample -/
  hist : Table (List (Nat × Gen)) := []
  sets : Table KTrack := []
  ovrSeen : Table Bool := []
  caps : Table CapSlot := []
  /-- R317: tokens made per TARGET since arming -/
  made : Table Nat := []
deriving DecidableEq, Repr

/-! ### Readout signal processors (chapter 07) -/

/-- R308: DSP_STAT.STATE. -/
inductive DspState where
  | idle | run | wait | stopped
deriving DecidableEq, Repr

/-- R283, R291: a packet: its tag, window-end nanoseconds, shot, data, last ADC sample, and whether
its token (or void token) has been sent. -/
structure Packet where
  tag : Nat := 0
  ns : Nat := 0
  shot : Nat := 0
  addr : Nat := 0
  cnt : Nat := 0
  last : Nat := 0
  sent : Bool := false
  /-- R290: its void token was sent at a budget overrun -/
  voided : Bool := false
deriving DecidableEq, Repr

/-- R285, R292: a pointer, its step and its ring (`pend` is R293's pending length). -/
structure Ptr where
  val : BitVec 14 := 0
  step : BitVec 14 := 0
  base : BitVec 14 := 0
  len : BitVec 14 := 0
  pend : Option (BitVec 14) := none
deriving DecidableEq, Repr

/-- R295: a repeat level. -/
structure Rep where
  cnt : Nat := 0
  start : Nat := 0
  stop : Nat := 0
deriving DecidableEq, Repr

/-- R298, R299: what of the latest instruction's results is not ready yet: the accumulators, a general
register, Z, the sticky flags, BLK. -/
structure DspBusy where
  acc : Bool := false
  reg : Option Nat := none
  z : Bool := false
  ov : Bool := false
  sat : Bool := false
  blk : Bool := false
deriving DecidableEq, Repr

/-- R285, R291: a processor. -/
structure Dsp where
  st : DspState := .idle
  pc : BitVec 12 := 0
  g : Vector Word 8 := Vector.replicate 8 0
  u : Vector Word 8 := Vector.replicate 8 0
  a0 : BitVec 40 := 0
  a1 : BitVec 40 := 0
  p : Vector Ptr 8 := Vector.replicate 8 {}
  reps : Vector Rep 3 := Vector.replicate 3 {}
  /-- active repeat levels, the innermost first -/
  act : List Nat := []
  z : Bool := false
  n : Bool := false
  v : Bool := false
  ov : Bool := false
  sat : Bool := false
  blk : BitVec 4 := 15
  ash : BitVec 6 := 0
  /-- specials 0 to 4 (R288, R291) -/
  special : Vector Word 5 := Vector.replicate 5 0
  cur : Option Packet := none
  /-- a WAITIN has taken a packet in this job -/
  took : Bool := false
  queue : List Packet := []
  /-- R283: where the next window's data starts, in words from IBASE -/
  wpos : Nat := 0
  /-- the last shot of which a packet entered, plus one (FIRST of TAG) -/
  lastShot : Nat := 0
  /-- R290: handshakes counted for the present packet -/
  hs : Nat := 0
  ovf : Bool := false
  busy : DspBusy := {}
  /-- R285: the instruction words that a LOAD_PROGRAM has written since the device reset -/
  written : List (Nat × Nat) := []
deriving DecidableEq, Repr

/-! ### Decision planes (chapter 08) -/

/-- R342: a side effect: a completion, a trigger frame, an emergency mute, or a record. -/
inductive SideAct where
  | cpl (ctx : Nat) (entry : List Byte) (irq : Bool)
  /-- to the sequencers of a mask, here and on another device (plus one; 0 none) -/
  | trig (mask : Nat) (here : Bool) (dev : Nat)
  | emute (group : Nat)
  | records (hs : List Held)
deriving DecidableEq, Repr

/-- R342: a side-effect command: class 0 to 3, key, effect, and its original stamp. -/
structure SideCmd where
  cls : Nat := 0
  key : List Nat := []
  act : SideAct := .emute 0
  stamp : Stamp := {}
  tick : Nat := 0
  /-- R343: issued from the pending list of a plane that has become owner -/
  replay : Bool := false
deriving DecidableEq, Repr

/-- R340, R354: whether a plane works, is quarantined, or resynchronizes. ACTIVE and STANDBY follow
from the owner of the line (R341). -/
inductive PlaneMode where
  | up | quarantined | resync
deriving DecidableEq, Repr

/-- R344 to R346: what a plane holds of its peer's heartbeat. -/
structure Beat where
  miss1 : Nat := 0
  got1 : Bool := false
  miss2 : Nat := 0
  got2 : Bool := false
  declared : Bool := false
  /-- pulse and message that have arrived since the declaration -/
  back1 : Bool := false
  back2 : Bool := false
  fault1 : Bool := false
  fault2 : Bool := false
  /-- R345: the ticks (plus one) at which the intervals in progress began on path 1 and path 2 (0: none yet) -/
  from1 : Nat := 0
  from2 : Nat := 0
  /-- R344: the count and the sender's state that the latest message carried -/
  cnt : Word := 0
  peerState : Nat := 0
deriving DecidableEq, Repr

/-- R352, R353: the steps of a repair: reload and self-check; the check has passed and the plane link
is down; the copy, up to the resync point. -/
inductive RepairStep where
  | none | started | checked | copying
deriving DecidableEq, Repr

/-- A decision plane. Slots: LUT u·16 + s, parity 1024 + m·16 + s. Firing counts: FORWARD TARGET,
LUT 4096 + u, parity 4160 + m. -/
structure Plane where
  mode : PlaneMode := .up
  /-- tokens on their way to the plane's route table, and syndrome tokens to its decoder -/
  toks : List Token := []
  syns : List Token := []
  slots : Table (List (Bool × Token)) := []
  fires : Table Nat := []
  pend : List SideCmd := []
  beat : Beat := {}
  /-- R347: a TAKE of this plane is on its way to the interlock unit -/
  take : Bool := false
  repair : RepairStep := .none
  repairReq : Bool := false
  /-- R352: input tokens buffered during a repair -/
  buffer : List Token := []
  /-- R344: the beat messages that the plane has sent, mod 2^32 -/
  beats : Word := 0
deriving DecidableEq, Repr

/-- R341: the interlock unit and both planes. -/
structure PlaneSt where
  dp : Vector Plane 2 := Vector.replicate 2 {}
  /-- 0 released, 1 DP0, 2 DP1 -/
  owner : Nat := 0
  refresh : Nat := 0
  /-- commands of the owner on their way to the interlock unit -/
  cmds : List SideCmd := []
  /-- R342: keys of the last 4,096 commands of each class, newest first -/
  keys : Vector (List (List Nat)) 4 := Vector.replicate 4 []
  /-- decision copies on their way: sequencer and token, in the order of sending -/
  copies : List (Nat × Token) := []
  emute : BitVec 16 := 0
  handover : Bool := false
  /-- R337: the self-check that runs (its start cause), and the ticks of recent disagreements -/
  selfchk : Option Nat := none
  disAt : List Nat := []
  suspect : Bool := false
  link : Bool := false
  /-- R351: the tick at which the plane link was lost -/
  lostAt : Option Nat := none
deriving DecidableEq, Repr


/-! ### Bias outputs (chapter 11) -/

/-- R427, R428: what moves a bias output. A ramp starts from `code` at tick `since`. -/
inductive BiasMove where
  | steady
  /-- a ramp to a target code -/
  | ramp (target : Int) (since : Nat)
  /-- the first ramp of a range sequence, to zero, then range and code -/
  | toZero (since : Nat) (range : Nat) (code : Int)
  /-- the hold at zero while the range switches -/
  | hold (since : Nat) (range : Nat) (code : Int)
  /-- the last ramp of a range sequence -/
  | up (target : Int) (since : Nat)
deriving DecidableEq, Repr

/-- R424: a running waveform: its table entry as it started, the tick of point 0, the next point. -/
structure BiasWave where
  start : Nat := 0
  len : Nat := 1
  loop : Bool := false
  period : Nat := 1
  next : Nat := 0
  due : Nat := 0
deriving DecidableEq, Repr

/-- R421 to R433: one bias output. -/
structure Bias where
  code : Int := 0
  range : Nat := 0
  /-- 0 NORMAL, 2 HELD, 3 FAULT; RAMP is NORMAL while the output moves -/
  st : Nat := 0
  move : BiasMove := .steady
  /-- R427: a committed range waits for its sequence; the tick and old range of one that runs -/
  rangeWait : Bool := false
  seqFrom : Nat := 0
  oldRange : Nat := 0
  /-- R423: the step of a BIAS_SET that waits for the job boundary -/
  step : Option Int := none
  wave : Option BiasWave := none
  compl : Bool := false
  openLoad : Bool := false
  /-- cause codes of R434 of a fault that have not cleared -/
  causes : List Nat := []
deriving DecidableEq, Repr

/-- R436: an NV bias record: the mode bit, and per channel range, RAMP and code. -/
structure BiasNv where
  t2 : Bool := false
  chans : Table (Nat × Nat × Int) := []
deriving DecidableEq, Repr

/-- The bias outputs. -/
structure BiasSt where
  outs : Table Bias := []
deriving DecidableEq, Repr


/-! ### NV records (chapter 20) -/

/-- R671: what a slot of an NV record holds: the bias record, the calibration taps (by register
address), the lace identifier. -/
inductive NvRec where
  | bias (r : BiasNv)
  | cal (taps : Table Word)
  | id (n : Nat)
deriving DecidableEq, Repr

/-- R671: an NV slot. -/
structure NvSlot where
  valid : Bool := false
  seq : Word := 0
  body : Option NvRec := none
deriving DecidableEq, Repr

/-- R671: an NV write that runs: record 0 bias, 1 calibration, 2 identifier; its slot and content. -/
structure NvWrite where
  what : Nat := 0
  slot : Nat := 0
  seq : Word := 0
  body : NvRec := .id 0
deriving DecidableEq, Repr

/-- R671, R672: the slots (key record·2 + slot), the writes that run, and refusal. -/
structure NvSt where
  slots : Table NvSlot := []
  writes : List NvWrite := []
  refuse : Bool := false
  /-- writes that have finished since an orderly stop began (record 0x85) -/
  done : Nat := 0
deriving DecidableEq, Repr

/-! ### Modes and boot (chapters 22, 24) -/

/-- R697 to R702, R733 to R736: boot, the mode last shown, the Safe cause, TMODE, and the reference. -/
structure SysSt where
  /-- boot runs (R697 rank 1) -/
  boot : Bool := true
  ready : Bool := false
  /-- the boot of an exit from Deep (R737) -/
  fromDeep : Bool := false
  /-- R733: which steps of the boot have ended, by step number -/
  steps : List Nat := []
  /-- the tick of the release at which the boot started -/
  release : Nat := 0
  /-- R729: the power-up reset is asserted -/
  porHeld : Bool := false
  shown : Nat := 0
  safe : Nat := 0
  tmode : Bool := false
  /-- R700: the system reference is lost (DEG bit REF) -/
  refLost : Bool := false
  /-- R736: the records of boot, in the order made -/
  bootRecs : List Held := []
  /-- R732: a device reset waits for an NV write -/
  resetWait : Bool := false
deriving DecidableEq, Repr

/-! ### Syndrome decoding (chapter 09) -/

/-- R358: a node: type 0 LOCAL, 1 REMOTE, 2 BOUNDARY; TARGET or export index; tile; peer; pin; INV. -/
structure DecNode where
  typ : Nat := 0
  ref : Nat := 0
  tile : Nat := 0
  peer : Nat := 0
  pin : Bool := false
  inv : Bool := false
deriving DecidableEq, Repr

/-- R359: an edge. -/
structure DecEdge where
  a : Nat := 0
  b : Nat := 0
  weight : Nat := 1
  dr : Bool := false
  obs : BitVec 8 := 0
deriving DecidableEq, Repr

/-- R357 to R360: a loaded graph, with every clamp applied. Exports: (LOCAL node, peer index). -/
structure DecGraph where
  nodes : List DecNode := []
  edges : List DecEdge := []
  exports : List (Nat × Nat) := []
  peers : List Nat := []
  rounds : Nat := 1
  window : Nat := 1
deriving DecidableEq, Repr

/-- R376: an output that a decode has produced and that has not left. -/
structure DecOut where
  void : Bool := false
  payload : BitVec 32 := 0
  first : Nat := 0
  last : Nat := 0
  obs : BitVec 8 := 0
  obsOwn : BitVec 8 := 0
  flags : Nat := 0
  /-- round and edge index of the committed edges -/
  edges : List (Nat × Nat) := []
  smp : Nat := 0
  /-- the tile that overflowed, with its events (R370) -/
  ovf : Option (Nat × Nat) := none
  round : Nat := 0
deriving DecidableEq, Repr

/-- R365 to R376: what the decoder of one plane holds of the running shot. Keys of the tables:
round·8192 + node. -/
structure DecDyn where
  /-- round, node, void, STATE bit 0, last ADC sample -/
  toks : List (Nat × Nat × Bool × Bool × Nat) := []
  /-- per round, the tick plus one of its first token, and of its close -/
  firstAt : Table Nat := []
  closedAt : Table Nat := []
  closed : Nat := 0
  synd : Table Bool := []
  det : Table Bool := []
  /-- 0 not erased, 1 void, 2 missing, 3 remote miss -/
  erased : Table Nat := []
  /-- peer, round, syndrome map, erasure map -/
  frames : List (Nat × Nat × Nat × Nat) := []
  /-- peer and round whose wait has expired -/
  missed : List (Nat × Nat) := []
  /-- R373: peer and key (shot and round) of each frame whose wait has expired and that has not come; kept
  across shots and jobs -/
  late : List (Nat × Nat) := []
  /-- the latest window end (last ADC sample) of each round -/
  ends : Table Nat := []
  decoded : Nat := 0
  committed : Nat := 0
  obs : BitVec 8 := 0
  out : Option DecOut := none
deriving DecidableEq, Repr

/-- The decoder: its graph (and how many loads have been made), the state of both planes, the
outputs since arming, and PEAK of the tiles (key plane·16 + tile). -/
structure DecSt where
  graph : Option DecGraph := none
  loads : Nat := 0
  dyn : Vector DecDyn 2 := Vector.replicate 2 {}
  outs : Vector Nat 2 := Vector.replicate 2 0
deriving DecidableEq, Repr


/-! ### Power and thermal protection (chapter 20) -/

/-- R657 to R661: a sensor: reading and effective value in units of 0.125 °C, and its conditions. -/
structure Sensor where
  raw : Int := 0
  val : Int := 0
  valid : Bool := false
  /-- R658: the tick of the latest sample -/
  at_ : Nat := 0
  broken : Bool := false
  shut : Bool := false
  throt : Bool := false
  warn : Bool := false
deriving DecidableEq, Repr

/-- R665, R667: a throttle action: its number, the drop measured in 0.1 W, P before it, whether it has
taken effect, and whether it is undone with its effect still to end (`gone`). -/
structure ThrotAct where
  num : Nat := 1
  drop : Nat := 0
  before : Nat := 0
  live : Bool := true
  gone : Bool := false
deriving DecidableEq, Repr

/-- R669, R670: an orderly stop: its cause, the sensor or rail, its trigger tick, a shot muted. -/
structure StopSt where
  cause : Nat := 1
  unit : Nat := 0
  t0 : Nat := 0
  muted : Bool := false
deriving DecidableEq, Repr

/-- R653 to R674: the ladder, the sensors (key i of TSi), throttling, stops and rails. Powers are in
units of 0.1 W. -/
structure PwrSt where
  rung : Nat := 0
  /-- R654: a requested rung that has not been applied -/
  rungReq : Option Nat := none
  /-- the rung change of the boundary work under way: its target and its cause (R674, 0x82) -/
  toRung : Option (Nat × Nat) := none
  rungFrom : Nat := 0
  /-- R656: bias outputs ramp on the way into Deep -/
  toDeep : Bool := false
  sensors : Table Sensor := []
  power : Nat := 0
  level : Nat := 0
  throt : Bool := false
  /-- actions taken, the most recent first -/
  acts : List ThrotAct := []
  /-- R666: action 3 is skipped until throttling and every action have ended -/
  skip3 : Bool := false
  /-- the tick plus one from which the running measurement counts (0: none) -/
  measFrom : Nat := 0
  riseAt : Nat := 0
  releaseAt : Nat := 0
  relHold : Bool := false
  relHoldTo : Nat := 0
  /-- R663: the latched cut, and its record until the reset that clears it -/
  cut : Bool := false
  cutRec : Option Held := none
  /-- VDD_INS step in force -/
  vins : Nat := 6
  /-- R662: bit 2q low warning, bit 2q + 1 low hold of quarter q -/
  low : BitVec 8 := 0
  stop : Option StopSt := none
  /-- R709: rails that are out of range: 0 to 2 core rails, 4 + q VDD_RF of quarter q, 8 VBIAS -/
  rails : List Nat := []
  /-- causes of RF faults of a quarter that a recovered rail leaves for the next boundary (R122) -/
  recovered : List Nat := []
  /-- R730: the watch of the VBIAS rails has begun; the rails are in range since the tick minus one -/
  vbiasFrom : Nat := 0
  clocksOff : Bool := false
deriving DecidableEq, Repr


/-! ### Cobblers (chapter 18) -/

/-- R628: a state image: its tick, and per context the submission head it was taken at. -/
structure EngImage where
  tick : Nat := 0
  heads : Table Nat := []
deriving DecidableEq, Repr

/-- R626, R627: a gap after a switch-over. -/
structure EngGap where
  cause : Nat := 0
  warm : Bool := false
  lastRetired : Nat := 0
deriving DecidableEq, Repr

/-- R612 to R635: a cobbler's state is 0 ACTIVE, 1 STANDBY, 2 FAILED, 3 LOADING. -/
structure EngSt where
  active : Nat := 0
  st : Vector Nat 2 := #v[0, 1]
  /-- R620, R635: ENG_PATCH, and the version each cobbler runs -/
  version : Vector Nat 2 := #v[0, 0]
  result : Nat := 0
  tried : Nat := 0
  /-- the patch image each cobbler has loaded; none leaves patch RAM and match registers empty -/
  patch : Vector (List Byte) 2 := Vector.replicate 2 []
  warm : Bool := false
  sync : Bool := false
  /-- the first full copy to a warm standby is under way (R631) -/
  syncing : Bool := false
  /-- R628: the save area of the latest image, that image, the image in the other area, and the completions since -/
  area : Nat := 0
  image : EngImage := {}
  older : EngImage := {}
  cpls : Nat := 0
  gap : Option EngGap := none
  repairReq : Bool := false
  /-- a repair runs; the failure came in this job (restart waits for a boundary) -/
  repairing : Bool := false
deriving DecidableEq, Repr


/-! ### Calibration, scrubbing and telemetry (chapter 19) -/

/-- R640 to R644: the CALIBRATE that runs: its descriptor, the unit in hand, its step (0 the
interruptible step, 1 the non-interruptible one), and how long it has run. -/
structure CalRun where
  ctx : Nat := 0
  index : Nat := 0
  target : Nat := 1
  mode : Nat := 0
  unit : Nat := 0xFFFF
  curT : Nat := 1
  curU : Nat := 0
  step : Nat := 0
  running : Bool := false
  since : Nat := 0
  /-- ticks of the interruptible step already done before a suspension -/
  spent : Nat := 0
  /-- tick plus one at which the unit's first step began (0: not yet), for the limit of R644 -/
  begun : Nat := 0
  /-- every unit has posted its record -/
  done : Bool := false
deriving DecidableEq, Repr

/-- R637 to R651: live and staged taps (key: BAR0 address), the calibration that runs and those that
wait in the order of fetching, scrubbing, and telemetry. -/
structure CalSt where
  live : Table Word := []
  staged : Table (Option Word) := []
  /-- R645: the taps that the boundary work in progress makes live -/
  applying : Table (Option Word) := []
  run : Option CalRun := none
  waiting : List (Nat × Nat) := []
  scrubbing : Bool := false
  scrubFrom : Nat := 0
  scrubNext : Nat := 0
  telNext : Nat := 0
deriving DecidableEq, Repr


/-! ### Security module (chapter 21) -/

/-- What a mailbox service does when its response is written. -/
inductive MbEffect where
  | none
  /-- ZEROIZE or RELEASE_OWNER: full or not, and the record's code -/
  | zeroize (full : Bool) (code : Nat)
  | takeOwner (opk uak : List Byte)
  | setUak (uak : List Byte)
  | importLk (slot : Nat) (key : List Byte)
  | deleteLk (slot : Nat)
  | patch (slot version : Nat) (rom : Nat) (image : List Byte)
  | patchRefused (slot version : Nat)
  /-- R685: an orderly stop ended the write -/
  | patchInt (slot version : Nat)
  | rollback (version : Nat)
  | selftest (failed alg : Nat)
  | importCal (taps : Table Word)
  /-- SEAL_CAL: host address and sealed bytes -/
  | hostWrite (addr : Nat) (data : List Byte)
deriving DecidableEq, Repr

/-- R683: a request in hand and the response it will have. -/
structure MbRun where
  cmd : Nat := 0
  tag : Word := 0
  status : Nat := 0
  detail : Nat := 0
  payload : List Byte := []
  ind : Bool := false
  effect : MbEffect := .none
  /-- UNSEAL_LOAD: the pass that runs (1 or 2; 0: none), its context, slot and blob -/
  pass : Nat := 0
  ctx : Nat := 0
  slot : Nat := 0
  addr : Nat := 0
  len : Nat := 0
  /-- table entries (quarter·4096 + ENV_ID) and granules (quarter, first, count) it has written -/
  wrote : List Nat := []
  wroteGr : List (Nat × Nat × Nat) := []
deriving DecidableEq, Repr

/-- R681: authentication state of a role. -/
structure RoleSt where
  fails : Nat := 0
  /-- the present or last lockout in s, and the tick at which it ends (0: not locked) -/
  lockS : Nat := 0
  lockTo : Nat := 0
deriving DecidableEq, Repr

/-- R618, R685: a patch slot in NV. -/
structure PatchSlot where
  valid : Bool := false
  version : Nat := 0
  rom : Nat := 0
  image : List Byte := []
deriving DecidableEq, Repr

/-- R691: a sealed mark: an envelope table entry or granules, and the library key slot. -/
structure SealMark where
  quarter : Nat := 0
  env : Nat := 0
  first : Nat := 0
  count : Nat := 0
  slot : Nat := 0
  /-- its slot was zeroized while a built last uses it: it is cleared at the next job boundary -/
  doomed : Bool := false
deriving DecidableEq, Repr

/-- R675 to R696: the module. Roles: 0 User, 1 CO. Keys are held as they were installed. -/
structure SecSt where
  resp : List Byte := []
  done : Bool := false
  run : Option MbRun := none
  err : Bool := false
  testing : Bool := true
  nonce : Option (List Byte) := none
  owned : Bool := false
  opk : List Byte := []
  uak : List Byte := []
  lks : Table (List Byte) := []
  /-- ZEROIZE with byte 0 at 1 has overwritten DUS and PEK -/
  otpGone : Bool := false
  rollback : Nat := 0
  rollLeft : Nat := 32
  roles : Vector RoleSt 2 := #v[{}, {}]
  vios : List Nat := []
  quarTo : Nat := 0
  slots : Vector PatchSlot 2 := #v[{}, {}]
  marks : List SealMark := []
deriving DecidableEq, Repr


/-! ### Lace links (chapter 14) -/

/-- What the device sends on a lace link: frames, and the blocks outside every frame. -/
inductive LaceOut where
  | frame (f : LaceFrame)
  | linkctl (vc : Nat) (nak : Bool) (seq credit cause : Nat)
  | width (mask : Nat)
  /-- rows of TRAIN blocks: the lanes they go on, STATE of R510 and LMASK -/
  | train (lanes state lmask : Nat)
  | eidle
  | bcn0 (frac ns : Nat)
  | bcn1 (d : Nat) (root rhops : Nat) (ralign : Bool)
deriving DecidableEq, Repr

/-- R523, R524, R530: the transmitter of a virtual channel: waiting frames, each with the link on which a
frame to forward came (its space there is held until it is sent), unacknowledged frames with the tick of
their last sending and their resends, the next SEQ, and the credits. -/
structure LaceTx where
  queue : List (LaceFrame × Option Nat) := []
  sent : List (LaceFrame × Nat × Nat) := []
  next : BitVec 12 := 0
  credits : Nat := 0
deriving DecidableEq, Repr

/-- R523, R530, R538: the receiver of a virtual channel. -/
structure LaceRx where
  expect : BitVec 12 := 0
  free : Nat := 0
  /-- a frame has been discarded since the last accepted one -/
  dropped : Bool := false
deriving DecidableEq, Repr

/-- R525, R527: a frame that a receiver has open: its START payload, its data payloads, and why it is to be
discarded: 0 not, 1 a bad block, 11 an invalid header on a lane that then loses lock (R538), 10 answered
already. -/
structure LaceOpen where
  start : BitVec 64 := 0
  data : List (BitVec 64) := []
  bad : Nat := 0
deriving DecidableEq, Repr

/-- R541, R542: what a link's beacons have given. -/
structure LaceBeat where
  /-- departure (in units of 2^-16 ns mod 10^9 ns) and arrival of a BCN0 whose BCN1 has not come -/
  wait : Option (Nat × Nat) := none
  /-- arrival minus departure of the partner's latest BCN0 -/
  d : Option Int := none
  thetas : List Int := []
  deltas : List Int := []
  theta : Int := 0
  delta : Int := 0
  root : Nat := 0
  rhops : Nat := 15
  ralign : Bool := false
  /-- R546: an onset of a time offset has been posted -/
  ovf : Bool := false
  /-- R533: the partner's device time of the latest TIME frame (ns), and the tick it came -/
  whole : Option (Nat × Nat) := none
deriving DecidableEq, Repr

/-- R503 to R539: a lace link. Lanes are bits of 4-bit masks. -/
structure LaceLink where
  st : Nat := 1
  signal : Nat := 0
  /-- the lanes that had signal at the end of the previous attempt -/
  sigEnd : Nat := 0
  /-- lanes that had signal during the attempt -/
  sigSeen : Nat := 0
  lanes : Nat := 0
  /-- per lane, the partner's lane number and whether it is inverted -/
  map : Vector (Option (Nat × Bool)) 4 := Vector.replicate 4 none
  deskew : Nat := 0
  ready : Bool := false
  readyCnt : Vector Nat 4 := Vector.replicate 4 0
  /-- the failed checks of the attempt: 0 none, else a cause of R548 -/
  check : Nat := 0
  sawReady : Bool := false
  attempt : Nat := 0
  attemptFrom : Nat := 0
  waiting : Bool := false
  waitTo : Nat := 0
  partner : Option Nat := none
  plink : Nat := 0
  rxMask : Nat := 0
  txMask : Nat := 0
  /-- the receive mask that a sent WIDTH block asks for -/
  reqMask : Option Nat := none
  idleTx : Bool := false
  idleRx : Bool := false
  /-- tick plus one at which an exit from receive idle began (0: none) -/
  exitFrom : Nat := 0
  /-- lanes that have locked again in that exit -/
  relock : Nat := 0
  quietFrom : Nat := 0
  tx : Vector LaceTx 3 := Vector.replicate 3 {}
  rx : Vector LaceRx 3 := Vector.replicate 3 {}
  /-- R525: the frames being received, innermost first -/
  opens : List LaceOpen := []
  /-- R505, R525: the blocks that wait for a row, in order, each with its rank (0 outside every frame, else
  1 + VC), and the beacon blocks, which go at the front of a row -/
  txWait : List (Nat × LaceBlock) := []
  bcnWait : List LaceBlock := []
  /-- R505: when the next row starts, in 1/16 ns, and the rows sent since the link came up or began to train -/
  txRow : Nat := 0
  rowNo : Nat := 0
  /-- R518: per lane, when it was lost or last began to train on its own -/
  lostAt : Vector Nat 4 := Vector.replicate 4 0
  /-- R533: when the last TIME frame was sent -/
  timeAt : Nat := 0
  /-- R702: the PRBS31 generator of the TEST frames, its latest bit in bit 0 -/
  prbs : BitVec 31 := 1
  vios : List Nat := []
  holdTo : Nat := 0
  beat : LaceBeat := {}
deriving DecidableEq, Repr

/-- R535: a kept route: destination and links. -/
structure LaceRoute where
  dest : Nat := 0
  links : List Nat := []
deriving DecidableEq, Repr

/-- The lace block. -/
structure LaceSt where
  links : Table LaceLink := []
  idValid : Bool := false
  /-- a write to LACE_ID.ID waits for the commit that makes the identifier valid -/
  idWritten : Bool := false
  follow : Option Nat := none
  routes : List LaceRoute := []
  /-- (ORIGIN, PROBE_ID) of the last 1,024 probes, newest first, and copies answered for each -/
  seen : List (Nat × Nat × Nat) := []
  probeId : BitVec 16 := 0
  /-- the tick epoch, in ps, moved by R543 and R558 -/
  epoch : Int := 0
  /-- R503, R505: the rows sent, newest first: the link, and each block with its lane. Rows of IDLE blocks alone
  are not listed; a row of TRAIN blocks stands for the rows that repeat it -/
  out : List (Nat × List (Nat × LaceBlock)) := []
deriving DecidableEq, Repr


/-! ### Network time and pulse timers (chapter 15) -/

/-- R549, R553: how a port carries a PTP message: the transport (0 IEEE 802.3, 1 UDP/IPv4, 2 UDP/IPv6), whether it
goes to the address of the peer delay mechanism, the UDP port, the bytes appended, and whether the UDP checksum
is sent as zero. -/
structure PtpVia where
  trans : Nat := 0
  peer : Bool := false
  udp : Option Nat := none
  pad : Nat := 0
  zeroSum : Bool := false
deriving DecidableEq, Repr

/-- What a timing port sends. -/
inductive NetOut where
  /-- a PTP message: domain (0 A, 1 B), how it is carried, its fields -/
  | ptp (dom : Nat) (via : PtpVia) (m : PtpMsg)
  /-- a membership report: 0 IGMPv3, 1 MLDv2 -/
  | report (kind : Nat)
deriving DecidableEq, Repr

/-- R570, R571: a peer whose violations are counted. -/
structure PtpPeer where
  id : Nat := 0
  vios : List Nat := []
  /-- the tick at which its quarantine ends (0: none) -/
  quarTo : Nat := 0
deriving DecidableEq, Repr

/-- What a port holds of one domain. Times are in units of 2^-16 ns. -/
structure PtpPort where
  /-- the selected master (sourcePortIdentity), and the sequenceId of the last Announce of others -/
  master : Option Nat := none
  cands : List (Nat × Nat) := []
  lastAnn : Nat := 0
  /-- the Announce of the selected master -/
  parent : Option PtpMsg := none
  /-- measured path delay -/
  delay : Option Int := none
  /-- a two-step Sync that waits for its Follow_Up: sequenceId, arrival in ticks (R56) and in device
  time, correction -/
  sync : Option (Nat × Int × Int × Int) := none
  /-- the last Sync pair: (t2 in ticks, t1 + corrections), for the end-to-end delay -/
  pair : Option (Int × Int) := none
  /-- own Delay_Req or Pdelay_Req: sequenceId and departure -/
  req : Option (Nat × Int) := none
  /-- a two-step Pdelay_Resp: arrival, t2, correction -/
  presp : Option (Int × Int × Int) := none
  /-- the next sequenceId of Sync and of delay requests, and of Announce -/
  nextSeq : BitVec 16 := 0
  annSeq : BitVec 16 := 0
  /-- R555: a forwarded two-step Sync: its sender, sequenceId and residence time -/
  resid : Option (Nat × Nat × Int) := none
  /-- R551: when the last Sync, Announce and delay request of this port were sent -/
  syncAt : Option Nat := none
  annAt : Option Nat := none
  dreqAt : Option Nat := none
deriving DecidableEq, Repr

/-- A timing port TPn; domain data by domain number. -/
structure NetPort where
  link : Bool := false
  /-- R550: when the last membership reports were sent -/
  reportAt : Nat := 0
  dom : Vector PtpPort 2 := Vector.replicate 2 {}
  peers : List PtpPeer := []
deriving DecidableEq, Repr

/-- R556 to R562: a domain's servo. Samples (device time minus domain time, 2^-16 ns) with the tick
of each, newest first. -/
structure DomSt where
  st : Nat := 0
  samples : List (Int × Nat) := []
  /-- R564: samples from PPS edges under PHASE -/
  pps : List (Int × Nat) := []
  rej : Nat := 0
  /-- R558: a sample has come since the last correction -/
  fresh : Bool := false
  lastSync : Nat := 0
deriving DecidableEq, Repr

/-- R566 to R569: a pulse timer. Times are in ns of device time. -/
structure Timer where
  armed : Bool := false
  late : Bool := false
  periodic : Bool := false
  polLow : Bool := false
  pin : Nat := 0
  per : Nat := 8
  wid : Nat := 1
  next : Nat := 0
  /-- a one-shot whose fire time had passed at arming: the tick at which it fires -/
  lateAt : Option Nat := none
  cnt : Word := 0
  /-- the tick at which the pulse on its pin ends (0: none) -/
  pulseTo : Nat := 0
deriving DecidableEq, Repr

/-- The timing ports, the domains, the 1 PPS input and the timers. -/
structure NetSt where
  ports : Vector NetPort 2 := Vector.replicate 2 {}
  doms : Vector DomSt 2 := Vector.replicate 2 {}
  /-- TM_STAT.ACTIVE: 0 none, 1 A, 2 B -/
  active : Nat := 0
  /-- R561: a commit has changed SRC and the switch waits -/
  switchReq : Bool := false
  ppsOk : Bool := false
  ppsOfs : Int := 0
  /-- the tick of the last accepted edge, or of the commit that set MODE; a missing record is posted -/
  ppsLast : Nat := 0
  ppsMiss : Bool := false
  /-- R564, R565: the active domain takes its samples from the PPS edges -/
  ppsPhase : Bool := false
  timers : Table Timer := []
  out : List (Nat × NetOut) := []
deriving DecidableEq, Repr


/-! ### Edge time-tagging (chapter 16) -/

/-- An edge: its time in units of 2^-8 ns of the reference-derived clocks (R56), its stamp, and
CALERR. -/
structure AwlTag where
  at_ : Nat := 0
  stamp : Stamp := {}
  calerr : Bool := false
deriving DecidableEq, Repr

/-- R575 to R585: an awl input. -/
structure AwlIn where
  /-- the previous accepted edge, in units of 2^-8 ns -/
  last : Option Nat := none
  count : Nat := 0
  starts : List AwlTag := []
  stops : List AwlTag := []
  /-- R582: edges of the pair that are still to be taken, in the order of their stamps; the Bool says a stop -/
  wait : List (Bool × AwlTag) := []
  /-- R582: the accepted edge before, where STOP names the input itself -/
  prev : Option AwlTag := none
  /-- R578: the interpolator in turn, and the last good pair (N1, N2) of each -/
  turn : Nat := 0
  good : Table (Nat × Nat) := []
  /-- R584: G0 as a tick, the gate number, and the times of its edges from the gate's start -/
  g0 : Nat := 0
  gate : Nat := 0
  xs : List Nat := []
  /-- R585: dropped records since the last accepted one, and the first one's stamp -/
  drops : Nat := 0
  dropAt : Stamp := {}
deriving DecidableEq, Repr


/-! ### Monitor converter (chapter 17) -/

/-- A trigger of an injected conversion: channel, set, TSRC, stamp (ns of device time). -/
structure MonTrig where
  ch : Nat := 0
  set : Nat := 0
  tsrc : Nat := 0
  stamp : Stamp := {}
deriving DecidableEq, Repr

/-- The conversion in progress: 1 regular, 2 injected, 3 calibration. -/
structure MonConv where
  kind : Nat := 1
  ch : Nat := 0
  set : Nat := 0
  entry : Nat := 0
  trig : MonTrig := {}
  /-- the tick at which settling and start-up end, and the tick at which the modulator run began -/
  readyAt : Nat := 0
  runAt : Option Nat := none
  /-- the code of a current channel at the start of the run, and whether it has changed since (R607) -/
  code : Int := 0
  moved : Bool := false
  /-- R593: the full scale at the conversion's start -/
  scale : Nat := 1
deriving DecidableEq, Repr

/-- R593 to R608. -/
structure MonSt where
  cur : Option MonConv := none
  queued : Option MonTrig := none
  /-- the scan entry converted or next due; a pass is on; the tick the pass was due; passes ended -/
  entry : Nat := 0
  pass : Bool := false
  due : Nat := 0
  /-- R600: when the last pass ended -/
  passEnd : Nat := 0
  passes : Nat := 0
  lastCh : Option Nat := none
  pd : Bool := false
  /-- R606: a calibration step waits or was abandoned -/
  calDue : Bool := false
  res : Table Word := []
  ires : Word := 0
deriving DecidableEq, Repr


/-! ### Stops -/

/-- Why a step can stop with a fault: there is no such reason. Every command has an effect on every
state (a command whose conditions do not hold leaves the state as it is), and no behaviour of the spec
stops the device. -/
inductive Fault
deriving DecidableEq, Repr

/-- Why a step can refuse a command. -/
inductive Refusal where
  /-- Raised by an arm of `exec` whose command has no meaning yet. Safe. -/
  | notModelled (mnemonic : String)
deriving DecidableEq, Repr

/-! ### The state -/

/-- The whole state. -/
structure State where
  /-- the commands that wait, first in first out -/
  pending : List Instr := []
  time : TimeSt := {}
  regs : RegSt := {}
  cfg : CfgSt := {}
  recs : RecSt := {}
  ctxs : Table Ctx := []
  host : HostSt := {}
  job : JobSt := {}
  outs : OutSt := {}
  sq : SeqSt := {}
  place : PlaceSt := {}
  rdo : ReadSt := {}
  /-- processors DSP00 to DSP15, by number -/
  dsps : Table Dsp := []
  planes : PlaneSt := {}
  bias : BiasSt := {}
  nv : NvSt := {}
  sys : SysSt := {}
  pwr : PwrSt := {}
  eng : EngSt := {}
  cal : CalSt := {}
  sec : SecSt := {}
  lace : LaceSt := {}
  net : NetSt := {}
  /-- awl inputs, by pin -/
  awl : Table AwlIn := []
  mon : MonSt := {}
  dec : DecSt := {}
  /-- one byte memory for the part's loadable memories, in canonical form; an unlisted byte is 0
  (Sys2Proof/Machine/Ops.lean gives the layout) -/
  ram : List Host.Cell := []
  /-- the model's own: the counter that free values are drawn with -/
  freeCtr : Nat := 0
deriving DecidableEq, Repr

/-- The device right after reset (chapter 24). -/
def State.reset : State := {}

end Sys2Proof.Machine
end

