-- ==== Sys2Proof/Machine/Ops.lean ====
section
/-! DEFINITION. The named operations every meaning is written over: memory, registers, time and
stamps, records and the interrupt path, the clamp log, contexts and their rings, completions and
violations. -/

namespace Sys2Proof.Machine

/-! ### Memory

One byte memory holds the part's loadable memories. R704 gives the layout of those the diagnostic
window shows; the envelope memories lie above it (log 9). -/

def progBase (k : Nat) : Nat := 0x400000 + k * 0x10000
def xBase (k : Nat) : Nat := 0x800000 + k * 0x20000
def yBase (k : Nat) : Nat := 0x810000 + k * 0x20000
def instrBase (k : Nat) : Nat := 0xA00000 + k * 0x4000
def biasWaveBase (q : Nat) : Nat := 0xB00000 + q * 0x100000
def envTableBase (q : Nat) : Nat := 0xF00000 + q * 0x10000
def envBase (q : Nat) : Nat := 0x1000000 + q * 0x800000

/-- What a byte that nothing has written reads as (R188; log 9). -/
def ramDefault : Byte := 0

def Memory.wf (m : List Host.Cell) : Bool := Table.wf ramDefault m

def Memory.readByte (m : List Host.Cell) (a : Nat) : Byte := Table.get ramDefault m a

def Memory.writeByte (m : List Host.Cell) (a : Nat) (b : Byte) : List Host.Cell :=
  Table.set ramDefault m a b

def Memory.writeBytes : List Host.Cell → Nat → List Byte → List Host.Cell
  | m, _, [] => m
  | m, a, b :: bs => Memory.writeBytes (Memory.writeByte m a b) (a + 1) bs

/-- `n` bytes from address `a`. -/
def Memory.readBytes (m : List Host.Cell) : Nat → Nat → List Byte
  | _, 0 => []
  | a, n + 1 => Memory.readByte m a :: Memory.readBytes m (a + 1) n

/-- `n` bytes from address `a` as a little-endian number (R7). -/
def State.load (s : State) (a n : Nat) : Nat := ofBytes (Memory.readBytes s.ram a n)

def State.store (s : State) (a : Nat) (bs : List Byte) : State :=
  { s with ram := Memory.writeBytes s.ram a bs }

/-- Zero `n` bytes from address `a` (R691). -/
def State.clear (s : State) (a n : Nat) : State := s.store a (List.replicate n 0)

/-! ### Rounding to nearest -/

/-- A quotient rounded to nearest; a tie goes to either neighbour (log 11). -/
def rndNearest (num : Int) (den : Nat) : Int :=
  let q := num / (den : Int)
  let r := num % (den : Int)
  if 2 * r < (den : Int) then q
  else if (den : Int) < 2 * r then q + 1
  else q + ((Config.halfUp num.natAbs).toNat : Int)

/-! ### Registers -/

/-- The value held of a register: the live copy of a double-buffered one, else the register. -/
def State.word (s : State) (r : RegName) (idx : List Nat) : Word :=
  Table.get (resetWord r idx) (if (regSpec r).dbuf then s.regs.live else s.regs.direct) (regAddr r idx)

/-- The shadow copy of a double-buffered register. -/
def State.shadowWord (s : State) (r : RegName) (idx : List Nat) : Word :=
  Table.get (resetWord r idx) s.regs.shadow (regAddr r idx)

/-- The value of a field, as the hardware acts on it. -/
def State.rd (s : State) (f : Fld) (idx : List Nat) : Nat := bitsOf (s.word f.reg idx).toNat f.hi f.lo

/-- A one-bit field. -/
def State.flag (s : State) (f : Fld) (idx : List Nat) : Bool := s.rd f idx == 1

def State.setDirect (s : State) (r : RegName) (idx : List Nat) (w : Word) : State :=
  { s with regs.direct := Table.set (resetWord r idx) s.regs.direct (regAddr r idx) w }

def State.setLive (s : State) (r : RegName) (idx : List Nat) (w : Word) : State :=
  { s with regs.live := Table.set (resetWord r idx) s.regs.live (regAddr r idx) w }

def State.setShadow (s : State) (r : RegName) (idx : List Nat) (w : Word) : State :=
  { s with regs.shadow := Table.set (resetWord r idx) s.regs.shadow (regAddr r idx) w }

/-- Write a field that the device itself keeps in a register that is not double-buffered. -/
def State.wr (s : State) (f : Fld) (idx : List Nat) (v : Nat) : State :=
  s.setDirect f.reg idx (BitVec.ofNat 32 (setBits (s.word f.reg idx).toNat f.hi f.lo v))

/-- Count in an RC field, which holds at its largest value. -/
def State.count (s : State) (f : Fld) (idx : List Nat) : State :=
  s.wr f idx (incHold (2 ^ (f.hi + 1 - f.lo) - 1) (s.rd f idx))

/-- R452: a write to a block of BAR0 other than GLB; before READY it is discarded. -/
def State.gate (s t : State) : State := if s.sys.ready then t else s

/-! ### Time and stamps -/

/-- The device time of a tick of the reference-derived clocks. -/
def State.devAt (s : State) (tick : Nat) : DevTime :=
  if tick = s.time.now then s.time.dev
  else DevTime.ofInt ((s.time.dev.abs : Int) + (tick : Int) - (s.time.now : Int))

/-- R58: the stamp of a tick with a fraction in units of 2^-16 ns. -/
def State.stampAt (s : State) (tick frac : Nat) : Stamp := ⟨s.time.domain, s.devAt tick, BitVec.ofNat 16 frac⟩

/-- The stamp of the present tick. -/
def State.nowStamp (s : State) : Stamp := ⟨s.time.domain, s.time.dev, 0⟩

/-- R60: the stamp of a sample, `u` samples to the tick. -/
def State.sampleStamp (s : State) (u sample : Nat) : Stamp :=
  s.stampAt (sample / u) (sample % u * (65536 / u))

/-- R62: the stamp of an ADC sample (8 to the tick). -/
def State.adcStamp (s : State) (k : Nat) : Stamp := s.sampleStamp 8 k

/-- R63: a coarse stamp. -/
def State.coarseStamp (s : State) : Stamp := ⟨s.time.domain, s.time.coarse, 0⟩

/-- R83: the flag bits HELD and HOLDOVER of a record made now. -/
def State.timeFlags (s : State) : Nat := (if s.time.holding then 2 else 0) + (if s.time.holdover then 4 else 0)

/-- Draw with the free-value counter. -/
def State.draw (s : State) : State := { s with freeCtr := s.freeCtr + 1 }

/-- R653: the converter clocks, the awl, the monitor converter and the beacons run at Run and Hold. -/
def State.awake (s : State) : Bool := decide (s.pwr.rung ≤ 1) && !s.pwr.clocksOff

/-! ### Contexts -/

def State.ctx (s : State) (c : Nat) : Ctx := Table.get {} s.ctxs c

def State.updCtx (s : State) (c : Nat) (f : Ctx → Ctx) : State :=
  { s with ctxs := Table.upd {} s.ctxs c f }

/-- R492: the context whose event ring takes records that no context originates. -/
def State.home (s : State) : Nat := s.rd Reg.EVT_CFG.HOME_CTX []

/-- R492: the context of the running job, else the home context. -/
def State.jobCtx (s : State) : Nat :=
  match s.job.job with
  | some j => j.ctx
  | none => s.home

/-- The shot index a record carries (low 32 bits); 0 outside a job. -/
def State.shotIdx (s : State) : Nat :=
  match s.job.job with
  | some j => j.shot
  | none => 0

def State.inJob (s : State) : Bool := s.job.job.isSome

def State.updJob (s : State) (f : Job → Job) : State :=
  { s with job.job := s.job.job.map f }

/-- R489: the running job ends at its next shot boundary for a cause, unless it already does. -/
def State.abortJob (s : State) (cause : Nat) : State :=
  s.updJob fun j => if j.abort = 0 then { j with abort := cause } else j

/-- R25: mark the running shot invalid. -/
def State.markInvalid (s : State) : State := s.updJob fun j => { j with shotInvalid := true }

/-- R470: the entries of a ring of a size code (0: the ring is absent). -/
def ringEntries (code : Nat) : Nat := if code = 0 then 0 else 2 ^ code

/-- R490: the entries of a ring of a context; 0 when the context is disabled or the ring absent. -/
def State.ringSize (s : State) (c : Nat) (f : Fld) : Nat :=
  if s.flag Reg.CTX_CFG.ENABLE [c] then ringEntries (s.rd f [c]) else 0

/-- The host address a base pair holds. -/
def State.baseOf (s : State) (lo hi : RegName) (c : Nat) : Nat :=
  (s.word lo [c]).toNat / 4096 * 4096 + (s.word hi [c]).toNat * 2 ^ 32

def State.emit (s : State) (o : HostOut) : State := { s with recs.out := o :: s.recs.out }

/-- CTX_STAT.INFLT: the descriptors fetched and not yet completed. -/
def Ctx.inflt (x : Ctx) : Nat := x.fetched.length

/-- R475, R501: whether a context is paused. -/
def State.paused (s : State) (c : Nat) : Bool :=
  (s.flag Reg.CTX_CTL.PAUSE [c] || (s.ctx c).quar) && (s.ctx c).inflt == 0

/-- R478: the 64-byte status block. -/
def State.statusBytes (s : State) (c : Nat) : List Byte :=
  let x := s.ctx c
  leBytes 64 (packNat [(0, 4, x.subHead), (4, 4, x.cplTail), (8, 4, x.resTail), (12, 4, x.evtTail),
    (16, 4, x.capTail), (20, 4, x.resLost.toNat), (24, 4, x.evtLost.toNat),
    (28, 4, (if s.paused c then 1 else 0) + (if x.quar then 2 else 0))])

/-- R478: write the status block of a context. -/
def State.writeStatus (s : State) (c : Nat) : State :=
  s.emit (.write (s.baseOf .STS_BASE_LO .STS_BASE_HI c) (s.statusBytes c))

/-! ### Event sources and vectors -/

/-- R468: send a vector's MSI-X message. -/
def State.sendMsix (s : State) (v : Nat) : State :=
  let a := (s.word .MSIX_ADDR_LO [v]).toNat / 4 * 4 + (s.word .MSIX_ADDR_HI [v]).toNat * 2 ^ 32
  { s.emit (.msix v a (s.word .MSIX_DATA [v])) with
    recs.lastMsg := Table.set 0 s.recs.lastMsg v (s.time.now + 1)
    recs.heldVec := s.recs.heldVec.filter (· ≠ v)
    recs.pba := Table.set false s.recs.pba v false }

/-- R468: the vector is masked in the MSI-X table or by the function mask. -/
def State.masked (s : State) (v : Nat) : Bool := s.recs.funcMask || s.flag Reg.MSIX_CTL.MASK [v]

/-- R468: the vector's last message lies within its holdoff. -/
def State.inHoldoff (s : State) (v : Nat) : Bool :=
  let t := Table.get 0 s.recs.lastMsg v
  decide (0 < t ∧ s.time.now + 1 < t + s.rd Reg.EVT_VMOD.HOLDOFF [v] * 1000)

/-- R468: signal a vector. -/
def State.signal (s : State) (v : Nat) : State :=
  if s.masked v then { s with recs.pba := Table.set false s.recs.pba v true }
  else if s.inHoldoff v then
    { s with recs.heldVec := if s.recs.heldVec.contains v then s.recs.heldVec else v :: s.recs.heldVec }
  else s.sendMsix v

/-- R467: source `src` fires. -/
def State.fire (s : State) (src : Nat) : State :=
  let w := (s.word .EVT_PEND [src / 32]).toNat
  let s := s.setDirect .EVT_PEND [src / 32] (BitVec.ofNat 32 (setBits w (src % 32) (src % 32) 1))
  if s.flag Reg.EVT_ROUTE.EN [src] then s.signal (s.rd Reg.EVT_ROUTE.VECTOR [src]) else s

/-! ### Records -/

/-- R736: during boot up to 16 records are held; a further one is lost. -/
def State.holdBoot (s : State) (h : Held) : State :=
  if s.sys.bootRecs.length < 16 then { s with sys.bootRecs := s.sys.bootRecs ++ [h] }
  else { s with recs.seq := Table.upd 0 s.recs.seq h.src (· + 1) }

/-- R83, R84: produce a record; its source holds it until it can be numbered. `flags` are those of
R83 beside HELD and HOLDOVER; `body` lists (offset, size, value) with offsets from 0x14. A run-time
clamp (R460) that goes to the running job's context is one of the job's records (R35). -/
def State.post (s : State) (ctx : Nat) (ring : Ring) (src kind flags : Nat) (st : Stamp)
    (body : List (Nat × Nat × Nat)) : State :=
  let b := packNat (body.map fun e => (e.1 - 0x14, e.2.1, e.2.2))
  let ofJob := match s.job.job with
    | some j => j.ctx == ctx && (decide (src < 640) || (src == 976 && bitsOf b 31 29 == 5))
    | none => false
  let h : Held := ⟨ctx, ring, src, kind, flags + s.timeFlags, st, BitVec.ofNat 96 b, ofJob⟩
  let s := if s.sys.boot then s.holdBoot h else { s with recs.held := s.recs.held ++ [h] }
  if flags / 8 % 2 = 1 then s.markInvalid else s

/-- A record stamped coarsely (R63) to the event ring of a context. -/
def State.postCoarse (s : State) (ctx src kind flags : Nat) (body : List (Nat × Nat × Nat)) : State :=
  s.post ctx .event src kind (flags + 1) s.coarseStamp body

/-- R83: the 32 bytes of a numbered record. -/
def Held.bytes (h : Held) (seq : Word) : List Byte :=
  leBytes 32 (packNat [(0, 2, h.src), (2, 1, h.kind), (3, 1, h.flags), (4, 4, seq.toNat),
    (8, 12, h.stamp.bits), (20, 12, h.body.toNat)])

/-- The later of two stamps in the order of R86. -/
def laterStamp (a : Option Stamp) (b : Stamp) : Option Stamp :=
  match a with
  | none => some b
  | some x => if x.key < b.key then some b else some x

/-- R86: note the stamp of a posted record of the running job, or of the job that has ended. -/
def State.noteStamp (s : State) (st : Stamp) : State :=
  let s := s.updJob fun j => { j with lastStamp := laterStamp j.lastStamp st }
  { s with job.closing := s.job.closing.map fun c => { c with lastStamp := laterStamp c.lastStamp st } }

/-- R490: a record finds its ring full or absent. -/
def State.loseRecord (s : State) (h : Held) : State :=
  let s := s.updCtx h.ctx fun x => match h.ring with
    | .result => { x with resLost := x.resLost + 1 }
    | .event => { x with evtLost := x.evtLost + 1 }
  let s := if h.ofJob then s.updCtx h.ctx fun x => { x with
      fetched := x.fetched.map fun d => if d.phase = .running then { d with recLost := true } else d } else s
  (s.fire h.src).fire 741

/-- The ring's size and its producer and consumer indices. -/
def State.ringState (s : State) (h : Held) : Nat × Nat × Nat :=
  let x := s.ctx h.ctx
  match h.ring with
  | .result => (s.ringSize h.ctx Reg.CTX_SIZE.RES, x.resTail, x.resHead)
  | .event => (s.ringSize h.ctx Reg.CTX_SIZE.EVT, x.evtTail, x.evtHead)

/-- R82, R585: the numbers consumed before an awl drop record, by the records that its run dropped. -/
def Held.skips (h : Held) : Word := if h.kind = 0x6B then BitVec.ofNat 32 h.body.toNat else 0

/-- R81, R467, R471, R490: number a record and post it to its ring. After a host-interface reset a
record of the running job is numbered (R82) and not written (R450). -/
def State.numberAndPost (s : State) (h : Held) : State :=
  let q := Table.get 0 s.recs.seq h.src + h.skips
  let s := { s with recs.seq := Table.set 0 s.recs.seq h.src (q + 1) }
  let (n, t, hd) := s.ringState h
  if h.ofJob && s.job.silent then s
  else if n = 0 ∨ (t + 1) % n = hd then s.loseRecord h
  else
    let base := match h.ring with
      | .result => s.baseOf .RES_BASE_LO .RES_BASE_HI h.ctx
      | .event => s.baseOf .EVT_BASE_LO .EVT_BASE_HI h.ctx
    let s := s.emit (.write (base + t * 32) (h.bytes q))
    let s := s.updCtx h.ctx fun x => match h.ring with
      | .result => { x with resTail := (t + 1) % n }
      | .event => { x with evtTail := (t + 1) % n }
    let s := if h.ofJob then s.noteStamp h.stamp else s
    (s.writeStatus h.ctx).fire h.src

/-- R84: the held record of a source that is numbered next: least stamp, first produced. -/
def nextHeld (p : Held → Bool) : List Held → Option Held
  | [] => none
  | h :: t =>
    match nextHeld p t with
    | none => if p h then some h else none
    | some g => if p h && decide (h.stamp.key ≤ g.stamp.key) then some h else some g

/-- Remove the first record equal to `h`. -/
def State.dropHeld (s : State) (h : Held) : State := { s with recs.held := s.recs.held.erase h }

/-- R84: release the held records that meet `p`, in the order of their stamps. -/
def State.releaseAll (p : Held → Bool) : Nat → State → State
  | 0, s => s
  | n + 1, s =>
    match nextHeld p s.recs.held with
    | none => s
    | some h => State.releaseAll p n ((s.dropHeld h).numberAndPost h)

/-! ### The clamp log -/

/-- R461: identifier of a register field, ORIGIN 0 or 1. -/
def fieldId (origin : Nat) (f : Fld) (idx : List Nat) : Nat :=
  origin * 2 ^ 29 + f.lo * 2 ^ 24 + regAddr f.reg idx / 4

/-- R462: make an entry of the clamp log. -/
def State.logEntry (s : State) (id aux written used : Nat) (st : Stamp) : State :=
  let n := s.cfg.clampNum
  { s with
    cfg.clampLog := Table.set {} s.cfg.clampLog (n.toNat % 256)
      ⟨BitVec.ofNat 32 id, BitVec.ofNat 32 aux, BitVec.ofNat 64 written, BitVec.ofNat 64 used, st, n⟩
    cfg.clampNum := n + 1 }

/-- R460, R462: log a clamp and post its record to the event ring of `ctx`. -/
def State.logClamp (s : State) (ctx id aux written used : Nat) (st : Stamp) (coarse : Bool) : State :=
  (s.logEntry id aux written used st).post ctx .event 976 0x4C (if coarse then 1 else 0) st
    [(0x14, 4, id), (0x18, 4, written), (0x1C, 4, used)]

/-- R95, R246, R461: a run-time clamp of the unit with event source `src`. -/
def State.runtimeClamp (s : State) (src written used : Nat) : State :=
  s.logClamp s.jobCtx (5 * 2 ^ 29 + src) s.shotIdx written used s.coarseStamp true

/-- R461: a clamp of a descriptor field (ORIGIN 2). -/
def State.descClamp (s : State) (c idx struct off written used : Nat) : State :=
  let s := s.logClamp c (2 * 2 ^ 29 + c * 2 ^ 19 + struct * 2 ^ 16 + idx % 2 ^ 16) (off * 8) written used
    s.coarseStamp true
  s.updCtx c fun x => { x with
    fetched := x.fetched.map fun d => if d.index = idx then { d with clamped := true } else d }

/-! ### Violations and quarantine -/

/-- R480: the descriptor has started. A RUN or CAPTURE starts when its sequencers are armed. -/
def Desc.started (d : Desc) : Bool := d.phase != .fetched && d.phase != .ready

/-- R475: on a pause, the fetched descriptors that have not started and follow the last started one
are discarded, with the entry reads still outstanding, and the submission head moves back. -/
def State.pauseDiscard (s : State) (c : Nat) : State :=
  let x := s.ctx c
  let tail := (x.fetched.reverse.takeWhile fun d => !d.started).reverse
  let keep := x.fetched.take (x.fetched.length - tail.length)
  let pend := s.host.reads.filterMap fun r => match r with
    | .entry cc i _ => if cc = c then some i else none
    | _ => none
  let age (i : Nat) : Nat := (x.subHead + s.ringSize c Reg.CTX_SIZE.SUB - i) % max 1 (s.ringSize c Reg.CTX_SIZE.SUB)
  let head := (tail.map Desc.index ++ pend).foldl (fun h i => if age h < age i then i else h) x.subHead
  let s := { s with host.reads := s.host.reads.filter fun r => match r with
    | .entry cc _ _ => cc ≠ c
    | _ => true }
  s.updCtx c fun y => { y with fetched := keep, subHead := head }

/-- R500, R501: count a violation of a context, and quarantine it at the limit. -/
def State.countVio (s : State) (c : Nat) : State :=
  let win := s.rd Reg.CTX_CFG.VIO_WIN [c] * 100000
  let v := s.time.now :: (s.ctx c).vios.filter fun t => decide (s.time.now < t + win)
  let s := s.updCtx c fun x => { x with vios := v }
  if (s.ctx c).quar = false ∧ s.rd Reg.CTX_CFG.VIO_LIM [c] ≤ v.length then
    let s := (s.updCtx c fun x => { x with quar := true }).pauseDiscard c
    let s := s.postCoarse c 739 0x51 0 [(0x14, 2, c), (0x16, 2, v.length)]
    s.writeStatus c
  else s

/-- R498, R499: a violation: source, context (none for BAR0), cause, structure, index and place. -/
def State.violate (s : State) (src : Nat) (c : Option Nat) (cause struct index place : Nat) : State :=
  let s := s.count Reg.PCIE_CNT.VIO_CNT []
  let dest := match c with
    | some x => x
    | none => s.home
  let s := s.postCoarse dest src 0x50 0
    [(0x14, 2, c.getD 0xFFFF), (0x16, 1, cause), (0x17, 1, struct), (0x18, 4, index), (0x1C, 4, place)]
  match c with
  | some x => s.countVio x
  | none => s

/-! ### Diagnostic mode and uncorrectable errors -/

/-- R702: Diagnostic is in force from the end of the boot that found TMODE asserted. -/
def State.diagnostic (s : State) : Bool := s.sys.tmode && !s.sys.boot

/-- R703 class counters: an uncorrectable error of a memory class, with its record. -/
def State.eccError (s : State) (cls unit scrub addr : Nat) (invalid : Bool) : State :=
  let s := s.wr Reg.DG_ECC.UE [cls] ((s.rd Reg.DG_ECC.UE [cls] + 1) % 65536)
  let shot := if s.inJob then s.shotIdx else 0xFFFFFFFF
  s.postCoarse s.home 1009 0xA1 (if invalid then 8 else 0)
    [(0x14, 1, cls), (0x15, 1, unit), (0x16, 1, scrub), (0x18, 4, addr), (0x1C, 4, shot)]

/-! ### Completions -/

/-- The completion entry ends a job: RUN or CAPTURE, DONE or ABORTED (R486, R487). -/
def jobEntry (entry : List Byte) : Bool :=
  (fieldAt entry 2 1 == 5 || fieldAt entry 2 1 == 6) && decide (fieldAt entry 3 1 ≤ 1)

/-- R486, R479: post a completion entry to the completion ring of a context. -/
def State.postCpl (s : State) (c : Nat) (entry : List Byte) (irq : Bool) : State :=
  let n := s.ringSize c Reg.CTX_SIZE.CPL
  let x := s.ctx c
  let s := if n = 0 then s else
    let s := s.emit (.write (s.baseOf .CPL_BASE_LO .CPL_BASE_HI c + x.cplTail * 32) entry)
    let s := s.updCtx c fun y => { y with cplTail := (x.cplTail + 1) % n }
    s.writeStatus c
  let s := { s with job.ending := if jobEntry entry then none else s.job.ending, eng.cpls := s.eng.cpls + 1 }
  if irq then s.signal (s.rd Reg.CTX_CFG.VECTOR [c]) else s

/-! ### Side effects (R341 to R343) -/

/-- R341, R343: a plane hands a side-effect command to the interlock unit when it owns the line, and
holds it in its pending list of 4,096 when it stands by. -/
def State.sideFrom (s : State) (p : Fin 2) (c : SideCmd) : State :=
  if s.planes.dp[p].mode ≠ .up then s
  else if s.planes.owner = p.val + 1 then { s with planes.cmds := s.planes.cmds ++ [c] }
  else if (s.planes.keys[c.cls]?.getD []).contains c.key then s
  else
    let l := s.planes.dp[p].pend ++ [c]
    { s with planes.dp := s.planes.dp.set p { s.planes.dp[p] with pend := l.drop (l.length - 4096) } }

/-- R341, R342: the cobbler passes a completion entry to both planes. The key is the context and the index of
the submission entry. -/
def State.passCpl (s : State) (c idx : Nat) (entry : List Byte) (irq : Bool) (st : Stamp) : State :=
  let cmd : SideCmd := { cls := 0, key := [c, idx], act := .cpl c entry irq, stamp := st
                         tick := s.time.now }
  (s.sideFrom 0 cmd).sideFrom 1 cmd

/-- R471, R479: how far before the submission head an entry lies in its ring. -/
def State.ringAge (s : State) (c i : Nat) : Nat :=
  let n := s.ringSize c Reg.CTX_SIZE.SUB
  if n = 0 then 0 else ((s.ctx c).subHead + n - i % n) % n

/-- R342, R479: a further submission entry is held, in ring order, whichever order the reads of the entries complete
in; a key kept of an earlier entry at its index names it no longer (log 33: DEDUCED). -/
def State.holdEntry (s : State) (c : Nat) (d : Desc) : State :=
  let s := { s with planes.keys := s.planes.keys.set 0 (s.planes.keys[0].filter (· ≠ [c, d.index])) }
  let before (e : Desc) : Bool := decide (s.ringAge c d.index ≤ s.ringAge c e.index)
  s.updCtx c fun x => { x with fetched := x.fetched.takeWhile before ++ d :: x.fetched.dropWhile before }

/-- R480: the read of an earlier entry of the context has not completed. -/
def State.earlierReads (s : State) (c idx : Nat) : Bool :=
  s.host.reads.any fun r => match r with
    | .entry k i _ => k == c && decide (s.ringAge c idx < s.ringAge c i)
    | _ => false

/-- R481, R486 to R488: complete a descriptor. `cflags` are START_SLIP and the abort cause. -/
def State.complete (s : State) (c : Nat) (d : Desc) (status detail aux : Nat) (st : Stamp)
    (cflags : Nat) : State :=
  let now := ((s.ctx c).fetched.find? fun e => e.index == d.index).getD d
  let cf := cflags + (if now.recLost then 2 else 0) + (if now.clamped then 4 else 0)
  let entry := leBytes 32 (packNat [(0, 2, d.index), (2, 1, fieldAt d.bytes 0 1), (3, 1, status),
    (4, 4, fieldAt d.bytes 4 4), (8, 12, st.bits), (0x14, 4, detail), (0x18, 4, aux), (0x1C, 2, cf)])
  let s := s.updCtx c fun x => { x with fetched := x.fetched.filter fun e => e.index ≠ d.index }
  s.passCpl c d.index entry (bitOf (fieldAt d.bytes 1 1) 0) st

/-- A completion stamped coarsely, without job flags. -/
def State.completeNow (s : State) (c : Nat) (d : Desc) (status detail aux : Nat) : State :=
  s.complete c d status detail aux s.coarseStamp 0

/-- R488, R498: complete a descriptor with VIOLATION: its cause, structure and place. -/
def State.refuseDesc (s : State) (c : Nat) (d : Desc) (cause struct place : Nat) : State :=
  (s.completeNow c d 4 place cause).violate 736 (some c) cause struct d.index place

/-- R479: the fetched descriptor of a ring index. -/
def State.desc (s : State) (c idx : Nat) : Option Desc := (s.ctx c).fetched.find? fun d => d.index == idx

def State.setDesc (s : State) (c : Nat) (d : Desc) : State :=
  s.updCtx c fun x => { x with fetched := x.fetched.map fun e => if e.index = d.index then d else e }

/-- The descriptors fetched before `idx` and not completed. -/
def State.earlier (s : State) (c idx : Nat) : List Desc :=
  (s.ctx c).fetched.takeWhile fun d => d.index ≠ idx

/-- The opcode of a descriptor (R482). -/
def Desc.op (d : Desc) : Nat := fieldAt d.bytes 0 1

/-- R473, R475, R501: the context may start fetched descriptors. A descriptor kept because a later
one has started may start while the context is paused. -/
def State.earlierStarted (s : State) (c idx : Nat) : Bool := (s.earlier c idx).all Desc.started

/-- R480: every earlier descriptor but RUN and CAPTURE has completed. -/
def State.earlierDoneButJobs (s : State) (c idx : Nat) : Bool :=
  (s.earlier c idx).all fun d => d.op = 5 || d.op = 6

/-- R494: an extent lies wholly within one enabled window open to the context (with WR to write). -/
def State.inWindow (s : State) (c addr len : Nat) (write : Bool) : Bool :=
  (List.range 256).any fun w =>
    let base := s.baseOf .WIN_BASE_LO .WIN_BASE_HI w
    s.flag Reg.WIN_CTL.EN [w] && (s.flag Reg.WIN_CTL.ALL [w] || s.rd Reg.WIN_CTL.CTX [w] == c)
      && (!write || s.flag Reg.WIN_CTL.WR [w])
      && decide (base ≤ addr ∧ addr + len ≤ base + s.rd Reg.WIN_SIZE.PAGES [w] * 4096)

end Sys2Proof.Machine
end

