-- ==== Sys2Proof/Machine/OutOps.lean ====
section
/-! DEFINITION. The operations over tone generators, output channels, welt queues and pins
(chapters 02, 03, 11). -/

namespace Sys2Proof.Machine

/-! ### Access -/

def State.gen (s : State) (q n : Nat) : Gen := Table.get {} s.outs.gens (q * 256 + n)
def State.updGen (s : State) (q n : Nat) (f : Gen → Gen) : State :=
  { s with outs.gens := Table.upd {} s.outs.gens (q * 256 + n) f }
def State.tone (s : State) (q t : Nat) : Gen := Table.get {} s.outs.tones (q * 128 + t)
def State.updTone (s : State) (q t : Nat) (f : Gen → Gen) : State :=
  { s with outs.tones := Table.upd {} s.outs.tones (q * 128 + t) f }
def State.chan (s : State) (k : Nat) : Chan := Table.get {} s.outs.chans k
def State.updChan (s : State) (k : Nat) (f : Chan → Chan) : State :=
  { s with outs.chans := Table.upd {} s.outs.chans k f }
def State.queue (s : State) (w : Nat) : WQueue := Table.get {} s.outs.queues w
def State.updQueue (s : State) (w : Nat) (f : WQueue → WQueue) : State :=
  { s with outs.queues := Table.upd {} s.outs.queues w f }
def State.pin (s : State) (p : Nat) : Pin := Table.get {} s.outs.pins p
def State.updPin (s : State) (p : Nat) (f : Pin → Pin) : State :=
  { s with outs.pins := Table.upd {} s.outs.pins p f }
def State.seq (s : State) (k : Nat) : Seq := Table.get {} s.sq.seqs k
def State.updSeq (s : State) (k : Nat) (f : Seq → Seq) : State :=
  { s with sq.seqs := Table.upd {} s.sq.seqs k f }

/-- R88: the index in its quarter of generator g of channel c. -/
def genIndex (c g : Nat) : Nat := if c < 32 then c * 4 + g else 128 + (c - 32) * 16 + g

/-- R88: the channel of a generator index. -/
def genChan (n : Nat) : Nat := if n < 128 then n / 4 else 32 + (n - 128) / 16

/-- R88: how many generators a channel has. -/
def chanGens (c : Nat) : Nat := if c < 32 then 4 else 16

/-- R66: samples per tick of queue index i (1 where the offset is ignored). -/
def queueUnit (i : Nat) : Nat := if i < 40 then 16 else if i < 48 then 8 else if i < 64 then 2 else 1

/-- R65, R66: the target sample of an event of queue index i, from S. -/
def eventSample (i tick off : Nat) : Nat := tick * queueUnit i + (if i < 64 then off else 0)

/-- The output channel that queue index i of quarter q serves (RF q·40 + c, flux 160 + k). -/
def queueChan (q i : Nat) : Option Nat :=
  if i < 40 then some (q * 40 + i) else if 48 ≤ i ∧ i < 64 then some (160 + q * 16 + (i - 48)) else none

/-- The queue (quarter and index) that serves an output channel. -/
def chanQueue (k : Nat) : Nat × Nat := if k < 160 then (k / 40, k % 40) else ((k - 160) / 16, 48 + (k - 160) % 16)

/-- R5: the event source of an output channel. -/
def chanSource (k : Nat) : Nat :=
  if k < 160 then (if k % 40 < 32 then k / 40 * 32 + k % 40 else 128 + k / 40 * 8 + (k % 40 - 32))
  else 192 + (k - 160)

/-- R131: the sequencer that owns queue i of quarter q under the last in effect. -/
def State.owner (s : State) (q i : Nat) : Option Nat :=
  (s.place.inEffect.seqs.find? fun e => e.1 / 16 == q && bitOf e.2.2 i).map (·.1)

/-- R131: the queue is one of the running job's. -/
def State.jobUses (s : State) (q i : Nat) : Bool := s.inJob && (s.owner q i).isSome

/-- The queues (global numbers) a sequencer owns under the last in effect. -/
def State.owned (s : State) (k : Nat) : List Nat :=
  ((List.range 72).filter fun i => s.owner (k / 16) i == some k).map (k / 16 * 72 + ·)

/-- R78: the event source of a queue's unit. -/
def State.queueSource (s : State) (w : Nat) : Nat :=
  let q := w / 72
  let i := w % 72
  if i < 32 then q * 32 + i
  else if i < 40 then 128 + q * 8 + (i - 32)
  else if i < 48 then 160 + q * 8 + (i - 40)
  else if i < 64 then 192 + q * 16 + (i - 48)
  else if i < 68 then 256 + (q * 4 + (i - 64)) * 16
  else 512 + (s.owner q i).getD 0

/-- R118, R418: the channel's ENABLE is live at 1. -/
def State.enabled (s : State) (k : Nat) : Bool :=
  if k < 160 then s.flag Reg.CH_CTL.ENABLE [k / 40, k % 40] else s.flag Reg.FF_CTL.ENABLE [k - 160]

/-- Count a clipped sample of a channel (R116, R419). -/
def State.countClip (s : State) (k : Nat) : State :=
  if k < 160 then s.count Reg.CH_STAT.CLIP_CNT [k / 40, k % 40] else s.count Reg.FF_STAT.CLIP_CNT [k - 160]

/-! ### Envelopes (R100 to R105) -/

/-- R101: an entry of a quarter's envelope table. -/
structure EnvEntry where
  base : Nat
  length : Nat
  rate : Nat
  hold : Bool
  scale : Nat

def State.envEntry (s : State) (q id : Nat) : EnvEntry :=
  let bs := Memory.readBytes s.ram (envTableBase q + id * 16) 16
  ⟨fieldAt bs 0 4, fieldAt bs 4 4, fieldAt bs 8 1, bitOf (fieldAt bs 9 1) 0, fieldAt bs 10 2⟩

/-- R101: a table entry is empty when nothing has written it (a written entry has LENGTH 1 or more). -/
def State.envEmpty (s : State) (q id : Nat) : Bool := (s.envEntry q id).length == 0

/-- R100: the interpolation factor of a rate code. -/
def interpOf (rate : Nat) : Nat := if rate = 0 then 16 else 8

/-- Stored sample j of an envelope: 32 bits, I in bits 15:0, Q in bits 31:16. -/
def State.envSample (s : State) (q base j : Nat) : BitVec 32 :=
  BitVec.ofNat 32 (s.load (envBase q + base * 64 + j * 4) 4)

/-- The samples of a stored envelope. -/
def State.envSamples (s : State) (q : Nat) (e : EnvEntry) : List (BitVec 32) :=
  (List.range e.length).map fun j => s.envSample q e.base j

/-- R196: sample j of a stream's data of the present shot; zero while it has not arrived (R146). -/
def State.streamSample (s : State) (q strm j : Nat) : BitVec 32 :=
  let t := Table.get {} s.sq.streams (q * 16 + strm)
  match s.place.inEffect.streams.find? fun e => e.1 == q && e.2.1 == strm with
  | some e =>
    if j < t.arrived ∧ 0 < e.2.2.1 then
      BitVec.ofNat 32 (s.load (envBase q + e.2.2.2 * 64 + (t.off + j) * 4 % (e.2.2.1 * 64)) 4)
    else 0
  | none => 0

/-- R165, R100: the stream samples of a streamed segment. -/
def State.segmentSamples (s : State) (q : Nat) (strm pos n : Nat) : List (BitVec 32) :=
  (List.range n).map fun j => s.streamSample q strm (pos + j)

/-- R146: the stream sample behind DAC sample k of a streamed segment has not arrived. -/
def State.sampleAbsent (s : State) (q : Nat) (p : Pulse) (k : Nat) : Bool :=
  match p.src with
  | .stream strm _ pos =>
    decide (p.start ≤ k ∧ k < p.start + p.len
      ∧ (Table.get {} s.sq.streams (q * 16 + strm)).arrived ≤ pos + (k - p.start) / p.interp)
  | _ => false

/-- R104, R105, R146: the envelope value (I, Q) of a pulse at DAC sample k. -/
def State.pulseValue (s : State) (q : Nat) (p : Pulse) (k : Nat) : Int × Int :=
  let past := match p.cut with
    | some c => decide (c ≤ k)
    | none => false
  let idx := if k < p.start + p.len then k - p.start else p.len - 1
  let w : BitVec 32 := match p.src with
    | .flat a => BitVec.ofNat 32 (wrapInt 16 a)
    | .stored id =>
      let e := s.envEntry q id
      if p.start + p.len ≤ k then s.envSample q e.base (e.length - 1)
      else if idx % p.interp = 0 then s.envSample q e.base (idx / p.interp)
      else Config.interp (s.envSamples q e) p.interp idx
    | .stream strm _ pos =>
      if idx % p.interp = 0 then s.streamSample q strm (pos + idx / p.interp)
      else Config.interp (s.segmentSamples q strm pos (p.len / p.interp)) p.interp idx
    | .flux id => s.envSample q (s.envEntry q id).base (idx / 2)
  if k < p.start || past || (decide (p.start + p.len ≤ k) && !p.hold) || s.sampleAbsent q p k then (0, 0)
  else (signedOf 16 w.toNat, signedOf 16 (w.toNat / 65536))

/-- R89: the pulse of a generator covers sample k. -/
def Gen.covers (g : Gen) (k : Nat) : Bool :=
  match g.pulse with
  | some p => decide (p.start ≤ k) && (decide (k < p.start + p.len) || p.hold)
  | none => false

/-! ### Accumulators and frames (R89 to R97) -/

/-- R89: the accumulator at sample k. -/
def Gen.accOf (g : Gen) (k : Nat) : BitVec 48 := g.acc + g.freq * BitVec.ofNat 48 (k - g.accAt)

/-- R94: take the accumulator to sample k. -/
def Gen.advance (g : Gen) (k : Nat) : Gen := { g with acc := g.accOf k, accAt := k }

/-- R97: the effective frame of generator n. -/
def State.frameEff (s : State) (q n : Nat) : BitVec 32 :=
  let own := (s.gen q n).frame
  if s.flag Reg.GEN_CTL.FOLLOW_EN [q, n] then own + (s.gen q (s.rd Reg.GEN_CTL.FOLLOW_SRC [q, n])).frame
  else own

/-- R89, R112: what generator n adds to its channel at sample k, in units of 2^-62. -/
def State.genOut (s : State) (q n k : Nat) : Int :=
  let g := s.gen q n
  match g.pulse with
  | none => 0
  | some p =>
    if g.covers k then
      let (i, qq) := s.pulseValue q p k
      let th := BitVec.ofNat 32 ((g.accOf k).toNat / 65536) + s.frameEff q n
      let two := s.rd Reg.CH_CFG.ZONE [q, genChan n] == 2
      let th := if two then -th else th
      let qq := if two then -qq else qq
      (s.rd Reg.GEN_GAIN.GAIN [q, n] : Int) * (p.scale : Int)
        * (i * (Config.cosOf th).toInt - qq * (Config.sinOf th).toInt)
    else 0

/-- The generators of a channel. -/
def gensOf (c : Nat) : List Nat := (List.range (chanGens c)).map (genIndex c)

/-- R116, R419: count a clipped sample of a channel, and record the first one in a shot. -/
def State.clipRecord (s : State) (k : Nat) (st : Stamp) (mask : Nat) : State :=
  let s := s.countClip k
  if (s.chan k).clipSeen || s.job.phase != .inShot then s
  else
    let s := s.updChan k fun c => { c with clipSeen := true }
    s.post s.jobCtx .event (chanSource k) 0x22 0 st [(0x14, 4, s.shotIdx), (0x18, 2, mask)]

/-- R146: note a muted sample of a target segment that a jump started before its data was there. -/
def State.noteGap (q k : Nat) (s : State) (n : Nat) : State :=
  match (s.gen q n).pulse with
  | some p =>
    match p.gap with
    | some g =>
      if s.sampleAbsent q p k then
        s.updGen q n fun x => { x with
          pulse := some { p with gap := some { g with first := some (g.first.getD k), count := g.count + 1 } } }
      else s
    | none => s
  | none => s

/-- R146, R179: the segment gap record of a pulse, when samples of it were muted. -/
def State.gapRecord (s : State) (p : Pulse) : State :=
  match p.gap with
  | some g =>
    match g.first with
    | some k => s.post s.jobCtx .event (512 + g.seq) 0x27 8 (s.sampleStamp 16 k)
        [(0x14, 4, s.shotIdx), (0x18, 2, g.stitch), (0x1A, 1, g.queue), (0x1C, 4, g.count)]
    | none => s
  | none => s

/-- R106, R146: the pulse of a generator is over. -/
def State.dropPulse (q : Nat) (s : State) (n : Nat) : State :=
  match (s.gen q n).pulse with
  | some p => (s.gapRecord p).updGen q n fun g => { g with pulse := none }
  | none => s

/-- R168: a stream underrun holds the channel at zero at DAC sample k. -/
def State.heldZero (s : State) (q c k : Nat) : Bool :=
  match (s.queue (q * 72 + c)).zeroFrom with
  | some z => decide (z ≤ k)
  | none => false

/-- R89, R116, R168: compute one DAC sample of an active RF channel. -/
def State.rfSample (s : State) (q c k : Nat) : State :=
  let s := (gensOf c).foldl (State.noteGap q k) s
  let sum := (gensOf c).foldl (fun a n => a + s.genOut q n k) 0
  let y := if s.heldZero q c k then 0 else asrInt sum (s.rd Reg.CH_CFG.SUM_SHIFT [q, c])
  let full : Int := ((2 ^ 62 : Nat) : Int)
  let o := clampInt (-full) full y
  let on := (gensOf c).any fun n => (s.gen q n).covers k
  let s := s.updChan (q * 40 + c) fun x => { x with
    out := o, evalTo := k + 1, playedTo := if on then k + 1 else x.playedTo }
  if y = o then s
  else
    let mask := ((List.range (chanGens c)).filter fun g => (s.gen q (genIndex c g)).covers k).foldl
      (fun a g => a + 2 ^ g) 0
    s.clipRecord (q * 40 + c) (s.sampleStamp 16 k) mask

/-- The channel has a pulse to compute. -/
def State.pulsing (s : State) (q c : Nat) : Bool := (gensOf c).any fun n => (s.gen q n).pulse.isSome

/-- R166: the buffer space of the stream samples that a pulse has played is free. -/
def State.freeStream (s : State) (q : Nat) (p : Pulse) (k : Nat) : State :=
  match p.src with
  | .stream strm _ pos =>
    let n := pos + (min k (p.start + p.len) - p.start) / p.interp
    { s with sq.streams := Table.upd {} s.sq.streams (q * 16 + strm) fun t => { t with played := max t.played n } }
  | _ => s

/-- The pulse of a generator at sample k: stream space is freed, and a pulse that has ended is gone. -/
def State.endPulse (s : State) (q k n : Nat) : State :=
  match (s.gen q n).pulse with
  | some p =>
    let s := s.freeStream q p k
    if !p.hold && decide (p.start + p.len ≤ k) then State.dropPulse q s n else s
  | none => s

def State.endPulses (s : State) (q c k : Nat) : State := (gensOf c).foldl (fun s n => s.endPulse q k n) s

/-- Compute the samples of an RF channel before sample `k`. A channel with no pulse plays zero (R89). -/
def State.renderRf (s : State) (q c k : Nat) : State :=
  let x := s.chan (q * 40 + c)
  if x.st = 1 ∧ s.pulsing q c then
    let s := ((List.range (k - x.evalTo)).foldl (fun s i => s.rfSample q c (x.evalTo + i)) s).endPulses q c k
    if s.pulsing q c then s else s.updChan (q * 40 + c) fun x => { x with out := 0 }
  else s

/-! ### The fast flux chain (R414 to R417) -/

def Dyadic.add (a b : Dyadic) : Dyadic :=
  if a.exp ≤ b.exp then ⟨a.num * ((2 ^ (b.exp - a.exp) : Nat) : Int) + b.num, b.exp⟩
  else ⟨a.num + b.num * ((2 ^ (a.exp - b.exp) : Nat) : Int), a.exp⟩
def Dyadic.neg (a : Dyadic) : Dyadic := ⟨-a.num, a.exp⟩
def Dyadic.mul (a b : Dyadic) : Dyadic := ⟨a.num * b.num, a.exp + b.exp⟩

/-- R414: intermediate values saturate at ±131,072. -/
def Dyadic.sat (a : Dyadic) : Dyadic :=
  let m : Int := 131072 * ((2 ^ a.exp : Nat) : Int)
  if a.num < -m then ⟨-131072, 0⟩ else if m < a.num then ⟨131072, 0⟩ else a

/-- Rounded to nearest. -/
def Dyadic.round (a : Dyadic) : Int := rndNearest a.num (2 ^ a.exp)

/-- R415: tap t of the FIR, in units of 2^-14. -/
def State.firTap (s : State) (k t : Nat) : Dyadic :=
  let f := if t % 2 = 0 then Reg.FF_FIR.TAP_LO else Reg.FF_FIR.TAP_HI
  ⟨signedOf 16 (s.rd f [k, t / 2]), 14⟩

/-- R414: the pulse value e of flux channel k at flux sample n, in units of 2^-15. -/
def State.fluxValue (s : State) (k : Nat) (p : Option Pulse) (n : Nat) : Int :=
  match p with
  | none => 0
  | some p =>
    let past := match p.cut with
      | some c => decide (c ≤ n)
      | none => false
    if n < p.start || past || (decide (p.start + p.len ≤ n) && !p.hold) then 0
    else
      let idx := if n < p.start + p.len then n - p.start else p.len - 1
      match p.src with
      | .flat a => a
      | .flux id =>
        let w := (s.envSample (k / 16) (s.envEntry (k / 16) id).base (idx / 2)).toNat
        if idx % 2 = 0 then signedOf 16 w else signedOf 16 (w / 65536)
      | _ => 0

/-- R414: the IIR stages j = 0 to 3: the new s[j], oldest stage first, and the output x. -/
def State.iirStages (s : State) (k : Nat) : List Dyadic → Nat → Dyadic → List Dyadic × Dyadic
  | [], _, x => ([], x)
  | sj :: rest, j, x =>
    if bitOf (s.rd Reg.FF_CFG.IIR_EN [k]) j then
      let al : Dyadic := ⟨s.rd Reg.FF_IIR_ALPHA.ALPHA [k, j], 24⟩
      let aj : Dyadic := ⟨signedOf 20 (s.rd Reg.FF_IIR_A.A [k, j]), 18⟩
      let sj := (sj.add (al.mul (x.add sj.neg))).sat
      let x := (x.add (aj.mul (x.add sj.neg))).sat
      let (t, y) := s.iirStages k rest (j + 1) x
      (sj :: t, y)
    else
      let (t, y) := s.iirStages k rest (j + 1) x
      (sj :: t, y)

/-- The key under which flux generator k is kept beside the RF generators. -/
def fluxGen (k : Nat) : Nat := 1024 + k

/-- R414, R419: compute one flux sample of an active channel. -/
def State.fluxSample (s : State) (k n : Nat) : State :=
  let ch := Table.get {} s.outs.flux k
  let p := (Table.get {} s.outs.gens (fluxGen k)).pulse
  let scale := match p with
    | some p => p.scale
    | none => 0
  let off : Dyadic := ⟨signedOf 16 (s.rd Reg.FF_LEVEL.OFFSET [k]), 0⟩
  let e : Dyadic := ⟨(s.rd Reg.FF_LEVEL.GAIN [k] : Int) * (scale : Int) * s.fluxValue k p n, 30⟩
  let (st, x) := s.iirStages k ch.s 0 (off.add e).sat
  let fir := s.flag Reg.FF_CFG.FIR_EN [k]
  let h := if fir then x :: ch.h.take 31 else ch.h
  let y := if fir then
      (((List.range 32).map fun t => (s.firTap k t).mul (h.getD t ⟨0, 0⟩)).foldl Dyadic.add ⟨0, 0⟩).sat
    else x
  let r := y.round
  let o := satInt 16 r
  let s := { s with outs.flux := Table.set {} s.outs.flux k { ch with s := st, h := h } }
  let s := s.updChan (160 + k) fun c => { c with out := o, evalTo := n + 1 }
  if r = o then s else s.clipRecord (160 + k) (s.sampleStamp 2 n) 1

/-- R77: the queue of a fast flux output is halted. -/
def State.fluxHalted (s : State) (k : Nat) : Bool := (s.queue (k / 16 * 72 + 48 + k % 16)).halted

/-- Compute the samples of a flux channel before flux sample `n`. A halted output stays muted, and its chain
stands (R77, R418). -/
def State.renderFlux (s : State) (k n : Nat) : State :=
  let x := s.chan (160 + k)
  if x.st = 1 ∧ s.fluxHalted k then s.updChan (160 + k) fun c => { c with out := 0, evalTo := max x.evalTo n }
  else if x.st = 1 then (List.range (n - x.evalTo)).foldl (fun s i => s.fluxSample k (x.evalTo + i)) s else s

/-- R417: preset the chain to OFFSET. -/
def State.presetFlux (s : State) (k : Nat) : State :=
  let off : Dyadic := ⟨signedOf 16 (s.rd Reg.FF_LEVEL.OFFSET [k]), 0⟩
  { s with outs.flux := Table.set {} s.outs.flux k { s := List.replicate 4 off, h := List.replicate 32 off } }

/-! ### Output stages (R117 to R123) -/

/-- Stop every pulse of a channel. -/
def State.silence (s : State) (k : Nat) : State :=
  if k < 160 then (gensOf (k % 40)).foldl (State.dropPulse (k / 40)) s
  else { s with outs.gens := Table.upd {} s.outs.gens (fluxGen (k - 160)) fun g => { g with pulse := none } }

/-- R119: return a channel to terminated. -/
def State.terminate (s : State) (k : Nat) : State :=
  (s.silence k).updChan k fun c => { c with st := 0, switching := false, virgin := true, out := 0 }

/-- R121, R24, R25: fault mute of a channel with a cause code. -/
def State.faultMute (s : State) (cause k : Nat) : State :=
  let (q, i) := chanQueue k
  let inv := s.job.phase == .inShot && s.jobUses q i
  let s := (s.silence k).updChan k fun c => { c with
    st := 2, switching := false, virgin := true, out := 0, cause := cause,
    causes := if c.causes.contains cause then c.causes else cause :: c.causes }
  s.post s.jobCtx .event (chanSource k) 0x23 (if inv then 8 else 0) s.nowStamp
    [(0x14, 4, s.shotIdx), (0x18, 1, cause)]

/-- R122: a cause ends; a channel in FAULT with no cause left becomes terminated. -/
def State.faultClear (s : State) (cause k : Nat) : State :=
  let c := s.chan k
  if c.causes.contains cause then
    let left := c.causes.filter (· ≠ cause)
    s.updChan k fun c => { c with causes := left, st := if left = [] ∧ c.lock = 0 then 0 else c.st }
  else s

/-- R3, R212: the pin's awl function is selected. -/
def State.awlPin (s : State) (p : Nat) : Bool := decide (p < 32) && s.flag Reg.AWL_IN_CFG.EN [p]

/-- R569: an armed timer, or one whose pulse lasts, holds the pin. -/
def State.timerHolds (s : State) (p : Nat) : Bool :=
  s.net.timers.any fun e => (e.2.armed || e.2.pulseTo != 0) && e.2.pin == p + 1

/-- R212, R569: the welt treats the pin as in don't-care mode. -/
def State.freePin (s : State) (p : Nat) : Bool := s.awlPin p || s.timerHolds p

/-! ### Halted queues (R77) -/

/-- R210: a compare has ended with what its slot becomes. The slot stays pending while another compare of
it is outstanding. -/
def State.endCompare (s : State) (m : MarkCmp) (r : CSlot) : State :=
  let s := { s with outs.cmps := s.outs.cmps.filter fun x => x.id ≠ m.id }
  let more := s.outs.cmps.any fun x => x.seq == m.seq && x.slot == m.slot
  s.updSeq m.seq fun x => { x with cslots := x.cslots.set! m.slot (if more then CSlot.pending else r) }

/-- R210: a comparing MARK's compare is void. -/
def State.voidCompare (s : State) (id : Nat) : State :=
  match s.outs.cmps.find? fun m => m.id == id with
  | none => s
  | some m => s.endCompare m CSlot.void

/-- R420: the bias output of a channel of a bias queue. -/
def biasOf (w ch : Nat) : Nat := (w / 72 * 4 + (w % 72 - 64)) * 16 + ch

/-- R73: the bias outputs of a halted queue hold their values: their waveforms end. -/
def State.haltBias (s : State) (w : Nat) : State :=
  let up : Bias → Bias := fun b => { b with wave := none }
  { s with bias.outs := (List.range 16).foldl (fun t c => Table.upd {} t (biasOf w c) up) s.bias.outs }

/-- R73, R77: halt a queue: its output mutes at once, and bias outputs hold. -/
def State.haltQueue (s : State) (w : Nat) : State :=
  let s := s.updQueue w fun x => { x with halted := true }
  let s := if 64 ≤ w % 72 ∧ w % 72 < 68 then s.haltBias w else s
  match queueChan (w / 72) (w % 72) with
  | some k => (s.silence k).updChan k fun c => { c with out := 0 }
  | none => s

end Sys2Proof.Machine
end

