-- ==== Sys2Proof/Machine/Bias.lean ====
section
/-! DEFINITION. Bias outputs: codes, waveforms, ramps, range sequences, conditions and the NV bias
record (chapter 11); and the planning of start ticks that they share with the job machine (R28 to
R31). -/

namespace Sys2Proof.Machine

/-! ### Start ticks (R28 to R31) -/

/-- The tick at which device time (in ns) is reached. -/
def State.tickOf (s : State) (ns : Nat) : Nat :=
  ((s.time.now : Int) + (ns : Int) - (s.time.dev.abs : Int)).toNat

/-- R29, R31: plan the start tick of the next shot from the tick the start lead counts from. -/
def State.plan (s : State) : State :=
  match s.job.job with
  | none => s
  | some j =>
    let lead := s.job.leadFrom + 1000
    match s.job.phase with
    | .armed => { s with job.startTick := match j.start with
        | some d => max lead (s.tickOf d)
        | none => lead }
    | .shotBoundary => { s with job.startTick := max lead (s.job.prevStart + j.period) }
    | _ => s

/-- R54, R429: the start lead counts from now. -/
def State.leadNow (s : State) : State := State.plan { s with job.leadFrom := s.time.now }

/-- The device is at a job boundary or idle with no job armed (R19). -/
def State.betweenJobs (s : State) : Bool := s.job.phase == .idle

/-- R21: at a job boundary, idle, or a shot boundary whose sequencers have not started. -/
def State.atBoundary (s : State) : Bool :=
  s.job.phase == .idle || (s.job.phase == .shotBoundary && !s.job.prepared)

/-! ### Channels (R420 to R422) -/

def State.biasOut (s : State) (k : Nat) : Bias := Table.get {} s.bias.outs k
def State.updBias (s : State) (k : Nat) (f : Bias → Bias) : State :=
  { s with bias.outs := Table.upd {} s.bias.outs k f }

/-- R420: the quarter and queue index of a bias output. -/
def biasQueue (k : Nat) : Nat × Nat := (k / 64, 64 + k / 16 % 4)

/-- The running job's last uses the channel. -/
def State.biasUsed (s : State) (k : Nat) : Bool := s.jobUses (biasQueue k).1 (biasQueue k).2

/-- R437: BIA_CFG.RAMP in ticks for a full scale. -/
def rampTicks (code : Nat) : Nat := 10000 * 10 ^ code

/-- R428: the length of a ramp of c codes. -/
def State.rampLen (s : State) (k : Nat) (c : Int) : Nat :=
  (c.natAbs * rampTicks (s.rd Reg.BIA_CFG.RAMP [k]) + 524287) / 524288

/-- R428: the code on a ramp from `a` to `b` at `t` ticks from its start; between two codes either
neighbour (log 11). -/
def State.rampCode (s : State) (k : Nat) (a b : Int) (t : Nat) : Int :=
  let full : Nat := rampTicks (s.rd Reg.BIA_CFG.RAMP [k])
  let step : Nat := t * 524288 / full
  let moved : Nat :=
    if t * 524288 % full = 0 then step else step + (Config.halfUp (t * 524288)).toNat
  if (b - a).natAbs ≤ moved then b else if a ≤ b then a + (moved : Int) else a - (moved : Int)

/-- R422, R437: the present code. -/
def State.biasCode (s : State) (k : Nat) : Int :=
  let b := s.biasOut k
  match b.move with
  | .steady => b.code
  | .ramp t since => s.rampCode k b.code t (s.time.now - since)
  | .toZero since _ _ => s.rampCode k b.code 0 (s.time.now - since)
  | .hold _ _ _ => 0
  | .up t since => s.rampCode k b.code t (s.time.now - since)

/-- R428: a commit has changed RAMP while the output moves: it goes on from where it stands (`o` is the state
before the commit). -/
def State.rampChanged (o s : State) (k : Nat) : State :=
  if o.rd Reg.BIA_CFG.RAMP [k] = s.rd Reg.BIA_CFG.RAMP [k] then s
  else
    let c := o.biasCode k
    match (s.biasOut k).move with
    | .ramp t _ => s.updBias k fun b => { b with code := c, move := .ramp t s.time.now }
    | .toZero _ r z => s.updBias k fun b => { b with code := c, move := .toZero s.time.now r z }
    | .up t _ => s.updBias k fun b => { b with code := c, move := .up t s.time.now }
    | _ => s

/-- R427: the range that the output has or that its range sequence gives it. -/
def Bias.toRange (b : Bias) : Nat :=
  match b.move with
  | .toZero _ r _ => r
  | .hold _ r _ => r
  | _ => b.range

/-- R427: a commit has changed RANGE: a range sequence waits to start, also when another runs. -/
def State.rangeChanged (o s : State) (k : Nat) : State :=
  let r := s.rd Reg.BIA_CFG.RANGE [k]
  if o.rd Reg.BIA_CFG.RANGE [k] = r then s
  else s.updBias k fun b => { b with rangeWait := decide (r ≠ b.toRange) }

/-- The code stands where it is and nothing moves the output. -/
def State.biasFreeze (s : State) (k : Nat) : State :=
  let c := s.biasCode k
  s.updBias k fun b => { b with code := c, move := .steady }

/-- R428: ramp from the present code to a target. -/
def State.biasRamp (s : State) (k : Nat) (target : Int) : State :=
  (s.biasFreeze k).updBias k fun b => { b with move := .ramp target s.time.now }

/-- R214, R423: step to a code. During a range sequence the code is the new target (R427). -/
def State.biasStep (s : State) (k : Nat) (code : Int) : State :=
  let b := s.biasOut k
  if b.st ≠ 0 then s
  else match b.move with
    | .toZero t r _ => s.updBias k fun b => { b with move := .toZero t r code }
    | .hold t r _ => s.updBias k fun b => { b with move := .hold t r code }
    | .up _ _ => (s.biasFreeze k).updBias k fun b => { b with move := .up code s.time.now }
    | _ => s.updBias k fun b => { b with code := code, move := .steady, wave := none }

/-! ### Conditions (R430 to R434) -/

/-- R434: the shot index of a bias record. -/
def State.biasShot (s : State) : Nat := if s.job.phase = .inShot then s.shotIdx else 0xFFFFFFFF

/-- R434: a bias condition record. -/
def State.biasRecord (s : State) (k cause action : Nat) (inv : Bool) : State :=
  s.post s.jobCtx .event (256 + k) 0x45 (if inv then 8 else 0) s.nowStamp
    [(0x14, 4, s.biasShot), (0x18, 1, cause), (0x19, 1, action), (0x1C, 4, wrapInt 32 (s.biasCode k))]

/-- R671: the newer of two valid slots of a record. -/
def newerSlot (a b : NvSlot) : Option NvSlot :=
  match a.valid, b.valid with
  | true, true => if (b.seq - a.seq).toNat < 2 ^ 31 then some b else some a
  | true, false => some a
  | false, true => some b
  | false, false => none

/-- R671: the newest valid slot of an NV record. -/
def State.nvNewest (s : State) (rec : Nat) : Option NvSlot :=
  newerSlot (Table.get {} s.nv.slots (rec * 2)) (Table.get {} s.nv.slots (rec * 2 + 1))

/-- R436: the valid NV bias record. -/
def State.nvBias (s : State) : Option BiasNv :=
  match s.nvNewest 0 with
  | some ⟨_, _, some (.bias r)⟩ => some r
  | _ => none

/-- R432, R436: the safe range and code of a channel. -/
def State.safeValue (s : State) (k : Nat) : Nat × Int :=
  match s.flag Reg.BIAS_GCTL.T2MODE [], s.nvBias with
  | true, some nv => let e := Table.get (0, 1, 0) nv.chans k; (e.1, e.2.2)
  | _, _ => ((s.biasOut k).range, 0)

/-- R431, R432: an output goes to its safe value. -/
def State.biasSafe (s : State) (k : Nat) : State :=
  let (r, c) := s.safeValue k
  let s := s.biasFreeze k
  if r = (s.biasOut k).range then s.biasRamp k c
  else s.updBias k fun b => { b with
    move := .toZero s.time.now r c, seqFrom := s.time.now, oldRange := b.range }

/-- R431: take an action for a cause. HOLD and SAFE mark the shot that runs, whatever channels it uses. -/
def State.biasAct (s : State) (k cause action : Nat) : State :=
  let inv := decide (action ≠ 0) && s.job.phase == .inShot
  let s := s.biasRecord k cause action inv
  match action with
  | 0 => s
  | 1 => (s.biasFreeze k).updBias k fun b => { b with st := 2, wave := none }
  | _ => (s.biasSafe k).updBias k fun b => { b with
      st := 3, wave := none, rangeWait := false
      causes := if b.causes.contains cause then b.causes else cause :: b.causes }

/-- R431: SAFE on every bias output, whatever its action field. -/
def State.allBiasSafe (s : State) (cause : Nat) : State :=
  (List.range 256).foldl (fun s k => s.biasAct k cause 2) s

/-- A cause of every bias output clears. -/
def State.allBiasClear (s : State) (cause : Nat) : State :=
  let up : Bias → Bias := fun b => { b with causes := b.causes.filter (· ≠ cause) }
  { s with bias.outs := (s.bias.outs.map (·.1)).foldl (fun t k => Table.upd {} t k up) s.bias.outs }

/-- BIAS_COMPLIANCE (R430, R431): the onset has held for 2 µs. -/
def State.biasCompliance (s : State) (k : Nat) : State :=
  let b := s.biasOut k
  if b.st = 3 ∨ b.compl = true then s
  else
    let s := s.updBias k fun b => { b with compl := true }
    s.biasAct k 1 (if b.openLoad then 0 else s.rd Reg.BIA_CFG.CACT [k])

def execBiasCompliance (k : Fin 256) (s : State) : Host.Outcome State Fault Refusal :=
  .next (s.biasCompliance k)

/-- BIAS_COMPLIANCE_CLEAR (R430): below the threshold for 10 µs. -/
def State.biasComplianceClear (s : State) (k : Nat) : State :=
  if (s.biasOut k).compl then
    let s := s.updBias k fun b => { b with compl := false, causes := b.causes.filter (· ≠ 1) }
    s.biasRecord k 2 0 false
  else s

def execBiasComplianceClear (k : Fin 256) (s : State) : Host.Outcome State Fault Refusal :=
  .next (s.biasComplianceClear k)

/-- R421, R430: the commanded current is 1/64 of full scale or more. -/
def openEligible (code : Int) : Bool := decide (8192 ≤ code.natAbs)

/-- BIAS_OPEN_LOAD (R430, R431): the onset has held for 10 µs. -/
def State.biasOpenLoad (s : State) (k : Nat) : State :=
  let b := s.biasOut k
  if b.st = 3 ∨ b.openLoad = true ∨ openEligible (s.biasCode k) = false then s
  else
    let s := s.updBias k fun b => { b with openLoad := true }
    s.biasAct k 3 (s.rd Reg.BIA_CFG.OACT [k])

def execBiasOpenLoad (k : Fin 256) (s : State) : Host.Outcome State Fault Refusal :=
  .next (s.biasOpenLoad k)

/-- BIAS_REARM (R433): open load clears here (R430). -/
def State.biasRearm (s : State) (k : Nat) : State :=
  let b := s.biasOut k
  let left := b.causes.filter (· ≠ 3)
  if b.st = 2 ∨ (b.st = 3 ∧ left = []) then
    (s.biasFreeze k).updBias k fun b => { b with st := 0, causes := [], openLoad := false }
  else if b.st = 0 then s.updBias k fun b => { b with openLoad := false }
  else s

def execBiasRearm (k : Fin 256) (s : State) : Host.Outcome State Fault Refusal := .next (s.gate (s.biasRearm k))

/-! ### Waveforms (R424 to R426) -/

/-- R424: point j of a waveform. -/
def State.wavePoint (s : State) (q a : Nat) : Int := signedOf 20 (s.load (biasWaveBase q + a % 262144 * 4) 4)

/-- R426: a point that cannot be read. -/
def State.waveError (s : State) (k a : Nat) : State :=
  let s := s.eccError 5 (k / 64) 0 a true
  let s := s.updBias k fun b => { b with wave := none }
  s.biasRecord k 7 0 true

/-- R424: apply the next point of the running waveform. -/
def State.waveStep (s : State) (k : Nat) (bad : Bool) : State :=
  match (s.biasOut k).wave with
  | none => s
  | some w =>
    if bad then s.waveError k (w.start + w.next)
    else
      let c := s.wavePoint (k / 64) (w.start + w.next)
      let fin := w.next + 1 == w.len
      let w' : Option BiasWave :=
        if fin && !w.loop then none
        else some { w with next := if fin then 0 else w.next + 1, due := w.due + w.period * 1000 }
      s.updBias k fun b => { b with code := c, move := .steady, wave := w' }

/-- R424, R425: start a waveform: point 0 is applied now. -/
def State.startWave (s : State) (k wave : Nat) (bad : Bool) : State :=
  if (s.biasOut k).st ≠ 0 then s
  else
    let q := k / 64
    let w : BiasWave := {
      start := s.rd Reg.BW_A.START [q, wave], len := s.rd Reg.BW_B.LENGTH [q, wave]
      loop := s.flag Reg.BW_B.MODE [q, wave], period := s.rd Reg.BW_B.PERIOD [q, wave], due := s.time.now }
    (s.updBias k fun b => { b with wave := some w }).waveStep k bad

/-- BIAS_WAVE_POINT (R424, R426): the period of the running waveform's last point has expired. -/
def State.biasWavePoint (s : State) (k : Nat) (bad : Bool) : State :=
  match (s.biasOut k).wave with
  | some w => if w.due ≤ s.time.now then s.waveStep k bad else s
  | none => s

def execBiasWavePoint (k : Fin 256) (bad : Bool) (s : State) : Host.Outcome State Fault Refusal :=
  .next (s.biasWavePoint k bad)

/-- R425: every waveform ends at the job boundary; steps that waited for it take effect (R423). -/
def State.biasJobEnd (s : State) : State :=
  (s.bias.outs.map (·.1)).foldl (fun s k =>
    let s := s.updBias k fun b => { b with wave := none }
    match (s.biasOut k).step with
    | some c => (s.updBias k fun b => { b with step := none }).biasStep k c
    | none => s) s

/-! ### Range sequences (R427 to R429) -/

/-- R421: four to the power of the range: the LSBs stand in the ratio 1 to 4 to 16. -/
def rangeScale (r : Nat) : Nat := 4 ^ r

/-- R427: start the sequence to a range; a new code beyond it is clamped and logged. -/
def State.rangeStart (s : State) (k : Nat) : State :=
  let s := s.biasFreeze k
  let b := s.biasOut k
  let r := s.rd Reg.BIA_CFG.RANGE [k]
  let c := rndNearest (b.code * (rangeScale b.range : Int)) (rangeScale r)
  let c' := satInt 20 c
  let s := s.updBias k fun b => { b with
    rangeWait := false, move := .toZero s.time.now r c', seqFrom := s.time.now, oldRange := b.range }
  if c = c' then s else s.runtimeClamp (256 + k) (wrapInt 32 c) (wrapInt 32 c')

/-- RANGE_SEQUENCE (R427): after boundary work, and for a used channel at a job boundary (which lasts until
the first shot, R19) or idle. -/
def State.rangeSequence (s : State) (k : Nat) : State :=
  if (s.biasOut k).rangeWait ∧ (s.biasOut k).st = 0 ∧ s.job.work = false
      ∧ (s.betweenJobs ∨ s.job.phase = .armed ∨ s.biasUsed k = false) then
    s.rangeStart k
  else s

def execRangeSequence (k : Fin 256) (s : State) : Host.Outcome State Fault Refusal :=
  .next (s.rangeSequence k)

/-- RANGE_HOLD_END (R427): 20 µs at zero are over; the range in force is the new one. -/
def State.rangeHoldEnd (s : State) (k : Nat) : State :=
  match (s.biasOut k).move with
  | .hold since r c =>
    if since + 20000 ≤ s.time.now then
      s.updBias k fun b => { b with range := r, code := 0, move := .up c s.time.now }
    else s
  | _ => s

def execRangeHoldEnd (k : Fin 256) (s : State) : Host.Outcome State Fault Refusal :=
  .next (s.rangeHoldEnd k)

/-- R429, R434: the end of a range sequence. -/
def State.rangeDone (s : State) (k : Nat) (c : Int) : State :=
  let b := s.biasOut k
  let s := s.updBias k fun b => { b with code := c, move := .steady }
  let us := min 0xFFFF ((s.time.now - b.seqFrom) / 1000)
  let s := s.post s.jobCtx .event (256 + k) 0x46 0 s.nowStamp
    [(0x14, 4, s.biasShot), (0x18, 1, b.oldRange), (0x19, 1, b.range), (0x1A, 2, us), (0x1C, 4, wrapInt 32 c)]
  if s.job.phase = .armed ∧ s.biasUsed k then s.leadNow else s

/-- RAMP_DONE (R427, R428): a ramp has reached its target. -/
def State.rampDone (s : State) (k : Nat) : State :=
  let b := s.biasOut k
  match b.move with
  | .ramp t since =>
    if since + s.rampLen k (t - b.code) ≤ s.time.now then
      s.updBias k fun b => { b with code := t, move := .steady }
    else s
  | .toZero since r c =>
    if since + s.rampLen k b.code ≤ s.time.now then
      s.updBias k fun b => { b with code := 0, move := .hold s.time.now r c }
    else s
  | .up t since => if since + s.rampLen k (t - b.code) ≤ s.time.now then s.rangeDone k t else s
  | _ => s

def execRampDone (k : Fin 256) (s : State) : Host.Outcome State Fault Refusal := .next (s.rampDone k)

/-! ### The NV bias record (R436) -/

/-- R436: what a save stores. -/
def State.biasImage (s : State) : BiasNv :=
  { t2 := s.flag Reg.BIAS_GCTL.T2MODE []
    chans := (List.range 256).foldl (fun t k => Table.set (0, 1, 0) t k
      (s.rd Reg.BIA_CFG.RANGE [k], s.rd Reg.BIA_CFG.RAMP [k], s.biasCode k)) [] }

/-- R429: a range sequence runs on a channel of the job's last. -/
def State.rangeBusy (s : State) : Bool :=
  s.bias.outs.any fun e => s.biasUsed e.1 && match e.2.move with
    | .toZero _ _ _ => true
    | .hold _ _ _ => true
    | .up _ _ => true
    | _ => e.2.rangeWait

/-! ### The flux chain preset (R417) -/

/-- R417: presets that wait for a boundary; they take the OFFSET that its boundary work leaves. -/
def State.fluxPresets (s : State) : State :=
  (s.outs.flux.map (·.1)).foldl (fun s k => if (Table.get {} s.outs.flux k).clr then s.presetFlux k else s) s

/-- FF_CLR (R417): the preset waits for the next boundary; at one with no commit due, it is made at once. -/
def State.ffClr (s : State) (k : Nat) : State :=
  if s.job.phase ≠ .inShot ∧ s.job.work = false ∧ s.cfg.pending = false then s.presetFlux k
  else { s with outs.flux := Table.upd {} s.outs.flux k fun c => { c with clr := true } }

def execFfClr (k : Fin 64) (s : State) : Host.Outcome State Fault Refusal := .next (s.gate (s.ffClr k))

end Sys2Proof.Machine
end

