-- ==== Sys2Proof/Machine/Readout.lean ====
section
/-! DEFINITION. Readout inputs: down-conversion, windows, discrimination, drift tracking, routing to
the processors, and raw capture (chapters 06, 07). -/

namespace Sys2Proof.Machine

/-! ### Tokens (R312 to R317) -/

/-- R16, R317: make a measurement or syndrome token and send it to both planes. -/
def State.makeToken (s : State) (syn void : Bool) (tgt payload smp : Nat) : State :=
  let n := Table.get 0 s.rdo.made tgt
  let t : Token := {
    kind := BitVec.ofNat 4 ((if syn then 2 else 1) + (if void then 8 else 0)), seq := BitVec.ofNat 15 n,
    target := BitVec.ofNat 12 tgt, payload := BitVec.ofNat 32 payload, smp := smp }
  let put : Plane → Plane := fun p =>
    if p.mode = .quarantined then p
    else if syn then { p with syns := p.syns ++ [t] } else { p with toks := p.toks ++ [t] }
  { s with rdo.made := Table.set 0 s.rdo.made tgt (n + 1), planes.dp := s.planes.dp.map put }

/-- R263: the payload of a measurement or syndrome token. -/
def tokenPayload (tone state conf tickLo : Nat) : Nat :=
  tone * 2 ^ 23 + state % 4 * 2 ^ 21 + conf % 32 * 2 ^ 16 + tickLo % 2 ^ 16

/-! ### Down-conversion (R242 to R245) -/

/-- R4: the tone identifier of tone t of quarter q. -/
def toneId (q t : Nat) : Nat := q * 128 + t

/-- R5: the event source of readout input i of quarter q. -/
def inputSource (q i : Nat) : Nat := 160 + q * 8 + i

/-- The frequency, frame and accumulator that held for a tone at ADC sample k. -/
def State.toneAt (s : State) (q t k : Nat) : Gen :=
  match (Table.get [] s.rdo.hist (q * 128 + t)).find? fun h => decide (k < h.1) with
  | some h => h.2
  | none => s.tone q t

/-- R238: the 16-bit sample of a 12-bit code. -/
def adcSample (c : BitVec 12) : Int := c.toInt * 16

/-- A quarter turn in radians, scaled by 2^80. -/
def quarterTurn : Int := 1898976236818169290393996

/-- `n` terms of an alternating Taylor series from `t`, the term over j!, at scale 2^80; x2 is the square. -/
def taylor (x2 : Int) : Nat → Nat → Int → Int
  | 0, _, _ => 0
  | n + 1, j, t => t - taylor x2 n (j + 2) (t * x2 / 2 ^ 80 / (((j + 1) * (j + 2) : Nat) : Int))

/-- Cosine and sine of r / 2^32 turn, for r below a quarter turn, at scale 2^80. -/
def quarterTrig (r : Nat) : Int × Int :=
  let x := (r : Int) * quarterTurn / 2 ^ 30
  let x2 := x * x / 2 ^ 80
  (taylor x2 16 0 (2 ^ 80), taylor x2 16 1 x)

/-- The cosine of a phase in units of 2^-32 turn, at scale 2^80. -/
def cosine (th : Nat) : Int :=
  let r := th % 2 ^ 30
  match th / 2 ^ 30 % 4 with
  | 0 => (quarterTrig r).1
  | 1 => -(quarterTrig r).2
  | 2 => -(quarterTrig r).1
  | _ => (quarterTrig r).2

/-- R244: a value at scale 2^80 in signed 16-bit form: exact where it fits, else one of its two neighbours
(log 4). -/
def trig16 (v : Int) (up : BitVec 1) : Int :=
  if v % 2 ^ 65 = 0 ∧ v < 2 ^ 80 then v / 2 ^ 65 else min 32767 (v / 2 ^ 65) + (up.toNat : Int)

/-- R244: COS and SIN of a phase. -/
def cos16 (th : BitVec 32) : Int := trig16 (cosine th.toNat) (Config.cosUp th)
def sin16 (th : BitVec 32) : Int := trig16 (cosine (th.toNat + 3 * 2 ^ 30)) (Config.sinUp th)

/-- R244: the mixed sample of a tone at ADC sample k; ADC sample k is DAC sample 2k (R242). -/
def State.mixed (s : State) (q t k : Nat) (x : Int) : Int × Int :=
  let g := s.toneAt q t k
  let th := BitVec.ofNat 32 ((g.accOf (2 * k)).toNat / 65536) + g.frame
  (asrInt (x * cos16 th) 15, asrInt (-(x * sin16 th)) 15)

def addPair (a b : Int × Int) : Int × Int := (a.1 + b.1, a.2 + b.2)

/-- R248: the group sums d_m of samples from ADC sample `k`, `n` to the group. -/
def State.groups (s : State) (q t n : Nat) : Nat → List Int → Nat → Int × Int → List (Int × Int)
  | _, [], i, acc => if i = 0 then [] else [acc]
  | k, x :: xs, i, acc =>
    let acc := addPair acc (s.mixed q t k x)
    if i + 1 = n then acc :: State.groups s q t n (k + 1) xs 0 (0, 0)
    else State.groups s q t n (k + 1) xs (i + 1) acc

/-! ### Windows (R248 to R250) -/

def Win.tone (w : Win) : Nat := w.cfg.tone
/-- The kernel set of a window (R247). -/
def Win.ks (w : Win) : Nat := w.cfg.tone * 8 + w.cfg.kset
def Win.last (w : Win) : Nat := w.first + w.cfg.len - 1
/-- R263: the window-end tick. -/
def Win.endTick (w : Win) : Nat := (w.first + w.cfg.len + 7) / 8

/-- R248: ADC samples in a group of a kernel set. -/
def State.groupLen (s : State) (q ks : Nat) : Nat := 8 * 2 ^ s.rd Reg.KS_CFG.DEC [q, ks]

/-- R249, R250: the stored taps in use: none for the boxcar. -/
def State.kernelTaps (s : State) (q ks : Nat) : Option (List (Int × Int)) :=
  let kn := s.rd Reg.KS_CFG.KERNEL [q, ks]
  if kn = 4095 then none
  else
    let e := s.envEntry q kn
    some ((List.range (min e.length 2048)).map fun j =>
      let w := (s.envSample q e.base j).toNat
      (signedOf 16 w, signedOf 16 (w / 65536)))

/-- R250: one 48-bit component of the accumulator; a value the spec leaves open when the exact sum
does not fit (log 8). -/
def acc48 (ctr : Nat) (i : Int) : Int :=
  if satInt 48 i = i then i
  else signedOf 48 ((Config.freeWord ctr).toNat + (Config.freeWord (ctr + 1)).toNat * 2 ^ 32)

/-- R250: the exact accumulator A × 32,768. -/
def accumulate : Option (List (Int × Int)) → List (Int × Int) → Int × Int
  | _, [] => (0, 0)
  | none, d :: ds => addPair (d.1 * 32768, d.2 * 32768) (accumulate none ds)
  | some [], _ => (0, 0)
  | some (w :: ws), d :: ds =>
    addPair (w.1 * d.1 - w.2 * d.2, w.1 * d.2 + w.2 * d.1) (accumulate (some ws) ds)

/-- R250: the point P of a window, with PSAT and KTRUNC. -/
def State.point (s : State) (q ks : Nat) (ds : List (Int × Int)) : Int × Int × Bool × Bool :=
  let taps := s.kernelTaps q ks
  let (ai, aq) := accumulate taps ds
  let sh := s.rd Reg.KS_CFG.KSHIFT [q, ks]
  let pi := asrInt (acc48 s.freeCtr ai) sh
  let pq := asrInt (acc48 (s.freeCtr + 2) aq) sh
  let trunc := match taps with
    | some t => decide (t.length < ds.length)
    | none => false
  (satInt 16 pi, satInt 16 pq, decide (satInt 16 pi ≠ pi ∨ satInt 16 pq ≠ pq), trunc)

/-! ### Discrimination (R254 to R256) -/

/-- R255: L_j of a line. -/
def State.lineVal (s : State) (q ks j : Nat) (pi pq : Int) : Int :=
  signedOf 16 (s.rd Reg.KS_LAB.A [q, ks, j]) * pi + signedOf 16 (s.rd Reg.KS_LAB.B [q, ks, j]) * pq
    + signedOf 32 (s.rd Reg.KS_LC.C [q, ks, j])

def minNat : List Nat → Nat
  | [] => 0
  | [x] => x
  | x :: xs => min x (minNat xs)

/-- R255: state and confidence by lines. -/
def State.byLines (s : State) (q ks : Nat) (pi pq : Int) : Nat × Nat :=
  let ls := (List.range (s.rd Reg.KS_CFG.LINES [q, ks])).map fun j => s.lineVal q ks j pi pq
  let r := ((List.range ls.length).map fun j => if 0 ≤ ls.getD j 0 then 2 ^ j else 0).foldl (· + ·) 0
  (bitsOf (s.rd Reg.KS_MAP.REGION_MAP [q, ks]) (2 * r + 1) (2 * r),
    min 31 (minNat (ls.map Int.natAbs) / 2 ^ s.rd Reg.KS_MAP.CSH [q, ks]))

/-- The lookup table's field of an entry. -/
def lutField : Nat → Fld
  | 0 => Reg.LUT_WORD.ENT0
  | 1 => Reg.LUT_WORD.ENT1
  | 2 => Reg.LUT_WORD.ENT2
  | _ => Reg.LUT_WORD.ENT3

/-- R256: state and confidence by the lookup table. -/
def State.byTable (s : State) (q ks : Nat) (pi pq : Int) : Nat × Nat :=
  let cell (p g0 : Int) : Nat := (clampInt 0 7 (asrInt (p - g0) (s.rd Reg.KS_MAP.GSH [q, ks]))).toNat
  let gi := cell pi (signedOf 16 (s.rd Reg.KS_GRID.GI0 [q, ks]))
  let gq := cell pq (signedOf 16 (s.rd Reg.KS_GRID.GQ0 [q, ks]))
  let n := gq * 8 + gi
  let e := s.rd (lutField (n % 4)) [q, s.rd Reg.KS_CFG.LUT_SEL [q, ks], n / 4]
  (bitsOf e 1 0, bitsOf e 6 2)

/-- R254: state and confidence of a point. -/
def State.discriminate (s : State) (q ks : Nat) (w : Win) (pi pq : Int) : Nat × Nat :=
  let pi := satInt 16 (pi - w.di)
  let pq := satInt 16 (pq - w.dq)
  if s.flag Reg.KS_CFG.MODE [q, ks] then s.byTable q ks pi pq else s.byLines q ks pi pq

/-! ### Drift tracking (R257 to R262) -/

def State.track (s : State) (q ks : Nat) : KTrack := Table.get {} s.rdo.sets (q * 1024 + ks)

def State.setTrack (s : State) (q ks : Nat) (k : KTrack) : State :=
  { s with rdo.sets := Table.set {} s.rdo.sets (q * 1024 + ks) k }

/-- The calibrated centroid C_s. -/
def State.centroid (s : State) (q ks st : Nat) : Int × Int :=
  (signedOf 16 (s.rd Reg.KS_CENT.I [q, ks, st]), signedOf 16 (s.rd Reg.KS_CENT.Q [q, ks, st]))

/-- R258, R259: a non-void point of a set that the discriminator serves. -/
def State.trackPoint (s : State) (q ks st conf : Nat) (pi pq : Int) : State :=
  let k := { s.track q ks with produced := true }
  if s.flag Reg.KS_TRK.TRK_EN [q, ks] && k.nshot == 256 && decide (s.rd Reg.KS_TRK.TRK_MINC [q, ks] ≤ conf) then
    let t := (k.cent[st]?.getD none).getD (s.centroid q ks st)
    let sh := s.rd Reg.KS_TRK.TRK_SH [q, ks]
    s.setTrack q ks { k with
      cent := k.cent.set! st (some (t.1 + asrInt (pi - t.1) sh, t.2 + asrInt (pq - t.2) sh)) }
  else s.setTrack q ks k

/-- R260: the mean of T_s − C_s over the updated states, rounded to nearest, halves up; none when no
state has been updated. -/
def State.driftMean (s : State) (q ks : Nat) (k : KTrack) : Option (Int × Int) :=
  let ds := (List.range 4).filterMap fun st => match k.cent[st]?.getD none with
    | some t => some (t.1 - (s.centroid q ks st).1, t.2 - (s.centroid q ks st).2)
    | none => none
  let n : Int := ds.length
  let sum := ds.foldl addPair (0, 0)
  if ds = [] then none else some ((2 * sum.1 + n) / (2 * n), (2 * sum.2 + n) / (2 * n))

/-- R258, R260, R261: the end of a shot for one kernel set. -/
def State.driftSet (s : State) (key : Nat) : State :=
  let q := key / 1024
  let ks := key % 1024
  let k := s.track q ks
  let k := { k with nshot := if k.produced then min 256 (k.nshot + 1) else k.nshot, produced := false }
  let m := if s.flag Reg.KS_TRK.TRK_EN [q, ks] then s.driftMean q ks k else none
  match m with
  | none => s.setTrack q ks { k with di := 0, dq := 0, dclamp := false, track := false }
  | some (mi, mq) =>
    let lim : Int := s.rd Reg.KS_TRK.TRK_LIM [q, ks]
    let di := clampInt (-lim) lim mi
    let dq := clampInt (-lim) lim mq
    let cl := decide (di ≠ mi ∨ dq ≠ mq)
    let s := s.setTrack q ks { k with di := di, dq := dq, dclamp := cl, track := true }
    if cl then
      s.postCoarse s.jobCtx (inputSource q (ks / 128)) 0x2F 0
        [(0x14, 4, s.shotIdx), (0x18, 2, ks), (0x1A, 2, wrapInt 16 (satInt 16 mi)),
          (0x1C, 2, wrapInt 16 (satInt 16 mq))]
    else s

/-- R260: the drift update of every set at the end of a shot. -/
def State.driftUpdate (s : State) : State := (s.rdo.sets.map (·.1)).foldl State.driftSet s

/-- R257: reset the tracking history of a set. -/
def State.resetTrack (s : State) (q ks : Nat) : State := s.setTrack q ks {}

/-- TRACK_RESET (R257). -/
def execTrackReset (q : Fin 4) (ks : Fin 1024) (s : State) : Host.Outcome State Fault Refusal :=
  .next (s.gate (s.resetTrack q ks))

/-! ### Processors as windows see them (R279 to R284) -/

def State.dsp (s : State) (k : Nat) : Dsp := Table.get {} s.dsps k
def State.updDsp (s : State) (k : Nat) (f : Dsp → Dsp) : State :=
  { s with dsps := Table.upd {} s.dsps k f }

/-- R281, R308: the route code of a kernel set. -/
def State.routeOf (s : State) (q ks : Nat) : Nat :=
  let u := ks % 256
  bitsOf (s.word .DSP_ROUTE [q, ks / 256, u / 16]).toNat (u % 16 * 2 + 1) (u % 16 * 2)

/-- R283: the packets of a processor that have not been released. -/
def Dsp.packets (d : Dsp) : List Packet := d.cur.toList ++ d.queue

/-- R284: offset `o` of the input buffer holds a data word of a packet that has not been released. -/
def Dsp.clash (d : Dsp) (base len o : Nat) : Bool :=
  d.packets.any fun p => decide ((o + len - (p.addr - base) % len) % len < p.cnt)

/-- R248: the groups of a window. -/
def State.winGroups (s : State) (w : Win) : Nat :=
  (w.cfg.len + s.groupLen w.q w.ks - 1) / s.groupLen w.q w.ks

/-- R283, R284: write data words of a window of `n` words into the input buffer of processor k. The first one
takes the place of all of them; from a word that would overwrite a packet's data on, none is written. -/
def State.putWords (s : State) (k n : Nat) : Win → List Nat → State × Win
  | w, [] => (s, w)
  | w, x :: xs =>
    let base := s.rd Reg.DSP_IBUF.IBASE [k / 4, k % 4]
    let len := s.rd Reg.DSP_IBUF.ILEN [k / 4, k % 4]
    let d := s.dsp k
    let a := w.at_.getD (d.wpos % len)
    let o := (a + w.done) % len
    let s := if w.at_.isNone then s.updDsp k fun d => { d with wpos := (a + n) % len } else s
    if w.full || decide (len < n) || d.clash base len o then (s, { w with at_ := some a, full := true })
    else State.putWords (s.store (xBase k + (base + o) * 4) (leBytes 4 x)) k n
      { w with at_ := some a, done := w.done + 1 } xs

/-- R291: the TAG special of a packet. -/
def winTag (w : Win) (groups first ovr psat : Bool) : Nat :=
  let b (x : Bool) (n : Nat) : Nat := if x then 2 ^ n else 0
  w.cfg.tgt * 2 ^ 20 + b w.cfg.syn 19 + b w.cfg.recd 18 + b w.cfg.tok 17 + b groups 16
    + toneId w.q w.tone * 2 ^ 7 + w.cfg.kset * 2 ^ 4 + b first 3 + b w.slip 2 + b ovr 1 + b psat 0

/-- The void token of a window (R266, R253, R284), when its TOK is set. -/
def State.voidWindow (s : State) (w : Win) : State :=
  if w.cfg.tok then
    s.makeToken w.cfg.syn true w.cfg.tgt
      (tokenPayload (toneId w.q w.tone) 0 0 (s.devAt w.endTick).ns.toNat) w.last
  else s

/-- R284: the write position returns to where the data of a dropped window began. -/
def State.abandon (s : State) (k : Nat) (w : Win) : State :=
  match w.at_ with
  | some a => s.updDsp k fun d => { d with wpos := a }
  | none => s

/-- R284: a routed window is dropped for a cause. -/
def State.dropWindow (s : State) (k : Nat) (w : Win) (cause : Nat) : State :=
  let s := (s.abandon k w).voidWindow w
  let s := s.count Reg.DSP_CNT.DROP_CNT [k / 4, k % 4]
  s.post s.jobCtx .event (576 + k) 0x35 8 (s.adcStamp w.last)
    [(0x14, 4, s.shotIdx), (0x18, 2, w.cfg.tgt), (0x1A, 1, cause), (0x1B, 1, w.cfg.kset),
      (0x1C, 2, toneId w.q w.tone)]

/-- R283, R284: a routed window whose words have been written ends: its packet enters the queue, or it is
dropped. -/
def State.packetEnter (s : State) (k : Nat) (w : Win) (groups psat : Bool) : State :=
  let d := s.dsp k
  if w.full then s.dropWindow k w 0
  else if 16 ≤ d.queue.length then s.dropWindow k w 1
  else if d.st = .stopped then s.dropWindow k w 2
  else
    let p : Packet := {
      tag := winTag w groups (decide (d.lastShot ≠ s.shotIdx + 1)) w.ovr psat
      ns := (s.devAt w.endTick).ns.toNat, shot := s.shotIdx
      addr := s.rd Reg.DSP_IBUF.IBASE [k / 4, k % 4] + w.at_.getD 0, cnt := w.done, last := w.last }
    s.updDsp k fun d => { d with queue := d.queue ++ [p], lastShot := s.shotIdx + 1 }

/-- A component pair as a 32-bit word, I in bits 15:0 (R100). -/
def pairWord (i q : Int) : Nat := wrapInt 16 i + wrapInt 16 q * 2 ^ 16

/-! ### The end of a window (R253, R263, R265, R281) -/

/-- R241: an ADC code at a limit. -/
def overrange (c : BitVec 12) : Bool := c == 0x800#12 || c == 0x7FF#12

/-- R265: the window result record. -/
def State.windowRecord (s : State) (w : Win) (pi pq : Int) (st conf rflags : Nat) : State :=
  s.post s.jobCtx .result (inputSource w.q (w.tone / 16)) 0x10 0 (s.adcStamp w.last)
    [(0x14, 4, s.shotIdx), (0x18, 2, wrapInt 16 pi), (0x1A, 2, wrapInt 16 pq),
      (0x1C, 1, st + conf * 4), (0x1D, 1, w.tone % 16 + w.cfg.kset * 16), (0x1E, 2, rflags)]

/-- R265: RFLAGS. -/
def rflags (ovr trunc psat : Bool) (w : Win) : Nat :=
  let b (x : Bool) (n : Nat) : Nat := if x then 2 ^ n else 0
  b ovr 0 + b trunc 1 + b psat 2 + b w.dclamp 3 + b w.track 4 + b w.slip 5

/-- R253, R110: the envelope data error record of a kernel read. -/
def State.kernelError (s : State) (w : Win) (addr : Nat) : State :=
  let s := (s.voidWindow w).eccError 0 w.q 0 addr true
  s.post s.jobCtx .event (inputSource w.q (w.tone / 16)) 0x24 8 (s.adcStamp w.last)
    [(0x14, 4, s.shotIdx), (0x18, 2, s.rd Reg.KS_CFG.KERNEL [w.q, w.ks])]

/-- R281, R283: the words of the groups that further samples of a GROUPS window complete; all of them at its end. -/
def State.takeGroups (s : State) (k : Nat) (w : Win) (codes : List (BitVec 12)) (fin : Bool) : State × Win :=
  let n := s.groupLen w.q w.ks
  let i := w.taken % n
  let ds := s.groups w.q w.tone n (w.first + w.taken) (codes.map adcSample) i w.part
  let m := if fin then ds.length else (i + codes.length) / n
  let sh := s.rd Reg.KS_CFG.DEC [w.q, w.ks] + 3
  let w := { w with taken := w.taken + codes.length, ovr := w.ovr || codes.any overrange, part := (ds.drop m).headD (0, 0) }
  s.putWords k (s.winGroups w) w
    ((ds.take m).map fun d => pairWord (satInt 16 (asrInt d.1 sh)) (satInt 16 (asrInt d.2 sh)))

/-- The processor to which a kernel set's route leads (R281). -/
def Win.proc (w : Win) : Nat := w.q * 4 + w.ks / 256

/-- The closing of a window whose samples are `codes`; `kerr` is the address of an uncorrectable kernel read. -/
def State.closeWindow (s : State) (w : Win) (codes : List (BitVec 12)) (kerr : Option Word) : State :=
  if w.void then s.voidWindow w
  else
    let ks := w.ks
    let route := s.routeOf w.q ks
    let k := w.proc
    let ds := s.groups w.q w.tone (s.groupLen w.q ks) w.first (codes.map adcSample) 0 (0, 0)
    let ovr := codes.any overrange
    if route = 2 ∨ route = 3 then
      let (s, w) := s.takeGroups k w codes true
      s.packetEnter k w true false
    else match kerr with
    | some a => s.kernelError w a.toNat
    | none =>
      let (pi, pq, psat, trunc) := s.point w.q ks ds
      let s := { s with freeCtr := s.freeCtr + 4 }
      if route = 1 then
        let (s, w) := s.putWords k 1 { w with ovr := ovr } [pairWord pi pq]
        s.packetEnter k w false psat
      else
        let (st, conf) := s.discriminate w.q ks w pi pq
        let s := s.trackPoint w.q ks st conf pi pq
        let s := if w.cfg.tok then
            s.makeToken w.cfg.syn false w.cfg.tgt
              (tokenPayload (toneId w.q w.tone) st conf (s.devAt w.endTick).ns.toNat) w.last
          else s
        if w.cfg.recd then s.windowRecord w pi pq st conf (rflags ovr trunc psat w) else s

/-- The window of a list that ends first; of those with one end, the first. -/
def firstToEnd : List Win → Option Win
  | [] => none
  | w :: ws =>
    match firstToEnd ws with
    | none => some w
    | some v => if w.last ≤ v.last then some w else some v

/-- R259, R263, R266: the window of a tone that closes next. -/
def State.winOn (s : State) (q t : Nat) : Option Win :=
  firstToEnd (s.rdo.wins.filter fun w => w.q == q && w.tone == t)

/-- R281: the window's words go to a processor as its groups complete. -/
def State.byGroups (s : State) (w : Win) : Bool := !w.void && decide (2 ≤ s.routeOf w.q w.ks)

/-- R283: samples of a GROUPS window that has not ended. -/
def State.windowGroups (s : State) (w : Win) (codes : List (BitVec 12)) : State :=
  if s.time.now * 8 < w.first + w.taken + codes.length then s
  else
    let (s, v) := s.takeGroups w.proc w codes false
    { s with rdo.wins := s.rdo.wins.map fun x => if x = w then v else x }

/-- R263, R266, R283: the window that ends next on a tone closes, with the codes of its samples (a GROUPS window:
those not taken before). Codes that come for a GROUPS window before its end are the samples so far (log 31). -/
def State.windowEnd (s : State) (q t : Nat) (codes : List (BitVec 12)) (kerr : Option Word) : State :=
  match s.winOn q t with
  | none => s
  | some w =>
    if s.time.now < w.endTick then if s.byGroups w && decide (w.taken + codes.length < w.cfg.len) then s.windowGroups w codes else s
    else if w.void = false ∧ w.taken + codes.length ≠ w.cfg.len then s
    else State.closeWindow { s with
        rdo.wins := s.rdo.wins.erase w
        rdo.closed := if w.void then s.rdo.closed else (w.q, w.tone, w.first, w.last) :: s.rdo.closed } w codes kerr

/-- WINDOW_END (R263, R266, R253, R281, R283): the window that ends next on tone `t` of quarter `q`, with the ADC
codes it sampled; `kerr` is the address at which a kernel read met an uncorrectable error. -/
def execWindowEnd (q : Fin 4) (t : Fin 128) (codes : List (BitVec 12)) (kerr : Option Word) (s : State) :
    Host.Outcome State Fault Refusal :=
  .next (s.windowEnd q t codes kerr)

/-! ### Capture intervals (R267, R269) -/

/-- R267, R269: the slot of an input captures in the running job. -/
def State.capturing (s : State) (inp : Nat) : Bool :=
  match s.job.job with
  | some j => j.capture && bitOf j.inputs inp && s.rd Reg.CAP_CFG.GATE [inp / 8, inp % 8] != 0
  | none => false

/-- R269: a further interval of a slot; one that begins before the latest has ended is one with it. -/
def addIval (x : CapIval) : List CapIval → List CapIval
  | [] => [x]
  | [v] =>
    match v.stop with
    | none => [v]
    | some e =>
      if x.start ≤ e then [{ v with stop := x.stop.map (max e) }] else [v, x]
  | v :: vs => v :: addIval x vs

/-- R269: the gate of a slot opens. -/
def State.gateOpen (s : State) (inp start : Nat) (stop : Option Nat) : State :=
  if s.capturing inp then
    { s with rdo.caps := Table.upd {} s.rdo.caps inp fun c => { c with ivals := addIval ⟨start, stop, s.shotIdx⟩ c.ivals } }
  else s

/-- R269: a window opens on an input under GATE 2: on any tone (TAP 0), or on one of MASK (TAP 1). -/
def State.captureWindow (s : State) (q : Nat) (w : WinCfg) (first : Nat) : State :=
  let i := w.tone / 16
  if s.rd Reg.CAP_CFG.GATE [q, i] = 2
      ∧ (s.flag Reg.CAP_CFG.TAP [q, i] = false ∨ bitOf (s.rd Reg.CAP_CFG.MASK [q, i]) (w.tone % 16) = true) then
    s.gateOpen (q * 8 + i) first (some (first + w.len))
  else s

/-- R269: under GATE 1 a slot captures from sample 0 of the start tick of each shot. -/
def State.captureShot (s : State) : State :=
  (List.range 32).foldl (fun s i =>
    if s.rd Reg.CAP_CFG.GATE [i / 8, i % 8] = 1 then s.gateOpen i (s.job.startTick * 8) none else s) s

/-- R269: at the end of the shot every gate is closed. -/
def CapSlot.close (k : Nat) (c : CapSlot) : CapSlot :=
  { c with ivals := (c.ivals.map fun v => { v with stop := some (match v.stop with
      | some e => min e k
      | none => k) }).filter fun v => decide (v.start < v.stop.getD 0) }

def State.captureShotEnd (s : State) : State :=
  { s with rdo.caps := s.rdo.caps.map fun e => (e.1, e.2.close (s.time.now * 8)) }

/-- R202, R266: open a window (or a void one) at ADC sample `first`. -/
def State.openWindow (s : State) (q : Nat) (w : WinCfg) (first : Nat) (slip void : Bool) : State :=
  let k := s.track q (w.tone * 8 + w.kset)
  let x : Win := { q := q, cfg := w, first := first, slip := slip, void := void,
                   di := k.di, dq := k.dq, dclamp := k.dclamp, track := k.track }
  let s := { s with rdo.wins := s.rdo.wins ++ [x] }
  if void then s else s.captureWindow q w first

/-! ### Overrange (R241) -/

/-- ADC_OVERRANGE (R241): sample `k` of the present tick of an input reaches a code limit. The record is stamped
with the sample, as R241 words it, where the table of R62 names the tick (log 58: DEDUCED). -/
def State.adcOverrange (s : State) (inp k : Nat) : State :=
  let s := s.count Reg.IN_STAT.OVR_CNT [inp / 8, inp % 8]
  if s.job.phase = .inShot ∧ Table.get false s.rdo.ovrSeen inp = false then
    let s := { s with rdo.ovrSeen := Table.set false s.rdo.ovrSeen inp true }
    s.post s.jobCtx .event (160 + inp) 0x2D 0 (s.adcStamp (s.time.now * 8 + k)) [(0x14, 4, s.shotIdx)]
  else s

def execAdcOverrange (inp : Fin 32) (k : Fin 8) (s : State) : Host.Outcome State Fault Refusal :=
  .next (s.adcOverrange inp k)

/-! ### Raw capture (R267 to R274) -/

/-- R268, R270: bytes of a TAP 0 record: one code in every 2^D. -/
def everyNth (n : Nat) : List (BitVec 12) → Nat → List (BitVec 12)
  | [], _ => []
  | c :: cs, i => if i = 0 then c :: everyNth n cs (n - 1) else everyNth n cs (i - 1)

/-- R268: the step values of one tone: complete groups of 8 × 2^D mixed samples. -/
def State.captureTone (s : State) (q t d sh first : Nat) (xs : List Int) : List Nat :=
  let n := 8 * 2 ^ d
  ((s.groups q t n first xs 0 (0, 0)).take (xs.length / n)).map fun v =>
    pairWord (satInt 16 (asrInt v.1 sh)) (satInt 16 (asrInt v.2 sh))

/-- R270: the data bytes and step count of a capture record. -/
def State.captureData (s : State) (inp first : Nat) (codes : List (BitVec 12)) : List Byte × Nat :=
  let q := inp / 8
  let i := inp % 8
  let d := s.rd Reg.CAP_CFG.D [q, i]
  if s.flag Reg.CAP_CFG.TAP [q, i] then
    let mask := s.rd Reg.CAP_CFG.MASK [q, i]
    let tones := (List.range 16).filter (bitOf mask)
    let cols := tones.map fun g =>
      s.captureTone q (i * 16 + g) d (s.rd Reg.CAP_CFG.SHIFT [q, i]) first (codes.map adcSample)
    let steps := codes.length / (8 * 2 ^ d)
    ((List.range steps).flatMap fun j => cols.flatMap fun c => leBytes 4 (c.getD j 0), steps)
  else
    let cs := everyNth (2 ^ d) codes 0
    (cs.flatMap fun c => leBytes 2 (wrapInt 16 (adcSample c)), cs.length)

/-- R268, R270: the ADC samples that a full record covers. -/
def State.fullSamples (s : State) (inp : Nat) : Nat :=
  let q := inp / 8
  let i := inp % 8
  let d := s.rd Reg.CAP_CFG.D [q, i]
  if s.flag Reg.CAP_CFG.TAP [q, i] then
    4064 / (4 * max 1 ((List.range 16).filter (bitOf (s.rd Reg.CAP_CFG.MASK [q, i]))).length) * (8 * 2 ^ d)
  else 2032 * 2 ^ d

/-- R270: a capture record with its sequence number. -/
def State.captureBytes (s : State) (inp : Nat) (v : CapIval) (codes : List (BitVec 12)) (st : Stamp) (seq : Word) :
    List Byte :=
  let q := inp / 8
  let i := inp % 8
  let (data, steps) := s.captureData inp v.start codes
  let tap := s.rd Reg.CAP_CFG.TAP [q, i]
  let closed := decide (v.stop = some (v.start + codes.length))
  let head := leBytes 32 (packNat [(0, 2, 160 + inp), (2, 1, 0x11), (3, 1, s.timeFlags), (4, 4, seq.toNat),
    (8, 12, st.bits), (0x14, 4, v.shot),
    (0x18, 2, if tap = 1 then s.rd Reg.CAP_CFG.MASK [q, i] else 0), (0x1A, 1, tap),
    (0x1B, 1, s.rd Reg.CAP_CFG.D [q, i]), (0x1C, 2, steps),
    (0x1E, 2, (if codes.any overrange then 1 else 0) + (if closed then 2 else 0))])
  head ++ (data ++ List.replicate (4064 - data.length) 0).take 4064

def State.capSlot (s : State) (inp : Nat) : CapSlot := Table.get {} s.rdo.caps inp

def State.updCap (s : State) (inp : Nat) (f : CapSlot → CapSlot) : State :=
  { s with rdo.caps := Table.upd {} s.rdo.caps inp f }

/-- The context of the running job, or of the one that has ended and is not completed. -/
def State.capCtx (s : State) : Nat :=
  match s.job.job, s.job.closing with
  | some j, _ => j.ctx
  | none, some c => c.ctx
  | none, none => s.home

/-- R84: the held records of a source stamped no later than `st` are numbered and posted. -/
def State.releaseUpTo (s : State) (src : Nat) (st : Stamp) : State :=
  State.releaseAll (fun h => h.src == src && decide (h.stamp.key ≤ st.key)) s.recs.held.length s

/-- R273: post the capture gap record of an input, after the records of its source that come before it (R84). -/
def State.postGap (s : State) (inp : Nat) : State :=
  match (s.capSlot inp).gap with
  | none => s
  | some (first, last) =>
    ((s.updCap inp fun c => { c with gap := none }).releaseUpTo (160 + inp) last).numberAndPost
      { ctx := s.capCtx, ring := .event, src := 160 + inp, kind := 0x2E, flags := s.timeFlags,
        stamp := last, body := BitVec.ofNat 96 first.bits, ofJob := s.inJob || s.job.closing.isSome }

/-- R84: records of an input held until those of its capture slot that come before them: the record now in its
buffer, and the gap not yet reported (log 59). -/
def State.captureHolds (s : State) (h : Held) : Bool :=
  decide (160 ≤ h.src ∧ h.src < 192) &&
    ((match (s.capSlot (h.src - 160)).ivals with
      | v :: _ => decide ((s.adcStamp v.start).key < h.stamp.key)
      | [] => false)
    || match (s.capSlot (h.src - 160)).gap with
      | some (_, last) => decide (last.key < h.stamp.key)
      | none => false)

/-! ### The end of a job's records (R35, R86) -/

/-- R35: every capture record of the job has completed and has left its buffer. -/
def State.capsDone (s : State) : Bool := s.rdo.caps.all fun e => e.2.ivals.isEmpty && e.2.waiting.isNone

/-- R35, R86, R488: a job that has ended is completed, once its last records are posted. -/
def State.finishJob (s : State) : State :=
  match s.job.closing with
  | none => s
  | some c =>
    if !s.capsDone then s
    else
      let s := (List.range 32).foldl State.postGap s
      let s := State.releaseAll (fun h => h.ofJob || decide (h.src < 640) || h.ctx == c.ctx) s.recs.held.length s
      let free : Nat × CapSlot → Nat × CapSlot := fun e => (e.1, { e.2 with susp := false })
      let last := s.job.closing.bind (·.lastStamp)
      let s := { s with job.closing := none, job.silent := false, rdo.caps := s.rdo.caps.map free }
      match s.desc c.ctx c.index with
      | none => s
      | some d =>
        if c.quiet then s.updCtx c.ctx fun x => { x with fetched := x.fetched.filter fun e => e.index ≠ d.index }
        else s.complete c.ctx d c.status c.done c.aux (last.getD s.coarseStamp) c.cflags

/-! ### Capture records (R270 to R273) -/

/-- R84: a window of an input that ends before the record's stamp has not closed. -/
def State.windowBefore (s : State) (inp k : Nat) : Bool :=
  s.rdo.wins.any fun w => w.q * 8 + w.tone / 16 == inp && !w.void && decide (w.last ≤ k)

/-- R269, R270: `n` samples from the start of an interval make a record that is complete: full, or ended by the
close of the gate. -/
def State.recordFull (s : State) (inp : Nat) (v : CapIval) (n : Nat) : Bool :=
  decide (0 < n ∧ n ≤ s.fullSamples inp ∧ v.start + n ≤ s.time.now * 8)
    && (decide (n = s.fullSamples inp) || decide (v.stop = some (v.start + n)))
    && match v.stop with
      | some e => decide (v.start + n ≤ e)
      | none => true

/-- R269, R270: the intervals that are left after a record of `n` samples. -/
def nextIvals (v : CapIval) (n : Nat) (rest : List CapIval) : List CapIval :=
  if v.stop = some (v.start + n) then rest else { v with start := v.start + n } :: rest

/-- R82: a record that is not posted consumes its number. -/
def State.takeNumber (s : State) (src : Nat) : State :=
  { s with recs.seq := Table.set 0 s.recs.seq src (Table.get 0 s.recs.seq src + 1) }

/-- R272, R273: a completed capture record is dropped: its number is consumed, and the gap goes on to it. -/
def State.dropCapture (s : State) (inp : Nat) (st : Stamp) : State :=
  let s := s.releaseUpTo (160 + inp) st
  let s := s.updCap inp fun c => { c with gap := some (match c.gap with
    | some (f, _) => (f, st)
    | none => (st, st)) }
  (s.takeNumber (160 + inp)).count
    Reg.CAP_STAT.DROP_CNT [inp / 8, inp % 8]

/-- R272, R273: a completed capture record is numbered and waits for the outbound path. -/
def State.keepCapture (s : State) (inp : Nat) (v : CapIval) (codes : List (BitVec 12)) (st : Stamp) : State :=
  let s := (s.postGap inp).releaseUpTo (160 + inp) st
  let seq := Table.get 0 s.recs.seq (160 + inp)
  let bytes := s.captureBytes inp v codes st seq
  let s := s.updCap inp fun c => { c with waiting := some (st, bytes), ctx := s.capCtx }
  s.takeNumber (160 + inp)

/-- CAPTURE_RECORD_COMPLETE (R269, R270, R272, R273): the record in the slot's buffer, which covers `codes` from
the start of the gate interval in hand (or from where the record before it ended), completes. A record
without a complete step is none (log 59). After a host-interface reset a record is numbered and not kept (R450). -/
def State.captureComplete (s : State) (inp : Nat) (codes : List (BitVec 12)) : State :=
  match (s.capSlot inp).ivals with
  | [] => s
  | v :: rest =>
    if s.recordFull inp v codes.length = false ∨ s.windowBefore inp v.start = true then s
    else
      let c := s.capSlot inp
      let st := s.adcStamp v.start
      let steps := (s.captureData inp v.start codes).2
      let s := s.updCap inp fun c => { c with ivals := nextIvals v codes.length rest }
      if steps = 0 then s.finishJob
      else if s.job.silent then (s.takeNumber (160 + inp)).finishJob
      else if c.susp || c.waiting.isSome then (s.dropCapture inp st).finishJob
      else s.keepCapture inp v codes st

/-- The record in the slot's buffer begins at sample `first`, and with `n` samples it ends the gate interval in hand as
`closed` says. -/
def State.captureNamed (s : State) (inp first n : Nat) (closed : Bool) : Bool :=
  match (s.capSlot inp).ivals with
  | [] => false
  | v :: _ => first == v.start && closed == decide (v.stop = some (v.start + n))

/-- CAPTURE_RECORD_COMPLETE: the command names the record by its first ADC sample and by whether the gate closes in it;
one that names a record the slot does not hold is no event (log 59). -/
def execCaptureRecordComplete (inp : Fin 32) (first : Nat) (codes : List (BitVec 12)) (closed : Bool) (s : State) :
    Host.Outcome State Fault Refusal :=
  .next (if s.captureNamed inp first codes.length closed then s.captureComplete inp codes else s)

/-- CAPTURE_RECORD_OUTBOUND (R46, R491): a waiting capture record enters the outbound buffer, of which `free`
bytes are free, when its ring has space. 16 KiB of the buffer stay for the other classes. One that holds an uncorrectable error is dropped (R272, R703). -/
def State.captureOut (s : State) (inp free : Nat) (bad : Bool) : State :=
  let c := s.capSlot inp
  match c.waiting with
  | none => s
  | some (st, bytes) =>
    let x := s.ctx c.ctx
    let n := s.ringSize c.ctx Reg.CTX_SIZE.CAP
    if free < 16384 ∨ n = 0 ∨ (x.capTail + 1) % n = x.capHead then s
    else if bad then
      let s := s.updCap inp fun c => { c with waiting := none, gap := some (match c.gap with
        | some (f, _) => (f, st)
        | none => (st, st)) }
      ((s.eccError 6 (inp / 8) 0 (Config.freeWord s.freeCtr).toNat false).draw.count
        Reg.CAP_STAT.DROP_CNT [inp / 8, inp % 8]).finishJob
    else
      let s := s.updCap inp fun c => { c with waiting := none }
      let s := s.emit (.write (s.baseOf .CAP_BASE_LO .CAP_BASE_HI c.ctx + x.capTail * 4096) bytes)
      let s := s.updCtx c.ctx fun y => { y with capTail := (x.capTail + 1) % n }
      (((s.noteStamp st).writeStatus c.ctx).fire (160 + inp)).finishJob

/-- CAPTURE_RECORD_OUTBOUND (R46, R491). -/
def execCaptureRecordOutbound (r : Outbound 32) (s : State) : Host.Outcome State Fault Refusal :=
  .next (s.captureOut r.src r.free r.bad)

end Sys2Proof.Machine
end

