-- ==== Sys2Proof/Machine/SeqOps.lean ====
section
/-! DEFINITION. The operations of the sequencers: stitch words, checks of a stitch at load (R183 to
R187), issue of events, resolution of branches, and sequencer records (chapters 04, 05). -/

namespace Sys2Proof.Machine

/-! ### Stitch words (R180, R181) -/

/-- R180: the four words of a stitch. -/
structure Stitch where
  w0 : Nat
  w1 : Nat
  w2 : Nat
  w3 : Nat
deriving DecidableEq, Repr

def Stitch.ofNat (v : Nat) : Stitch := ⟨bitsOf v 31 0, bitsOf v 63 32, bitsOf v 95 64, bitsOf v 127 96⟩
def Stitch.toNat (w : Stitch) : Nat := w.w0 + w.w1 * 2 ^ 32 + w.w2 * 2 ^ 64 + w.w3 * 2 ^ 96

def Stitch.cls (w : Stitch) : Nat := bitsOf w.w0 3 0
def Stitch.sub (w : Stitch) : Nat := bitsOf w.w0 7 4
def Stitch.soff (w : Stitch) : Nat := bitsOf w.w0 11 8
def Stitch.dt (w : Stitch) : Nat := bitsOf w.w0 31 16
def Stitch.queue (w : Stitch) : Nat := bitsOf w.w1 6 0
def Stitch.gen (w : Stitch) : Nat := bitsOf w.w1 11 8
def Stitch.adv (w : Stitch) : Bool := bitOf w.w1 7
def Stitch.env (w : Stitch) : Nat := bitsOf w.w1 23 12
def Stitch.cond (w : Stitch) : Nat := bitsOf w.w1 15 14
def Stitch.target (w : Stitch) : Nat := bitsOf w.w1 11 0
def Stitch.deft (w : Stitch) : Bool := bitOf w.w1 12
def Stitch.policy (w : Stitch) : Bool := bitOf w.w1 13
def Stitch.sel (w : Stitch) : Nat := bitsOf w.w1 17 16
def Stitch.val (w : Stitch) : Nat := bitsOf w.w1 19 18
def Stitch.bit (w : Stitch) : Nat := bitsOf w.w1 22 20
def Stitch.cid (w : Stitch) : Nat := bitsOf w.w2 15 0
def Stitch.dline (w : Stitch) : Nat := bitsOf w.w2 31 16
def Stitch.bqueue (w : Stitch) : Nat := bitsOf w.w3 6 0
def Stitch.bgen (w : Stitch) : Nat := bitsOf w.w3 11 8

/-- R133: the stitch at an address of a sequencer's program memory. -/
def State.stitchAt (s : State) (k a : Nat) : Stitch := Stitch.ofNat (s.load (progBase k + a % 4096 * 16) 16)

/-- R184: the known variants of each class (SUB below the number given). -/
def classSubs (cls : Nat) : Nat :=
  match cls with
  | 1 => 1 | 2 => 3 | 3 => 1 | 4 => 1 | 5 => 2 | 6 => 2 | 7 => 1 | 8 => 4 | 9 => 1 | 10 => 1 | 11 => 3
  | _ => 0

/-- R136 cause 1, R184: the word is a stitch of a known class and variant. -/
def Stitch.known (w : Stitch) : Bool := decide (w.sub < classSubs w.cls)

/-! ### Sequencer records (R179) -/

/-- R179: a record of sequencer k about the stitch at address `a`. -/
def State.seqRecord (s : State) (k kind flags : Nat) (st : Stamp) (a : Nat) (more : List (Nat × Nat × Nat)) :
    State :=
  s.post s.jobCtx .event (512 + k) kind flags st ([(0x14, 4, s.shotIdx), (0x18, 2, a)] ++ more)

/-- R105: a held pulse ends when its sequencer reaches the end of its program. -/
def State.releaseHolds (s : State) (k : Nat) : State :=
  (s.owned k).foldl (fun s w =>
    match queueChan (w / 72) (w % 72) with
    | none => s
    | some ch =>
      let keys := if ch < 160 then (gensOf (ch % 40)).map (ch / 40 * 256 + ·) else [fluxGen (ch - 160)]
      let up : Gen → Gen := fun g => { g with pulse := g.pulse.map fun p => { p with hold := false } }
      { s with outs.gens := keys.foldl (fun t n => Table.upd {} t n up) s.outs.gens }) s

/-- The stop of a sequencer until the shot ends (R137). For R20 and R105 it has reached the end of its
program (R77). -/
def State.stopSeq (s : State) (k : Nat) : State :=
  (s.updSeq k fun x => { x with st := .stopped, branch := none, timeReq := none }).releaseHolds k

/-- R136: a program error: the sequencer stops and its outputs are handled as under HALT. -/
def State.progError (s : State) (k cause : Nat) : State :=
  let a := (s.seq k).pc.toNat
  let s := (s.owned k).foldl State.haltQueue (s.stopSeq k)
  s.seqRecord k 0x2B 9 s.coarseStamp a [(0x1A, 1, cause)]

/-- R217: set the cursor, or stop with cause 3. -/
def State.setCursor (s : State) (k c : Nat) : State :=
  if 0xFFFFFFFF < c then s.progError k 3 else s.updSeq k fun x => { x with cursor := c }

def State.nextPc (s : State) (k : Nat) : State := s.updSeq k fun x => { x with pc := x.pc + 1 }

/-- Continue at an address. -/
def State.goto (s : State) (k a : Nat) : State :=
  s.updSeq k fun x => { x with pc := BitVec.ofNat 12 a, st := .issue, branch := none, timeReq := none }

/-- R136, R77: issue the stitch at the program counter when it is of the given class and variant;
`bad` says its fetch met an uncorrectable error. -/
def State.issue (s : State) (k : Nat) (bad : Bool) (cls sub : Nat) (act : State → Seq → Stitch → State) : State :=
  let x := s.seq k
  if x.st ≠ .issue then s
  else if x.haltPend then s.stopSeq k
  else if bad then
    (s.eccError 1 k 0 x.pc.toNat true).progError k 0
  else
    let w := s.stitchAt k x.pc.toNat
    if !w.known then s.progError k 1
    else if w.cls = cls ∧ w.sub = sub then act s x w
    else s

/-! ### Placing events (R182, R70) -/

/-- R65, R70: the events of a queue, with those on the shank towards it. -/
def State.queueLoad (s : State) (w : Nat) : Nat := (s.queue w).events.length + (s.queue w).shank.length

/-- R70: send an event towards a queue. -/
def State.sendEvent (s : State) (w : Nat) (e : WEvent) : State :=
  s.updQueue w fun x => { x with shank := x.shank ++ [e] }

/-- R70: the sequencer waits for queue space at this stitch. -/
def State.queueWait (s : State) (k : Nat) : State := s.updSeq k fun x => { x with st := .queueWait }

/-- The event of a stitch on queue index i. -/
def mkEvent (k i : Nat) (x : Seq) (w : Stitch) (act : WAct) : WEvent :=
  { tick := x.cursor + w.dt, off := if i < 64 then w.soff else 0, act := act, seq := k, stitch := x.pc.toNat }

/-- R195: samples a PLAY covers: stored RF LENGTH × M, flux 2 × LENGTH (R412), flat DUR. -/
def State.playLen (s : State) (q i : Nat) (w : Stitch) : Nat :=
  if w.env = 4095 then bitsOf w.w2 23 0
  else
    let e := s.envEntry q w.env
    if 48 ≤ i then 2 * e.length else e.length * interpOf e.rate

/-- R103, R104, R194: the pulse of a PLAY. -/
def State.playPulse (s : State) (q i : Nat) (w : Stitch) : Pulse :=
  if w.env = 4095 then
    { src := .flat (signedOf 16 w.w3), len := bitsOf w.w2 23 0, interp := 1, scale := 0x8000 }
  else
    let e := s.envEntry q w.env
    if 48 ≤ i then { src := .flux w.env, len := 2 * e.length, interp := 2, scale := e.scale, hold := e.hold }
    else { src := .stored w.env, len := e.length * interpOf e.rate, interp := interpOf e.rate, scale := e.scale,
           hold := e.hold }

/-- R196: the pulse of a STREAM whose data starts at sample `pos` of the shot's data. -/
def streamPulse (w : Stitch) (pos : Nat) : Pulse :=
  let rate := bitsOf w.w1 16 16
  { src := .stream (bitsOf w.w1 15 12) rate pos, len := bitsOf w.w2 20 0 * interpOf rate,
    interp := interpOf rate, scale := bitsOf w.w3 15 0 }

/-- R197: samples of the shot's data that STREAM stitches have taken. -/
def State.streamTaken (s : State) (q strm : Nat) : Nat := (Table.get {} s.sq.streams (q * 16 + strm)).issued

def State.takeStream (s : State) (q : Nat) (w : Stitch) : State :=
  let n := bitsOf w.w2 20 0
  let up : Stream → Stream := fun t => { t with issued := t.issued + n }
  { s with sq.streams := Table.upd {} s.sq.streams (q * 16 + bitsOf w.w1 15 12) up }

/-- R195: the cursor after a pulse of n samples of queue index i. -/
def advCursor (i : Nat) (x : Seq) (w : Stitch) (n : Nat) : Nat :=
  let u := queueUnit i
  if w.adv then x.cursor + w.dt + (w.soff + n + u - 1) / u else x.cursor

/-- Place the pulse of a PLAY or STREAM, move the cursor, note the segment's end (R230). -/
def State.placePulse (s : State) (k : Nat) (x : Seq) (w : Stitch) (p : Pulse) : State :=
  let i := w.queue
  let q := k / 16
  let wq := q * 72 + i
  if 256 ≤ s.queueLoad wq then s.queueWait k
  else
    let c := advCursor i x w p.len
    if 0xFFFFFFFF < c then s.progError k 3
    else
      let s := s.sendEvent wq (mkEvent k i x w (.play w.gen p))
      let fin := eventSample i (x.cursor + w.dt) w.soff + p.len
      s.updSeq k fun y => { y with
        cursor := c, pc := y.pc + 1, segEnds := Table.set 0 y.segEnds (i * 16 + w.gen) fin }

/-- Place an event that only takes queue space, then set the cursor. -/
def State.placeEvent (s : State) (k : Nat) (x : Seq) (w : Stitch) (act : WAct) (c : Nat) : State :=
  let wq := k / 16 * 72 + w.queue
  if 256 ≤ s.queueLoad wq then s.queueWait k
  else if 0xFFFFFFFF < c then s.progError k 3
  else (s.sendEvent wq (mkEvent k w.queue x w act)).updSeq k fun y => { y with cursor := c, pc := y.pc + 1 }

/-! ### Branches (R141 to R157, R221 to R231) -/

/-- R179: the condition source code of a branch in its records. A segment-end branch with COND 0 (R230),
for which the table has no code, gives 0 (log 57: DESIGN CHOICE). -/
def condSource (w : Stitch) : Nat := w.cond - 1

/-- R223: the test of a branch on a token. -/
def testToken (w : Stitch) (t : Token) : Bool :=
  let st := bitsOf t.payload.toNat 22 21
  match w.sel with
  | 0 => st == w.val
  | 1 => st != w.val
  | 2 => bitOf t.payload.toNat (24 + w.bit)
  | _ => !bitOf t.payload.toNat (24 + w.bit)

/-- R314: a void token. -/
def Token.isVoid (t : Token) : Bool := t.kind.toNat / 8 == 1

/-- R152, R155, R143: a deadline miss of sequencer k at a branch. -/
def State.deadlineMiss (s : State) (k a src outcome : Nat) (st : Stamp) : State :=
  let s := s.count Reg.SEQ_CNT.MISS_CNT [k / 16, k % 16]
  s.seqRecord k 0x25 8 st a [(0x1A, 1, src), (0x1B, 1, outcome)]

/-- R140: the pulse of the first segment of a path, when that stitch is a PLAY or STREAM of the
branch's queue and generator. -/
def State.forkPulse (s : State) (k : Nat) (b : Stitch) (a : Nat) : Option Pulse :=
  let w := s.stitchAt k a
  let q := k / 16
  if w.queue = b.bqueue ∧ w.gen = b.bgen ∧ w.sub = 0 then
    if w.cls = 1 then some (s.playPulse q w.queue w)
    else if w.cls = 9 then some (streamPulse w (s.streamTaken q (bitsOf w.w1 15 12)))
    else none
  else none

/-- R140, R144: follow a path of a segment-end branch past its first segment. -/
def State.followFork (s : State) (k first : Nat) (br : Branch) : State :=
  let w := s.stitchAt k first
  let q := k / 16
  let p := match s.forkPulse k (s.stitchAt k (s.seq k).pc.toNat) first with
    | some p => p.len
    | none => 0
  let t0 := br.lastSample + 1
  let s := if w.cls = 9 then s.takeStream q w else s
  let c := if w.adv then t0 / 16 + (t0 % 16 + p + 15) / 16 else (s.seq k).cursor
  let s := s.updSeq k fun y => { y with segEnds := Table.set 0 y.segEnds (w.queue * 16 + w.gen) (t0 + p) }
  let s := s.setCursor k c
  if (s.seq k).st = .stopped then s else s.goto k (first + 1)

/-- A branch takes the target path (`true`) or the fall-through path. -/
def State.takePath (s : State) (k : Nat) (target : Bool) : State :=
  let x := s.seq k
  let w := s.stitchAt k x.pc.toNat
  match x.branch with
  | some br =>
    if br.segEnd then
      let s := if target then s.updSeq k fun y => { y with
          jumps := y.jumps ++ [{ queue := w.bqueue, gen := w.bgen, stitch := x.pc.toNat, source := condSource w,
                                 lastSample := br.lastSample }] } else s
      s.followFork k (if target then w.target else x.pc.toNat + 1) br
    else s.goto k (if target then w.target else x.pc.toNat + 1)
  | none => s.goto k (if target then w.target else x.pc.toNat + 1)

/-- R226, R333: the SEQUENCE of the decision of a TARGET that sequencer x expects next: the one after the
newest it has accepted or goes on without. -/
def Seq.expects (x : Seq) (tgt : Nat) : Nat :=
  match (Table.get [] x.owed tgt).getLast? with
  | some q => (q + 1) % 32768
  | none => Table.get 0 x.recv tgt % 32768

/-- R152: the decision of a branch that goes on without it is to be discarded when it comes. -/
def State.owe (s : State) (k : Nat) (w : Stitch) (br : Branch) : State :=
  if w.cond = 1 ∧ br.voided = false then
    let tgt := bitsOf w.cid 11 0
    s.updSeq k fun y => { y with owed := Table.upd [] y.owed tgt (· ++ [y.expects tgt]) }
  else s

/-- R75, R152: the default path with a deadline miss of OUTCOME 0, stamped D (or, at a segment end,
the fall-through path with OUTCOME 2, stamped with the segment's last sample, R143). -/
def State.defaultPath (s : State) (k outcome : Nat) : State :=
  let x := s.seq k
  let a := x.pc.toNat
  let w := s.stitchAt k a
  match x.branch with
  | none => s
  | some br =>
    let s := s.owe k w br
    if br.segEnd then
      let s := s.deadlineMiss k a (condSource w) outcome (s.sampleStamp 16 (s.job.startTick * 16 + br.lastSample))
      s.takePath k false
    else
      let s := s.deadlineMiss k a (condSource w) outcome (s.stampAt (s.job.startTick + br.d) 0)
      s.takePath k w.deft

/-- R151, R153: the condition of the branch that sequencer k waits at has become known. -/
def State.condKnown (s : State) (k : Nat) (r : Bool) : State :=
  match (s.seq k).branch with
  | none => s
  | some br =>
    if br.chosen.isSome || br.voided then s
    else if br.signalled then
      s.updSeq k fun y => { y with branch := some { br with chosen := some r }, timeReq := some {} }
    else s.takePath k r

/-- R75: the branch has met a void token or a void slot: DEF at once when the signal has come, else
when it comes. -/
def State.condVoid (s : State) (k : Nat) : State :=
  match (s.seq k).branch with
  | none => s
  | some br =>
    let s := s.updSeq k fun y => { y with branch := some { br with voided := true } }
    if br.signalled then s.defaultPath k 0 else s

/-- R226: take the oldest stored token with a TARGET. -/
def takeToken (tgt : Nat) : List Token → Option (Token × List Token)
  | [] => none
  | t :: ts =>
    if t.target.toNat = tgt then some (t, ts)
    else match takeToken tgt ts with
      | some (u, us) => some (u, t :: us)
      | none => none

/-- R226, R228: try the branch that sequencer k waits at on what it now holds. -/
def State.tryBranch (s : State) (k : Nat) : State :=
  let x := s.seq k
  let w := s.stitchAt k x.pc.toNat
  match x.branch with
  | none => s
  | some br =>
    if br.chosen.isSome || br.voided then s
    else if w.cond = 1 then
      match takeToken (bitsOf w.cid 11 0) x.conds with
      | none => s
      | some (t, rest) =>
        let s := s.updSeq k fun y => { y with conds := rest }
        if t.isVoid then s.condVoid k else s.condKnown k (testToken w t)
    else if w.cond = 2 then
      let sl := bitsOf w.cid 1 0
      match x.cslots[sl]?.getD CSlot.void with
      | .pending => s
      | .void => s.condVoid k
      | .made m _ =>
        let s := s.updSeq k fun y => { y with cslots := y.cslots.set! sl CSlot.void }
        s.condKnown k (if w.sel % 2 = 0 then m else !m)
    else s

/-- R217: the tick sum of a WAIT. -/
def State.waitCursor (s : State) (k c : Nat) : State :=
  let s := s.setCursor k c
  if (s.seq k).st = .stopped then s else s.nextPc k

/-! ### Triggers (R171 to R177) -/

/-- R174, R175: a trigger resolves the TRIG stitch that sequencer k waits at. -/
def State.resolveTrig (s : State) (k : Nat) (t : Int) : State :=
  let x := s.seq k
  let w := s.stitchAt k x.pc.toNat
  let c := (max (x.cursor : Int) (t + (bitsOf w.w1 15 0 : Int))).toNat
  let s := s.updSeq k fun y => { y with timeReq := none, st := .issue }
  let s := s.setCursor k c
  if (s.seq k).st = .stopped then s else s.nextPc k

/-- R172, R179: a trigger reaches sequencer k. The stamp of a software trigger is coarse (R171, R63). -/
def State.trigger (s : State) (k src : Nat) (t : Trig) : State :=
  let x := s.seq k
  if x.st = .idle then s
  else if x.st = .trigWait ∧ x.timeReq = none then
    s.resolveTrig k ((t.tick : Int) - (s.job.startTick : Int))
  else match x.latch with
    | none => s.updSeq k fun y => { y with latch := some t }
    | some _ =>
      let s := s.count Reg.SEQ_STAT.TRIG_OVR [k / 16, k % 16]
      s.seqRecord k 0x29 (if src = 26 then 1 else 0) t.stamp src [(0x1A, 2, s.rd Reg.SEQ_STAT.TRIG_OVR [k / 16, k % 16])]

/-- R171: an edge or trigger of a source sets out towards the sequencers of `ks`. -/
def State.sendEdge (s : State) (ks : List Nat) (src : Nat) (t : Trig) : State :=
  ks.foldl (fun s k =>
    if (s.seq k).st ≠ .idle ∨ s.rd Reg.SEQ_CFG.TRIG_SRC [k / 16, k % 16] = src then
      s.updSeq k fun y => { y with edges := y.edges ++ [(src, t)] }
    else s) s

/-- A stamp in units of 2^-16 ns of device time. -/
def stampFine (t : Stamp) : Nat := t.time.abs * 65536 + t.frac.toNat

/-- R229: the branch of sequencer k listens for an edge of this source, stamped at or after S + cursor. -/
def State.listens (s : State) (k src : Nat) (t : Trig) : Bool :=
  let x := s.seq k
  let w := s.stitchAt k x.pc.toNat
  match x.branch with
  | some br => w.cond == 3 && br.chosen.isNone && bitsOf w.cid 4 0 == src
      && decide ((s.devAt br.listenFrom).abs * 65536 ≤ stampFine t.stamp)
  | none => false

end Sys2Proof.Machine
end

