-- ==== Sys2Proof/Machine/Welt.lean ====
section
/-! DEFINITION. The welt: events enter their queues and are judged (R68 to R78), and are released on
their samples (R66, R67, R93 to R97, R106, R120, R206 to R212, R214); output stages (R117 to R123). -/

namespace Sys2Proof.Machine

/-! ### Entry of an event (R68 to R78) -/

/-- R78: the CLASS of an event. -/
def eventClass (e : WEvent) : Nat :=
  match e.act with
  | .play _ _ => 0
  | .fork _ _ _ => 0
  | .biasSet _ _ => 1
  | .biasWave _ _ => 1
  | .biasStop _ => 1
  | .window _ => 4
  | .mark mode _ rel _ =>
    let ms := (List.range 4).map fun j => bitsOf mode (2 * j + 1) (2 * j)
    let cmp := ms.any fun m => decide (2 ≤ m)
    let drv := (ms.any fun m => m == 1 || m == 3) || rel != 0
    if cmp && drv then 6 else if cmp then 3 else 2
  | _ => 5

/-- R71: the lateness of a record, in units of 1/16 ns. -/
def lateness (u earliest target : Nat) : Nat := min 0xFFFFFFFF ((earliest - target) * (16 / u))

/-- R76, R78: the late-event record. `flags` are PAST and INVALID. -/
def State.lateRecord (s : State) (w : Nat) (e : WEvent) (pol flags target late : Nat) : State :=
  s.post s.jobCtx .event (s.queueSource w) 0x21 flags (s.sampleStamp (queueUnit (w % 72)) target)
    [(0x14, 4, late), (0x18, 4, s.shotIdx), (0x1C, 1, pol), (0x1D, 1, eventClass e), (0x1E, 2, e.stitch % 4096)]

/-- The absolute target sample of an event of queue w. -/
def State.targetSample (s : State) (w : Nat) (e : WEvent) : Nat :=
  eventSample (w % 72) (s.job.startTick + e.tick) e.off

/-- R73, R77: what does not act leaves its void token or void compare slot behind. -/
def State.discardEvent (s : State) (w : Nat) (e : WEvent) : State :=
  match e.act with
  | .window c => s.openWindow (w / 72) c (s.targetSample w e) false true
  | .mark _ _ _ id => if id = 0 then s else s.voidCompare id
  | _ => s

def State.enqueue (s : State) (w : Nat) (e : WEvent) : State :=
  s.updQueue w fun q => { q with events := q.events ++ [e] }

/-- R77: the sequencer of a halted queue stops at its next stitch. -/
def State.haltFor (s : State) (w : Nat) (e : WEvent) : State :=
  (s.haltQueue w).updSeq e.seq fun x => { x with haltPend := true }

/-- R120: an output event on a channel that is not active. -/
def State.inactive (s : State) (k : Nat) (st : Stamp) : State :=
  let c := s.chan k
  if c.inactSeen then s
  else
    let s := s.updChan k fun c => { c with inactSeen := true }
    s.post s.jobCtx .event (chanSource k) 0x20 8 st [(0x14, 4, s.shotIdx), (0x18, 1, c.st.toNat)]

/-- R120: a late output event that does not slip, on a channel that is not active. -/
def State.lateInactive (s : State) (w : Nat) (e : WEvent) (target : Nat) : State :=
  match queueChan (w / 72) (w % 72) with
  | none => s
  | some ch => if eventClass e = 0 ∧ (s.chan ch).st ≠ 1 then s.inactive ch (s.sampleStamp (queueUnit (w % 72)) target) else s

/-- R72 to R78: an event that enters late. -/
def State.lateEvent (s : State) (w : Nat) (e : WEvent) : State :=
  let u := queueUnit (w % 72)
  let target := s.targetSample w e
  let earliest := (s.time.now + 4) * u
  let pol := s.rd Reg.WELT_CTL.LATE_POLICY [w / 72, w % 72]
  let past := if target < s.time.now * u then 16 else 0
  let s := s.count Reg.WELT_STAT.LATE_CNT [w / 72, w % 72]
  if eventClass e = 5 then
    let s := if pol = 2 then s.haltFor w e else s
    s.enqueue w { e with how := .state (max earliest target) }
  else
    let s := s.lateRecord w e pol (past + 8) target (lateness u earliest target)
    if pol = 0 then (s.lateInactive w e target).discardEvent w e
    else if pol = 1 then s.enqueue w { e with how := .slip (max earliest target) }
    else ((s.lateInactive w e target).haltFor w e).discardEvent w e

/-- WELT_EVENT_ENTER (R68, R69, R73): the oldest event on the shank towards a queue enters it. -/
def State.weltEnter (s : State) (w : Nat) : State :=
  match (s.queue w).shank with
  | [] => s
  | e :: rest =>
    let last := (s.queue w).lastRel
    let s := s.updQueue w fun q => { q with shank := rest }
    if s.job.startTick + e.tick < s.time.now + 4 ∨ s.targetSample w e + 1 < last then s.lateEvent w e
    else s.enqueue w e

def execWeltEventEnter (queue : Fin 288) (s : State) : Host.Outcome State Fault Refusal :=
  .next (s.weltEnter queue)

/-! ### State events (R93 to R96, R201, R246) -/

/-- R111: the band of a zone of an RF channel. -/
def rfBand (zone : Nat) : Nat × Nat :=
  if zone = 2 then (0x880000000000, 0xF00000000000) else (0x080000000000, 0x780000000000)

/-- R239: the band of a zone of a readout input. -/
def ddcBand (zone : Nat) : Nat × Nat :=
  if zone = 1 then (0x033333333333, 0x3CCCCCCCCCCC) else (0x433333333333, 0x7CCCCCCCCCCC)

/-- R93: a phase event on a generator or tone whose accumulator stands at the event's sample. -/
def applyPhase (g : Gen) : WAct → Gen
  | .phaseAdd _ p => { g with frame := g.frame + p }
  | .phaseSet _ p => { g with frame := p }
  | _ => g

/-- R93, R200: the frequency that a frequency event yields, before any clamp; the value of FREQ_ADD is signed. -/
def newFreq (g : Gen) : WAct → Option Int
  | .freqSet _ f => some f.toNat
  | .freqAdd _ d => some (g.freq.toNat + d.toInt)
  | _ => none

/-- R94, R95, R246: apply a state event; a frequency outside the band becomes the nearest edge, and the clamp is
logged. -/
def State.applyState (s : State) (src : Nat) (band : Nat × Nat) (g : Gen) (a : WAct) : State × Gen :=
  match newFreq g a with
  | none => (s, applyPhase g a)
  | some f =>
    let f' := clampInt band.1 band.2 f
    (if f = f' then s else s.runtimeClamp src (wrapInt 64 f) f'.toNat, { g with freq := BitVec.ofInt 48 f' })

/-- The generator or tone that a state event names. -/
def stateGen : WAct → Nat
  | .phaseAdd g _ => g
  | .phaseSet g _ => g
  | .freqSet g _ => g
  | .freqAdd g _ => g
  | _ => 0

/-- R93 to R95: a state event of RF channel c at DAC sample k. -/
def State.stateRf (s : State) (q c : Nat) (a : WAct) (k : Nat) : State :=
  let n := genIndex c (stateGen a)
  let (s, g) := s.applyState (chanSource (q * 40 + c)) (rfBand (s.rd Reg.CH_CFG.ZONE [q, c])) ((s.gen q n).advance k) a
  s.updGen q n fun _ => g

/-- R201, R246: a state event of a down-conversion tone at ADC sample k. -/
def State.stateTone (s : State) (q i : Nat) (a : WAct) (k : Nat) : State :=
  let t := i * 16 + stateGen a
  let old := s.tone q t
  let (s, g) := s.applyState (inputSource q i) (ddcBand (s.rd Reg.IN_CFG.ZONE [q, i])) (old.advance (2 * k)) a
  let s := { s with rdo.hist := Table.upd [] s.rdo.hist (q * 128 + t) fun h => h ++ [(k, old)] }
  s.updTone q t fun _ => g

/-- R97: the channels of a quarter with a generator that follows generator n. -/
def State.followers (s : State) (q n : Nat) : List Nat :=
  (List.range 40).filter fun c => (gensOf c).any fun m =>
    s.flag Reg.GEN_CTL.FOLLOW_EN [q, m] && s.rd Reg.GEN_CTL.FOLLOW_SRC [q, m] == n

/-- R97: the followers of generator n play the samples before k with the frame it had. -/
def State.renderFollowers (s : State) (q n k : Nat) : State :=
  (s.followers q n).foldl (fun s c => s.renderRf q c k) s

/-- R76: a late state event marks its shot invalid. -/
def State.stateInvalid (s : State) (w : Nat) (e : WEvent) (target applied : Nat) : Bool :=
  let q := w / 72
  let i := w % 72
  if i < 40 then decide (target < (s.chan (q * 40 + i)).playedTo)
  else
    let t := (i - 40) * 16 + stateGen e.act
    (s.rdo.wins.any fun x => x.q == q && x.tone == t && !x.void && decide (x.first < applied ∧ target ≤ x.last))
    || s.rdo.closed.any fun x => x.1 == q && x.2.1 == t && decide (x.2.2.1 < applied ∧ target ≤ x.2.2.2)

/-- Apply a state event, with the record of a late one (R73, R78). Under HALT the mute of an RF output marks
the shot (R25); a readout queue has no output to mute, so that R76 alone decides (log 57: DEDUCED). -/
def State.releaseState (s : State) (w : Nat) (e : WEvent) (k : Nat) : State :=
  let q := w / 72
  let i := w % 72
  let s := match e.how with
    | .state x =>
      let target := s.targetSample w e
      let u := queueUnit i
      let halt := s.rd Reg.WELT_CTL.LATE_POLICY [q, i] == 2
      let inv := (halt && decide (i < 40)) || s.stateInvalid w e target x
      let past := decide (target + 4 * u < x)
      s.lateRecord w e (s.rd Reg.WELT_CTL.LATE_POLICY [q, i])
        ((if past then 16 else 0) + (if inv then 8 else 0)) target (lateness u x target)
    | _ => s
  if i < 40 then (s.renderFollowers q (genIndex i (stateGen e.act)) k).stateRf q i e.act k
  else s.stateTone q (i - 40) e.act k

/-! ### Output events (R104 to R106, R110, R120) -/

/-- R110: the envelope data error record of a pulse. -/
def State.envError (s : State) (q k env addr : Nat) (st : Stamp) : State :=
  let s := s.eccError 0 q 0 addr true
  s.post s.jobCtx .event (chanSource k) 0x24 8 st [(0x14, 4, s.shotIdx), (0x18, 2, env)]

/-- R110: the ENV_ID in the record of a pulse; a stream has none (0). -/
def pulseEnv (p : Pulse) : Nat :=
  match p.src with
  | .stored e => e
  | .flux e => e
  | _ => 0

/-- A pulse starts on a generator of an output channel at sample k (R106). It is not held when its sequencer
has reached the end of its program (R105). `rerr` is the address of an
uncorrectable envelope read and the pulse sample from which it plays zero. -/
def State.startPulse (s : State) (w gen : Nat) (p : Pulse) (k : Nat) (e : WEvent) (rerr : Option (Nat × Nat)) :
    State :=
  let q := w / 72
  let i := w % 72
  match queueChan q i with
  | none => s
  | some ch =>
    let u := queueUnit i
    if (s.chan ch).st ≠ 1 then s.inactive ch (s.sampleStamp u (s.targetSample w e))
    else
      let ended := (s.seq e.seq).st == .done || (s.seq e.seq).st == .stopped
      let p := { p with start := k, cut := rerr.map fun r => k + r.2, hold := p.hold && !ended }
      let s := s.updChan ch fun c => { c with virgin := false, evalTo := k }
      let s := if ch < 160 then (State.dropPulse q s (genIndex i gen)).updGen q (genIndex i gen) fun g => { g with pulse := some p }
        else { s with outs.gens := Table.upd {} s.outs.gens (fluxGen (ch - 160)) fun g => { g with pulse := some p } }
      match rerr with
      | some (addr, off) => s.envError q ch (pulseEnv p) addr (s.sampleStamp u (k + off))
      | none => s

/-! ### Markers (R205 to R212) -/

/-- R206: one pin of a marker event. -/
def State.markPinAct (s : State) (p mode : Nat) (v rel : Bool) : State :=
  if s.freePin p then s
  else if mode = 1 ∨ mode = 3 then s.updPin p fun x => { x with drive := some v }
  else if mode = 0 ∧ rel then s.updPin p fun x => { x with drive := none }
  else s

/-- R209: a compare whose last event has been applied in tick `t` is made on the levels of its quarter's pins. -/
def State.makeCompare (s : State) (id t : Nat) (levels : BitVec 16) : State :=
  match s.outs.cmps.find? fun m => m.id == id with
  | none => s
  | some m =>
    if 1 < m.left then
      { s with outs.cmps := s.outs.cmps.map fun x => if x.id = id then { x with left := x.left - 1 } else x }
    else
      let ok := (List.range 16).all fun p => !bitOf m.pins p || levels.getLsbD p == bitOf m.value p
      s.endCompare m (CSlot.made ok (s.stampAt t 0))

/-- R206, R209: a marker event of tile g of quarter q in tick `t`. -/
def State.releaseMark (s : State) (q g mode value rel id t : Nat) (levels : BitVec 16) : State :=
  let s := (List.range 4).foldl (fun s j =>
    s.markPinAct (q * 16 + g * 4 + j) (bitsOf mode (2 * j + 1) (2 * j)) (bitOf value j) (bitOf rel j)) s
  if id = 0 then s else s.makeCompare id t levels

/-! ### Release (R66, R67, R96) -/

/-- The sample on which an event is applied. -/
def State.releaseSample (s : State) (w : Nat) (e : WEvent) : Nat :=
  match e.how with
  | .slip x => x
  | .state x => x
  | _ => s.targetSample w e

/-- R67, R96: the next event of a queue: the least sample; on one sample state events first, then
those that entered first. -/
def State.nextEvent (s : State) (w : Nat) : List WEvent → Option WEvent
  | [] => none
  | e :: es =>
    match State.nextEvent s w es with
    | none => some e
    | some f =>
      let a := 2 * s.releaseSample w e + (if eventClass e = 5 then 0 else 1)
      let b := 2 * s.releaseSample w f + (if eventClass f = 5 then 0 else 1)
      if a ≤ b then some e else some f

/-- R65: render a queue's channel up to the sample on which an event acts. -/
def State.renderTo (s : State) (w k : Nat) : State :=
  match queueChan (w / 72) (w % 72) with
  | none => s
  | some ch => if ch < 160 then s.renderRf (w / 72) (w % 72) k else s.renderFlux (ch - 160) k

/-- Apply an event of a queue on sample k. -/
def State.applyEvent (s : State) (w : Nat) (e : WEvent) (k : Nat) (levels : BitVec 16)
    (rerr : Option (Nat × Nat)) : State :=
  let q := w / 72
  let s := s.renderTo w k
  if eventClass e = 5 then s.releaseState w e k
  else if (s.queue w).halted then s.discardEvent w e
  else match e.act with
    | .play g p => s.startPulse w g p k e rerr
    | .fork g f _ => s.startPulse w g f k e rerr
    | .window c => s.openWindow q c k (decide (e.how ≠ .onTime)) false
    | .mark mode value rel id => s.releaseMark q (w % 72 - 68) mode value rel id k levels
    | .biasSet ch code => (s.biasStep (biasOf w ch) code).updBias (biasOf w ch) fun b => { b with wave := none }
    | .biasWave ch wave => s.startWave (biasOf w ch) wave rerr.isSome
    | .biasStop ch => if (s.biasOut (biasOf w ch)).st = 0 then (s.biasFreeze (biasOf w ch)).updBias (biasOf w ch)
        fun b => { b with wave := none } else s
    | _ => s

/-- WELT_EVENT_RELEASE (R66, R67, R73, R77, R703 class 7): the next event of a queue whose sample has
come. `levels` are the levels that the pins of the quarter resolve to at the end of the tick; `bad`
is 1 for an uncorrectable error of the queue entry and 2 for one of an envelope or waveform read at
address `addr`, from pulse sample `off` on. -/
def State.weltRelease (s : State) (w : Nat) (levels : BitVec 16) (bad addr off : Nat) : State :=
  match s.nextEvent w (s.queue w).events with
  | none => s
  | some e =>
    let k := s.releaseSample w e
    if s.time.now < k / queueUnit (w % 72) then s
    else
      let s := s.updQueue w fun q => { q with events := q.events.erase e, lastRel := s.targetSample w e + 1 }
      if bad = 1 then (s.eccError 7 (w / 72) 0 addr true).discardEvent w e
      else s.applyEvent w e k levels (if bad = 2 then some (addr, off) else none)

def execWeltEventRelease (queue : Fin 288) (levels : BitVec 16) (bad : Fin 3) (addr : Word) (off : Nat)
    (s : State) : Host.Outcome State Fault Refusal :=
  .next (s.weltRelease queue levels bad addr.toNat off)

/-! ### Output stages (R117 to R123) -/

/-- R118: the last in effect uses the channel. -/
def State.chanUsed (s : State) (ch : Nat) : Bool :=
  let (q, i) := chanQueue ch
  s.jobUses q i

/-- R118: the switch into the output path starts from S − 200, a terminated enabled channel of the last. -/
def State.switchStart (s : State) (ch : Nat) : State :=
  if s.enabled ch ∧ s.chanUsed ch ∧ (s.chan ch).st = 0 ∧ (s.job.phase = .armed ∨ s.job.phase = .shotBoundary)
      ∧ s.job.prepared ∧ s.job.startTick ≤ s.time.now + 200 then
    s.updChan ch fun c => { c with switching := true, out := 0 }
  else s

/-- OUTPUT_SWITCH_END (R118, R417): the channel is active and plays zero until its first pulse. -/
def State.switchEnd (s : State) (ch : Nat) : State :=
  if (s.chan ch).switching then
    let u := if ch < 160 then 16 else 2
    let s := s.updChan ch fun c => { c with st := 1, switching := false, virgin := true, out := 0,
                                            evalTo := s.time.now * u, playedTo := 0 }
    if ch < 160 then s else s.presetFlux (ch - 160)
  else s

def execOutputSwitchEnd (ch : Fin 224) (s : State) : Host.Outcome State Fault Refusal := .next (s.switchEnd ch)

/-- OUTPUT_OVERCURRENT (R121, R123). -/
def State.overcurrent (s : State) (ch : Nat) : State :=
  if (s.chan ch).st = 1 then
    let at' := s.time.now :: (s.chan ch).ocAt.filter fun t => decide (s.time.now < t + 1000000000)
    let s := s.updChan ch fun c => { c with ocAt := at', lock := if 3 ≤ at'.length then 1 else c.lock }
    s.faultMute 1 ch
  else s

def execOutputOvercurrent (ch : Fin 224) (s : State) : Host.Outcome State Fault Refusal :=
  .next (s.overcurrent ch)

/-- OUTPUT_FAULT_RETEST (R122, R123): at a job boundary or idle. -/
def State.faultRetest (s : State) (ch : Nat) (passes : Bool) : State :=
  if s.betweenJobs ∧ (s.chan ch).st = 2 ∧ (s.chan ch).lock = 0 ∧ passes then s.faultClear 1 ch else s

def execOutputFaultRetest (ch : Fin 224) (passes : Bool) (s : State) : Host.Outcome State Fault Refusal :=
  .next (s.faultRetest ch passes)

end Sys2Proof.Machine
end

