-- ==== Sys2Proof/Machine/Awl.lean ====
section
/-! DEFINITION. Edge time-tagging (chapter 16). The awl FIFO (R585) is the held records of sources
800 to 831. -/

namespace Sys2Proof.Machine

def State.awlIn (s : State) (k : Nat) : AwlIn := Table.get {} s.awl k

def State.updAwl (s : State) (k : Nat) (f : AwlIn → AwlIn) : State := { s with awl := Table.upd {} s.awl k f }

/-- R585: the records that the awl FIFO holds. -/
def State.awlHeld (s : State) : Nat := (s.recs.held.filter fun h => decide (800 ≤ h.src ∧ h.src < 832)).length

/-- R585: a record finds the FIFO full; the drop record of its run consumes the numbers (R82). -/
def State.awlDrop (s : State) (k : Nat) (st : Stamp) : State :=
  (s.count Reg.AWL_CNT.DROP []).updAwl k fun x => { x with
    drops := x.drops + 1, dropAt := if x.drops = 0 then st else x.dropAt }

/-- R585, R586, R589: a record of input k, after the drop record of a run that has ended. -/
def State.awlRecord (s : State) (k kind flags : Nat) (st : Stamp) (body : List (Nat × Nat × Nat)) : State :=
  if 4096 ≤ s.awlHeld then s.awlDrop k st
  else
    let c := s.rd Reg.AWL_CFG.CTX []
    let x := s.awlIn k
    let s := if x.drops = 0 then s else
      (s.post c .event (800 + k) 0x6B 0 x.dropAt [(0x14, 4, min 0xFFFFFFFF x.drops)]).updAwl k
        fun y => { y with drops := 0, dropAt := {} }
    if 4096 ≤ s.awlHeld then s.awlDrop k st else s.post c .event (800 + k) kind flags st body

/-! ### The vernier (R578 to R580) -/

/-- R579: the fine value of counts N, N1 and N2, with halves rounded up. -/
def awlFine (n n1 n2 : Int) : Int :=
  let d := n2 - n1
  (2 * 16 * (d + n - n1) + d) / (2 * d)

/-- R579: the pair is usable. -/
def awlGood (n1 n2 : Nat) : Bool := decide (n1 + 12 ≤ n2 ∧ n2 ≤ n1 + 20)

/-- R579: the fine value of an edge on the interpolator in turn, and CALERR. With no good pair yet the
spec states no value (log 8): a free one within (P, 2P]. -/
def State.awlMeasure (s : State) (x : AwlIn) (n n1 n2 : Nat) : Nat × Bool :=
  if awlGood n1 n2 then ((awlFine n n1 n2).toNat, false)
  else
    let (a, b) := Table.get (0, 0) x.good x.turn
    if awlGood a b then ((awlFine n a b).toNat, true)
    else (17 + (Config.freeWord s.freeCtr).toNat % 16, true)

/-- R580: the stamp of a time in units of 2^-8 ns of the reference-derived clocks. -/
def State.awlStamp (s : State) (t : Nat) : Stamp := s.stampAt (t / 256) (t % 256 * 256)

/-! ### Modes (R581 to R584) -/

/-- R582: edges of a queue older than the pairing wait. -/
def awlExpire (win t : Nat) (l : List AwlTag) : List AwlTag × Nat :=
  let keep := l.filter fun e => decide (t ≤ e.at_ + win * 16 * 256)
  (keep, l.length - keep.length)

def State.countUnpair (s : State) (k n : Nat) : State :=
  (List.range n).foldl (fun s _ => s.count Reg.AWL_IN_CNT.UNPAIR [k]) s

/-- R583, R589: the interval record of a pair. -/
def State.awlInterval (s : State) (k : Nat) (start stop : AwlTag) : State :=
  let d : Int := (stop.at_ : Int) - (start.at_ : Int)
  s.awlRecord k 0x69 0 start.stamp
    [(0x14, 8, wrapInt 64 d), (0x1C, 1, s.rd Reg.AWL_IN_CFG.STOP [k]),
     (0x1D, 1, (if d < 0 then 1 else 0) + (if d = 0 then 2 else 0) + (if start.calerr ∨ stop.calerr then 4 else 0))]

/-- R582: an edge of the pair of input k. -/
def State.awlPair (s : State) (k : Nat) (isStop : Bool) (e : AwlTag) : State :=
  let x := s.awlIn k
  let win := s.rd Reg.AWL_IN_TIME.WIN [k]
  let (a, na) := awlExpire win e.at_ x.starts
  let (b, nb) := awlExpire win e.at_ x.stops
  let s := s.countUnpair k (na + nb)
  if isStop then
    match a with
    | o :: rest => (s.updAwl k fun x => { x with starts := rest, stops := b }).awlInterval k o e
    | [] =>
      let s := if b.length < 16 then s else s.countUnpair k 1
      s.updAwl k fun x => { x with starts := [], stops := b.drop (b.length - 15) ++ [e] }
  else
    match b with
    | o :: rest => (s.updAwl k fun x => { x with starts := a, stops := rest }).awlInterval k e o
    | [] =>
      let s := if a.length < 16 then s else s.countUnpair k 1
      s.updAwl k fun x => { x with starts := a.drop (a.length - 15) ++ [e], stops := [] }

/-- R582: the order in which the pairing unit takes edges: by their stamps, a start before a stop. -/
def awlKey (e : Bool × AwlTag) : Nat := 2 * e.2.at_ + (if e.1 then 1 else 0)

/-- R582: an edge of the pair of input k is on its way to the pairing unit. -/
def State.awlWait (s : State) (k : Nat) (isStop : Bool) (e : AwlTag) : State :=
  s.updAwl k fun x => { x with
    wait := x.wait.takeWhile (fun o => decide (awlKey o ≤ awlKey (isStop, e))) ++ [(isStop, e)]
      ++ x.wait.dropWhile fun o => decide (awlKey o ≤ awlKey (isStop, e)) }

/-- R578, R582: the pairing unit of input k takes the edges before which no other can still come: an edge lies at
most 2P before its reference edge. -/
def State.awlTake (s : State) (k : Nat) : State :=
  let due := (s.awlIn k).wait.takeWhile fun o => decide (o.2.at_ + 32 < s.time.now * 256)
  due.foldl (fun s o => s.awlPair k o.1 o.2) (s.updAwl k fun x => { x with wait := x.wait.drop due.length })

/-- R582: what an accepted edge of input j is to the pair of input k. -/
def State.awlToPair (s : State) (j : Nat) (e : AwlTag) (k : Nat) : State :=
  if s.flag Reg.AWL_IN_CFG.EN [k] && s.rd Reg.AWL_IN_CFG.MODE [k] == 1 then
    let stop := s.rd Reg.AWL_IN_CFG.STOP [k]
    if k = j ∧ stop = j then
      let p := (s.awlIn k).prev
      let s := s.updAwl k fun x => { x with prev := some e }
      match p with
      | some o => s.awlInterval k o e
      | none => s
    else if k = j then s.awlWait k false e
    else if stop = j then s.awlWait k true e
    else s
  else s

/-- R577: the input accepts an edge at t. -/
def State.awlAccepts (s : State) (k t : Nat) : Bool :=
  match (s.awlIn k).last with
  | none => true
  | some l => decide (l + max 2 (s.rd Reg.AWL_IN_CFG.HOLDOFF [k]) * 256 ≤ t)

/-- R577 to R584: an edge of input k. `ref` is the sample of the present tick that is its reference
edge; n, n1 and n2 are the counts of its interpolator. -/
def State.awlEdge (s : State) (k : Nat) (falling : Bool) (ref n n1 n2 : Nat) : State :=
  let edge := s.rd Reg.AWL_IN_CFG.EDGE [k]
  if !s.awake || !s.flag Reg.AWL_IN_CFG.EN [k] || (edge == 0 && falling) || (edge == 1 && !falling) then s
  else
    let x := s.awlIn k
    let (f, err) := s.awlMeasure x n n1 n2
    let t := s.time.now * 256 + ref * 16 - f
    if s.awlAccepts k t then
      let e : AwlTag := { at_ := t, stamp := s.awlStamp t, calerr := err }
      let good := if awlGood n1 n2 then Table.set (0, 0) x.good x.turn (n1, n2) else x.good
      let s := s.draw.updAwl k fun x => { x with
        last := some t, count := x.count + 1, turn := (x.turn + 1) % 8, good := good }
      let mode := s.rd Reg.AWL_IN_CFG.MODE [k]
      let s := if mode = 0 then s.awlRecord k 0x68 0 e.stamp
          [(0x14, 1, if falling then 1 else 0), (0x15, 1, if err then 1 else 0), (0x18, 4, (s.awlIn k).count)]
        else if mode = 2 then s.updAwl k fun x => { x with xs := x.xs ++ [t] }
        else s
      (List.range 32).foldl (fun s j => s.awlToPair k e j) s
    else s.count Reg.AWL_IN_CNT.IGN [k]

/-- AWL_EDGE (R577 to R585). -/
def execAwlEdge (k : Fin 32) (falling : Bool) (ref : Fin 16) (n n1 n2 : BitVec 8) (s : State) :
    Host.Outcome State Fault Refusal :=
  .next (s.awlEdge k falling ref n.toNat n1.toNat n2.toNat)

/-- R584: the fitted period in units of 2^-32 ns of the edges of a gate; 0 for fewer than eight. -/
def awlPeriod (xs : List Nat) : Int :=
  let n : Nat := xs.length
  if n < 8 then 0
  else
    let ix := xs.zip (List.range n)
    let sn := (List.range n).foldl (· + ·) 0
    let sx := xs.foldl (· + ·) 0
    let snx := ix.foldl (fun a e => a + e.1 * e.2) 0
    let snn := (List.range n).foldl (fun a i => a + i * i) 0
    rndNearest (((n * snx : Nat) - (sn * sx : Nat) : Int) * 16777216) (n * snn - sn * sn)

/-- R578, R584: a gate ends, a tick after its upper end, when no edge can still come that lies in it. -/
def State.awlGate (s : State) (k : Nat) : State :=
  let x := s.awlIn k
  let len := s.rd Reg.AWL_IN_TIME.GATE [k] * 1000
  let from_ := x.g0 + x.gate * len
  if s.awake && s.flag Reg.AWL_IN_CFG.EN [k] && s.rd Reg.AWL_IN_CFG.MODE [k] == 2 && decide (from_ + len < s.time.now) then
    let all := x.xs.filter fun t => decide (from_ * 256 ≤ t ∧ t < (from_ + len) * 256)
    let s := s.updAwl k fun x => { x with
      gate := x.gate + 1, xs := x.xs.filter fun t => decide ((from_ + len) * 256 ≤ t) }
    s.awlRecord k 0x6A 0 (s.stampAt from_ 0)
      [(0x14, 4, min 0xFFFFFFFF all.length), (0x18, 8, wrapInt 64 (awlPeriod (all.map (· - from_ * 256))))]
  else s

/-- AWL_GATE_END (R584). -/
def execAwlGateEnd (k : Fin 32) (s : State) : Host.Outcome State Fault Refusal := .next (s.awlGate k)

/-- R584, R588: a commit has changed input k. -/
def State.awlRestart (s : State) (k : Nat) : State :=
  let x := s.awlIn k
  (s.countUnpair k (x.starts.length + x.stops.length + x.wait.length)).updAwl k fun x => { x with
    starts := [], stops := [], wait := [], prev := none, g0 := s.time.now, gate := 0, xs := []
    count := if s.flag Reg.AWL_IN_CFG.EN [k] then x.count else 0
    last := if s.flag Reg.AWL_IN_CFG.EN [k] then x.last else none }

end Sys2Proof.Machine
end

