-- ==== Sys2Proof/Machine/SysOps.lean ====
section
/-! DEFINITION. The operations of the whole device: major modes (chapter 22), orderly stops (chapter
20), failure of a cobbler (chapter 18), and NV writes (chapter 20). -/

namespace Sys2Proof.Machine

/-! ### Major modes (R697 to R700) -/

/-- R341, R354: a plane's state: 0 ACTIVE, 1 STANDBY, 2 QUARANTINED, 3 RESYNC. -/
def State.planeState (s : State) (p : Fin 2) : Nat :=
  match s.planes.dp[p].mode with
  | .quarantined => 2
  | .resync => 3
  | .up => if s.planes.owner = p.val + 1 then 0 else 1

/-- R700: the bits of DG_FAULT.DEG. -/
def State.deg (s : State) : Nat :=
  (if 2 ≤ s.planeState 0 ∨ 2 ≤ s.planeState 1 ∨ s.planes.suspect = true then 1 else 0)
  + (if 2 ≤ s.eng.st[0] ∨ 2 ≤ s.eng.st[1] then 2 else 0)
  + (if s.pwr.sensors.any fun e => e.2.broken then 4 else 0)
  + (if s.sec.err = true ∨ s.eng.result = 2 then 8 else 0)
  + (if s.sys.refLost then 16 else 0)

/-- A fetched RUN or CAPTURE is ready to start under R18. -/
def State.anyReady (s : State) : Bool := s.ctxs.any fun e => e.2.fetched.any fun d => d.phase == .ready

/-- R697, R704: DG_FAULT.ACT. A job runs until its completion is posted; where the next is ready
then, its value stands until that job is armed. -/
def State.act (s : State) : Nat :=
  match s.job.job with
  | some j => if j.capture then 2 else 1
  | none =>
    if 0 < s.job.bridge ∧ (s.job.ending.isSome ∨ s.anyReady = true) then s.job.bridge
    else if s.cal.run.isSome then 3 else 0

/-- R697: the major mode. -/
def State.mode (s : State) : Nat :=
  if s.sys.boot then 0
  else if s.sys.safe ≠ 0 then 7
  else if s.sys.tmode then 5
  else if s.deg ≠ 0 then 6
  else match s.act with
    | 1 => 2
    | 2 => 3
    | 3 => 4
    | _ => 1

/-- R706: the bytes of a mode record. -/
def State.modeBody (s : State) (was now : Nat) : List (Nat × Nat × Nat) :=
  [(0x14, 1, was), (0x15, 1, now), (0x16, 1, s.deg), (0x17, 1, s.sys.safe), (0x18, 1, s.act)]

/-- R698: a mode record of this tick takes the later change into itself. -/
def State.mergeMode (s : State) (h : Held) (now : Nat) : State :=
  let b := packNat ((s.modeBody (bitsOf h.body.toNat 7 0) now).map fun e => (e.1 - 0x14, e.2.1, e.2.2))
  { s with recs.held := s.recs.held.map fun g => if g = h then { g with body := BitVec.ofNat 96 b } else g }

/-- R698: post a mode record when the mode has changed. -/
def State.modeSync (s : State) : State :=
  let was := s.sys.shown
  let now := s.mode
  if was = now then s
  else
    let s := { s with sys.shown := now }
    match s.recs.held.find? fun h => h.kind == 0xA0 && h.stamp == s.nowStamp with
    | some h => s.mergeMode h now
    | none => s.post s.home .event 1008 0xA0 0 s.nowStamp (s.modeBody was now)

/-- The next state of a step that can change the mode. -/
def State.done (s : State) : Host.Outcome State Fault Refusal := .next s.modeSync

/-! ### Orderly stops (R669, R670, R699) -/

/-- R685: an orderly stop ends a patch write of the security module. -/
def MbRun.interrupt (r : MbRun) : MbRun :=
  match r.effect with
  | .patch slot v _ _ => { r with status := 8, effect := .patchInt slot v, ind := false }
  | _ => r

/-- R670, R672, R699: the trigger of an orderly stop. The first Safe cause stays latched. -/
def State.orderlyStop (s : State) (cause unit : Nat) : State :=
  if s.sys.safe ≠ 0 then s
  else { s with
    sys.safe := cause
    pwr.stop := some { cause := cause, unit := unit, t0 := s.time.now }
    nv.refuse := true
    nv.done := 0
    sec.run := s.sec.run.map MbRun.interrupt }

/-- R662: some quarter holds low hold. -/
def State.lowHold (s : State) : Bool :=
  bitOf s.pwr.low.toNat 1 || bitOf s.pwr.low.toNat 3 || bitOf s.pwr.low.toNat 5 || bitOf s.pwr.low.toNat 7

/-- R665: throttle action n is taken and has taken effect. -/
def State.throttled (s : State) (n : Nat) : Bool := s.pwr.acts.any fun a => a.num == n && a.live

/-- R662, R665: no shot starts. -/
def State.shotsHeld (s : State) : Bool := s.lowHold || s.throttled 5

/-- R662, R665: no job starts. -/
def State.jobsHeld (s : State) : Bool := s.lowHold || s.throttled 4

/-- No shot or job starts: an orderly stop runs or the device is Safe (R670, R699). -/
def State.stopped (s : State) : Bool := s.pwr.stop.isSome || s.sys.safe != 0

/-! ### Cobblers (R612, R626, R634) -/

/-- A cobbler carries out macro-instructions: one is ACTIVE, no switch-over gap runs (R629), and the
insole is not held in reset (R663). -/
def State.cobblerUp (s : State) : Bool :=
  (s.eng.st[0] == 0 || s.eng.st[1] == 0) && s.eng.gap.isNone && !s.pwr.cut

/-- R636: a cobbler state record. -/
def State.cobblerRecord (s : State) (n state cause : Nat) : State :=
  s.postCoarse s.home (880 + n) 0x75 0 [(0x14, 1, state), (0x15, 1, cause)]

def State.setCobbler (s : State) (n state : Nat) : State :=
  { s with eng.st := s.eng.st.set! n state }

/-- R626, R634: the active cobbler fails; the standby, if there is one, takes over. The gap that the
switch-over record gives lies still ahead (log 12). -/
def State.cobblerFail (s : State) (cause : Nat) : State :=
  let a := s.eng.active
  let b := 1 - a
  if s.eng.st[a]! ≠ 0 then s
  else
    let s := (s.setCobbler a 2).cobblerRecord a 2 0
    if s.eng.st[b]! = 1 then
      let s := s.count Reg.ENG_CNT.SWITCH []
      let warm := s.eng.warm && s.eng.sync
      let s := { s.setCobbler b 0 with
        eng.active := b
        eng.sync := false
        eng.gap := some { cause := cause, warm := warm, lastRetired := s.time.now } }
      (s.postCoarse s.home 882 0x74 0 [(0x14, 1, b), (0x15, 1, cause), (0x16, 1, if warm then 1 else 0),
        (0x18, 4, (Config.freeWord s.freeCtr).toNat)]).draw
    else if s.eng.st[b]! = 2 then s.orderlyStop 5 0
    else s

/-- R633: the failure of the standby leaves the active cobbler running. -/
def State.standbyFail (s : State) : State :=
  let b := 1 - s.eng.active
  if s.eng.st[b]! = 1 then
    { (s.setCobbler b 2).cobblerRecord b 2 0 with eng.sync := false }
  else s

/-- R635: a match register of cobbler n, as the patch image sets it: EN in bit 31, ROM_ADDR in bits 30:16 and
PATCH_ADDR in bits 9:0. -/
def State.matchWord (s : State) (n m : Nat) : Nat :=
  if s.eng.patch[n]! = [] then 0
  else ((Config.patchMatch s.eng.patch[n]! m) &&& 0xFFFF03FF#32).toNat

/-- R614, R615: where cobbler n takes the microword of ROM address a from: its patch RAM at the PATCH_ADDR of the
lowest enabled match register that holds a, else its ROM. -/
def State.microAddr (s : State) (n a : Nat) : Bool × Nat :=
  match (List.range 64).find? fun m => bitOf (s.matchWord n m) 31 && bitsOf (s.matchWord n m) 30 16 == a with
  | some m => (true, bitsOf (s.matchWord n m) 9 0)
  | none => (false, a)

/-- R617: the microword fetch of the active cobbler at ROM address a met an uncorrectable error. The record gives
the address in the memory that it took the word from. -/
def State.microwordError (s : State) (a : Nat) : State :=
  (s.eccError 8 s.eng.active 0 (s.microAddr s.eng.active (a % 32768)).2 false).cobblerFail 0

/-! ### NV writes (R671, R672) -/

def State.nvSlot (s : State) (what slot : Nat) : NvSlot := Table.get {} s.nv.slots (what * 2 + slot)

/-- R671: the slot that the next write goes to, and its sequence. -/
def State.nvTarget (s : State) (what : Nat) : Nat × Word :=
  let a := s.nvSlot what 0
  let b := s.nvSlot what 1
  match s.nvNewest what with
  | none => (0, 0)
  | some n => (if a.valid ∧ (b.valid = false ∨ n.seq = a.seq) then 1 else 0, n.seq + 1)

/-- R674: an NV write record. -/
def State.nvRecord (s : State) (what slot result : Nat) (seq : Nat) : State :=
  s.postCoarse s.home 956 0x87 0 [(0x14, 1, what), (0x15, 1, slot), (0x16, 1, result), (0x18, 4, seq)]

def State.nvBusy (s : State) (what : Nat) : Bool := s.nv.writes.any fun w => w.what == what

/-- R671, R672: a request to write a record. The slot is invalid until its closing mark is there. -/
def State.nvRequest (s : State) (what : Nat) (body : NvRec) : State :=
  let (slot, seq) := s.nvTarget what
  if s.nv.refuse then s.nvRecord what slot 1 seq.toNat
  else if s.nvBusy what then s
  else
    let old := s.nvSlot what slot
    { s with
      nv.slots := Table.set {} s.nv.slots (what * 2 + slot) { old with valid := false }
      nv.writes := s.nv.writes ++ [{ what := what, slot := slot, seq := seq, body := body }] }

/-- BIAS_NV_SAVE (R436). -/
def State.biasNvSave (s : State) : State := s.nvRequest 0 (.bias s.biasImage)

def execBiasNvSave (s : State) : Host.Outcome State Fault Refusal := .next (s.gate s.biasNvSave)

/-- CAL_SAVE (R646, R651). -/
def State.calSave (s : State) : State := s.nvRequest 1 (.cal s.cal.live)

def execCalSave (s : State) : Host.Outcome State Fault Refusal := .next (s.gate s.calSave)

/-- LACE_ID_NVSAVE (R547). -/
def State.idNvSave (s : State) : State := s.nvRequest 2 (.id (s.rd Reg.LACE_ID.ID []))

def execLaceIdNvsave (s : State) : Host.Outcome State Fault Refusal := .next (s.gate s.idNvSave)

/-- R671: an NV write ends. -/
def State.nvFinish (s : State) (w : NvWrite) : State :=
  let s := { s with
    nv.slots := Table.set {} s.nv.slots (w.what * 2 + w.slot)
      { valid := true, seq := w.seq, body := some w.body }
    nv.writes := s.nv.writes.filter fun x => x.what ≠ w.what
    nv.done := if s.pwr.stop.isSome then s.nv.done + 1 else s.nv.done }
  s.nvRecord w.what w.slot 0 w.seq.toNat

end Sys2Proof.Machine
end

