-- ==== Sys2Proof/Machine/Contexts.lean ====
section
/-! DEFINITION. The host link, doorbells, fetching of submission entries, host memory reads, and the
controls of a context (chapters 12, 13). -/

namespace Sys2Proof.Machine

/-! ### Doorbells (R476, R497, R498) -/

/-- R497, R498: the cause code of a violation of a doorbell write on ring `size`, if any. A head
write also names the ring's producer and its old head. -/
def doorbellFault (enabled : Bool) (size : Nat) (head : Option (Nat × Nat)) (v : Nat) : Option Nat :=
  if !enabled then some 10
  else if size = 0 then some 12
  else if size ≤ v then some 7
  else match head with
    | none => none
    | some (prod, old) =>
      if (prod + size - old) % size < (v + size - old) % size then some 8 else none

/-- R501: a doorbell on a quarantined context is discarded and counted, without a record. -/
def State.doorbell (s : State) (c off : Nat) (f : Fld) (head : Option (Nat × Nat)) (v : Nat)
    (put : Ctx → Ctx) : State :=
  if (s.ctx c).quar then s.count Reg.PCIE_CNT.VIO_CNT []
  else
    let en := s.flag Reg.CTX_CFG.ENABLE [c]
    match doorbellFault en (s.ringSize c f) head v with
    | some cause => s.violate 737 (some c) cause 8 off v
    | none => (s.updCtx c put).writeStatus c

/-- R476: an aligned 32-bit write to a listed offset of a doorbell page. -/
def State.doorbellAt (s : State) (c off v : Nat) : State :=
  let x := s.ctx c
  match off with
  | 0 => s.doorbell c 0 Reg.CTX_SIZE.SUB none v fun x => { x with subTail := v }
  | 4 => s.doorbell c 4 Reg.CTX_SIZE.CPL (some (x.cplTail, x.cplHead)) v fun x => { x with cplHead := v }
  | 8 => s.doorbell c 8 Reg.CTX_SIZE.RES (some (x.resTail, x.resHead)) v fun x => { x with resHead := v }
  | 12 => s.doorbell c 12 Reg.CTX_SIZE.EVT (some (x.evtTail, x.evtHead)) v fun x => { x with evtHead := v }
  | _ => s.doorbell c 16 Reg.CTX_SIZE.CAP (some (x.capTail, x.capHead)) v fun x => { x with capHead := v }

/-- DOORBELL_SUB_TAIL (R476). -/
def execDoorbellSubTail (c : Fin 1024) (v : Word) (s : State) : Host.Outcome State Fault Refusal :=
  (s.doorbellAt c 0 v.toNat).done

/-- DOORBELL_CPL_HEAD (R476). -/
def execDoorbellCplHead (c : Fin 1024) (v : Word) (s : State) : Host.Outcome State Fault Refusal :=
  (s.doorbellAt c 4 v.toNat).done

/-- DOORBELL_RES_HEAD (R476). -/
def execDoorbellResHead (c : Fin 1024) (v : Word) (s : State) : Host.Outcome State Fault Refusal :=
  (s.doorbellAt c 8 v.toNat).done

/-- DOORBELL_EVT_HEAD (R476). -/
def execDoorbellEvtHead (c : Fin 1024) (v : Word) (s : State) : Host.Outcome State Fault Refusal :=
  (s.doorbellAt c 12 v.toNat).done

/-- DOORBELL_CAP_HEAD (R476). -/
def execDoorbellCapHead (c : Fin 1024) (v : Word) (s : State) : Host.Outcome State Fault Refusal :=
  (s.doorbellAt c 16 v.toNat).done

/-- R476, R497: the write is not an aligned 32-bit write to a listed offset. -/
def unlistedDoorbell (off size : Nat) : Bool := decide (size ≠ 4 ∨ off % 4 ≠ 0 ∨ 16 < off % 4096)

/-- R497, R501: an unlisted write: cause 9 against the context that owns the page. -/
def State.doorbellUnlisted (s : State) (off v : Nat) : State :=
  let c := off / 4096
  if (s.ctx c).quar then s.count Reg.PCIE_CNT.VIO_CNT []
  else s.violate 737 (some c) 9 8 (off % 4096) v

/-- DOORBELL_UNLISTED_WRITE (R497). -/
def execDoorbellUnlistedWrite (off : BitVec 22) (size : Fin 9) (v : BitVec 64) (s : State) :
    Host.Outcome State Fault Refusal :=
  State.done (if unlistedDoorbell off.toNat size then s.doorbellUnlisted off.toNat v.toNat else s)

/-- R476, R497: a write to BAR2. -/
def State.doorbellWrite (s : State) (off size v : Nat) : State :=
  if unlistedDoorbell off size then s.doorbellUnlisted off v
  else s.doorbellAt (off / 4096) (off % 4096) (v % 2 ^ 32)

/-! ### Fetching (R479) -/

/-- Entry reads of a context that are outstanding. -/
def State.entryReads (s : State) (c : Nat) : Nat :=
  (s.host.reads.filter fun r => match r with
    | .entry cc _ _ => cc == c
    | _ => false).length

/-- R479: a further entry may be fetched. -/
def State.mayFetch (s : State) (c : Nat) : Bool :=
  let x := s.ctx c
  let held := x.inflt + s.entryReads c
  let n := s.ringSize c Reg.CTX_SIZE.CPL
  let free := if n = 0 then 0 else n - 1 - (x.cplTail + n - x.cplHead) % n
  decide (0 < s.ringSize c Reg.CTX_SIZE.SUB) && !s.flag Reg.CTX_CTL.PAUSE [c] && !x.quar
    && x.subHead != x.subTail && decide (held < 16) && decide (held < free)

/-- R471, R479: issue the read of the next submission entry. -/
def State.fetch (s : State) (c : Nat) : State :=
  if s.mayFetch c then
    let x := s.ctx c
    let n := s.ringSize c Reg.CTX_SIZE.SUB
    let s := { s with host.reads := s.host.reads ++ [ReadFor.entry c x.subHead false] }
    let s := s.emit (.read (s.baseOf .SUB_BASE_LO .SUB_BASE_HI c + x.subHead * 64) 64)
    (s.updCtx c fun y => { y with subHead := (x.subHead + 1) % n }).writeStatus c
  else s

/-! ### Host memory reads (R494, R495) -/

def State.dropRead (s : State) (r : ReadFor) : State := { s with host.reads := s.host.reads.erase r }

/-- R482, R499: a submission entry arrives; an unknown opcode is a violation with cause 1. CALIBRATE
entries of all contexts start in the order in which they come (R641). -/
def State.entryArrives (s : State) (c idx : Nat) (bytes : List Byte) : State :=
  let d : Desc := { index := idx, bytes := bytes }
  let s := s.holdEntry c d
  let s := if d.op = 7 then { s with cal.waiting := s.cal.waiting.filter (· ≠ (c, idx)) ++ [(c, idx)] } else s
  if 0x0B < d.op then s.refuseDesc c d 1 0 0 else s

/-- The data of a started descriptor arrives. -/
def State.dataArrives (s : State) (c idx : Nat) (bytes : List Byte) : State :=
  match s.desc c idx with
  | some d => if d.phase = .reading then s.setDesc c { d with phase := .loaded, data := bytes } else s
  | none => s

/-- R18: the ready job whose turn it is: contexts in ascending order, from the one after the last. -/
def State.nextJob (s : State) : Option (Nat × Desc) :=
  (List.range 1024).findSome? fun i =>
    let c := (s.job.lastCtx + i) % 1024
    ((s.ctx c).fetched.find? fun d => d.phase == .ready).map (c, ·)

/-- R396, R408: buffer length and first granule the live last gives a stream. -/
def State.streamBuf (s : State) (q strm : Nat) : Nat × Nat :=
  match s.place.inEffect.streams.find? fun e => e.1 == q && e.2.1 == strm with
  | some e => (e.2.2.1, e.2.2.2)
  | none => (0, 0)

/-- Samples of a stream that one shot consumes as placed. -/
def State.streamShot (s : State) (q strm : Nat) : Nat :=
  match s.place.inEffect.consume.find? fun e => e.1 == q * 16 + strm with
  | some e => e.2 / 4
  | none => 0

/-- R166: samples that the running job, or the next one, still reads, from the present shot's first on. -/
def State.streamLimit (s : State) (q strm : Nat) : Nat :=
  s.streamShot q strm * match s.job.job with
    | some j => j.shots - j.shot
    | none => match s.nextJob with
      | some (_, d) => max 1 (fieldAt d.bytes 8 4)
      | none => 0

/-- R166: samples of a stream arrive in its buffer, which is written in order and wraps. -/
def State.putSamples (s : State) (q first len pos : Nat) : List Byte → Nat → State
  | [], _ => s
  | b :: bs, i =>
    let o := if len = 0 then 0 else (pos * 4 + i) % (len * 64)
    State.putSamples (s.store (envBase q + first * 64 + o) [b]) q first len pos bs (i + 1)

/-- R166: the free samples of a stream's buffer. -/
def State.streamFree (s : State) (q strm : Nat) : Nat :=
  let t := Table.get {} s.sq.streams (q * 16 + strm)
  (s.streamBuf q strm).1 * 16 - (t.arrived + t.next - t.played)

/-- R166: the host memory reads of `n` samples from sample `pos` on, counted from the present shot's
first; the data of each shot stands at its own stride. -/
def State.streamReads (s : State) (t : Stream) (shot per : Nat) : Nat → Nat → Nat → State
  | 0, _, _ => s
  | fuel + 1, pos, n =>
    if n = 0 ∨ per = 0 then s
    else
      let m := min n (per - pos % per)
      State.streamReads (s.emit (.read (t.base + (shot + pos / per) * t.stride + pos % per * 4) (m * 4))) t shot per
        fuel (pos + m) (n - m)

/-- R166, R169: stream data arrives. After an underrun it is the next shot's. -/
def State.streamArrives (s : State) (q strm : Nat) (bytes : List Byte) : State :=
  let t := Table.get {} s.sq.streams (q * 16 + strm)
  let n := bytes.length / 4
  let per := s.streamShot q strm
  let pos := if t.under then per + t.next else t.arrived
  if !t.bound || s.streamFree q strm < n || s.streamLimit q strm < pos + n then s
  else
    let (len, first) := s.streamBuf q strm
    let s := s.streamReads t (match s.job.job with
      | some j => j.shot
      | none => 0) per n pos n
    let s := s.putSamples q first len (t.off + t.arrived + t.next) (bytes.take (n * 4)) 0
    let t' : Stream := if t.under then { t with next := t.next + n } else { t with arrived := t.arrived + n }
    { s with sq.streams := Table.set {} s.sq.streams (q * 16 + strm) t' }

/-- STREAM_DATA_ARRIVE (R166). -/
def execStreamDataArrive (q : Fin 4) (strm : Fin 16) (data : List Byte) (s : State) :
    Host.Outcome State Fault Refusal :=
  .next (s.streamArrives q strm data)

/-- HOST_READ_COMPLETION (R494, R480, R482, R166). -/
def execHostReadCompletion (r : ReadFor) (data : List Byte) (s : State) :
    Host.Outcome State Fault Refusal :=
  match r with
  | .stream q st => .next (s.streamArrives q st data)
  | .other => .next s
  | .entry c i _ => State.done (if s.host.reads.contains r then (s.dropRead r).entryArrives c i data else s)
  | .data c i _ => State.done (if s.host.reads.contains r then (s.dropRead r).dataArrives c i data else s)

/-- R495: the CTX, READ and INDEX of a host error record. -/
def readCode : ReadFor → Nat × Nat × Nat
  | .entry c i retry => (c, if retry then 0x80 else 0, i)
  | .data c i retry => (c, if retry then 0x81 else 1, i)
  | .stream q st => (0xFFFF, 2, q * 16 + st)
  | .other => (0xFFFF, 3, 0)

/-- R495: count and record a failed read. -/
def State.hostError (s : State) (r : ReadFor) (cause addr : Nat) : State :=
  let s := s.count Reg.PCIE_CNT.HERR_CNT []
  let (c, rd, i) := readCode r
  let c := match r with
    | .stream q st => (Table.get {} s.sq.streams (q * 16 + st)).ctx
    | _ => c
  s.postCoarse (if c = 0xFFFF then s.home else c) 740 0x52 0
    [(0x14, 2, c), (0x16, 1, cause), (0x17, 1, rd), (0x18, 4, i), (0x1C, 4, addr / 64)]

/-- R382: a build whose image has not come. -/
def State.buildWaits (s : State) : Bool :=
  match s.place.build with
  | some b => b.image == []
  | none => false

/-- R382, R409: the build of a PLACE whose image read has failed is over. -/
def State.dropBuild (s : State) (c i : Nat) : State :=
  match s.place.build with
  | some b => if b.ctx = c ∧ b.index = i ∧ s.buildWaits then { s with place.build := none } else s
  | none => s

/-- R494, R703 class 6: what a failed read leads to. Cause 0 is an uncorrectable error in the
inbound buffer, which is fetched again once and then gives DEVICE_FAULT. -/
def State.readFails (s : State) (r : ReadFor) (cause addr : Nat) : State :=
  let s := s.dropRead r
  let s := if cause = 0 then s.eccError 6 0 0 (addr % 2 ^ 32) false else s.hostError r cause addr
  match r with
  | .entry c i false => { s with host.reads := s.host.reads ++ [ReadFor.entry c i true] }
  | .entry c i true =>
    let d : Desc := { index := i, bytes := [] }
    (s.holdEntry c d).completeNow c d (if cause = 0 then 6 else 5) 0 0
  | .data c i retry =>
    if cause = 0 ∧ retry = false then { s with host.reads := s.host.reads ++ [ReadFor.data c i true] }
    else match s.desc c i with
      | some d => (s.completeNow c d (if cause = 0 then 6 else 5) 0 0).dropBuild c i
      | none => s.dropBuild c i
  | _ => s

/-- The read is one of a bound stream, whose reads the device issues as its buffer frees (R166). -/
def State.streamBound (s : State) (r : ReadFor) : Bool :=
  match r with
  | .stream q st => (Table.get {} s.sq.streams (q * 16 + st)).bound
  | _ => false

/-- HOST_READ_FAILURE (R494, R495). -/
def execHostReadFailure (r : ReadFor) (cause : Fin 5) (addr : BitVec 64) (s : State) :
    Host.Outcome State Fault Refusal :=
  State.done (if s.host.reads.contains r || s.streamBound r then s.readFails r cause addr.toNat else s)

/-! ### Context controls -/

/-- R475: a write of PAUSE. -/
def State.pause (s : State) (c : Nat) (p : Bool) : State :=
  let s := s.wr Reg.CTX_CTL.PAUSE [c] (if p then 1 else 0)
  (if p then s.pauseDiscard c else s).writeStatus c

/-- CTX_PAUSE (R475). -/
def execCtxPause (c : Fin 1024) (pause : Bool) (s : State) : Host.Outcome State Fault Refusal :=
  (s.gate (s.pause c pause)).done

def State.ctxAbort (s : State) (c : Nat) : State :=
  match s.job.job with
  | some j => if j.ctx = c then s.abortJob 2 else s
  | none => s

/-- CTX_ABORT (R489). -/
def execCtxAbort (c : Fin 1024) (s : State) : Host.Outcome State Fault Refusal :=
  .next (s.gate (s.ctxAbort c))

/-- R502: end a quarantine and clear the violation count. -/
def State.ctxRelease (s : State) (c : Nat) : State :=
  (s.updCtx c fun x => { x with quar := false, vios := [] }).writeStatus c

/-- CTX_RELEASE (R502). -/
def execCtxRelease (c : Fin 1024) (s : State) : Host.Outcome State Fault Refusal :=
  .next (s.gate (s.ctxRelease c))

/-! ### The PCI Express function -/

/-- D3HOT_ENTRY (R445). -/
def execD3hotEntry (s : State) : Host.Outcome State Fault Refusal :=
  .next { s.abortJob 3 with host.d3hot := true }

/-- R445: post the completions held in D3hot, oldest first. -/
def State.postHeld : List (Nat × List Byte × Bool) → State → State
  | [], s => s
  | (c, e, irq) :: t, s => State.postHeld t (s.postCpl c e irq)

/-- D0_RETURN (R445). -/
def execD0Return (s : State) : Host.Outcome State Fault Refusal :=
  (State.postHeld s.host.heldCpl { s with host.d3hot := false, host.heldCpl := [] }).done

/-- R444: the device itself may initiate a link state change: a width reduction (L0p) or L1 (1) while it is idle or at
the Hold rung or below, and L1.1 (2) at Rest or below. Leaving a low state is always open to it. -/
def State.mayLower (s : State) (low width l0p : Nat) : Bool :=
  if low = 2 then decide (2 ≤ s.pwr.rung)
  else if low = 1 ∨ l0p < width then !s.inJob || decide (1 ≤ s.pwr.rung)
  else true

/-- LINK_STATE_CHANGE (R444, R443): GLB_LINK takes the trained state. -/
def execLinkStateChange (low : LinkLow) (flit : Bool) (rate : Fin 7) (width l0p : Fin 17) (s : State) :
    Host.Outcome State Fault Refusal :=
  .next (if low.host || s.mayLower low.state width l0p then
    { s with
      host.linkLow := low.state
      host.flit := flit
      host.rate := rate
      host.width := width
      host.l0p := l0p }
    else s)

/-- R450: the blocks a host-interface reset returns to their reset values (CTX, EVT with the MSI-X
table, PCIE). -/
def inHostBlocks (a : Nat) : Bool :=
  decide ((0x20000 ≤ a ∧ a < 0x50000) ∨ (0x120000 ≤ a ∧ a < 0x130000))

def dropHostBlocks (t : Table Word) : Table Word := t.filter fun e => !inHostBlocks e.1

/-- R455: cancel a pending commit whose boundary work has not started. -/
def State.discard (s : State) : State :=
  if s.cfg.pending && !(s.job.work && s.job.workCommit) then
    { s with cfg.pending := false, cfg.again := false, regs.shadow := s.regs.live, job.atEnd := false }
  else s

/-- R450, R647: a host-interface reset, which abandons a calibration. -/
def State.hostIfReset (s : State) : State :=
  let s := s.discard
  let empty : Nat × CapSlot → Nat × CapSlot := fun e => (e.1, { e.2 with waiting := none, gap := none })
  let hush : Closing → Closing := fun c => { c with quiet := true }
  let s := { s with
    cfg.again := false
    cfg.pending := s.cfg.pending && s.job.work
    regs.shadow := dropHostBlocks s.regs.shadow
    regs.live := dropHostBlocks s.regs.live
    regs.direct := dropHostBlocks s.regs.direct
    cfg.heldWrites := s.cfg.heldWrites.filter fun e => !inHostBlocks e.1
    recs.held := s.recs.held.filter fun h => !h.ofJob
    recs.lastMsg := []
    recs.heldVec := []
    recs.pba := []
    ctxs := []
    host.reads := s.host.reads.filter fun r => match r with
      | .stream _ _ => true
      | _ => false
    host.heldCpl := []
    place.build := if s.buildWaits then none else s.place.build
    cal.run := none
    cal.waiting := []
    rdo.caps := s.rdo.caps.map empty }
  let s := if s.inJob then { s with job.silent := true }
    else { s with
      job.ending := none
      job.silent := s.job.closing.isSome
      job.closing := s.job.closing.map hush }
  s.abortJob 2

/-- FUNCTION_LEVEL_RESET (R446). -/
def execFunctionLevelReset (s : State) : Host.Outcome State Fault Refusal :=
  { s.hostIfReset with host.d3hot := false }.done

/-- HOST_INTERFACE_RESET (R450). -/
def execHostInterfaceReset (s : State) : Host.Outcome State Fault Refusal := s.hostIfReset.done

/-- PERST (R731): PERST_N resets the function and acts as a host-interface reset. -/
def State.perst (s : State) : State :=
  { s.hostIfReset with
    host.d3hot := false
    host.flit := false
    host.rate := 0
    host.width := 0
    host.l0p := 0
    recs.funcMask := false }

def execPerst (s : State) : Host.Outcome State Fault Refusal := s.perst.done

/-! ### Commit requests -/

/-- R453: request a commit. -/
def State.commit (s : State) : State :=
  if s.job.work && s.job.workCommit then { s with cfg.pending := true, cfg.again := true }
  else { s with cfg.pending := true }

/-- COMMIT (R453). -/
def execCommit (s : State) : Host.Outcome State Fault Refusal := .next (s.gate s.commit)

/-- DISCARD (R455). -/
def execDiscard (s : State) : Host.Outcome State Fault Refusal := .next (s.gate s.discard)

end Sys2Proof.Machine
end

