-- ==== Sys2Proof/Machine/Time.lean ====
section
/-! DEFINITION. Device time: first alignment, corrections, holds, loss and return of the reference,
and time lock (chapters 02, 22, 24). -/

namespace Sys2Proof.Machine

/-- R19: a job boundary (a job that is armed has not begun its first shot) or idle. -/
def State.jobBoundary (s : State) : Bool := s.job.phase == .idle || s.job.phase == .armed

/-- R20: no job is running and none is ready to start. -/
def State.idle (s : State) : Bool := s.job.phase == .idle && !s.anyReady

/-- R55: the record of a correction in ticks. -/
def State.corrRecord (s : State) (v : Nat) : State :=
  s.post s.home .event 768 0x30 0 s.nowStamp [(0x14, 4, v)]

/-- R574: a timer record. -/
def State.timerRecord (s : State) (i : Nat) (st : Stamp) (what v : Nat) : State :=
  s.post s.home .event (777 + i) 0x65 0 st [(0x14, 1, what), (0x18, 4, v)]

def State.timer (s : State) (i : Nat) : Timer := Table.get {} s.net.timers i

def State.updTimer (s : State) (i : Nat) (f : Timer → Timer) : State :=
  { s with net.timers := Table.upd {} s.net.timers i f }

/-- The stamp of a device time in ns. -/
def State.stampOf (s : State) (ns : Nat) : Stamp := ⟨s.time.domain, DevTime.ofInt ns, 0⟩

/-- R568: a periodic timer skips forward to its first fire time at or after `bound`. -/
def State.timerSkip (s : State) (i bound : Nat) : State :=
  let t := s.timer i
  if t.armed ∧ t.periodic ∧ t.next < bound then
    let n := (bound - t.next + t.per - 1) / t.per
    let s := s.updTimer i fun t => { t with next := t.next + n * t.per }
    s.timerRecord i (s.stampOf (t.next + n * t.per)) 1 n
  else s

def State.timersSkip (s : State) : State :=
  (List.range 8).foldl (fun s i => s.timerSkip i s.time.dev.abs) s

/-- R54: the start lead of an armed job counts from the end of a step or hold. -/
def State.relead (s : State) : State := if s.job.phase = .armed then s.leadNow else s

/-- R53: step device time forward. A step that the record's signed 32-bit field cannot hold (R55) leaves a
value there that the spec does not state (log 8). -/
def State.stepForward (s : State) (n : Nat) : State :=
  let big := decide (0x7FFFFFFF < n)
  let v := if big then (Config.freeWord s.freeCtr).toNat else n
  let s := if big then s.draw else s
  let s := { s with time.dev := DevTime.ofInt ((s.time.dev.abs : Int) + (n : Int)) }
  ((s.corrRecord v).timersSkip).relead

/-- R53: begin a hold of n ticks. -/
def State.beginHold (s : State) (n : Nat) : State :=
  { s with time.holding := true, time.holdLeft := n, time.holdLen := n }

/-- R53: correct device time by a signed number of ticks, at most 1,000 of them backward. -/
def State.correctTicks (s : State) (n : Int) : State :=
  if n = 0 then s
  else if 0 < n then s.stepForward n.toNat
  else s.beginHold (min 1000 n.natAbs)

/-- R52, R59: the first alignment, a single step either way. A count of ticks that the record's four
bytes cannot hold is a value the spec does not state (log 8). -/
def State.firstAlign (s : State) (t : DevTime) (dom : BitVec 2) : State :=
  let n : Int := (t.abs : Int) - (s.time.dev.abs : Int)
  let v := if n = satInt 32 n then wrapInt 32 n else (Config.freeWord s.freeCtr).toNat
  let s := { s with time.dev := t, time.coarse := t, time.domain := dom }
  ((s.corrRecord v).draw.timersSkip).relead

/-- TIME_FIRST_ALIGN (R52, R59): only while idle and not yet aligned. -/
def execTimeFirstAlign (t : DevTime) (dom : BitVec 2) (s : State) : Host.Outcome State Fault Refusal :=
  .next (if s.idle ∧ s.time.domain = 0 ∧ dom ≠ 0 ∧ s.time.locked = true then s.firstAlign t dom else s)

/-- TIME_HOLD_END (R53, R54, R55). -/
def State.holdEnd (s : State) : State :=
  if s.time.holding ∧ s.time.holdLeft = 0 then
    let n : Int := -(s.time.holdLen : Int)
    let s := { s with time.holding := false, time.holdLen := 0 }
    (s.corrRecord (wrapInt 32 n)).relead
  else s

def execTimeHoldEnd (s : State) : Host.Outcome State Fault Refusal := .next s.holdEnd

/-- R706: a reference record. -/
def State.refRecord (s : State) (lost us : Nat) : State :=
  s.post s.home .event 1011 0xA2 0 s.nowStamp [(0x14, 1, lost), (0x18, 4, us)]

/-- R24, R121: a fault mute of every RF and fast flux output. -/
def State.muteAll (s : State) (cause : Nat) : State := (List.range 224).foldl (fun s k => s.faultMute cause k) s

def State.clearAll (s : State) (cause : Nat) : State := (List.range 224).foldl (fun s k => s.faultClear cause k) s

/-- REFERENCE_LOSS (R57, R700, R701). -/
def State.refLoss (s : State) : State :=
  if s.sys.refLost then s
  else
    let s := { s with sys.refLost := true, time.holdover := true, time.lostAt := s.time.now }
    let s := if s.job.phase = .inShot then s.markInvalid else s
    let s := ((s.muteAll 2).allBiasSafe 4).abortJob 4
    s.refRecord 1 0

def execReferenceLoss (s : State) : Host.Outcome State Fault Refusal := s.refLoss.done

/-- R49, R52, R734: the quarters are aligned and device time counts from zero. -/
def State.lockTime (s : State) : State :=
  { s with
    time.locked := true
    time.dev := {}
    time.coarse := {}
    time.domain := 0
    time.holding := false
    time.holdLeft := 0
    time.holdLen := 0 }

/-- R701, R122: time lock returns. -/
def State.refReturn (s : State) : State :=
  if s.sys.refLost then
    let us := min 0xFFFFFFFF ((s.time.now - s.time.lostAt) / 1000)
    let s := { s with sys.refLost := false, time.holdover := false }
    let s := if s.time.locked then s else s.lockTime
    ((s.clearAll 2).allBiasClear 4).refRecord 0 us
  else s

/-- REFERENCE_RETURN (R701): the reference has been present for 10 ms first. -/
def execReferenceReturn (s : State) : Host.Outcome State Fault Refusal :=
  State.done (if s.time.lostAt + 10000000 ≤ s.time.now then s.refReturn else s)

/-- TIME_LOCK (R734): once after a reset; where boot has ended without it, R701 applies (R735). A boot
from Deep keeps device time and only notes the lock (R737). -/
def execTimeLock (s : State) : Host.Outcome State Fault Refusal :=
  if s.sys.porHeld then .next s
  else if s.time.locked then
    .next (if s.sys.boot && s.sys.fromDeep && !s.sys.steps.contains 8 then
      { s with sys.steps := s.sys.steps ++ [8] } else s)
  else if s.sys.refLost then s.refReturn.done
  else .next s.lockTime

end Sys2Proof.Machine
end

