-- ==== Sys2Proof/Machine/Engines.lean ====
section
/-! DEFINITION. The cobblers: interrupts, failure and switch-over, state images, warm standby, patches
and repair (chapter 18). -/

namespace Sys2Proof.Machine

/-! ### Patches (R618 to R622) -/

/-- R451: GLB_VER.ROM, the version of the ROM. -/
def romVersion : Nat := 1

/-- R618: patch slot n, the empty slot where the module holds none. -/
def State.patchSlot (s : State) (n : Nat) : PatchSlot := s.sec.slots[n]?.getD {}

/-- R618: a slot that may be tried: valid, for this ROM, not below the anti-rollback counter. -/
def State.patchEligible (s : State) (n : Nat) : Bool :=
  let p := s.patchSlot n
  p.valid && !s.sec.otpGone && p.rom == romVersion && decide (s.sec.rollback ≤ p.version)

/-- R618: the order in which the slots are tried. -/
def State.patchOrder (s : State) : List Nat :=
  let a := (s.patchSlot 0).version
  let b := (s.patchSlot 1).version
  (if a < b then [1, 0] else [0, 1]).filter s.patchEligible

/-- R618: what a load yields when slot n's tag and signature pass as `ok` says: RESULT, TRIED, VERSION
and the image. -/
def State.patchLoad (s : State) (ok : Nat → Bool) : Nat × Nat × Nat × List Byte :=
  let tried := (s.patchOrder.takeWhile fun n => !ok n).foldl (fun a n => a + 2 ^ n) 0
  match s.patchOrder.find? ok with
  | some n => (n, tried, (s.patchSlot n).version, (s.patchSlot n).image)
  | none => (2, tried, 0, [])

/-- Cobbler n runs the patch that a load has yielded. -/
def State.setPatch (s : State) (n version : Nat) (image : List Byte) : State :=
  { s with eng.version := s.eng.version.set! n version, eng.patch := s.eng.patch.set! n image }

/-- R618, R622: both cobblers load their patch at the start of the device, without a record. -/
def State.patchBoot (s : State) (ok : Nat → Bool) : State :=
  let (result, tried, version, image) := s.patchLoad ok
  let s := (s.setPatch 0 version image).setPatch 1 version image
  { s with eng.result := result, eng.tried := tried }.setDirect .EVT_PEND [27]
    (s.word .EVT_PEND [27] ||| BitVec.ofNat 32 (2 ^ 19))

/-! ### Interrupts (R623, R624) -/

/-- COBBLER_INTERRUPT (R623, R624): `abandon` says that the routine had not passed its commit mark. -/
def execCobblerInterrupt (abandon : Bool) (s : State) : Host.Outcome State Fault Refusal :=
  .next (if abandon && s.cobblerUp then s.count Reg.ENG_CNT.ABANDON [] else s)

/-- R617, R626: an error while the active cobbler works: 1 a microword, at a ROM address; 2 its state memory, at an
address of that. -/
def State.workError (s : State) (werr at_ : Nat) : State :=
  match werr with
  | 0 => s
  | 1 => s.microwordError at_
  | _ => (s.eccError 8 s.eng.active 0 at_ false).cobblerFail 1

/-- COBBLER_WATCHDOG (R626). -/
def execCobblerWatchdog (s : State) : Host.Outcome State Fault Refusal := (s.cobblerFail 2).done

/-- SUBMISSION_FETCH (R479, R617, R629, R634): the active cobbler fetches, unless it fails at it. -/
def execSubmissionFetch (c : Fin 1024) (w : WorkError) (s : State) : Host.Outcome State Fault Refusal :=
  if !s.cobblerUp then .next s
  else if w.err = 0 then .next (s.fetch c) else (s.workError w.err w.at_.toNat).done

/-! ### Switch-over (R627 to R630) -/

/-- R629: ring indices of context c fetched since the image was taken. -/
def State.sinceImage (s : State) (c : Nat) : List Nat :=
  let n := s.ringSize c Reg.CTX_SIZE.SUB
  if n = 0 then []
  else
    let from_ := Table.get 0 s.eng.image.heads c
    (List.range (((s.ctx c).subHead + n - from_ % n) % n)).map fun i => (from_ + i) % n

/-- R629: fetch again, of context c, what was fetched since the image and has not completed. A running
job goes on. Answers the counts of entries fetched again and skipped. -/
def State.refetch (s : State) (c : Nat) : State × Nat × Nat :=
  let since := s.sinceImage c
  let x := s.ctx c
  let again := x.fetched.filter fun d => since.contains d.index && d.phase != .running
  let stay := (x.fetched.filter fun d => since.contains d.index && d.phase == .running).length
  let outstanding := s.entryReads c
  let ids := again.map Desc.index
  let s := s.updCtx c fun x => { x with fetched := x.fetched.filter fun d => !(ids.contains d.index) }
  let s := { s with
    host.reads := (s.host.reads.filter fun r => match r with
      | .data cc i _ => !(cc == c && ids.contains i)
      | _ => true) ++ ids.map fun i => ReadFor.entry c i false
    place.build := match s.place.build with
      | some b => if b.ctx = c ∧ ids.contains b.index then none else some b
      | none => none
    cal.run := match s.cal.run with
      | some r => if r.ctx = c ∧ ids.contains r.index then none else some r
      | none => none
    cal.waiting := s.cal.waiting.filter fun w => !(w.1 == c && ids.contains w.2) }
  let s := ids.foldl (fun s i => s.emit (.read (s.baseOf .SUB_BASE_LO .SUB_BASE_HI c + i * 64) 64)) s
  (s, ids.length, since.length - ids.length - stay - outstanding)

/-- SWITCHOVER_RESUME (R629, R630, R636): the gap ends; a cold standby fetches again what its image lacks. -/
def State.resume (s : State) : State :=
  match s.eng.gap with
  | none => s
  | some g =>
    let s := { s with
      eng.gap := none
      job.gapLate := s.job.gapLate || (s.job.prepared && s.job.phase != .inShot && decide (s.job.startTick < s.time.now)) }
    if g.warm then s
    else
      let (s, a, k) := (s.ctxs.map (·.1)).foldl (fun (acc : State × Nat × Nat) c =>
        let (s, a, k) := acc.1.refetch c
        (s, acc.2.1 + a, acc.2.2 + k)) (s, 0, 0)
      s.postCoarse s.home 882 0x77 0 [(0x14, 4, a), (0x18, 4, k)]

def execSwitchoverResume (s : State) : Host.Outcome State Fault Refusal := s.resume.done

/-- R628: while the device is idle, a save is due 1 ms after the last one, or after 1,024 completions. -/
def State.saveDue (s : State) : Bool :=
  s.job.phase == .armed || decide (s.eng.image.tick + 1000000 ≤ s.time.now) || decide (1024 ≤ s.eng.cpls)

/-- STATE_SAVE (R628): a save ends; its image, in the other save area, becomes the latest. -/
def State.stateSave (s : State) : State :=
  if s.cobblerUp && s.jobBoundary && !s.eng.warm && s.saveDue then
    { s with
      eng.older := s.eng.image
      eng.area := 1 - s.eng.area
      eng.cpls := 0
      eng.image := { tick := s.time.now
                     heads := s.ctxs.filterMap fun e => if e.2.subHead = 0 then none else some (e.1, e.2.subHead) } }
  else s

def execStateSave (s : State) : Host.Outcome State Fault Refusal := .next s.stateSave

/-- R631: a change of ENG_CFG.STANDBY takes effect at a job boundary or idle. -/
def State.standbyMode (s : State) : State :=
  let want := s.flag Reg.ENG_CFG.STANDBY []
  if !s.jobBoundary then s
  else if want then
    if s.eng.sync || s.eng.st[1 - s.eng.active]! != 1 then s else { s with eng.syncing := true }
  else { s with eng.warm := false, eng.sync := false, eng.syncing := false }

/-- WARM_SYNC_DONE (R631). -/
def execWarmSyncDone (s : State) : Host.Outcome State Fault Refusal :=
  .next (if s.eng.syncing ∧ s.eng.st[1 - s.eng.active]! = 1 then
      { s with eng.syncing := false, eng.warm := true, eng.sync := true }
    else s)

/-! ### Repair (R633, R621) -/

/-- The failed cobbler, if there is one: the standby first. -/
def State.failedCobbler (s : State) : Option Nat :=
  [1 - s.eng.active, s.eng.active].find? fun n => s.eng.st[n]! == 2

/-- ENG_REPAIR (R633). -/
def State.engRepair (s : State) : State :=
  if s.failedCobbler.isSome then { s with eng.repairReq := true } else s

def execEngRepair (s : State) : Host.Outcome State Fault Refusal := .next (s.gate s.engRepair)

/-- COBBLER_REPAIR (R633): a failed cobbler restarts at a job boundary or idle. -/
def State.cobblerRepair (s : State) : State :=
  match s.failedCobbler with
  | none => s
  | some n =>
    if s.jobBoundary ∧ s.eng.repairing = false ∧ (s.flag Reg.ENG_CFG.AUTO_REPAIR [] ∨ s.eng.repairReq = true) then
      { s.setCobbler n 3 with eng.repairing := true, eng.repairReq := false }
    else s

def execCobblerRepair (s : State) : Host.Outcome State Fault Refusal := s.cobblerRepair.done

/-- The cobbler that loads. -/
def State.loadingCobbler (s : State) : Option Nat := [0, 1].find? fun n => s.eng.st[n]! == 3

/-- R621, R633: the restart of cobbler n ends. Where no other cobbler works it becomes the active one. -/
def State.repairEnd (s : State) (n : Nat) (ok : Nat → Bool) (pass : Bool) : State :=
  let (result, tried, version, image) := s.patchLoad ok
  let s := s.postCoarse s.home 883 0x76 0 [(0x14, 1, n), (0x15, 1, result), (0x16, 1, tried), (0x18, 2, version)]
  let s := { s with eng.repairing := false }
  if version ≠ s.eng.version[1 - n]! then (s.setCobbler n 2).cobblerRecord n 2 3
  else if !pass then (s.setCobbler n 2).cobblerRecord n 2 2
  else
    let s := s.setPatch n version image
    if s.eng.st[1 - n]! = 0 then ((s.setCobbler n 1).cobblerRecord n 1 1).standbyMode
    else { (s.setCobbler n 0).cobblerRecord n 0 1 with eng.active := n }

/-- COBBLER_REPAIR_DONE (R618, R621, R633): `ok0` and `ok1` say whether the tag and the signature of the
slots pass, `pass` whether the self-test does. -/
def execCobblerRepairDone (ok0 ok1 pass : Bool) (s : State) : Host.Outcome State Fault Refusal :=
  match s.loadingCobbler with
  | some n => (s.repairEnd n (fun k => if k = 0 then ok0 else ok1) pass).done
  | none => .next s

end Sys2Proof.Machine
end

