-- ==== Sys2Proof/Machine/PlaceOps.lean ====
section
/-! DEFINITION. What makes a built last stale (R403), shared by loads, commits, links and the slowness
samples. -/

namespace Sys2Proof.Machine

def State.last (s : State) (n : Nat) : LastMap := s.place.lasts[n]?.getD {}

def State.setLast (s : State) (n : Nat) (m : LastMap) : State :=
  { s with place.lasts := s.place.lasts.set! n m }

/-- R410: post a record to every context that has an event ring. -/
def State.toAllRings (s : State) (src kind : Nat) (body : List (Nat × Nat × Nat)) : State :=
  (List.range 1024).foldl (fun s c =>
    if s.ringSize c Reg.CTX_SIZE.EVT = 0 then s else s.postCoarse c src kind 0 body) s

/-- R403: a built last becomes stale: cause 0 load, 1 commit, 2 link, 3 slowness. -/
def State.staleLast (s : State) (cause n : Nat) : State :=
  let m := s.last n
  if m.built ∧ m.stale = false then
    (s.setLast n { m with stale := true, staleCause := cause }).toAllRings 981 0x49 [(0x14, 1, n), (0x15, 1, cause)]
  else s

/-- R403: every built last that meets `p` becomes stale. -/
def State.staleWhere (s : State) (cause : Nat) (p : LastMap → Bool) : State :=
  (List.range 4).foldl (fun s n => if p (s.last n) then s.staleLast cause n else s) s

end Sys2Proof.Machine
end

