-- ==== Sys2Proof/Machine/LaceBlocks.lean ====
section
/-! DEFINITION. The 66-bit blocks of a lace lane and what their payloads hold (R503, R508, R510, R517, R521,
R527 to R529, R540). -/

namespace Sys2Proof

/-- R503: a data block. -/
def dataBlock (v : BitVec 64) : LaceBlock := v ++ 1#2

/-- R503: a control block. -/
def ctrlBlock (v : BitVec 64) : LaceBlock := v ++ 2#2

/-- R503, R508: the control block that a sync header, a BTYPE and the bits above it make up. -/
def blockParts (hdr : BitVec 2) (typ : BitVec 8) (body : BitVec 56) : LaceBlock := body ++ typ ++ hdr

/-- R503: the payload of a block. -/
def payloadOf (b : LaceBlock) : BitVec 64 := b.extractLsb' 2 64

/-- R508: the BTYPE of a control block. -/
def ctrlType (b : LaceBlock) : Option Nat :=
  if b.extractLsb' 0 2 = 2#2 then some (b.extractLsb' 2 8).toNat else none

/-- R508: the BTYPEs there are. -/
def blockTypes : List Nat := [0x1E, 0x2D, 0x33, 0x4B, 0x55, 0x5A, 0x66, 0x78, 0x87, 0x99]

/-- Bits `hi` down to `lo` of a block's payload. -/
def blockField (b : LaceBlock) (hi lo : Nat) : Nat := bitsOf (payloadOf b).toNat hi lo

/-- The payload of a control block whose bits above BTYPE spell `v`. -/
def ctrlWith (btype : BitVec 8) (v : Nat) : LaceBlock := ctrlBlock (BitVec.ofNat 56 v ++ btype)

def idleBlock : LaceBlock := ctrlWith 0x1E#8 0
def alignRowBlock : LaceBlock := ctrlWith 0x33#8 0

/-- R527: the payload of a frame's START block. -/
def LaceFrame.start (f : LaceFrame) : BitVec 64 :=
  f.hops ++ f.route ++ f.hop ++ f.seq ++ f.len ++ f.ftype ++ f.vc ++ 0x78#8

/-- R527: the frame that a START payload and data payloads spell. -/
def frameOf (p : BitVec 64) (data : List (BitVec 64)) : LaceFrame :=
  { vc := p.extractLsb' 8 2, ftype := p.extractLsb' 10 6, len := p.extractLsb' 16 6, seq := p.extractLsb' 22 12
    hop := p.extractLsb' 34 3, route := p.extractLsb' 37 24, hops := p.extractLsb' 61 3, data := data }

/-- R528: the CRC-32 of IEEE 802.3 over one more bit, least significant coefficient last (log 65). -/
def crcBit (c : BitVec 32) (b : Bool) : BitVec 32 :=
  if c.getLsbD 0 != b then (c >>> 1) ^^^ 0xEDB88320#32 else c >>> 1

/-- R528: over the 64 bits of a payload, bit 0 first. -/
def crcPayload (c : BitVec 32) (v : BitVec 64) : BitVec 32 :=
  (List.range 64).foldl (fun c i => crcBit c (v.getLsbD i)) c

/-- R528: the CRC-32 of a frame: its START payload with HOP 0, and its data payloads. -/
def LaceFrame.crc (f : LaceFrame) : BitVec 32 :=
  ~~~ (({ f with hop := 0 } : LaceFrame).start :: f.data).foldl crcPayload 0xFFFFFFFF#32

/-- R528: the payload of a frame's END block. -/
def LaceFrame.fin (f : LaceFrame) : BitVec 64 := 0#24 ++ f.crc ++ 0x87#8

/-- R527: the blocks of a frame. -/
def LaceFrame.blocks (f : LaceFrame) : List LaceBlock := ctrlBlock f.start :: f.data.map dataBlock ++ [ctrlBlock f.fin]

end Sys2Proof

namespace Sys2Proof.Machine

/-- R510: a TRAIN block. -/
def trainBlockOf (lane link state : Nat) (idv : Bool) (id lmask : Nat) : LaceBlock :=
  ctrlWith 0x2D#8 (lane % 4 + link % 8 * 2 ^ 2 + state % 4 * 2 ^ 5 + (if idv then 2 ^ 7 else 0) + id % 2 ^ 18 * 2 ^ 8
    + lmask % 16 * 2 ^ 26)

/-- R525: the rank and the blocks of what goes into a link's stream. -/
def LaceOut.ranked : LaceOut → List (Nat × LaceBlock)
  | .frame f => f.blocks.map fun b => (f.vc.toNat + 1, b)
  | .linkctl vc nak seq credit cause =>
    [(0, ctrlWith 0x4B#8 (vc % 4 + (if nak then 2 ^ 2 else 0) + seq % 2 ^ 12 * 2 ^ 3 + credit % 2 ^ 11 * 2 ^ 15
      + cause % 16 * 2 ^ 26))]
  | .width mask => [(0, ctrlWith 0x99#8 (mask % 16))]
  | .bcn0 frac ns => [(0, ctrlWith 0x55#8 (frac % 2 ^ 16 + ns % 2 ^ 30 * 2 ^ 16))]
  | .bcn1 d root rhops ralign =>
    [(0, ctrlWith 0x5A#8 (d % 2 ^ 32 + root % 2 ^ 18 * 2 ^ 32 + rhops % 16 * 2 ^ 50 + (if ralign then 2 ^ 54 else 0)))]
  | .train .. => []
  | .eidle => []

/-- R525: blocks go ahead of every waiting block of a lower rank. -/
def insertRanked (new : List (Nat × LaceBlock)) (wait : List (Nat × LaceBlock)) : List (Nat × LaceBlock) :=
  match new with
  | [] => wait
  | (r, _) :: _ => wait.takeWhile (fun e => decide (e.1 ≤ r)) ++ new ++ wait.dropWhile fun e => decide (e.1 ≤ r)

end Sys2Proof.Machine
end

