-- ==== Sys2Proof/Machine/LaceOps.lean ====
section
/-! DEFINITION. The operations of a lace link: sending frames under credits, link state, and taking a
link down (chapter 14). -/

namespace Sys2Proof.Machine

def State.deviceId (s : State) : Nat := s.rd Reg.LACE_ID.ID []

def State.lnk (s : State) (l : Nat) : LaceLink := Table.get {} s.lace.links l

def State.updLink (s : State) (l : Nat) (f : LaceLink → LaceLink) : State :=
  { s with lace.links := Table.upd {} s.lace.links l f }

/-- The link is UP, or UP with a direction in electrical idle. -/
def LaceLink.up (x : LaceLink) : Bool := x.st == 3 || x.st == 4

/-- The lanes of a mask, ascending. -/
def lanesOf (m : Nat) : List Nat := (List.range 4).filter fun i => bitOf m i

/-- R516: the lanes a direction runs on. -/
def widthMask (m : Nat) : Nat :=
  match lanesOf m with
  | [] => 0
  | [_, _, _, _] => 15
  | [a] => 2 ^ a
  | a :: b :: _ => 2 ^ a + 2 ^ b

/-- The width of a mask. -/
def widthOf (m : Nat) : Nat := (lanesOf m).length

/-- R505: blocks in ascending order of the active lanes. -/
def onLanes (mask : Nat) (row : List LaceBlock) : List (Nat × LaceBlock) := (lanesOf mask).zip row

/-- What the device sends on a link: TRAIN and EIDLE rows go out on their lanes; beacons wait for the front of
a row; everything else waits in the stream by its rank (R505, R525). -/
def State.laceOut (s : State) (l : Nat) (o : LaceOut) : State :=
  let row (r : List (Nat × LaceBlock)) : State := { s with lace.out := (l, r) :: s.lace.out }
  match o with
  | .train lanes st lmask =>
    row ((lanesOf lanes).map fun i => (i, trainBlockOf i l st s.lace.idValid s.deviceId lmask))
  | .eidle => row ((lanesOf (s.lnk l).txMask).map fun i => (i, ctrlWith 0x66#8 0))
  | .bcn0 .. => s.updLink l fun x => { x with bcnWait := x.bcnWait ++ o.ranked.map (·.2) }
  | .bcn1 .. => s.updLink l fun x => { x with bcnWait := x.bcnWait ++ o.ranked.map (·.2) }
  | _ => s.updLink l fun x => { x with txWait := insertRanked o.ranked x.txWait }

/-- R505, R525, R540: the blocks of the next row of a direction of width W, and what waits after it: a beacon
block first, then the stream; IDLE blocks fill the row (R508). -/
def LaceLink.takeRow (x : LaceLink) : List LaceBlock × LaceLink :=
  let w := widthOf x.txMask
  let n := w - min w (x.bcnWait.take 1).length
  let row := x.bcnWait.take 1 ++ (x.txWait.take n).map (·.2)
  (row ++ List.replicate (w - row.length) idleBlock, { x with bcnWait := x.bcnWait.drop 1, txWait := x.txWait.drop n })

/-- R548: a link state record. -/
def State.linkRecord (s : State) (l cause : Nat) : State :=
  let x := s.lnk l
  s.postCoarse s.home (704 + l) 0x58 0
    [(0x14, 1, x.st), (0x15, 1, cause), (0x16, 1, if x.up then widthOf x.rxMask else 0), (0x17, 1, x.attempt),
     (0x18, 4, x.partner.getD 0), (0x1C, 1, x.plink)]

def State.setLinkState (s : State) (l st cause : Nat) : State :=
  if (s.lnk l).st = st then s else (s.updLink l fun x => { x with st := st }).linkRecord l cause

/-! ### Sending (R524, R527, R530) -/

def State.updRx (s : State) (l vc : Nat) (f : LaceRx → LaceRx) : State :=
  s.updLink l fun x => { x with rx := x.rx.set! vc (f (x.rx[vc]?.getD {})) }

/-- R524: the frames that the credits cover, in order. -/
def LaceTx.pump (now : Nat) : List (LaceFrame × Option Nat) → LaceTx → LaceTx × List (LaceFrame × Option Nat)
  | [], t => ({ t with queue := [] }, [])
  | (f, src) :: rest, t =>
    let n := f.data.length + 2
    if n ≤ t.credits then
      let g := { f with seq := t.next }
      let t := { t with next := t.next + 1, credits := t.credits - n, sent := t.sent ++ [(g, now, 0)] }
      let (t, out) := LaceTx.pump now rest t
      (t, (g, src) :: out)
    else ({ t with queue := (f, src) :: rest }, [])

/-- R524: a forwarded frame has left the space of the link on which it came. -/
def State.returnSpace (s : State) (vc : Nat) (e : LaceFrame × Option Nat) : State :=
  match e.2 with
  | none => s
  | some a =>
    let n := e.1.data.length + 2
    if (s.lnk a).up then
      let seq := (((s.lnk a).rx[vc]?.getD {}).expect - 1).toNat
      (s.updRx a vc fun r => { r with free := r.free + n }).laceOut a (.linkctl vc false seq n 0)
    else s

/-- Send what a virtual channel of a link can send. -/
def State.lacePump (s : State) (l vc : Nat) : State :=
  let x := s.lnk l
  if x.up ∧ x.idleTx = false then
    let t := x.tx[vc]?.getD {}
    let (t, out) := LaceTx.pump s.time.now t.queue t
    let s := s.updLink l fun x => { x with tx := x.tx.set! vc t }
    let s := if out.isEmpty then s else s.updLink l fun x => { x with quietFrom := s.time.now }
    out.foldl (fun s e => (s.laceOut l (.frame e.1)).returnSpace vc e) s
  else s

/-- Queue a frame on a link, with the link on which it came where its space there is held; a link that is not
UP takes none. -/
def State.laceQueueFrom (s : State) (l : Nat) (f : LaceFrame) (src : Option Nat) : State :=
  if (s.lnk l).up then
    let vc := f.vc.toNat
    (s.updLink l fun x => { x with
      tx := x.tx.set! vc { (x.tx[vc]?.getD {}) with queue := (x.tx[vc]?.getD {}).queue ++ [(f, src)] } }).lacePump l vc
  else s

/-- Queue a frame of this device on a link. -/
def State.laceQueue (s : State) (l : Nat) (f : LaceFrame) : State := s.laceQueueFrom l f none

/-- R527: eight 3-bit link numbers. -/
def packRoute : List Nat → Nat
  | [] => 0
  | l :: ls => l % 8 + 8 * packRoute ls

/-- R532: D0 of a frame: SRC, DEST, and what the type adds above bit 35. -/
def State.laceD0 (s : State) (dest d0 : Nat) : Nat := s.deviceId + dest % 2 ^ 18 * 2 ^ 18 + d0

/-- A frame over given links. -/
def State.laceFrame (s : State) (links : List Nat) (dest vc ftype d0 : Nat) (rest : List Nat) : LaceFrame :=
  { vc := BitVec.ofNat 2 vc, ftype := BitVec.ofNat 6 ftype, len := BitVec.ofNat 6 (rest.length + 1)
    route := BitVec.ofNat 24 (packRoute links), hops := BitVec.ofNat 3 (links.length - 1)
    data := BitVec.ofNat 64 (s.laceD0 dest d0) :: rest.map (BitVec.ofNat 64) }

/-- R531: send a frame to a device over its kept route. -/
def State.laceSend (s : State) (dest vc ftype : Nat) (d0 : Nat) (rest : List Nat) : State :=
  match s.lace.routes.find? fun r => r.dest == dest with
  | some r => match r.links with
    | l :: _ => s.laceQueue l (s.laceFrame r.links dest vc ftype d0 rest)
    | [] => s
  | none => s

/-! ### Rows (R505, R702) -/

/-- R702: `n` bits of PRBS31 (x^31 + x^28 + 1), the first in bit 0, and the generator after them. -/
def prbsBits : Nat → BitVec 31 → Nat × BitVec 31
  | 0, p => (0, p)
  | n + 1, p =>
    let b := p.getLsbD 30 ^^ p.getLsbD 27
    let (v, q) := prbsBits n ((p <<< 1) ||| (if b then 1#31 else 0#31))
    ((if b then 1 else 0) + 2 * v, q)

/-- The words of PRBS31 that a TEST frame carries. -/
def prbsWords : Nat → BitVec 31 → List Nat × BitVec 31
  | 0, p => ([], p)
  | n + 1, p =>
    let (v, q) := prbsBits 64 p
    let (vs, r) := prbsWords n q
    (v :: vs, r)

/-- R702: in Diagnostic mode an UP link with nothing to send queues a TEST frame on bulk, of a length that the spec
leaves open. -/
def State.testFill (s : State) (l : Nat) : State :=
  let x := s.lnk l
  if s.diagnostic && x.up && !x.idleTx && x.bcnWait.isEmpty && x.txWait.isEmpty && (x.tx[1]).queue.isEmpty then
    let (ws, p) := prbsWords ((Config.freeWord s.freeCtr).toNat % 40) x.prbs
    let s := s.draw.updLink l fun x => { x with prbs := p }
    s.laceQueue l (s.laceFrame [l] (x.partner.getD 0) 1 0x12 0 ws)
  else s

/-- R503, R505, R508, R509: one row of a link, 2.0625 ns after the last, where its time has come: every 16,384th
row of a link that is UP and every 256th in training is a row of ALIGN blocks. In Diagnostic mode a TEST frame fills it
(R702). -/
def State.laceRow (s : State) (l : Nat) : State :=
  let x := s.lnk l
  let train := x.st == 2 || x.waiting
  if (x.up && !x.idleTx || train) = false ∨ s.time.now * 16 < x.txRow then s
  else
    let s := s.testFill l
    let x := s.lnk l
    let from_ := if x.txRow + 33 ≤ s.time.now * 16 then s.time.now * 16 else x.txRow
    let y := { x with txRow := from_ + 33, rowNo := x.rowNo + 1 }
    let mask := if train then 15 else x.txMask
    let put (s : State) (r : List LaceBlock) : State := { s with lace.out := (l, onLanes mask r) :: s.lace.out }
    if (x.rowNo + 1) % (if train then 256 else 16384) = 0 then
      put (s.updLink l fun _ => y) (List.replicate 4 alignRowBlock)
    else if train || x.bcnWait.isEmpty && x.txWait.isEmpty then s.updLink l fun _ => y
    else
      let (r, y) := y.takeRow
      put (s.updLink l fun _ => y) r

/-! ### Link state (R511 to R518, R535, R545) -/

/-- R542: a device that follows no link. -/
def State.followRecord (s : State) (lost : Nat) : State :=
  let (l, h, r) := match s.lace.follow with
    | some l => (l, (s.lnk l).beat.rhops, (s.lnk l).beat.root)
    | none => (0xFF, 15, s.deviceId)
  s.postCoarse s.home 728 0x5D 0 [(0x14, 1, l), (0x15, 1, h), (0x18, 4, r), (0x1C, 1, lost)]

/-- R545: the followed link went down. -/
def State.followLost (s : State) (l : Nat) : State :=
  if s.lace.follow = some l then { s with lace.follow := none }.followRecord 1 else s

/-- R523: what a link holds of its traffic when it is not UP. -/
def LaceLink.quiet (x : LaceLink) : LaceLink :=
  { x with ready := false, readyCnt := Vector.replicate 4 0, deskew := 0, map := Vector.replicate 4 none
           rxMask := 0, txMask := 0, reqMask := none, idleTx := false, idleRx := false, exitFrom := 0, relock := 0
           tx := Vector.replicate 3 {}, rx := Vector.replicate 3 {}, opens := [], txWait := [], bcnWait := []
           rowNo := 0, beat := {} }

/-- R535, R403, R548: take a link down: routes over it as first link go, lasts that use it become
stale, and the frames it held are dropped. -/
def State.linkDown (s : State) (l st cause : Nat) : State :=
  let was := (s.lnk l).up
  let gone := (List.range 3).map fun vc => (vc, ((s.lnk l).tx[vc]?.getD {}).queue)
  let s := s.updLink l fun x => { x.quiet with st := st, waiting := false }
  let s := gone.foldl (fun s e => e.2.foldl (fun s f => s.returnSpace e.1 f) s) s
  let s := s.linkRecord l cause
  if was then
    let s := { s with lace.routes := s.lace.routes.filter fun r => r.links.head? ≠ some l }
    (s.staleWhere 2 fun m => m.links.contains l).followLost l
  else s

/-- R509, R512: start a training attempt. -/
def State.startAttempt (s : State) (l k : Nat) : State :=
  let up : LaceLink → LaceLink := fun x => { x.quiet with
    st := 2, attempt := k, attemptFrom := s.time.now, waiting := false, sigSeen := x.signal, check := 0
    sawReady := false, txRow := s.time.now * 16 }
  ((s.updLink l up).laceOut l (.train 15 0 0)).linkRecord l 0

/-- The link may train (R515, R547, R653). -/
def State.mayTrain (s : State) (l : Nat) : Bool :=
  s.flag Reg.LC_CFG.EN [l] && s.lace.idValid && decide (s.pwr.rung ≤ 2)

end Sys2Proof.Machine
end

