-- ==== Sys2Proof/Machine/Sequencers.lean ====
section
/-! DEFINITION. The stitches and the events of the sequencers (chapters 04, 05). -/

namespace Sys2Proof.Machine

/-! ### Stitches that place events -/

/-- PLAY (R192 to R195). -/
def State.play (s : State) (k : Nat) (bad : Bool) : State :=
  s.issue k bad 1 0 fun s x w => s.placePulse k x w (s.playPulse (k / 16) w.queue w)

def execPlay (sq : Fin 64) (bad : Bool) (s : State) : Host.Outcome State Fault Refusal := .next (s.play sq bad)

/-- STREAM (R196, R197). -/
def State.streamStitch (s : State) (k : Nat) (bad : Bool) : State :=
  s.issue k bad 9 0 fun s x w =>
    let q := k / 16
    let pc := x.pc
    let s := s.placePulse k x w (streamPulse w (s.streamTaken q (bitsOf w.w1 15 12)))
    if (s.seq k).st = .issue ∧ (s.seq k).pc = pc + 1 then s.takeStream q w else s

def execStream (sq : Fin 64) (bad : Bool) (s : State) : Host.Outcome State Fault Refusal :=
  .next (s.streamStitch sq bad)

/-- The FRAME stitches (R199): SUB selects the operation of R93. -/
def State.frame (s : State) (k : Nat) (bad : Bool) (sub : Nat) (act : Stitch → WAct) : State :=
  s.issue k bad 8 sub fun s x w => s.placeEvent k x w (act w) x.cursor

/-- R199: the 48-bit value of a FREQ stitch. -/
def freqVal (w : Stitch) : BitVec 48 := BitVec.ofNat 48 (w.w2 + bitsOf w.w3 15 0 * 2 ^ 32)

/-- PHASE_ADD (R93, R199). -/
def execPhaseAdd (sq : Fin 64) (bad : Bool) (s : State) : Host.Outcome State Fault Refusal :=
  .next (s.frame sq bad 0 fun w => .phaseAdd w.gen (BitVec.ofNat 32 w.w2))

/-- PHASE_SET (R93, R199). -/
def execPhaseSet (sq : Fin 64) (bad : Bool) (s : State) : Host.Outcome State Fault Refusal :=
  .next (s.frame sq bad 1 fun w => .phaseSet w.gen (BitVec.ofNat 32 w.w2))

/-- FREQ_SET (R93, R199). -/
def execFreqSet (sq : Fin 64) (bad : Bool) (s : State) : Host.Outcome State Fault Refusal :=
  .next (s.frame sq bad 2 fun w => .freqSet w.gen (freqVal w))

/-- FREQ_ADD (R93, R199). -/
def execFreqAdd (sq : Fin 64) (bad : Bool) (s : State) : Host.Outcome State Fault Refusal :=
  .next (s.frame sq bad 3 fun w => .freqAdd w.gen (freqVal w))

/-- R202: the window of a MEAS stitch; tones are numbered across the eight inputs of a quarter. -/
def measWindow (w : Stitch) : WinCfg :=
  { tone := (w.queue - 40) * 16 + w.gen, kset := bitsOf w.w1 14 12, len := bitsOf w.w2 16 0, tgt := bitsOf w.w1 31 20,
    syn := bitOf w.w1 18, recd := bitOf w.w1 17, tok := bitOf w.w1 16 }

/-- MEAS (R202). -/
def State.meas (s : State) (k : Nat) (bad : Bool) : State :=
  s.issue k bad 3 0 fun s x w => s.placeEvent k x w (.window (measWindow w)) (advCursor w.queue x w (bitsOf w.w2 16 0))

def execMeas (sq : Fin 64) (bad : Bool) (s : State) : Host.Outcome State Fault Refusal := .next (s.meas sq bad)

/-- R205, R208: pin p of the vector takes part in the event of its queue. -/
def markPin (w : Stitch) (p : Nat) : Bool := bitsOf w.w1 (2 * p + 1) (2 * p) != 0 || bitOf w.w3 p

/-- R209: pin p is compared (modes 2 and 3). -/
def markCmp (w : Stitch) (p : Nat) : Bool := decide (2 ≤ bitsOf w.w1 (2 * p + 1) (2 * p))

/-- R209, R212, R569: the pins that a MARK stitch of quarter q compares. A pin whose awl function is selected, or
that a timer holds, is as in don't-care mode (log 60). -/
def State.comparedPins (s : State) (q : Nat) (w : Stitch) : List Nat :=
  (List.range 16).filter fun p => markCmp w p && !s.freePin (q * 16 + p)

/-- R208: the queues 68 to 71 that a MARK stitch touches. -/
def markQueues (w : Stitch) : List Nat :=
  (List.range 4).filter fun g => (List.range 4).any fun j => markPin w (g * 4 + j)

/-- R209: those of its events that carry a compared pin of `ps`. -/
def markCmpQueues (ps : List Nat) : List Nat := (List.range 4).filter fun g => ps.any fun p => p / 4 == g

/-- MARK (R205 to R210). -/
def State.mark (s : State) (k : Nat) (bad : Bool) : State :=
  s.issue k bad 4 0 fun s x w =>
    let q := k / 16
    let qs := markQueues w
    if qs.any fun g => decide (256 ≤ s.queueLoad (q * 72 + 68 + g)) then s.queueWait k
    else
      let ps := s.comparedPins q w
      let n := (markCmpQueues ps).length
      let id := if n = 0 then 0 else s.outs.nextCmp
      let slot := bitsOf w.w2 17 16
      let pins := ps.foldl (fun a p => a + 2 ^ p) 0
      let s := if n = 0 then s else
        { s with outs.nextCmp := id + 1
                 outs.cmps := { id := id, seq := k, slot := slot, quarter := q, pins := pins,
                                value := bitsOf w.w2 15 0, left := n } :: s.outs.cmps }
      let s := qs.foldl (fun s g =>
        let cmp := if (markCmpQueues ps).contains g then id else 0
        s.sendEvent (q * 72 + 68 + g) (mkEvent k (68 + g) x w
          (.mark (bitsOf w.w1 (8 * g + 7) (8 * g)) (bitsOf w.w2 (4 * g + 3) (4 * g)) (bitsOf w.w3 (4 * g + 3) (4 * g)) cmp))) s
      s.updSeq k fun y => { y with
        pc := y.pc + 1
        cslots := if n = 0 then y.cslots else y.cslots.set! slot CSlot.pending }

def execMark (sq : Fin 64) (bad : Bool) (s : State) : Host.Outcome State Fault Refusal := .next (s.mark sq bad)

/-- The BIAS stitches (R213, R214). -/
def State.biasStitch (s : State) (k : Nat) (bad : Bool) (sub : Nat) (act : Stitch → WAct) : State :=
  s.issue k bad 11 sub fun s x w => s.placeEvent k x w (act w) x.cursor

/-- BIAS_SET_STITCH (R214). -/
def execBiasSetStitch (sq : Fin 64) (bad : Bool) (s : State) : Host.Outcome State Fault Refusal :=
  .next (s.biasStitch sq bad 0 fun w => .biasSet w.gen (signedOf 20 w.w2))

/-- BIAS_WAVE (R214). -/
def execBiasWave (sq : Fin 64) (bad : Bool) (s : State) : Host.Outcome State Fault Refusal :=
  .next (s.biasStitch sq bad 1 fun w => .biasWave w.gen (bitsOf w.w2 7 0))

/-- BIAS_STOP (R214). -/
def execBiasStop (sq : Fin 64) (bad : Bool) (s : State) : Host.Outcome State Fault Refusal :=
  .next (s.biasStitch sq bad 2 fun w => .biasStop w.gen)

/-! ### WAIT and LOOP (R216 to R220) -/

/-- WAIT_REL (R216). -/
def State.waitRel (s : State) (k : Nat) (bad : Bool) : State :=
  s.issue k bad 2 0 fun s x w => s.waitCursor k (x.cursor + w.w1)

def execWaitRel (sq : Fin 64) (bad : Bool) (s : State) : Host.Outcome State Fault Refusal := .next (s.waitRel sq bad)

/-- WAIT_ABS (R216, R154). -/
def State.waitAbs (s : State) (k : Nat) (bad : Bool) : State :=
  s.issue k bad 2 1 fun s x w => s.waitCursor k (max x.cursor (w.w1 + x.shiftSum))

def execWaitAbs (sq : Fin 64) (bad : Bool) (s : State) : Host.Outcome State Fault Refusal := .next (s.waitAbs sq bad)

/-- WAIT_END (R216, R105): the sequencer enters DONE. -/
def State.waitEnd (s : State) (k : Nat) (bad : Bool) : State :=
  s.issue k bad 2 2 fun s _ _ => (s.updSeq k fun y => { y with st := .done }).releaseHolds k

def execWaitEnd (sq : Fin 64) (bad : Bool) (s : State) : Host.Outcome State Fault Refusal := .next (s.waitEnd sq bad)

/-- LOOP_BEGIN (R219). -/
def State.loopBegin (s : State) (k : Nat) (bad : Bool) : State :=
  s.issue k bad 6 0 fun s _ w =>
    let l := bitsOf w.w1 1 0
    s.updSeq k fun y => { y with
      loopCnt := y.loopCnt.set! l (bitsOf w.w1 31 8)
      loopStart := y.loopStart.set! l ((y.pc.toNat + 1) % 4096)
      pc := y.pc + 1 }

def execLoopBegin (sq : Fin 64) (bad : Bool) (s : State) : Host.Outcome State Fault Refusal := .next (s.loopBegin sq bad)

/-- LOOP_END (R219). -/
def State.loopEnd (s : State) (k : Nat) (bad : Bool) : State :=
  s.issue k bad 6 1 fun s x w =>
    let l := bitsOf w.w1 1 0
    let n := x.loopCnt[l]?.getD 0
    if 1 < n then
      s.updSeq k fun y => { y with
        loopCnt := y.loopCnt.set! l (n - 1), pc := BitVec.ofNat 12 (x.loopStart[l]?.getD 0) }
    else s.updSeq k fun y => { y with loopCnt := y.loopCnt.set! l 0, pc := y.pc + 1 }

def execLoopEnd (sq : Fin 64) (bad : Bool) (s : State) : Host.Outcome State Fault Refusal := .next (s.loopEnd sq bad)

/-! ### BRANCH (R221 to R231) -/

/-- BRANCH (R223, R224, R226, R228, R229, R231). -/
def State.branch (s : State) (k : Nat) (bad : Bool) : State :=
  s.issue k bad 5 0 fun s x w =>
    if w.cond = 0 then s.goto k w.target
    else
      let br : Branch := { d := x.cursor + w.dline, listenFrom := s.job.startTick + x.cursor, reanchor := w.policy }
      (s.updSeq k fun y => { y with st := .branchWait, branch := some br }).tryBranch k

def execBranch (sq : Fin 64) (bad : Bool) (s : State) : Host.Outcome State Fault Refusal := .next (s.branch sq bad)

/-- BRANCH_SEGMENT_END (R140, R144, R230): the fork pair, then the wait; cause 2 when the paths do
not begin as R145 requires. A fork pair takes one of its queue's 256 entries, which R65 and R70 leave open
(log 57: DESIGN CHOICE). -/
def State.branchSegEnd (s : State) (k : Nat) (bad : Bool) : State :=
  s.issue k bad 5 1 fun s x w =>
    let e := Table.get 0 x.segEnds (w.bqueue * 16 + w.bgen)
    let wq := k / 16 * 72 + w.bqueue
    match s.forkPulse k w (x.pc.toNat + 1), s.forkPulse k w w.target with
    | some f, some t =>
      if e = 0 then s.progError k 2
      else if 256 ≤ s.queueLoad wq then s.queueWait k
      else
        let ev : WEvent := { tick := e / 16, off := e % 16, act := .fork w.bgen f t, seq := k, stitch := x.pc.toNat }
        let br : Branch := { segEnd := true, lastSample := e - 1, listenFrom := s.job.startTick + x.cursor }
        let s := (s.sendEvent wq ev).updSeq k fun y => { y with st := .branchWait, branch := some br }
        if w.cond = 0 then s.takePath k true else s.tryBranch k
    | _, _ => s.progError k 2

def execBranchSegmentEnd (sq : Fin 64) (bad : Bool) (s : State) : Host.Outcome State Fault Refusal :=
  .next (s.branchSegEnd sq bad)

/-! ### SYNC (R158 to R164, R232) -/

/-- R158: the local participants and the participating devices of a barrier. -/
def State.barSeqs (s : State) (b : Nat) : List Nat :=
  match s.place.inEffect.bars.find? fun e => e.1 == b with
  | some e => e.2
  | none => []

def State.barDevs (s : State) (b : Nat) : List Nat :=
  (s.place.inEffect.xbars.filter fun e => e.1 == b && e.2 != s.deviceId).map (·.2)

def State.barUse (s : State) (b use : Nat) : BarUse :=
  (s.sq.bars.find? fun u => u.bar == b && u.use == use).getD { bar := b, use := use }

def State.setBarUse (s : State) (u : BarUse) : State :=
  { s with sq.bars := u :: s.sq.bars.filter fun v => !(v.bar == u.bar && v.use == u.use) }

/-- R159: every local participant has arrived at this use. -/
def State.localArrived (s : State) (u : BarUse) : Bool :=
  (s.barSeqs u.bar).all fun k => u.arrived.any fun a => a.1 == k

/-- R160: the largest local cursor, in ns of device time. -/
def State.localCursor (s : State) (u : BarUse) : Nat :=
  u.arrived.foldl (fun m a => max m (s.devAt (s.job.startTick + a.2)).abs) 0

/-- R162: once all local participants have arrived, send this device's barrier frame. -/
def State.sendBarrier (s : State) (u : BarUse) : State :=
  let devs := s.barDevs u.bar
  if u.sent || devs.isEmpty || !s.localArrived u then s.setBarUse u
  else
    let st : Stamp := ⟨s.time.domain, DevTime.ofInt (s.localCursor u), 0⟩
    let d0 := u.bar * 2 ^ 36 + u.use % 256 * 2 ^ 42
    let d1 := st.bits % 2 ^ 64
    let d2 := st.bits / 2 ^ 64 + s.shotIdx % 65536 * 2 ^ 48
    devs.foldl (fun s d => s.laceSend d 0 3 d0 [d1, d2]) (s.setBarUse { u with sent := true })

/-- SYNC (R159, R162, R232). -/
def State.sync (s : State) (k : Nat) (bad : Bool) : State :=
  s.issue k bad 7 0 fun s x w =>
    let b := bitsOf w.w1 5 0
    let n := Table.get 0 x.uses b
    let s := s.updSeq k fun y => { y with
      st := .syncWait, waitFrom := s.time.now, uses := Table.set 0 y.uses b (n + 1) }
    let u := s.barUse b n
    s.sendBarrier { u with arrived := u.arrived ++ [(k, x.cursor)] }

def execSync (sq : Fin 64) (bad : Bool) (s : State) : Host.Outcome State Fault Refusal := .next (s.sync sq bad)

/-- R162: the cursor that a device's held frame gives for a use of this shot. -/
def State.heldFrame (s : State) (u : BarUse) (d : Nat) : Option Nat :=
  (s.sq.frames.find? fun f => f.1 == u.bar && f.2.1 == u.use % 256 && f.2.2.1 == s.shotIdx % 65536
    && f.2.2.2.1 == d).map (·.2.2.2.2)

/-- R160, R162: the use may release: all local participants and all frames are there. A participant that
has timed out has arrived all the same, and each times out on its own (R164). -/
def State.barReady (s : State) (u : BarUse) : Bool :=
  s.localArrived u && !u.arrived.isEmpty && (s.barDevs u.bar).all fun d => (s.heldFrame u d).isSome

/-- R160, R217: a participant takes the release cursor. -/
def State.barResume (s : State) (rel : Int) (k : Nat) : State :=
  let x := s.seq k
  if x.st = .syncWait then
    let c := rel - ((s.devAt s.job.startTick).abs : Int)
    let s := s.setCursor k (max (x.cursor : Int) c).toNat
    if (s.seq k).st = .stopped then s else s.goto k (x.pc.toNat + 1)
  else s

/-- R160, R162: release the lowest ready use of a barrier; its frames are used up. -/
def State.barRelease (s : State) (b : Nat) : State :=
  match s.sq.bars.find? fun u => u.bar == b && s.barReady u with
  | none => s
  | some u =>
    let rel := (s.barDevs u.bar).foldl (fun m d => max m ((s.heldFrame u d).getD 0)) (s.localCursor u)
    let s := { s with
      sq.bars := s.sq.bars.filter fun v => !(v.bar == u.bar && v.use == u.use)
      sq.frames := s.sq.frames.filter fun f =>
        !(f.1 == u.bar && f.2.1 == u.use % 256 && f.2.2.1 == s.shotIdx % 65536) }
    (u.arrived.map (·.1)).foldl (fun s k => s.barResume rel k) s

/-- BARRIER_RELEASE (R160). -/
def execBarrierRelease (bar : Fin 64) (s : State) : Host.Outcome State Fault Refusal := .next (s.barRelease bar)

/-- R164: the frames of other devices that a timed-out use does not hold are discarded when they come. -/
def State.discardFrames (s : State) (u : BarUse) : State :=
  let want := (s.barDevs u.bar).filter fun d => (s.heldFrame u d).isNone
  let keys := want.map fun d => (u.bar, u.use % 256, s.shotIdx % 65536, d)
  { s with sq.late := keys.filter (fun e => !s.sq.late.contains e) ++ s.sq.late }

/-- SYNC_TIMEOUT (R164). -/
def State.syncTimeout (s : State) (k : Nat) : State :=
  let x := s.seq k
  if x.st = .syncWait ∧ x.waitFrom + s.rd Reg.SEQ_CFG.SYNC_TIMEOUT [k / 16, k % 16] * 1000 ≤ s.time.now then
    let b := bitsOf (s.stitchAt k x.pc.toNat).w1 5 0
    let n := Table.get 0 x.uses b - 1
    let s := s.stopSeq k
    let s := (s.setBarUse { s.barUse b n with dead := true }).discardFrames { s.barUse b n with dead := true }
    s.seqRecord k 0x2A 9 s.coarseStamp x.pc.toNat [(0x1A, 1, b), (0x1B, 1, n)]
  else s

def execSyncTimeout (sq : Fin 64) (s : State) : Host.Outcome State Fault Refusal := .next (s.syncTimeout sq)

/-! ### TRIG and triggers (R171 to R177, R234) -/

/-- TRIG (R173, R175): take the latched trigger, or wait. While the time request of a latched trigger is out
the state reads TRIG_WAIT, which R173 leaves open (log 57: DESIGN CHOICE). -/
def State.trig (s : State) (k : Nat) (bad : Bool) : State :=
  s.issue k bad 10 0 fun s x _ =>
    match x.latch with
    | some _ => s.updSeq k fun y => { y with st := .trigWait, latch := none, timeReq := some { forTrig := true } }
    | none => s.updSeq k fun y => { y with st := .trigWait }

def execTrig (sq : Fin 64) (bad : Bool) (s : State) : Host.Outcome State Fault Refusal := .next (s.trig sq bad)

/-- R171: a software trigger is stamped coarsely at its arrival. -/
def State.atArrival (s : State) (src : Nat) (t : Trig) : Trig :=
  if src = 26 then ⟨s.coarseStamp, s.time.now - (s.time.dev.abs - s.time.coarse.abs)⟩ else t

/-- TRIGGER_ARRIVE (R172, R174, R177, R229): the oldest edge on its way reaches the sequencer and is
no branch's; it counts as a trigger when its source is TRIG_SRC. -/
def State.triggerArrive (s : State) (k : Nat) : State :=
  match (s.seq k).edges with
  | [] => s
  | (src, t) :: rest =>
    let t := s.atArrival src t
    if s.listens k src t then s
    else
      let s := s.updSeq k fun y => { y with edges := rest }
      if s.rd Reg.SEQ_CFG.TRIG_SRC [k / 16, k % 16] = src then s.trigger k src t else s

def execTriggerArrive (sq : Fin 64) (s : State) : Host.Outcome State Fault Refusal := .next (s.triggerArrive sq)

/-- EXTERNAL_EVENT (R229): the oldest edge on its way resolves the listening branch. -/
def State.externalEvent (s : State) (k : Nat) : State :=
  match (s.seq k).edges with
  | [] => s
  | (src, t) :: rest =>
    let t := s.atArrival src t
    if s.listens k src t then (s.updSeq k fun y => { y with edges := rest }).condKnown k true else s

def execExternalEvent (sq : Fin 64) (s : State) : Host.Outcome State Fault Refusal := .next (s.externalEvent sq)

/-- TRIG_SW (R171, R178). -/
def State.trigSw (s : State) (k : Nat) : State :=
  if s.rd Reg.SEQ_CFG.TRIG_SRC [k / 16, k % 16] = 26 then s.sendEdge [k] 26 {} else s

def execTrigSw (sq : Fin 64) (s : State) : Host.Outcome State Fault Refusal := .next (s.gate (s.trigSw sq))

/-! ### Waiting (R70, R150 to R155) -/

/-- SEQ_QUEUE_RESUME (R70): the queues of the waiting stitch have an entry free. -/
def State.queueResume (s : State) (k : Nat) : State :=
  let x := s.seq k
  let w := s.stitchAt k x.pc.toNat
  let qs := if w.cls = 4 then (markQueues w).map (68 + ·) else if w.cls = 5 then [w.bqueue] else [w.queue]
  if x.st = .queueWait ∧ qs.all (fun i => decide (s.queueLoad (k / 16 * 72 + i) < 256)) then
    s.updSeq k fun y => { y with st := .issue }
  else s

def execSeqQueueResume (sq : Fin 64) (s : State) : Host.Outcome State Fault Refusal := .next (s.queueResume sq)

/-- DEADLINE_SIGNAL_SEND (R150, R231): from sample 0 of tick D − 6. -/
def State.deadlineSend (s : State) (k : Nat) : State :=
  match (s.seq k).branch with
  | some br =>
    if !br.segEnd && decide (s.job.startTick + br.d ≤ s.time.now + 6) then
      s.updSeq k fun y => { y with branch := some { br with signalSent := true } }
    else s
  | none => s

def execDeadlineSignalSend (sq : Fin 64) (s : State) : Host.Outcome State Fault Refusal := .next (s.deadlineSend sq)

/-- DEADLINE_SIGNAL (R151, R152, R153, R75). -/
def State.deadlineSignal (s : State) (k : Nat) : State :=
  match (s.seq k).branch with
  | some br =>
    if !br.signalSent || br.signalled || br.segEnd then s
    else if br.voided || !br.reanchor then s.defaultPath k 0
    else s.updSeq k fun y => { y with branch := some { br with signalled := true } }
  | none => s

def execDeadlineSignal (sq : Fin 64) (s : State) : Host.Outcome State Fault Refusal := .next (s.deadlineSignal sq)

/-- TIME_REQUEST (R153, R175): the request reaches the welt in tick `now`, after its start when
`frac`; T_a is that tick rounded up, counted from S. -/
def State.timeRequest (s : State) (k : Nat) (frac : Bool) : State :=
  match (s.seq k).timeReq with
  | some r =>
    if r.answer.isSome then s
    else s.updSeq k fun y => { y with
      timeReq := some { r with answer := some ((s.time.now : Int) - (s.job.startTick : Int) + (if frac then 1 else 0)) } }
  | none => s

def execTimeRequest (sq : Fin 64) (frac : Bool) (s : State) : Host.Outcome State Fault Refusal :=
  .next (s.timeRequest sq frac)

/-- R153, R154: a REANCHOR shift, then the path the condition chose. -/
def State.reanchor (s : State) (k : Nat) (ta : Int) (br : Branch) (path : Bool) : State :=
  let x := s.seq k
  let sh := max 1 (ta - (br.d : Int)).toNat
  let s := s.count Reg.SEQ_CNT.SHIFT_CNT [k / 16, k % 16]
  let s := s.seqRecord k 0x26 0 (s.stampAt (s.job.startTick + br.d) 0) x.pc.toNat [(0x1C, 4, sh)]
  let s := s.setCursor k (x.cursor + sh)
  if (s.seq k).st = .stopped then s
  else (s.updSeq k fun y => { y with shiftSum := y.shiftSum + sh }).takePath k path

/-- TIME_ANSWER (R153, R154, R175). -/
def State.timeAnswer (s : State) (k : Nat) : State :=
  let x := s.seq k
  match x.timeReq with
  | some ⟨true, some ta⟩ => s.resolveTrig k ta
  | some ⟨false, some ta⟩ =>
    match x.branch with
    | some br => s.reanchor k ta br (br.chosen.getD false)
    | none => s
  | _ => s

def execTimeAnswer (sq : Fin 64) (s : State) : Host.Outcome State Fault Refusal := .next (s.timeAnswer sq)

/-- REANCHOR_LIMIT (R155). -/
def State.reanchorLimit (s : State) (k : Nat) : State :=
  match (s.seq k).branch with
  | some br =>
    if br.reanchor && br.signalled && br.chosen.isNone &&
        decide (s.job.startTick + br.d + s.rd Reg.SEQ_CFG.REANCHOR_MAX [k / 16, k % 16] ≤ s.time.now) then
      s.defaultPath k 1
    else s
  | none => s

def execReanchorLimit (sq : Fin 64) (s : State) : Host.Outcome State Fault Refusal := .next (s.reanchorLimit sq)

/-- COMPARE_RESULT (R228): the result of a compare reaches a branch on its slot. -/
def State.compareResult (s : State) (k : Nat) : State :=
  if (s.stitchAt k (s.seq k).pc.toNat).cond = 2 then s.tryBranch k else s

def execCompareResult (sq : Fin 64) (s : State) : Host.Outcome State Fault Refusal := .next (s.compareResult sq)

/-! ### Segment ends (R142, R143, R146) -/

/-- R140: the fork of a generator whose paths start on a sample counted from S. -/
def isFork (gen at_ : Nat) (e : WEvent) : Bool :=
  match e.act with
  | .fork g _ _ => g == gen && e.tick * 16 + e.off == at_
  | _ => false

/-- R146: a streamed target segment keeps what its segment gap record will name. -/
def targetPulse (k stitch queue : Nat) (p : Pulse) : Pulse :=
  match p.src with
  | .stream _ _ _ => { p with gap := some { seq := k, stitch := stitch, queue := queue } }
  | _ => p

/-- R142: the fork of a jump request, waiting in a queue, is replaced by its target segment. -/
def swapFork (k : Nat) (j : JumpReq) : List WEvent → List WEvent
  | [] => []
  | e :: es =>
    match isFork j.gen (j.lastSample + 1) e, e.act with
    | true, .fork g _ t => { e with act := .play g (targetPulse k j.stitch j.queue t) } :: es
    | _, _ => e :: swapFork k j es

/-- The fork of a jump request still waits in a list of events. -/
def hasFork (j : JumpReq) (es : List WEvent) : Bool := es.any (isFork j.gen (j.lastSample + 1))

/-- R146: samples of a streamed segment that have not arrived, in DAC samples. -/
def State.missing (s : State) (q : Nat) (p : Pulse) : Nat :=
  match p.src with
  | .stream strm _ pos => (pos + p.len / p.interp - (Table.get {} s.sq.streams (q * 16 + strm)).arrived) * p.interp
  | _ => 0

/-- R142: the welt switches to the target segment of a jump request of sequencer k. -/
def State.switchFork (s : State) (k : Nat) (j : JumpReq) : State :=
  s.updQueue (k / 16 * 72 + j.queue) fun y =>
    if hasFork j y.events then { y with events := swapFork k j y.events } else { y with shank := swapFork k j y.shank }

/-- JUMP_REQUEST (R142, R143, R146): the oldest jump request of a sequencer reaches the welt on DAC sample
`smp` of the present tick. No later than the segment's last sample, with the fork still there, the welt
switches to the target segment; else it rejects. -/
def State.jumpRequest (s : State) (k smp : Nat) : State :=
  match (s.seq k).jumps.find? fun j => !j.rejected with
  | none => s
  | some j =>
    let x := s.queue (k / 16 * 72 + j.queue)
    if s.time.now * 16 + smp ≤ s.job.startTick * 16 + j.lastSample ∧ hasFork j (x.events ++ x.shank) then
      (s.switchFork k j).updSeq k fun y => { y with jumps := y.jumps.erase j }
    else s.updSeq k fun y => { y with jumps := y.jumps.erase j ++ [{ j with rejected := true }] }

def execJumpRequest (j : JumpArrival) (s : State) : Host.Outcome State Fault Refusal :=
  .next (s.jumpRequest j.sq j.smp)

/-- JUMP_REJECT (R143). -/
def State.jumpReject (s : State) (k : Nat) : State :=
  match (s.seq k).jumps.find? fun j => j.rejected with
  | none => s
  | some j =>
      let s := s.haltQueue (k / 16 * 72 + j.queue)
      let s := (s.stopSeq k).updSeq k fun y => { y with jumps := y.jumps.erase j }
      s.deadlineMiss k j.stitch j.source 2 (s.sampleStamp 16 (s.job.startTick * 16 + j.lastSample))

def execJumpReject (sq : Fin 64) (s : State) : Host.Outcome State Fault Refusal := .next (s.jumpReject sq)

/-- JUMP_POINT_SIGNAL (R143): from the segment's last sample, with no condition yet. -/
def State.jumpPoint (s : State) (k : Nat) : State :=
  match (s.seq k).branch with
  | some br =>
    if br.segEnd && decide (s.job.startTick * 16 + br.lastSample < (s.time.now + 1) * 16) then s.defaultPath k 2 else s
  | none => s

def execJumpPointSignal (sq : Fin 64) (s : State) : Host.Outcome State Fault Refusal := .next (s.jumpPoint sq)

/-! ### Streams (R168) -/

/-- R168: the segment that an event would start and its stitch: of a fork the fall-through (log 57). A
streamed target segment of a jump is muted under R146 instead. -/
def segmentOf (e : WEvent) : Option (Pulse × Nat) :=
  match e.act with
  | .play _ p => if p.gap.isNone then some (p, e.stitch) else none
  | .fork _ f _ => some (f, e.stitch + 1)
  | _ => none

/-- R168: the on-time limit of an event that starts a streamed segment has come with its data incomplete. -/
def State.underrunOf (s : State) (q : Nat) (e : WEvent) : Bool :=
  match segmentOf e with
  | some (p, _) => decide (0 < s.missing q p ∧ s.job.startTick + e.tick < s.time.now + 4)
  | none => false

/-- R168, R169: the segment does not start; its channel outputs zero from its target sample, its sequencer
stops, and the shot's unplayed data of the stream is discarded. -/
def State.underrun (s : State) (wq : Nat) (e : WEvent) (p : Pulse) (a strm pos : Nat) : State :=
  let q := wq / 72
  let smp := (s.job.startTick + e.tick) * 16 + e.off
  let m := s.missing q p / p.interp
  let s := s.updQueue wq fun x => { x with
    events := x.events.erase e, zeroFrom := some (min smp (x.zeroFrom.getD smp)) }
  let s := (s.stopSeq e.seq).updSeq e.seq fun y => { y with
    pc := BitVec.ofNat 12 a
    jumps := y.jumps.filter fun j => !(j.queue == wq % 72 && isFork j.gen (j.lastSample + 1) e) }
  let up : Stream → Stream := fun x => { x with under := true, arrived := min x.arrived pos }
  let s := { s with sq.streams := Table.upd {} s.sq.streams (q * 16 + strm) up }
  s.seqRecord e.seq 0x28 8 (s.sampleStamp 16 smp) (a % 4096) [(0x1A, 1, strm), (0x1B, 1, wq % 72), (0x1C, 4, m)]

/-- STREAM_UNDERRUN (R168, R169): the on-time limit of a streamed segment passes with its data
incomplete. -/
def State.streamUnderrun (s : State) (wq : Nat) : State :=
  match (s.queue wq).events.find? (s.underrunOf (wq / 72)) with
  | none => s
  | some e =>
    match segmentOf e with
    | some (p, a) =>
      match p.src with
      | .stream strm _ pos => s.underrun wq e p a strm pos
      | _ => s
    | none => s

def execStreamUnderrun (queue : Fin 288) (s : State) : Host.Outcome State Fault Refusal :=
  .next (s.streamUnderrun queue)

end Sys2Proof.Machine
end

