-- ==== Sys2Proof/Machine/Lace.lean ====
section
/-! DEFINITION. Lace links: training, width, electrical idle, acknowledgement, frames and beacons
(chapter 14). -/

namespace Sys2Proof

/-- Data block n of a frame. -/
def LaceFrame.d (f : LaceFrame) (n : Nat) : Nat := (f.data.getD n 0).toNat

def LaceFrame.srcDev (f : LaceFrame) : Nat := bitsOf (f.d 0) 17 0

def LaceFrame.dest (f : LaceFrame) : Nat := bitsOf (f.d 0) 35 18

/-- R532, R536: a bit that the type does not list is set. -/
def LaceFrame.reserved (f : LaceFrame) : Bool :=
  let hi (n lo : Nat) : Bool := f.d n / 2 ^ lo != 0
  match f.ftype.toNat with
  | 0x01 => hi 0 50
  | 0x02 => hi 0 36 || hi 2 32
  | 0x03 => hi 0 50 || bitsOf (f.d 2) 47 32 != 0
  | 0x04 => hi 0 36 || hi 1 31
  | 0x10 => hi 0 59 || hi 1 48
  | 0x11 => hi 0 52 || hi 1 27
  | 0x20 => hi 0 40 || hi 1 46
  | 0x21 => hi 0 36 || hi 1 24
  | 0x22 => hi 0 36 || hi 2 32
  | _ => false

/-- R527: entry h of ROUTE. -/
def LaceFrame.hopLink (f : LaceFrame) (h : Nat) : Nat := bitsOf f.route.toNat (3 * h + 2) (3 * h)

/-- R313: a half of a token with its code. -/
def halfOf (w c : Nat) : Option (BitVec 32) :=
  let v := BitVec.ofNat 32 w
  if Config.secded v = BitVec.ofNat 7 c then some v else Config.secdedFix v (BitVec.ofNat 7 c)

/-- R313, R532: the token that a DECISION frame carries, corrected; none with an uncorrectable half. -/
def LaceFrame.tokenBits (f : LaceFrame) : Option (BitVec 64) :=
  match halfOf (f.d 1) (bitsOf (f.d 0) 42 36), halfOf (f.d 1 / 2 ^ 32) (bitsOf (f.d 0) 49 43) with
  | some lo, some hi => some (hi ++ lo)
  | _, _ => none

end Sys2Proof

namespace Sys2Proof.Machine

/-! ### Training (R507 to R515) -/

/-- LANE_SIGNAL_GAIN (R513). -/
def State.signalGain (s : State) (l lane : Nat) : State :=
  let x := s.lnk l
  let s := s.updLink l fun x => { x with
    signal := setBits x.signal lane lane 1, sigSeen := setBits x.sigSeen lane lane 1 }
  if (x.waiting ∨ x.st = 5) ∧ bitOf x.sigEnd lane = false ∧ s.mayTrain l = true then s.startAttempt l 1 else s

def execLaneSignalGain (l : Fin 8) (lane : Fin 4) (s : State) : Host.Outcome State Fault Refusal :=
  .next (s.signalGain l lane)

/-- TRAINING_ATTEMPT (R509, R738): attempt 1 of a link that is down and may train; `sig` are the
receive lanes that have signal. -/
def State.trainingAttempt (s : State) (l sig : Nat) : State :=
  let x := s.lnk l
  if x.st = 1 ∧ x.waiting = false ∧ s.mayTrain l = true ∧ s.sys.ready = true then
    (s.updLink l fun x => { x with signal := sig }).startAttempt l 1
  else s

def execTrainingAttempt (l : Fin 8) (sig : BitVec 4) (s : State) : Host.Outcome State Fault Refusal :=
  .next (s.trainingAttempt l sig.toNat)

/-- R517: ask the partner for a transmit mask. -/
def State.askWidth (s : State) (l mask : Nat) : State :=
  (s.updLink l fun x => { x with reqMask := some mask }).laceOut l (.width mask)

/-- R548: a lane record. -/
def State.laneRecord (s : State) (l lane lost : Nat) : State :=
  let x := s.lnk l
  s.postCoarse s.home (704 + l) 0x59 0
    [(0x14, 1, lane), (0x15, 1, lost), (0x16, 1, widthOf x.rxMask), (0x17, 1, widthOf x.txMask)]

/-- LANE_LOCK (R507, R518, R522): in training; in the background, asking for the wider mask; or at
the partner's exit from idle. -/
def State.laneLock (s : State) (l lane : Nat) : State :=
  let x := s.lnk l
  let s := s.updLink l fun x => { x with lanes := setBits x.lanes lane lane 1 }
  if !x.up then (if x.st = 2 ∧ x.ready = false then s.laceOut l (.train 15 1 x.deskew) else s)
  else if x.idleRx then
    let m := setBits x.relock lane lane 1
    if x.exitFrom ≠ 0 ∧ (lanesOf x.rxMask).all (bitOf m) then
      let s := s.updLink l fun x => { x with idleRx := false, exitFrom := 0, relock := 0 }
      s.setLinkState l (if x.idleTx then 4 else 3) 0
    else s.updLink l fun x => { x with relock := m }
  else if bitOf x.lanes lane then s
  else
    let m := widthMask (s.lnk l).lanes
    let s := if m = x.rxMask then s else s.askWidth l m
    s.laneRecord l lane 0

def execLaneLock (l : Fin 8) (lane : Fin 4) (s : State) : Host.Outcome State Fault Refusal :=
  .next (s.laneLock l lane)

/-- LANE_LOCK_LOSS (R516, R517). -/
def State.laneLoss (s : State) (l lane : Nat) : State :=
  let x := s.lnk l
  if bitOf x.lanes lane = false then s
  else
    let s := (s.updLink l fun x => { x with
      lanes := setBits x.lanes lane lane 0, lostAt := x.lostAt.set! lane s.time.now }).count Reg.LC_CNT.LOCKLOSS [l]
    if !x.up then s
    else
      let m := widthMask (s.lnk l).lanes
      if m = 0 then s.linkDown l 1 8
      else
        let s := if m = x.rxMask then s else (s.updLink l fun x => { x with rxMask := m }).askWidth l m
        s.laneRecord l lane 1

def execLaneLockLoss (l : Fin 8) (lane : Fin 4) (s : State) : Host.Outcome State Fault Refusal :=
  .next (s.laneLoss l lane)

/-- R509, R510: a TRAIN block as a receive lane takes it: whether its bits arrive inverted, and the block. -/
def trainOf (b : LaceBlock) : Option (Bool × LaceBlock) :=
  if ctrlType b = some 0x2D then some (false, b) else if ctrlType (~~~ b) = some 0x2D then some (true, ~~~ b) else none

/-- R504, R515: the check that a TRAIN block fails: a cause of R548, or 0. The drift of the lane is in ppb. -/
def State.trainCheck (s : State) (b : LaceBlock) (drift : Nat) : Nat :=
  if 1000 < drift then 3 else if blockField b 15 15 = 0 then 5 else if blockField b 33 16 = s.deviceId then 4 else 0

/-- R509 step 5: the device shows READY. -/
def LaceLink.checkReady (x : LaceLink) : LaceLink :=
  { x with ready := x.check == 0 && x.lanes != 0
      && (lanesOf x.lanes).all fun i => (x.map[i]?.getD none).isSome && bitOf x.deskew i }

/-- R509 step 6, R514, R516, R523: the link comes up. -/
def State.linkUpNow (s : State) (l lmask : Nat) : State :=
  let credits : Vector LaceTx 3 := #v[{ credits := 256 }, { credits := 1024 }, { credits := 256 }]
  let space : Vector LaceRx 3 := #v[{ free := 256 }, { free := 1024 }, { free := 256 }]
  let s := s.updLink l fun x => { x with
    rxMask := widthMask x.lanes, txMask := widthMask lmask, tx := credits, rx := space, quietFrom := s.time.now
    txRow := s.time.now * 16, rowNo := 0, lostAt := Vector.replicate 4 s.time.now, timeAt := s.time.now }
  s.setLinkState l 3 0

/-- R509 steps 3, 5 and 6: what a TRAIN block shows of the partner. -/
def LaceLink.trainStep (x : LaceLink) (lane check : Nat) (inv : Bool) (b : LaceBlock) : LaceLink :=
  let ready := blockField b 14 13 == 2
  { x with
    map := x.map.set! lane (some (blockField b 9 8, inv))
    partner := if blockField b 15 15 = 1 then some (blockField b 33 16) else x.partner
    plink := blockField b 12 10, check := check
    readyCnt := x.readyCnt.set! lane (if ready then (x.readyCnt[lane]?.getD 0) + 1 else 0)
    sawReady := x.sawReady || ready }

/-- TRAIN_BLOCK (R509, R510, R522): in training, or as the partner leaves electrical idle. -/
def State.trainBlock (s : State) (l lane : Nat) (b : LaceBlock) (drift : Nat) : State :=
  let x := s.lnk l
  match trainOf b with
  | none => s
  | some (inv, b) =>
    if x.idleRx ∧ x.exitFrom = 0 then s.updLink l fun x => { x with exitFrom := s.time.now + 1, relock := 0 }
    else if x.st ≠ 2 ∨ bitOf x.lanes lane = false then s
    else
      let y := (x.trainStep lane (s.trainCheck b drift) inv b).checkReady
      let s := s.updLink l fun _ => y
      let s := if y.ready ∧ x.ready = false then s.laceOut l (.train 15 2 y.lanes) else s
      if y.ready ∧ (lanesOf y.lanes).all (fun i => 16 ≤ (y.readyCnt[i]?.getD 0)) then
        s.linkUpNow l (blockField b 37 34)
      else s

def execTrainBlock (l : Fin 8) (lane : Fin 4) (b : LaceBlock) (drift : BitVec 16) (s : State) :
    Host.Outcome State Fault Refusal :=
  .next (s.trainBlock l lane b drift.toNat)

/-- ALIGN_BLOCK (R509 step 4): the locked lanes are deskewed where their skew, in ps, is at most 16 ns. -/
def State.alignBlock (s : State) (l : Nat) (b : LaceBlock) (skew : Nat) : State :=
  let x := s.lnk l
  if x.st = 2 ∧ ctrlType b = some 0x33 ∧ skew ≤ 16000 then
    let y := ({ x with deskew := x.lanes } : LaceLink).checkReady
    (s.updLink l fun _ => y).laceOut l (.train 15 (if y.ready then 2 else if y.lanes = 0 then 0 else 1) y.lanes)
  else s

def execAlignBlock (l : Fin 8) (b : SkewedBlock) (s : State) : Host.Outcome State Fault Refusal :=
  .next (s.alignBlock l b.blk b.skew.toNat)

/-- R511, R548: why an attempt failed. -/
def LaceLink.failCause (x : LaceLink) (sig : Nat) : Nat :=
  if x.sigSeen = 0 then 1 else if sig = 0 then 7 else if x.lanes = 0 then 2 else if x.check ≠ 0 then x.check else 6

/-- TRAINING_TIMEOUT (R511, R512): the attempt has run 10 ms, or has lost all the signal it had. -/
def State.trainingTimeout (s : State) (l sig : Nat) : State :=
  let x := s.lnk l
  if x.st = 2 ∧ (x.attemptFrom + 10000000 ≤ s.time.now ∨ (sig = 0 ∧ x.sigSeen ≠ 0)) then
    let y := { x with
      signal := sig, sigEnd := sig, ready := false, waiting := decide (x.attempt < 8)
      waitTo := s.time.now + 10000000 * 2 ^ (x.attempt - 1), st := if x.attempt < 8 then 1 else 5 }
    (s.updLink l fun _ => y).linkRecord l (x.failCause sig)
  else s

def execTrainingTimeout (l : Fin 8) (sig : BitVec 4) (s : State) : Host.Outcome State Fault Refusal :=
  .next (s.trainingTimeout l sig.toNat)

/-- TRAINING_BACKOFF_END (R512). -/
def State.backoffEnd (s : State) (l : Nat) : State :=
  let x := s.lnk l
  if x.waiting ∧ x.waitTo ≤ s.time.now ∧ s.mayTrain l = true then s.startAttempt l (x.attempt + 1) else s

def execTrainingBackoffEnd (l : Fin 8) (s : State) : Host.Outcome State Fault Refusal := .next (s.backoffEnd l)

/-- LANE_RETRAIN (R518): an unlocked lane of a link that is UP trains again on its own, every 10 ms. -/
def State.laneRetrain (s : State) (l lane : Nat) : State :=
  let x := s.lnk l
  if x.up ∧ bitOf x.lanes lane = false ∧ (x.lostAt[lane]?.getD 0) + 10000000 ≤ s.time.now then
    (s.updLink l fun x => { x with lostAt := x.lostAt.set! lane s.time.now }).laceOut l (.train (2 ^ lane) 0 x.lanes)
  else s

def execLaneRetrain (l : Fin 8) (lane : Fin 4) (s : State) : Host.Outcome State Fault Refusal :=
  .next (s.laneRetrain l lane)

/-- R517: the partner's answer to this device's request, or its own request: the device answers with the same
mask on the new lanes, and sends TRAIN blocks on each lane that has left the mask. -/
def State.widthBlock (s : State) (l mask : Nat) : State :=
  let x := s.lnk l
  if !x.up || mask == 0 then s
  else if x.reqMask = some mask then s.updLink l fun x => { x with reqMask := none, rxMask := mask }
  else
    let left := (lanesOf x.txMask).filter fun i => !bitOf mask i
    let s := (s.updLink l fun x => { x with txMask := mask }).laceOut l (.width mask)
    if left.isEmpty then s else s.laceOut l (.train (left.foldl (fun m i => m + 2 ^ i) 0) 0 x.lanes)

/-- WIDTH_BLOCK (R517). -/
def execWidthBlock (l : Fin 8) (b : LaceBlock) (s : State) : Host.Outcome State Fault Refusal :=
  .next (if ctrlType b = some 0x99 then s.widthBlock l (blockField b 11 8) else s)

/-- LC_RETRAIN (R513). -/
def State.lcRetrain (s : State) (l : Nat) : State :=
  let x := s.lnk l
  if s.mayTrain l = false ∨ x.st = 6 then s
  else (if x.up then s.linkDown l 1 10 else s).startAttempt l 1

def execLcRetrain (l : Fin 8) (s : State) : Host.Outcome State Fault Refusal := .next (s.gate (s.lcRetrain l))

/-! ### Quarantine of a partner (R537 to R539) -/

def State.endLaceQuar (s : State) (l : Nat) : State :=
  let s := s.updLink l fun x => { x with st := 1, vios := [] }
  if s.mayTrain l then s.startAttempt l 1 else s

/-- LC_RELEASE (R539). -/
def State.lcRelease (s : State) (l : Nat) : State := if (s.lnk l).st = 6 then s.endLaceQuar l else s

def execLcRelease (l : Fin 8) (s : State) : Host.Outcome State Fault Refusal := .next (s.gate (s.lcRelease l))

/-- LACE_QUARANTINE_END (R539). -/
def execLaceQuarantineEnd (l : Fin 8) (s : State) : Host.Outcome State Fault Refusal :=
  .next (if (s.lnk l).st = 6 ∧ (s.lnk l).holdTo ≤ s.time.now then s.endLaceQuar l else s)

/-- R537, R539: count and record a violation, and quarantine the partner at the limit. -/
def State.laceVio (s : State) (l cause : Nat) (f : LaceFrame) : State :=
  let s := s.count Reg.LC_CNT.VIO [l]
  let win := s.rd Reg.LC_CFG.VIO_WIN [l] * 100000
  let v := s.time.now :: (s.lnk l).vios.filter fun t => decide (s.time.now < t + win)
  let s := s.updLink l fun x => { x with vios := v }
  let s := s.postCoarse s.home (712 + l) 0x5A 0 [(0x14, 1, cause), (0x15, 1, f.vc.toNat), (0x16, 2, f.seq.toNat),
    (0x18, 1, f.ftype.toNat), (0x1C, 4, v.length)]
  if s.rd Reg.LC_CFG.VIO_LIM [l] ≤ v.length then
    let hold := s.rd Reg.LC_CFG.QHOLD [l] * 10
    let s := s.linkDown l 6 11
    let s := s.updLink l fun x => { x with holdTo := s.time.now + hold * 1000000 }
    s.postCoarse s.home (704 + l) 0x5B 0 [(0x14, 4, v.length), (0x18, 4, hold)]
  else s

/-! ### Electrical idle (R520 to R522) -/

/-- R520: a route of the live last uses the link while a job runs. -/
def State.linkInJob (s : State) (l : Nat) : Bool := s.inJob && s.place.inEffect.links.contains l

/-- IDLE_ENTRY (R520, R521). -/
def State.idleEntry (s : State) (l : Nat) : State :=
  let x := s.lnk l
  if x.up ∧ x.idleTx = false ∧ s.flag Reg.LC_CFG.IDLE_EN [l] = true
      ∧ x.quietFrom + s.rd Reg.LC_CFG.IDLE_AFTER [l] * 1000 ≤ s.time.now
      ∧ s.lace.follow ≠ some l ∧ s.linkInJob l = false then
    ((s.updLink l fun x => { x with idleTx := true }).laceOut l .eidle).setLinkState l 4 0
  else s

def execIdleEntry (l : Fin 8) (s : State) : Host.Outcome State Fault Refusal := .next (s.idleEntry l)

/-- EIDLE_BLOCK (R521). -/
def State.eidle (s : State) (l : Nat) : State :=
  if (s.lnk l).up then
    (s.updLink l fun x => { x with idleRx := true, exitFrom := 0, relock := 0 }).setLinkState l 4 0
  else s

def execEidleBlock (b : LinkBlock) (s : State) : Host.Outcome State Fault Refusal :=
  .next (if ctrlType b.blk = some 0x66 then s.eidle b.link else s)

/-- IDLE_EXIT (R522, log 65): a frame is queued for an idle direction, or a block outside every frame waits for
it; the first block after the TRAIN rows follows by 70 ns. -/
def State.idleExit (s : State) (l : Nat) : State :=
  let x := s.lnk l
  if x.up ∧ x.idleTx = true ∧ (!x.txWait.isEmpty || x.tx.toList.any fun t => !t.queue.isEmpty) then
    let s := (s.updLink l fun x => { x with
      idleTx := false, quietFrom := s.time.now, txRow := (s.time.now + 70) * 16 }).laceOut l (.train x.txMask 2 x.lanes)
    let s := s.setLinkState l (if x.idleRx then 4 else 3) 0
    ((s.lacePump l 0).lacePump l 1).lacePump l 2
  else s

def execIdleExit (l : Fin 8) (s : State) : Host.Outcome State Fault Refusal := .next (s.idleExit l)

/-- IDLE_EXIT_TIMEOUT (R522). -/
def State.idleExitTimeout (s : State) (l : Nat) : State :=
  let x := s.lnk l
  if x.idleRx ∧ x.exitFrom ≠ 0 ∧ x.exitFrom + 199 ≤ s.time.now then s.linkDown l 1 14 else s

def execIdleExitTimeout (l : Fin 8) (s : State) : Host.Outcome State Fault Refusal := .next (s.idleExitTimeout l)

/-! ### Acknowledgement (R529, R530) -/

/-- R529: the frames left after an acknowledge of everything up to a SEQ. -/
def ackUpTo (seq : BitVec 12) (sent : List (LaceFrame × Nat × Nat)) : List (LaceFrame × Nat × Nat) :=
  if sent.any fun e => e.1.seq == seq then (sent.dropWhile fun e => e.1.seq != seq).drop 1 else sent

def State.updTx (s : State) (l vc : Nat) (f : LaceTx → LaceTx) : State :=
  s.updLink l fun x => { x with tx := x.tx.set! vc (f (x.tx[vc]?.getD {})) }

/-- R524, R529: an acknowledge. -/
def State.ackBlock (s : State) (l vc : Nat) (seq : BitVec 12) (credit : Nat) : State :=
  if (s.lnk l).up then
    (s.updTx l vc fun t => { t with sent := ackUpTo seq t.sent, credits := t.credits + credit }).lacePump l vc
  else s

/-- R529: VC, SEQ, CREDIT and CAUSE of a LINKCTL block with the NAK bit at `nak`. -/
def linkctlOf (nak : Nat) (b : LaceBlock) : Option (Nat × BitVec 12 × Nat × Nat) :=
  if ctrlType b = some 0x4B ∧ blockField b 10 10 = nak ∧ blockField b 9 8 < 3 then
    some (blockField b 9 8, (payloadOf b).extractLsb' 11 12, blockField b 33 23, blockField b 37 34)
  else none

/-- ACK (R529). -/
def execAck (l : Fin 8) (hdr : BitVec 2) (typ : BitVec 8) (body : BitVec 56) (s : State) : Host.Outcome State Fault Refusal :=
  match linkctlOf 0 (blockParts hdr typ body) with
  | some (vc, seq, credit, _) => .next (s.ackBlock l vc seq credit)
  | none => .next s

/-- R530: resend every unacknowledged frame from the first that meets `p`. An uncorrectable error (`bad`) of a frame in
the replay buffer takes the link down (R703 class 6). -/
def State.resendFrom (s : State) (l vc : Nat) (p : LaceFrame → Bool) (bad : Bool) : State :=
  let t := (s.lnk l).tx[vc]?.getD {}
  let again := t.sent.dropWhile fun e => !p e.1
  if bad && !again.isEmpty then (s.eccError 6 l 0 (Config.freeWord s.freeCtr).toNat false).draw.linkDown l 1 9
  else if again.any fun e => 8 ≤ e.2.2 then s.linkDown l 1 9
  else
    let keep := t.sent.take (t.sent.length - again.length)
    let s := s.updTx l vc fun t => { t with sent := keep ++ again.map fun e => (e.1, s.time.now, e.2.2 + 1) }
    again.foldl (fun s e => (s.laceOut l (.frame e.1)).count Reg.LC_CNT.REPLAY [l]) s

/-- R529, R530: a negative acknowledge. -/
def State.nakBlock (s : State) (l vc : Nat) (seq : BitVec 12) (credit cause : Nat) (bad : Bool) : State :=
  if (s.lnk l).up then
    let s := s.updTx l vc fun t => { t with credits := if cause = 3 then credit else t.credits + credit }
    (s.resendFrom l vc (fun f => f.seq == seq) bad).lacePump l vc
  else s

/-- NAK (R529, R530). -/
def execNak (l : Fin 8) (hdr : BitVec 2) (typ : BitVec 8) (body : BitVec 56) (bad : Bool) (s : State) :
    Host.Outcome State Fault Refusal :=
  match linkctlOf 1 (blockParts hdr typ body) with
  | some (vc, seq, credit, cause) => .next (s.nakBlock l vc seq credit cause bad)
  | none => .next s

/-- RESEND_TIMEOUT (R530): no acknowledge of the oldest frame within 2 µs of its sending. -/
def State.resendTimeout (s : State) (l vc : Nat) (bad : Bool) : State :=
  match ((s.lnk l).tx[vc]?.getD {}).sent with
  | (_, t, _) :: _ => if (s.lnk l).up ∧ t + 2000 ≤ s.time.now then s.resendFrom l vc (fun _ => true) bad else s
  | [] => s

def execResendTimeout (v : LinkVc) (bad : Bool) (s : State) : Host.Outcome State Fault Refusal :=
  .next (s.resendTimeout v.link v.vc bad)

/-! ### Receiving frames (R527 to R532, R537) -/

/-- R532: the LEN of a type; none for an unknown type. TEST takes any length. -/
def frameLen (ftype len : Nat) : Option Nat :=
  match ftype with
  | 0x01 => some 3
  | 0x02 => some 4
  | 0x03 => some 3
  | 0x04 => some 10
  | 0x10 => some 2
  | 0x11 => some 2
  | 0x12 => some len
  | 0x20 => some 2
  | 0x21 => some 2
  | 0x22 => some 3
  | _ => none

/-- R529, R537: discard a frame with a NAK. -/
def State.sendNak (s : State) (l vc cause : Nat) : State :=
  let r := (s.lnk l).rx[vc]?.getD {}
  let s := (s.updRx l vc fun r => { r with dropped := true }).count Reg.LC_CNT.NAK [l]
  s.laceOut l (.linkctl vc true r.expect.toNat (if cause = 3 then r.free else 0) cause)

/-- R529: acknowledge up to a SEQ, returning the frame's credits. -/
def State.sendAck (s : State) (l vc seq credit : Nat) : State := s.laceOut l (.linkctl vc false seq credit 0)

/-- R532, R537: send a REJECT back over the link. -/
def State.sendReject (s : State) (l cause : Nat) (f : LaceFrame) : State :=
  let d1 := f.vc.toNat + f.seq.toNat * 4 + f.ftype.toNat * 2 ^ 14 + cause * 2 ^ 20
  s.laceQueue l (s.laceFrame [l] ((s.lnk l).partner.getD 0) 2 0x21 0 [d1])

/-- R524, R531: a frame to forward waits for the link it leaves by, so that its space is not yet returned. -/
def State.spaceHeld (s : State) (l : Nat) (f : LaceFrame) : Bool :=
  let h := f.hop.toNat + 1
  let x := s.lnk (f.hopLink h)
  let t := x.tx[f.vc.toNat]?.getD {}
  f.ftype != 0x10 && decide (h < f.hops.toNat + 1) && x.up
    && (x.idleTx || !t.queue.isEmpty || decide (t.credits < f.data.length + 2)) && (s.lnk l).up

/-- R531: forward a frame, or drop it with a record. -/
def State.laceForward (s : State) (l h : Nat) (f : LaceFrame) : State :=
  let o := f.hopLink h
  if (s.lnk o).up then s.laceQueueFrom o { f with hop := BitVec.ofNat 3 h } (if s.spaceHeld l f then some l else none)
  else s.postCoarse s.home 729 0x5E 0 [(0x14, 1, l), (0x15, 1, o), (0x16, 1, f.ftype.toNat), (0x18, 4, f.dest)]

/-- R531: HOP counts one more; the route ends here, or the frame goes on. PROBE goes by R536. -/
def State.laceRoute (s : State) (l : Nat) (f : LaceFrame) (k : State → State) : State :=
  let h := f.hop.toNat + 1
  if f.ftype = 0x10 then k s
  else if h < f.hops.toNat + 1 then s.laceForward l h f
  else if f.ftype ≠ 0x12 ∧ f.dest ≠ s.deviceId then (s.sendReject l 8 f).laceVio l 8 f
  else k s

/-- R537: a content violation of an accepted frame. -/
def contentFault (f : LaceFrame) (err : Nat) : Option Nat :=
  match frameLen f.ftype.toNat f.data.length with
  | none => some 5
  | some n =>
    if err = 6 ∨ f.reserved = true then some 6
    else if f.data.length ≠ n ∨ f.len.toNat ≠ f.data.length ∨ f.data.length = 0 ∨ 40 < f.data.length then some 7
    else if err = 9 then some 9
    else none

/-- R530: SEQ precedes the one expected. -/
def seqBefore (seq expect : BitVec 12) : Bool := decide (2048 ≤ (seq - expect).toNat)

/-- R529, R537: a frame that is discarded with a REJECT; one in its place is acknowledged at link level. -/
def State.rejectOpen (s : State) (l cause : Nat) (f : LaceFrame) : State :=
  let vc := f.vc.toNat
  let s := if vc < 3 ∧ f.seq = ((s.lnk l).rx[vc]?.getD {}).expect then
      (s.updRx l vc fun r => { r with expect := r.expect + 1 }).sendAck l vc f.seq.toNat (f.len.toNat + 2)
    else s
  (s.sendReject l cause f).laceVio l cause f

/-- R529 to R531, R537, R538: a frame has arrived on a link. `err` is what its blocks show: 0 nothing, 1 a bad
block, 2 a CRC mismatch, 6 a reserved bit, 9 an uncorrectable token half, 11 an invalid header on a lane that
then loses lock, 12 an uncorrectable error of the receive buffer (R703; the cause in its NAK is one the spec does not
state). -/
def State.rxFrame (s : State) (l : Nat) (f : LaceFrame) (err : Nat) (k : State → State) : State :=
  let vc := f.vc.toNat
  let r := (s.lnk l).rx[vc]?.getD {}
  let n := f.data.length + 2
  let s := s.updLink l fun x => { x with quietFrom := s.time.now }
  if vc = 3 then (s.sendReject l 5 f).laceVio l 5 f
  else if err = 1 ∨ err = 2 then (s.sendNak l vc err).laceVio l err f
  else if err = 11 then s.sendNak l vc 1
  else if err = 12 then
    (s.eccError 6 l 0 (Config.freeWord s.freeCtr).toNat false).draw.sendNak l vc ((Config.freeWord (s.freeCtr + 1)).toNat % 16) |>.draw
  else if seqBefore f.seq r.expect then s.sendAck l vc (r.expect - 1).toNat 0
  else if f.seq ≠ r.expect then
    let s' := s.sendNak l vc 4
    if r.dropped then s' else s'.laceVio l 4 f
  else if r.free < n then (s.sendNak l vc 3).laceVio l 3 f
  else
    let s := s.updRx l vc fun r => { r with expect := r.expect + 1, dropped := false }
    match contentFault f err with
    | some c => ((s.sendAck l vc f.seq.toNat n).sendReject l c f).laceVio l c f
    | none =>
      let held := s.spaceHeld l f
      let s := if held then s.updRx l vc fun r => { r with free := r.free - n } else s
      (s.sendAck l vc f.seq.toNat (if held then 0 else n)).laceRoute l f k

/-- R528, R537, R538: what the blocks of a closed frame show: its END payload, and what is held of it. -/
def LaceOpen.err (o : LaceOpen) (fin : BitVec 64) : Nat :=
  let f := frameOf o.start o.data
  if o.bad ≠ 0 then o.bad
  else if fin.extractLsb' 8 32 ≠ f.crc then 2
  else if fin.extractLsb' 40 24 ≠ 0 then 6
  else if f.ftype = 1 ∧ f.tokenBits = none then 9
  else 0

def State.setOpens (s : State) (l : Nat) (os : List LaceOpen) : State := s.updLink l fun x => { x with opens := os }

/-- R525, R527: the END of the innermost open frame. -/
def State.closeFrame (s : State) (l : Nat) (fin : BitVec 64) (mem : Bool) (k : LaceFrame → State → State) : State :=
  match (s.lnk l).opens with
  | [] => (s.sendReject l 5 {}).laceVio l 5 {}
  | o :: os =>
    let s := s.setOpens l os
    let f := frameOf o.start o.data
    if o.bad = 10 then s else s.rxFrame l f (if mem then 12 else o.err fin) (k f)

/-- R527, R537: a START opens a frame. Against an open frame of its VC, or below an open frame, every open frame is
discarded, and so is the frame it opens (log 65). -/
def State.openFrame (s : State) (l : Nat) (start : BitVec 64) : State :=
  let f := frameOf start []
  let os := (s.lnk l).opens
  if os.any fun o => (frameOf o.start []).vc.toNat ≤ f.vc.toNat then
    let s := os.foldl (fun s o => s.updRx l (frameOf o.start []).vc.toNat fun r => { r with dropped := true }) s
    (s.setOpens l [{ start := start, bad := 10 }]).rejectOpen l 10 f
  else s.setOpens l ({ start := start } :: os)

/-- R525: one more block of the innermost open frame. -/
def State.frameData (s : State) (l : Nat) (v : BitVec 64) : State :=
  match (s.lnk l).opens with
  | [] => (s.sendReject l 5 {}).laceVio l 5 {}
  | o :: os => s.setOpens l ({ o with data := o.data ++ [v] } :: os)

/-- R508, R537, R538: a bad block takes the place of a block of the innermost open frame; in the place of its END,
it closes the frame. -/
def State.badBlock (s : State) (l why : Nat) : State :=
  match (s.lnk l).opens with
  | [] => s
  | o :: os =>
    let o := { o with data := o.data ++ [0], bad := if o.bad = 0 then why else o.bad }
    let s := s.setOpens l (o :: os)
    if (frameOf o.start []).len.toNat < o.data.length then s.closeFrame l 0 false fun _ s => s else s

/-- R503, R508, R525, R527: the receiver of a link takes a block that came on a lane. Blocks that are outside every
frame have commands of their own. -/
def State.rxBlock (s : State) (l lane : Nat) (w : LaceBlocks) (b : LaceBlock) (k : LaceFrame → State → State) : State :=
  if b.extractLsb' 0 2 = 1#2 then s.frameData l (payloadOf b)
  else match ctrlType b with
  | some 0x78 => s.openFrame l (payloadOf b)
  | some 0x87 => s.closeFrame l (payloadOf b) w.mem k
  | some t => if blockTypes.contains t then s else s.badBlock l 1
  | none => s.badBlock l (if w.lost.getLsbD lane then 11 else 1)

/-- R505: the lane of the block at a place of the stream. -/
def laneAt (mask n : Nat) : Nat := (lanesOf mask).getD (n % widthOf mask) 0

/-- R505: the blocks of a command, each from its lane. -/
def State.rxBlocks (s : State) (l : Nat) (w : LaceBlocks) (k : LaceFrame → State → State) : State :=
  (w.blocks.zipIdx w.first.val).foldl (fun s e => s.rxBlock l (laneAt (s.lnk l).rxMask e.2) w e.1 k) s

/-- The FTYPEs of the frames that blocks open or go on with. -/
def LaceLink.types (x : LaceLink) (w : LaceBlocks) : List Nat :=
  ((x.opens.take 1).map (·.start) ++ (w.blocks.filter fun b => ctrlType b == some 0x78).map payloadOf).map fun p =>
    (frameOf p []).ftype.toNat

/-- A frame command: the blocks it brings are of frames of its row's FTYPE (or of an FTYPE that no row has),
and a frame of that FTYPE is delivered by `k`. -/
def State.rxRow (s : State) (l ftype : Nat) (w : LaceBlocks) (k : LaceFrame → State → State) : State :=
  if (s.lnk l).up ∧ ((s.lnk l).types w).all (fun t => t == ftype || (frameLen t 1).isNone) then s.rxBlocks l w k else s

/-- The token that 64 bits spell (R312). -/
def Token.ofNat (v : Nat) : Token :=
  { kind := BitVec.ofNat 4 (bitsOf v 63 60), origin := bitOf v 59, seq := BitVec.ofNat 15 (bitsOf v 58 44)
    target := BitVec.ofNat 12 (bitsOf v 43 32), payload := BitVec.ofNat 32 v }

/-- The 64 bits of a token. -/
def Token.toNat (t : Token) : Nat :=
  t.payload.toNat + t.target.toNat * 2 ^ 32 + t.seq.toNat * 2 ^ 44 + (if t.origin then 2 ^ 59 else 0)
    + t.kind.toNat * 2 ^ 60

/-- The sequencers of a 64-bit mask. -/
def seqsOf (m : Nat) : List Nat := (List.range 64).filter fun k => bitOf m k

/-- R313: a kind that the device knows. -/
def tokenKnown (t : Token) : Bool := let n := t.kind.toNat % 8; decide (1 ≤ n ∧ n ≤ 4)

/-- R227: the ADC sample that the TICK_LO of a token of another device names: its window-end tick is the latest
whose nanoseconds count ends in TICK_LO. -/
def State.tickLoSample (s : State) (lo : Nat) : Nat :=
  let n := s.time.dev.ns.toNat
  let d := (n + 65536 - lo % 65536) % 65536
  let age := if d ≤ n then d else (n + 1000000000 - lo % 65536) % 65536
  (s.time.now - age) * 8

/-- R329, R534: a decision for this device, on its way to the sequencers of its mask. -/
def State.decisionIn (f : LaceFrame) (s : State) : State :=
  match f.tokenBits with
  | none => s
  | some v =>
    let t := Token.ofNat v.toNat
    let t := { t with smp := s.tickLoSample (bitsOf v.toNat 15 0) }
    if tokenKnown t then { s with planes.copies := s.planes.copies ++ (seqsOf (f.d 2)).map fun k => (k, t) } else s

/-- DECISION_FRAME (R534, R329, R313). -/
def execDecisionFrame (l : Fin 8) (blocks : List LaceBlock) (a : LaceArrival) (s : State) : Host.Outcome State Fault Refusal :=
  .next (s.rxRow l 1 ⟨a, blocks⟩ State.decisionIn)

/-- The stamp that two words of a frame hold (words 0 and 1, and word 2). -/
def stampOfWords (a b : Nat) : Stamp :=
  let v := a + b % 2 ^ 32 * 2 ^ 64
  ⟨BitVec.ofNat 2 (bitsOf v 47 46), ⟨BitVec.ofNat 48 (stampSec v), BitVec.ofNat 30 (bitsOf v 31 16 + bitsOf v 45 32 * 2 ^ 16)⟩,
   BitVec.ofNat 16 v⟩

/-- R171, R330, R534: a trigger for this device. -/
def State.triggerIn (f : LaceFrame) (s : State) : State :=
  let st := stampOfWords (f.d 1) (f.d 2)
  let tick := s.tickOf st.time.abs + (if st.frac = 0 then 0 else 1)
  s.sendEdge ((seqsOf (f.d 3)).filter fun k => s.rd Reg.SEQ_CFG.TRIG_SRC [k / 16, k % 16] == 25) 25 ⟨st, tick⟩

/-- TRIGGER_FRAME (R534, R171). -/
def execTriggerFrame (l : Fin 8) (blocks : List LaceBlock) (a : LaceArrival) (s : State) : Host.Outcome State Fault Refusal :=
  .next (s.rxRow l 2 ⟨a, blocks⟩ State.triggerIn)

/-- BARRIER_FRAME (R162, R164): held, unless a participant of its use has timed out without it. The frame of
a use is known by barrier, use count, shot index and device, and the first that matches is taken as it. -/
def State.holdBarrier (s : State) (f : LaceFrame) : State :=
  let bar := bitsOf (f.d 0) 41 36
  let use := bitsOf (f.d 0) 49 42
  let shot := bitsOf (f.d 2) 63 48
  let cur := (stampOfWords (f.d 1) (f.d 2)).time.abs
  if s.sq.late.contains (bar, use, shot, f.srcDev) then
    { s with sq.late := s.sq.late.erase (bar, use, shot, f.srcDev) }
  else { s with sq.frames := s.sq.frames ++ [(bar, use, shot, f.srcDev, cur)] }

def execBarrierFrame (l : Fin 8) (blocks : List LaceBlock) (a : LaceArrival) (s : State) : Host.Outcome State Fault Refusal :=
  .next (s.rxRow l 3 ⟨a, blocks⟩ fun f s => s.holdBarrier f)

/-- The key under which a peer's frame of a shot and round is kept. -/
def frameKey (shot round : Nat) : Nat := shot % 65536 * 32768 + round % 32768

/-- R373: a frame of shot m belongs to the running shot of a job or to one to come (log 61). -/
def State.frameAhead (s : State) (m : Nat) : Bool :=
  (s.job.phase == .inShot || s.job.phase == .shotBoundary)
    && decide ((m + 65536 - s.shotIdx % 65536) % 65536 < 32768)

/-- R373: plane p keeps the first frame of a peer, shot and round; after the wait it is late. -/
def State.boundaryAt (s : State) (f : LaceFrame) (peer : Nat) (p : Fin 2) : State :=
  let m := bitsOf (f.d 1) 15 0
  let key := frameKey m (bitsOf (f.d 1) 30 16)
  let x := s.dec.dyn[p]
  if x.late.contains (peer, key) then
    let s := { s with dec.dyn := s.dec.dyn.set p { x with late := x.late.erase (peer, key) } }
    if p.val = 0 ∨ s.planeState 0 ≠ 0 ∧ s.planeState 0 ≠ 1 then s.count Reg.DEC_CNT.LATE [] else s
  else if (x.frames.any fun e => e.1 == peer && e.2.1 == key)
      || (x.missed.any fun e => e.1 == peer && frameKey s.shotIdx e.2 == key) || !s.frameAhead m then s
  else
    let m := f.d 2 + f.d 3 * 2 ^ 64 + f.d 4 * 2 ^ 128 + f.d 5 * 2 ^ 192
    let e := f.d 6 + f.d 7 * 2 ^ 64 + f.d 8 * 2 ^ 128 + f.d 9 * 2 ^ 192
    { s with dec.dyn := s.dec.dyn.set p { x with frames := x.frames ++ [(peer, key, m, e)] } }

def State.boundaryFrame (s : State) (f : LaceFrame) : State :=
  match s.dec.graph with
  | none => s
  | some g => match g.peers.findIdx? fun d => d == f.srcDev with
    | some p => (s.boundaryAt f p 0).boundaryAt f p 1
    | none => s

/-- BOUNDARY_FRAME (R373). -/
def execBoundaryFrame (l : Fin 8) (blocks : List LaceBlock) (a : LaceArrival) (s : State) : Host.Outcome State Fault Refusal :=
  .next (s.rxRow l 4 ⟨a, blocks⟩ fun f s => s.boundaryFrame f)

/-! ### Probes (R535, R536) -/

/-- R536: D0 of a PROBE. -/
def probeD0 (origin target id ttl count : Nat) : Nat :=
  origin + target * 2 ^ 18 + id % 65536 * 2 ^ 36 + ttl * 2 ^ 52 + count * 2 ^ 56

/-- R527, R536: a PROBE or REPLY frame as it is queued; PROBE carries its own route in D1. -/
def bulkFrame (ftype : Nat) (links : List Nat) (data : List Nat) : LaceFrame :=
  { vc := 1, ftype := BitVec.ofNat 6 ftype, len := BitVec.ofNat 6 data.length
    route := BitVec.ofNat 24 (packRoute links), hops := BitVec.ofNat 3 (links.length - 1)
    data := data.map (BitVec.ofNat 64) }

/-- The links that are UP. -/
def State.upLinks (s : State) : List Nat := (List.range 8).filter fun l => (s.lnk l).up

/-- R535, R536: probe for a route to a destination. -/
def State.probe (s : State) (dest : Nat) : State :=
  let id := s.lace.probeId.toNat
  s.upLinks.foldl (fun s l =>
    s.laceQueue l (bulkFrame 0x10 [l] [probeD0 s.deviceId dest id 8 0, l * 2 ^ 24]))
    { s with lace.probeId := s.lace.probeId + 1 }

/-- Three-bit entry n of a field that starts at a bit. -/
def entry3 (v base n : Nat) : Nat := bitsOf v (base + 3 * n + 2) (base + 3 * n)

/-- R536: a PROBE for this device is answered, up to 16 copies. -/
def State.answerProbe (s : State) (f : LaceFrame) (d1 count : Nat) : State :=
  let origin := bitsOf (f.d 0) 17 0
  let id := bitsOf (f.d 0) 51 36
  let n := ((s.lace.seen.find? fun e => e.1 == origin && e.2.1 == id).map (·.2.2)).getD 0
  if 16 ≤ n then s
  else
    let s := { s with lace.seen :=
      ((origin, id, n + 1) :: s.lace.seen.filter fun e => !(e.1 == origin && e.2.1 == id)).take 1024 }
    let back := (List.range count).reverse.map fun i => entry3 d1 0 i
    let fwd := packRoute ((List.range count).map fun i => entry3 d1 24 i)
    match back with
    | o :: _ =>
      s.laceQueue o (bulkFrame 0x11 back [s.deviceId + origin * 2 ^ 18 + id * 2 ^ 36, fwd + (count - 1) * 2 ^ 24])
    | [] => s

/-- PROBE (R536). -/
def State.rxProbe (s : State) (l : Nat) (f : LaceFrame) : State :=
  let origin := bitsOf (f.d 0) 17 0
  let target := bitsOf (f.d 0) 35 18
  let id := bitsOf (f.d 0) 51 36
  let ttl := bitsOf (f.d 0) 55 52
  let c := bitsOf (f.d 0) 58 56
  let d1 := setBits (f.d 1) (3 * c + 2) (3 * c) l
  if target = s.deviceId then s.answerProbe f d1 (c + 1)
  else if s.lace.seen.any (fun e => e.1 == origin && e.2.1 == id) || decide (ttl ≤ 1) || decide (7 ≤ c) then s
  else
    let s := { s with lace.seen := ((origin, id, 0) :: s.lace.seen).take 1024 }
    (s.upLinks.filter (· ≠ l)).foldl (fun s o =>
      let e := 24 + 3 * (c + 1)
      s.laceQueue o (bulkFrame 0x10 [o]
        [probeD0 origin target id (ttl - 1) (c + 1), setBits d1 (e + 2) e o])) s

def execProbe (l : Fin 8) (blocks : List LaceBlock) (a : LaceArrival) (s : State) : Host.Outcome State Fault Refusal :=
  .next (s.rxRow l 0x10 ⟨a, blocks⟩ fun f s => s.rxProbe l f)

/-- R399: one route precedes another: fewer hops, then the lower link at the first hop that differs. -/
def routeBefore (a b : List Nat) : Bool :=
  decide (a.length < b.length) || (a.length == b.length && decide (packRoute a.reverse < packRoute b.reverse))

/-- REPLY (R535, R536). -/
def State.rxReply (s : State) (f : LaceFrame) : State :=
  match s.place.build with
  | none => s
  | some b =>
    let dest := f.srcDev
    let n := bitsOf (f.d 1) 26 24 + 1
    let r := (List.range n).map fun i => entry3 (f.d 1) 0 i
    if b.probes.contains dest then { s with place.build := some { b with found := b.found ++ [(dest, r)] } } else s

def execReply (l : Fin 8) (blocks : List LaceBlock) (a : LaceArrival) (s : State) : Host.Outcome State Fault Refusal :=
  .next (s.rxRow l 0x11 ⟨a, blocks⟩ fun f s => s.rxReply f)

/-- TEST_FRAME (R702): in Diagnostic mode a mismatch is recorded; it is no violation. -/
def execTestFrame (l : Fin 8) (blocks : List LaceBlock) (a : LaceArrival) (biterr : Word) (s : State) : Host.Outcome State Fault Refusal :=
  .next (s.rxRow l 0x12 ⟨a, blocks⟩ fun _ s =>
    if s.diagnostic ∧ biterr ≠ 0 then
      s.postCoarse s.home 1012 0xA3 0 [(0x14, 1, l.val), (0x18, 4, biterr.toNat)]
    else s)

/-- SUMMARY (R400): kept until a build uses it: device, LAST_ID, LOCAL nodes, CRC, and region pin (0 none, 1 the sender owns it,
2 this device does). -/
def State.rxSummary (s : State) (f : LaceFrame) : State :=
  let pin := if bitOf (f.d 0) 38 then (if bitOf (f.d 0) 39 then 1 else 2) else 0
  let e := (f.srcDev, bitsOf (f.d 0) 37 36, bitsOf (f.d 1) 45 32, bitsOf (f.d 1) 31 0, pin)
  { s with place.summaries := e :: s.place.summaries.filter fun x => x.1 ≠ f.srcDev }

def execSummary (l : Fin 8) (blocks : List LaceBlock) (a : LaceArrival) (s : State) : Host.Outcome State Fault Refusal :=
  .next (s.rxRow l 0x20 ⟨a, blocks⟩ fun f s => s.rxSummary f)

/-- REJECT (R537): taken and acknowledged; the spec gives its receiver nothing else to do. -/
def execReject (l : Fin 8) (blocks : List LaceBlock) (a : LaceArrival) (s : State) : Host.Outcome State Fault Refusal :=
  .next (s.rxRow l 0x21 ⟨a, blocks⟩ fun _ s => s)

/-! ### Time over lace (R533, R540 to R546) -/

/-- R533, R543: the partner's device time, and when it came. -/
def State.timeIn (s : State) (l : Nat) (f : LaceFrame) : State :=
  s.updLink l fun x => { x with beat := { x.beat with
    whole := some ((stampOfWords (f.d 1) (f.d 2)).time.abs, s.time.now) } }

/-- TIME_FRAME (R533, R543). -/
def execTimeFrame (l : Fin 8) (blocks : List LaceBlock) (a : LaceArrival) (s : State) : Host.Outcome State Fault Refusal :=
  .next (s.rxRow l 0x22 ⟨a, blocks⟩ fun f s => s.timeIn l f)

/-- R533: a TIME frame on a link that is UP, every 1 ms. -/
def State.timeOut (s : State) (l : Nat) : State :=
  if (s.lnk l).up ∧ (s.lnk l).timeAt + 1000000 ≤ s.time.now then
    let v := s.nowStamp.bits
    (s.updLink l fun x => { x with timeAt := s.time.now }).laceQueue l
      (s.laceFrame [l] ((s.lnk l).partner.getD 0) 2 0x22 0 [v % 2 ^ 64, v / 2 ^ 64])
  else s

/-- TIME_FRAME_SEND (R533). -/
def execTimeFrameSend (l : Fin 8) (s : State) : Host.Outcome State Fault Refusal := .next (s.timeOut l)

/-- R542, R563: the rank this device advertises: ROOT, RHOPS, RALIGN. -/
def State.rank (s : State) : Nat × Nat × Bool :=
  if s.rd Reg.TM_CFG.SRC [] ≠ 0 ∨ s.rd Reg.LACE_TCFG.ROLE [] = 1 then (s.deviceId, 0, s.time.domain != 0)
  else match s.lace.follow with
    | some l => let b := (s.lnk l).beat; (b.root, min 15 (b.rhops + 1), b.ralign)
    | none => (s.deviceId, 15, s.time.domain != 0)

/-- BEACON_SEND (R540): at a tick whose nanoseconds mod 1,000 are 0; `dep` is how much later, in
2^-16 ns, BCN0's first bit leaves. -/
def State.beacon (s : State) (l dep : Nat) : State :=
  let x := s.lnk l
  if s.awake = true ∧ x.up ∧ x.idleTx = false ∧ s.time.dev.ns.toNat % 1000 = 0 then
    let t := (s.time.dev.ns.toNat * 65536 + dep) % (1000000000 * 65536)
    let (root, hops, align) := s.rank
    let d := match x.beat.d with
      | some d => wrapInt 32 d
      | none => 0x80000000
    (s.laceOut l (.bcn0 (t % 65536) (t / 65536))).laceOut l (.bcn1 d root hops align)
  else s

def execBeaconSend (l : Fin 8) (dep : BitVec 18) (s : State) : Host.Outcome State Fault Refusal :=
  .next (s.beacon l dep.toNat)

/-- R541: a difference of times in units of 2^-16 ns, taken mod 10^9 ns into ±0.5 s. -/
def halfSecond (i : Int) : Int :=
  let m : Int := 1000000000 * 65536
  let r := i % m
  if m ≤ 2 * r then r - m else r

/-- BCN0 (R540, R541): departure by its fields, arrival with its fraction of the present tick. -/
def State.bcn0 (s : State) (l ns frac arr : Nat) : State :=
  if (s.lnk l).up then
    let t3 := ns * 65536 + frac
    let t4 := s.time.dev.ns.toNat * 65536 + arr
    s.updLink l fun x => { x with beat := { x.beat with
      wait := some (t3, t4), d := some (halfSecond ((t4 : Int) - (t3 : Int))) } }
  else s

def execBcn0 (l : Fin 8) (hdr : BitVec 2) (payload : BitVec 64) (arr : BitVec 16) (s : State) :
    Host.Outcome State Fault Refusal :=
  let b : LaceBlock := payload ++ hdr
  .next (if ctrlType b = some 0x55 then s.bcn0 l (blockField b 53 24) (blockField b 23 8) arr.toNat else s)

/-- The mean of a list of integers, rounded to nearest; 0 for none. -/
def meanInt (l : List Int) : Int := if l.isEmpty then 0 else rndNearest (l.foldl (· + ·) 0) l.length

/-- R541: LC_ASYM in units of 2^-16 ns. -/
def State.laceAsym (s : State) (l : Nat) : Int := rndNearest (signedOf 16 (s.rd Reg.LC_ASYM.ASYM [l]) * 65536) 1000

/-- R546: the offset of a link crosses TOL upwards, or TOL / 2 downwards. -/
def State.offsetCheck (s : State) (l : Nat) : State :=
  let b := (s.lnk l).beat
  let tol := s.rd Reg.LACE_TCFG.TOL []
  let on := decide (tol < b.theta.natAbs) && !b.ovf
  let off := decide (2 * b.theta.natAbs < tol) && b.ovf
  if on || off then
    let s := s.updLink l fun x => { x with beat := { x.beat with ovf := on } }
    s.post s.home .event (720 + l) 0x5C 0 s.nowStamp
      [(0x14, 4, wrapInt 32 b.theta), (0x18, 4, wrapInt 32 b.delta), (0x1C, 1, if on then 1 else 0)]
  else s

/-- BCN1 (R541, R542, R546). -/
def State.bcn1 (s : State) (l : Nat) (d root rhops : Nat) (align : Bool) : State :=
  let b := (s.lnk l).beat
  match b.wait with
  | none => s
  | some (t3, t4) =>
    let b := { b with wait := none, root := root, rhops := rhops, ralign := align }
    let b := if d = 0x80000000 then b else
      let dd := signedOf 32 d
      let back := halfSecond ((t4 : Int) - (t3 : Int))
      let th := (rndNearest (dd - back - s.laceAsym l) 2 :: b.thetas).take 64
      let de := (rndNearest (dd + back) 2 :: b.deltas).take 64
      { b with thetas := th, deltas := de, theta := meanInt th, delta := meanInt de }
    (s.updLink l fun x => { x with beat := b }).offsetCheck l

def execBcn1 (l : Fin 8) (hdr : BitVec 2) (typ : BitVec 8) (d : BitVec 32) (rest : BitVec 24) (s : State) :
    Host.Outcome State Fault Refusal :=
  let b := blockParts hdr typ (rest ++ d)
  .next (if ctrlType b = some 0x5A then
      s.bcn1 l (blockField b 39 8) (blockField b 57 40) (blockField b 61 58) (blockField b 62 62 == 1)
    else s)

/-- R542: the link with the lowest ROOT, RHOPS and number among those of a list. -/
def State.bestLink (s : State) : List Nat → Option Nat
  | [] => none
  | l :: ls =>
    let key (l : Nat) : Nat := (s.lnk l).beat.root * 16 + (s.lnk l).beat.rhops
    match s.bestLink ls with
    | none => some l
    | some m => if key l ≤ key m then some l else some m

/-- R542, R563: the link to follow. -/
def State.followChoice (s : State) : Option Nat :=
  if s.rd Reg.TM_CFG.SRC [] ≠ 0 ∨ s.rd Reg.LACE_TCFG.ROLE [] = 1 then none
  else if s.rd Reg.LACE_TCFG.ROLE [] = 2 then
    let l := s.rd Reg.LACE_TCFG.LINK []
    if (s.lnk l).up then some l else none
  else s.bestLink (s.upLinks.filter fun l => decide ((s.lnk l).beat.rhops < 14))

/-- R543: the whole offset of the partner in units of 2^-16 ns: nanoseconds and fraction from the
beacons, whole seconds from the TIME frame. -/
def State.laceOffset (s : State) (l : Nat) : Int :=
  let b := (s.lnk l).beat
  match b.whole with
  | none => b.theta
  | some (t, at_) =>
    let diff : Int := ((t : Int) + (s.time.now : Int) - (at_ : Int) - (s.time.dev.abs : Int)) * 65536
    let m : Int := 1000000000 * 65536
    b.theta + (diff - b.theta + m / 2) / m * m

/-- R543, R558: the whole ticks of a correction in 2^-16 ns, rounded toward zero, and the remainder
in whole ps. -/
def splitCorr (c : Int) : Int × Int :=
  let t := Int.tdiv c 65536
  (t, Int.tdiv ((c - t * 65536) * 1000) 65536)

/-- The 2^-16 ns that a number of ps make, rounded to nearest. -/
def psUnits (p : Int) : Int := rndNearest (p * 65536) 1000

/-- R543, R558: correct device time by c (2^-16 ns): whole ticks now (at most 1,000 backward), the
rest by the tick epoch unless ticks are left over. Answers what was applied. -/
def State.correctBy (s : State) (c : Int) : State × Int :=
  let (t, p) := splitCorr c
  if t < -1000 then (s.correctTicks (-1000), -1000 * 65536)
  else ({ s.correctTicks t with lace.epoch := s.lace.epoch + p }, t * 65536 + psUnits p)

/-- A correction changes what the beacons of every link have measured. -/
def State.shiftThetas (s : State) (c : Int) : State :=
  (List.range 8).foldl (fun s l => s.updLink l fun x =>
    let th := x.beat.thetas.map (· - c)
    { x with beat := { x.beat with thetas := th, theta := meanInt th } }) s

/-- LACE_TIME_ALIGN (R542, R543, R545, R52, R53): choose the link to follow and align to it. -/
def State.laceAlign (s : State) : State :=
  if !s.jobBoundary || s.time.holding then s
  else
    let f := s.followChoice
    let s := if f = s.lace.follow then s else { s with lace.follow := f }.followRecord 0
    match f with
    | none => s
    | some l =>
      let dom : BitVec 2 := if (s.lnk l).beat.ralign then 3 else 0
      let c := s.laceOffset l
      if s.time.domain = 0 then
        if s.idle ∧ c ≠ 0 then
          let (t, p) := splitCorr c
          let s := s.firstAlign (DevTime.ofInt ((s.time.dev.abs : Int) + t)) dom
          { s with lace.epoch := s.lace.epoch + p }.shiftThetas (t * 65536 + psUnits p)
        else { s with time.domain := dom }
      else
        let (s, a) := s.correctBy c
        { s with time.domain := dom }.shiftThetas a

def execLaceTimeAlign (s : State) : Host.Outcome State Fault Refusal := .next s.laceAlign

end Sys2Proof.Machine
end

