-- ==== Sys2Proof/Machine/Monitor.lean ====
section
/-! DEFINITION. The monitor converter (chapter 17) and the edges of marker pins, which trigger
sequencers, external events and injected conversions (R171, R603). -/

namespace Sys2Proof.Machine

/-- R45: background work is paused by throttle action 1. DESIGN CHOICE (log 64): R45 also names a pause by the host,
for which the spec gives no register and no command, so the model has none. -/
def State.bgPaused (s : State) : Bool := s.pwr.acts.any fun a => a.num == 1 && !a.gone

/-- R593: channel codes that name no input are clamped. -/
def monChan (c : Nat) : Nat := if 271 < c ∧ c < 512 then 271 else if 767 < c then 767 else c

/-- R595: the OSR of an ODR code. -/
def monOsr (odr : Nat) : Nat :=
  [150, 300, 600, 1200, 2400, 4800, 9600, 19200, 38400, 96000, 160000, 192000, 384000, 960000, 1920000,
    3840000].getD odr 0

/-- R594: the notch window in modulator samples. -/
def monNotch (n : Nat) : Nat := [0, 192000, 160000, 960000].getD n 0

/-- R596: the filter time in modulator samples at 9.6 MHz. -/
def State.monSamples (s : State) (set : Nat) : Nat :=
  (3 + s.rd Reg.MON_SET.FILT [set]) * monOsr (s.rd Reg.MON_SET.ODR [set]) + monNotch (s.rd Reg.MON_SET.NOTCH [set])

/-- The event ring of monitor records (R610). -/
def State.monCtx (s : State) : Nat := s.rd Reg.MON_CFG.CTX []

/-- R421, R593: the full scale of a channel: pA for a current, nV for a voltage. -/
def State.monScale (s : State) (ch : Nat) : Nat :=
  if ch < 256 then 1250000000 * rangeScale (s.biasOut ch).range
  else if ch < 512 then 2500000000 else 6250000000

/-- R604: a conversion that is in progress is abandoned at its next modulator sample. -/
def State.monFree (s : State) : Nat :=
  match s.mon.cur with
  | some c => match c.runAt with
    | some t => t + ((s.time.now - t) * 6 + 624) / 625 * 625 / 6
    | none => s.time.now
  | none => s.time.now

/-- R598, R599: a conversion starts; settling and start-up run at the same time. -/
def State.monStart (s : State) (kind ch set entry : Nat) (trig : MonTrig) : State :=
  let settle := if s.mon.lastCh = some ch then 0 else s.rd Reg.MON_SET.MSET [set] * 1000
  let up := if s.mon.pd then 50000 else 0
  { s with
    mon.cur := some { kind := kind, ch := ch, set := set, entry := entry, trig := trig
                      scale := s.monScale ch, readyAt := s.monFree + max settle up }
    mon.lastCh := some ch
    mon.pd := false }

/-- The regular scan goes on when nothing holds the converter (R604, R606, R602). -/
def State.monScan (s : State) : State :=
  if s.mon.pass ∧ s.mon.cur = none ∧ s.mon.queued = none ∧ s.mon.calDue = false ∧ s.bgPaused = false
      ∧ s.awake = true then
    let n := s.mon.entry
    s.monStart 1 (s.rd Reg.MON_LIST.CH [n]) (s.rd Reg.MON_LIST.SET [n]) n {}
  else s

/-- What the converter does when a conversion has ended: queued injected conversions first. -/
def State.monNext (s : State) : State :=
  match s.mon.queued with
  | some t => { s with mon.queued := none }.monStart 2 t.ch t.set 0 t
  | none => s.monScan

/-- R599: the modulator powers down when no conversion is due within 100 µs. -/
def State.monPowerDown (s : State) : State :=
  let p := s.rd Reg.MON_SCAN.PERIOD []
  let soon := s.flag Reg.MON_CFG.SCAN_EN [] && (p == 0 || decide (s.mon.due ≤ s.time.now + 100000))
  if s.mon.cur = none ∧ s.mon.calDue = false ∧ soon = false ∧ s.flag Reg.MON_CFG.PD_EN [] then
    { s with mon.pd := true }
  else s

/-- R600: the start of a scan pass, late when the one before had not ended when it was due. -/
def State.monPass (s : State) : State :=
  let p := s.rd Reg.MON_SCAN.PERIOD []
  if s.awake = true ∧ s.flag Reg.MON_CFG.SCAN_EN [] ∧ s.mon.pass = false ∧ (p = 0 ∨ s.mon.due ≤ s.time.now) then
    let late := s.mon.passEnd - s.mon.due
    let s := if 0 < p ∧ 0 < late then
        s.post s.monCtx .event 837 0x70 0 s.nowStamp [(0x14, 4, s.mon.passes), (0x18, 4, late / 1000)]
      else s
    { s with mon.pass := true, mon.entry := 0, mon.due := s.mon.due + p * 1000000 }.monScan
  else s

/-- SCAN_PASS_START (R600). -/
def execScanPassStart (s : State) : Host.Outcome State Fault Refusal := .next s.monPass

/-- MON_MODULATOR_START (R598, R599). -/
def State.monModulator (s : State) : State :=
  match s.mon.cur with
  | some c =>
    if c.runAt = none ∧ c.readyAt ≤ s.time.now then
      { s with mon.cur := some { c with runAt := some s.time.now, code := s.biasCode (c.ch % 256) } }
    else s
  | none => s

/-- R607: whether the code of the current channel that is being converted has changed. -/
def State.monWatch (s : State) : State :=
  match s.mon.cur with
  | some c =>
    if c.runAt.isSome && decide (c.ch < 256) && s.biasCode c.ch != c.code then
      { s with mon.cur := some { c with moved := true } }
    else s
  | none => s

def execMonModulatorStart (s : State) : Host.Outcome State Fault Refusal := .next s.monModulator

/-- R594, R607: the result word, its value and its flags. -/
def monWord (v : Int) (ovr moving : Bool) : Nat :=
  wrapInt 24 v + (if moving then 2 ^ 29 else 0) + (if ovr then 2 ^ 30 else 0) + 2 ^ 31

/-- R607: check a bias current of the scan. -/
def State.monCheck (s : State) (c : MonConv) (v : Int) (moving : Bool) (st : Stamp) : State :=
  if s.flag Reg.MON_LIST.CHECK [c.entry] ∧ c.ch < 256 ∧ moving = false
      ∧ s.rd Reg.MON_CHK.TOL [] < (v - s.biasCode c.ch * 16).natAbs then
    s.post s.monCtx .event 835 0x6F 0 st
      [(0x14, 4, wrapInt 32 v), (0x18, 2, c.ch), (0x1C, 4, wrapInt 32 (s.biasCode c.ch * 16))]
  else s

/-- R600: the pass moves to its next entry, or ends. -/
def State.monAdvance (s : State) : State :=
  let n := s.mon.entry + 1
  if s.rd Reg.MON_CFG.SCAN_LEN [] ≤ n then
    { s with mon.entry := 0, mon.pass := false, mon.passes := s.mon.passes + 1, mon.passEnd := s.time.now }
  else { s with mon.entry := n }

/-- R594, R596: a conversion ends with the input `v` (pA of a current channel, nV of a voltage). -/
def State.monEnd (s : State) (v : Int) : State :=
  match s.mon.cur with
  | none => s
  | some c =>
    match c.runAt with
    | none => s
    | some t =>
      if c.kind = 3 ∨ (s.time.now - t) * 6 < s.monSamples c.set * 625 then s
      else
        let r := rndNearest (v * 8388608) c.scale
        let x := satInt 24 r
        let moving := c.moved || decide (c.ch < 256) && s.biasCode c.ch != c.code
        let last := t + s.monSamples c.set * 625 / 6
        let st := s.stampAt last 0
        let fl := (if r = x then 0 else 1) + (if moving then 2 else 0)
        let w := BitVec.ofNat 32 (monWord x (decide (r ≠ x)) moving)
        let body := [(0x14, 4, wrapInt 32 x), (0x18, 2, c.ch), (0x1A, 1, c.set), (0x1B, 1, fl)]
        let s := { s with mon.cur := none }
        let s :=
          if c.kind = 2 then
            { s with mon.ires := w }.post s.monCtx .event 833 0x6D 0 st
              (body ++ [(0x1C, 4, st.time.abs - c.trig.stamp.time.abs)])
          else
            ((({ s with mon.res := Table.set 0 s.mon.res c.entry w }.post s.monCtx .event 832 0x6C 0 st
              (body ++ [(0x1C, 1, c.entry), (0x1D, 3, s.mon.passes)])).monCheck c x moving st).monAdvance)
        s.monNext.monPowerDown

/-- MON_CONVERSION_END (R594, R596, R600, R607). -/
def execMonConversionEnd (v : Int) (s : State) : Host.Outcome State Fault Refusal := .next (s.monEnd v)

/-! ### Injected conversions (R603 to R606) -/

/-- R604, R605: an injected trigger starts, queues, or overruns. `coarse` marks a coarse stamp. -/
def State.monTrigger (s : State) (t : MonTrig) (coarse : Bool) : State :=
  let start (s : State) : State := s.monStart 2 t.ch t.set 0 t
  if !s.awake then s else match s.mon.cur with
  | some c =>
    if c.kind = 2 then
      if s.mon.queued = none then { s with mon.queued := some t }
      else
        let s := s.count Reg.MON_STAT.INJ_OVR []
        s.post s.monCtx .event 834 0x6E (if coarse then 1 else 0) t.stamp
          [(0x14, 1, t.tsrc), (0x18, 2, s.rd Reg.MON_STAT.INJ_OVR [])]
    else if c.kind = 3 then start { s with mon.calDue := true }
    else start s
  | none => start s

/-- R603: a write of MON_INJ with GO; its fields are checked on their own (R459). -/
def State.monGo (s : State) (v : Nat) : State :=
  let ch := bitsOf v 9 0
  let s := if monChan ch = ch then s else
    s.logClamp s.home (fieldId 0 Reg.MON_INJ.CH []) 0 ch (monChan ch) s.coarseStamp true
  if bitOf v 31 then
    s.monTrigger { ch := monChan ch, set := bitsOf v 13 12, tsrc := 0, stamp := s.coarseStamp } true
  else s

/-- MON_INJ_GO (R603, R604, R605). -/
def execMonInjGo (value : Word) (s : State) : Host.Outcome State Fault Refusal := .next (s.gate (s.monGo value.toNat))

/-- R603: an edge from a source that MON_TRIG may select. -/
def State.monSource (s : State) (tsrc : Nat) (st : Stamp) : State :=
  if s.rd Reg.MON_TRIG.TSRC [] = tsrc then
    s.monTrigger { ch := s.rd Reg.MON_TRIG.TCH [], set := s.rd Reg.MON_TRIG.TSET [], tsrc := tsrc, stamp := st } false
  else s

/-- R602: background work pauses; the regular conversion is abandoned. -/
def State.monPause (s : State) : State :=
  match s.mon.cur with
  | some c => if c.kind = 1 then { s with mon.cur := none } else s
  | none => s

/-- R601: a commit that changes the scan abandons it; the next pass restarts at entry 0. -/
def State.monRestart (s : State) : State :=
  { s.monPause with mon.pass := false, mon.entry := 0, mon.due := s.time.now }

/-! ### Marker edges -/

/-- MARKER_EDGE (R171, R229, R603): a rising edge on a marker pin, stamped with its tick. -/
def State.markerEdge (s : State) (pin : Nat) : State :=
  let q := pin / 16
  let ks := (List.range 16).map (q * 16 + ·)
  (s.sendEdge ks (pin % 16 + 1) ⟨s.nowStamp, s.time.now⟩).monSource (pin + 1) s.nowStamp

def execMarkerEdge (pin : Fin 64) (s : State) : Host.Outcome State Fault Refusal := .next (s.markerEdge pin)

end Sys2Proof.Machine
end

