-- ==== Sys2Proof/Machine/Net.lean ====
section
/-! DEFINITION. Network time: PTP ports, the servo of two domains, the 1 PPS input, and the pulse
timers (chapter 15). Times are in units of 2^-16 ns unless a name says ticks. -/

namespace Sys2Proof

/-- sourcePortIdentity as one number. -/
def PtpMsg.id (m : PtpMsg) : Nat := m.clock.toNat * 65536 + m.port.toNat

/-- The timestamp field. -/
def PtpMsg.stamp (m : PtpMsg) : Int := ((m.sec.toNat * 1000000000 + m.ns.toNat) * 65536 : Nat)

/-- A message that carries a time: seconds and nanoseconds in the field, the rest in `corr`. -/
def PtpMsg.withTime (m : PtpMsg) (t : Int) : PtpMsg :=
  let n := (t % ((2 ^ 48 * 1000000000 * 65536 : Nat) : Int)).toNat
  { m with sec := BitVec.ofNat 48 (n / 65536 / 1000000000), ns := BitVec.ofNat 32 (n / 65536 % 1000000000)
           corr := m.corr + (n % 65536 : Nat) }

end Sys2Proof

namespace Sys2Proof.Machine

/-! ### Ports and messages (R549 to R555) -/

def State.port (s : State) (n : Nat) : NetPort := s.net.ports[n]?.getD {}

def State.updPort (s : State) (n : Nat) (f : NetPort → NetPort) : State :=
  { s with net.ports := s.net.ports.set! n (f (s.port n)) }

def State.portDom (s : State) (n d : Nat) : PtpPort := (s.port n).dom[d]?.getD {}

def State.updPortDom (s : State) (n d : Nat) (f : PtpPort → PtpPort) : State :=
  s.updPort n fun x => { x with dom := x.dom.set! d (f (x.dom[d]?.getD {})) }

def State.domSt (s : State) (d : Nat) : DomSt := s.net.doms[d]?.getD {}

def State.updDom (s : State) (d : Nat) (f : DomSt → DomSt) : State :=
  { s with net.doms := s.net.doms.set! d (f (s.domSt d)) }

/-- R551: the mode of port n in domain d: 0 OFF, 1 SLAVE, 2 MASTER, 3 TC. -/
def State.ptpMode (s : State) (n d : Nat) : Nat :=
  if d = 0 then s.rd Reg.TP_CFG.MODE_A [n] else s.rd Reg.TP_CFG.MODE_B [n]

/-- The port measures path delay peer to peer in the domain. -/
def State.peerDelay (s : State) (n d : Nat) : Bool :=
  if d = 0 then s.flag Reg.TP_CFG.DLY_A [n] else s.flag Reg.TP_CFG.DLY_B [n]

def State.netOut (s : State) (n : Nat) (o : NetOut) : State := { s with net.out := (n, o) :: s.net.out }

/-- R549, R553: how port n carries a message: event messages to UDP port 319, the rest to 320; the address of the
peer delay mechanism for its own messages. A one-step Sync over UDP/IPv4 has a zero checksum, and over UDP/IPv6 it
has two bytes appended. -/
def State.via (s : State) (n : Nat) (m : PtpMsg) : PtpVia :=
  let tr := s.rd Reg.TP_CFG.TRANS [n]
  let t := m.mtype.toNat
  let one := t == 0 && s.flag Reg.TP_CFG.ONE_STEP [n]
  { trans := tr, peer := t == 2 || t == 3 || t == 10, udp := if tr = 0 then none else some (if t < 4 then 319 else 320)
    pad := if one ∧ tr = 2 then 2 else 0, zeroSum := one && tr == 1 }

/-- Port n sends a PTP message of domain d. -/
def State.ptpOut (s : State) (n d : Nat) (m : PtpMsg) : State := s.netOut n (.ptp d (s.via n m) m)

/-- An interval of 2^e s in ticks, for a signed 4-bit exponent. -/
def logTicks (e : Nat) : Nat :=
  let i := signedOf 4 e
  if i < 0 then 1000000000 / 2 ^ i.natAbs else 1000000000 * 2 ^ i.natAbs

/-- R551: an interval since a last sending has passed. -/
def State.intervalOver (s : State) (last : Option Nat) (e : Nat) : Bool :=
  match last with
  | none => true
  | some t => decide (t + logTicks e ≤ s.time.now)

/-- R551: the clockIdentity of a port. -/
def State.clockId (s : State) (n : Nat) : Nat :=
  let mac := (s.word .TP_MAC_LO [n]).toNat + s.rd Reg.TP_MAC_HI.MAC [n] * 2 ^ 32
  mac / 2 ^ 24 * 2 ^ 40 + 0xFFFE * 2 ^ 24 + mac % 2 ^ 24

/-- A message of this port in a domain; its portNumber is 1 (log 14). -/
def State.ptpMsg (s : State) (n d mtype seq : Nat) : PtpMsg :=
  { mtype := BitVec.ofNat 4 mtype, seq := BitVec.ofNat 16 seq, clock := BitVec.ofNat 64 (s.clockId n), port := 1
    domain := BitVec.ofNat 8 (s.rd Reg.DOM_CFG.NUMBER [d]), sdo := BitVec.ofNat 12 (s.rd Reg.DOM_CFG.SDOID [d]) }

/-- R552, R56: a moment of the present tick, counted in ticks and in device time. -/
def State.tickTime (s : State) (frac : BitVec 16) : Int := (s.time.now * 65536 + frac.toNat : Nat)
def State.devTime (s : State) (frac : BitVec 16) : Int := (s.time.dev.abs * 65536 + frac.toNat : Nat)

/-- R574: a servo record. -/
def State.servoRecord (s : State) (d cause : Nat) (est : Int) : State :=
  s.postCoarse s.home (769 + d) 0x60 0 [(0x14, 1, (s.domSt d).st), (0x15, 1, cause), (0x18, 4, wrapInt 32 (satInt 32 est))]

/-! ### The servo (R556 to R560) -/

/-- R557: the mean of the last 2^AVG samples. -/
def State.meanOf (s : State) (l : List (Int × Nat)) : Int :=
  meanInt ((l.take (2 ^ s.rd Reg.TM_SERVO.AVG [])).map (·.1))

def State.syncEstimate (s : State) (d : Nat) : Int := s.meanOf (s.domSt d).samples

/-- R557, R564: a domain's estimate. -/
def State.estimate (s : State) (d : Nat) : Int :=
  if s.net.ppsPhase ∧ s.net.active = d + 1 ∧ (s.domSt d).pps ≠ [] then s.meanOf (s.domSt d).pps
  else s.syncEstimate d

/-- R557: a sample of domain d from port n. -/
def State.addSample (s : State) (n d : Nat) (x : Int) : State :=
  let e := s.syncEstimate d
  let m := s.domSt d
  if m.st = 2 ∧ (s.rd Reg.TM_SERVO.OUTLIER [] * 100 * 65536 : Nat) < (x - e).natAbs then
    let s := s.count Reg.TP_CNT.OUTL [n]
    if 3 ≤ m.rej then
      (s.updDom d fun m => { m with st := 1, samples := [], pps := [], rej := 0 }).servoRecord d 3 0
    else s.updDom d fun m => { m with rej := m.rej + 1 }
  else
    let s := s.updDom d fun m => { m with samples := ((x, s.time.now) :: m.samples).take 64, rej := 0, fresh := true }
    if m.st ≠ 2 ∧ 2 ≤ (s.domSt d).samples.length then
      let s := s.updDom d fun m => { m with st := 2 }
      s.servoRecord d 1 (s.estimate d)
    else s

/-- R556, R560: a Sync is accepted: the domain is heard again. -/
def State.syncHeard (s : State) (d : Nat) : State :=
  let m := s.domSt d
  let s := s.updDom d fun m => { m with lastSync := s.time.now }
  if m.st = 0 then s.updDom d fun m => { m with st := 1 }
  else if m.st = 3 then
    if 2 ≤ m.samples.length then
      let s := s.updDom d fun m => { m with st := 2 }
      s.servoRecord d 1 (s.estimate d)
    else s.updDom d fun m => { m with st := 1 }
  else s

/-- R556: TP_ASYM, the delayAsymmetry of a port: added to the correction of what it receives, and taken from that
of the delay requests it sends. -/
def State.ptpAsym (s : State) (n : Nat) : Int := signedOf 32 (s.rd Reg.TP_ASYM.ASYM [n])

/-- R556: the offset sample of a Sync whose arrival and corrected departure are known. -/
def State.syncPair (s : State) (n d : Nat) (t2 dev t1 : Int) : State :=
  let t1 := t1 + s.ptpAsym n
  let s := s.updPortDom n d fun p => { p with pair := some (t2, t1), sync := none }
  match (s.portDom n d).delay with
  | some dl => s.addSample n d (dev - t1 - dl)
  | none => s

/-- R560: the selected master of port n is lost, and the domain with it. -/
def State.masterLost (s : State) (n d cause : Nat) : State :=
  let s := s.updPortDom n d fun p => { p with master := none, parent := none, sync := none }
  if (s.domSt d).st = 3 then s
  else (s.updDom d fun m => { m with st := 3 }).servoRecord d cause (s.estimate d)

/-! ### Violations (R570, R571) -/

/-- R571: the peer is quarantined. -/
def NetPort.quarantined (p : NetPort) (id : Nat) : Bool := p.peers.any fun x => x.id == id && x.quarTo != 0

/-- R570, R571: a violation, its record, and the peer's quarantine. -/
def State.ptpVio (s : State) (n cause : Nat) (m : PtpMsg) (frac : BitVec 16) : State :=
  let s := s.count Reg.TP_CNT.VIO [n]
  let st : Stamp := { s.nowStamp with frac := frac }
  let s := s.post s.home .event (774 + n) 0x62 0 st
    [(0x14, 1, cause), (0x15, 1, m.mtype.toNat), (0x16, 2, m.seq.toNat), (0x18, 4, m.clock.toNat), (0x1C, 2, m.port.toNat)]
  let win := s.rd Reg.TM_VIO.VIO_WIN [] * 100000
  let ps := (s.port n).peers
  let old := (ps.find? fun x => x.id == m.id).getD { id := m.id }
  let vios := s.time.now :: old.vios.filter fun t => decide (s.time.now < t + win)
  let quar := decide (s.rd Reg.TM_VIO.VIO_LIM [] ≤ vios.length)
  let x : PtpPeer := { id := m.id, vios := vios
                       quarTo := if quar then s.time.now + s.rd Reg.TM_VIO.QHOLD [] * 10000000 else 0 }
  let ps := if ps.any fun y => y.id == m.id then ps.map fun y => if y.id = m.id then x else y else (x :: ps).take 16
  let s := s.updPort n fun p => { p with peers := ps }
  if quar then
    let s := s.postCoarse s.home (774 + n) 0x63 0 [(0x14, 4, vios.length), (0x18, 4, m.clock.toNat), (0x1C, 2, m.port.toNat)]
    (List.range 2).foldl (fun s d => if (s.portDom n d).master = some m.id then s.masterLost n d 4 else s) s
  else s

/-- PTP_QUARANTINE_END (R571). -/
def State.ptpQuarEnd (s : State) (n id : Nat) : State :=
  s.updPort n fun p => { p with peers := p.peers.map fun x =>
    if x.id = id ∧ x.quarTo ≠ 0 ∧ x.quarTo ≤ s.time.now then { x with quarTo := 0, vios := [] } else x }

def execPtpQuarantineEnd (n : Fin 2) (peer : BitVec 80) (s : State) : Host.Outcome State Fault Refusal :=
  .next (s.ptpQuarEnd n peer.toNat)

/-- R570 cause 3: messageTypes that IEEE 1588-2019 reserves. -/
def ptpReserved (t : Nat) : Bool := decide (4 ≤ t ∧ t ≤ 7) || decide (14 ≤ t)

/-- R570 cause 5: the message is of the other delay mechanism. -/
def ptpWrongDelay (t : Nat) (peer : Bool) : Bool :=
  if peer then t == 1 || t == 9 else t == 2 || t == 3 || t == 10

/-- The configured domain of a message. -/
def State.ptpDomain (s : State) (m : PtpMsg) : Option Nat :=
  (List.range 2).find? fun d => s.rd Reg.DOM_CFG.NUMBER [d] == m.domain.toNat && s.rd Reg.DOM_CFG.SDOID [d] == m.sdo.toNat

/-- R550, R551, R570: what a message of type t meets on port n before its own meaning `k`, which is
given the domain and the port's mode. -/
def State.ptpRx (s : State) (n t : Nat) (m : PtpMsg) (frac : BitVec 16) (k : Nat → Nat → State) : State :=
  if !s.flag Reg.TP_CFG.EN [n] || !(s.port n).link || (s.port n).quarantined m.id then s
  else if m.major ≠ 2 then s.ptpVio n 1 m frac
  else if m.badLen then s.ptpVio n 2 m frac
  else if ptpReserved m.mtype.toNat then s.ptpVio n 3 m frac
  else if m.mtype.toNat ≠ t then s
  else match s.ptpDomain m with
    | none => s.count Reg.TP_CNT.IGN [n]
    | some d =>
      if s.ptpMode n d = 0 then s
      else if 1000000000 ≤ m.ns.toNat then s.ptpVio n 4 m frac
      else if ptpWrongDelay t (s.peerDelay n d) then s.ptpVio n 5 m frac
      else k d (s.ptpMode n d)

/-- R555: forward a message on the other port, where that port can send. -/
def State.ptpForward (s : State) (n d : Nat) (m : PtpMsg) : State :=
  if s.flag Reg.TP_CFG.EN [1 - n] && (s.port (1 - n)).link then s.ptpOut (1 - n) d m else s

/-! ### Received messages -/

/-- PTP_SYNC (R552, R555, R556): `res` is the residence time of a forwarded Sync. -/
def State.ptpSync (s : State) (n : Nat) (m : PtpMsg) (frac : BitVec 16) (res d mode : Nat) : State :=
  let p := s.portDom n d
  if mode = 3 then
    if m.twoStep then
      (s.updPortDom n d fun p => { p with resid := some (m.id, m.seq.toNat, res) }).ptpForward n d m
    else s.ptpForward n d { m with corr := m.corr + res }
  else if mode = 1 ∧ p.master = some m.id then
    let s := s.syncHeard d
    let t2 := s.tickTime frac
    let dev := s.devTime frac
    if m.twoStep then s.updPortDom n d fun p => { p with sync := some (m.seq.toNat, t2, dev, m.corr) }
    else s.syncPair n d t2 dev (m.stamp + m.corr)
  else s

def execPtpSync (n : Fin 2) (m : PtpMsg) (frac : BitVec 16) (res : Word) (s : State) :
    Host.Outcome State Fault Refusal :=
  .next (s.ptpRx n 0 m frac fun d mode => s.ptpSync n m frac res.toNat d mode)

/-- FOLLOW_UP (R554, R555, R556). -/
def State.followUp (s : State) (n : Nat) (m : PtpMsg) (d mode : Nat) : State :=
  let p := s.portDom n d
  if mode = 3 then
    match p.resid with
    | some (i, q, r) =>
      if i = m.id ∧ q = m.seq.toNat then
        (s.updPortDom n d fun p => { p with resid := none }).ptpForward n d { m with corr := m.corr + r }
      else s.ptpForward n d m
    | none => s.ptpForward n d m
  else if mode = 1 ∧ p.master = some m.id then
    match p.sync with
    | some (q, t2, dev, c) => if q = m.seq.toNat then s.syncPair n d t2 dev (m.stamp + c + m.corr) else s
    | none => s
  else s

def execFollowUp (n : Fin 2) (m : PtpMsg) (s : State) : Host.Outcome State Fault Refusal :=
  .next (s.ptpRx n 8 m 0 fun d mode => s.followUp n m d mode)

/-- DELAY_REQ (R551, R555). -/
def State.delayReq (s : State) (n : Nat) (m : PtpMsg) (frac : BitVec 16) (res d mode : Nat) : State :=
  if mode = 3 then s.ptpForward n d { m with corr := m.corr + res }
  else if mode = 2 then
    let t := s.devTime frac + s.estimate d
    let r : PtpMsg := { s.ptpMsg n d 9 m.seq.toNat with req := BitVec.ofNat 80 m.id }
    let r := r.withTime t
    s.ptpOut n d { r with corr := m.corr - r.corr }
  else s

def execDelayReq (n : Fin 2) (m : PtpMsg) (frac : BitVec 16) (res : Word) (s : State) :
    Host.Outcome State Fault Refusal :=
  .next (s.ptpRx n 1 m frac fun d mode => s.delayReq n m frac res.toNat d mode)

/-- R570 cause 6: a measured path delay, twice over, is taken when it lies in 0 to 1 ms. -/
def State.pathDelay (s : State) (n d : Nat) (m : PtpMsg) (frac : BitVec 16) (twice : Int) : State :=
  if twice < 0 ∨ 2 * 1000000 * 65536 < twice then s.ptpVio n 6 m frac
  else s.updPortDom n d fun p => { p with delay := some (rndNearest twice 2), req := none, presp := none }

/-- The message answers this port's request. -/
def State.ours (s : State) (n d : Nat) (m : PtpMsg) : Option Int :=
  match (s.portDom n d).req with
  | some (q, t) => if q = m.seq.toNat ∧ m.req.toNat = s.clockId n * 65536 + 1 then some t else none
  | none => none

/-- DELAY_RESP (R556). -/
def State.delayResp (s : State) (n : Nat) (m : PtpMsg) (d mode : Nat) : State :=
  if mode = 3 then s.ptpForward n d m
  else if mode = 1 ∧ (s.portDom n d).master = some m.id then
    match s.ours n d m, (s.portDom n d).pair with
    | some t3, some (t2, t1) => s.pathDelay n d m 0 ((t2 - t3) + (m.stamp - t1) - m.corr)
    | _, _ => s
  else s

def execDelayResp (n : Fin 2) (m : PtpMsg) (s : State) : Host.Outcome State Fault Refusal :=
  .next (s.ptpRx n 9 m 0 fun d mode => s.delayResp n m d mode)

/-- PDELAY_REQ (R551, R554): answered in every mode but OFF; `turn` is the time from its arrival to
the departure of the answer. -/
def State.pdelayReq (s : State) (n : Nat) (m : PtpMsg) (frac : BitVec 16) (turn d : Nat) : State :=
  let r : PtpMsg := { s.ptpMsg n d 3 m.seq.toNat with req := BitVec.ofNat 80 m.id }
  if s.flag Reg.TP_CFG.ONE_STEP [n] then s.ptpOut n d { r with corr := m.corr + turn }
  else
    let t2 := s.devTime frac
    let a := r.withTime t2
    let b : PtpMsg := { r with mtype := 10, corr := m.corr }
    (s.ptpOut n d { a with twoStep := true, corr := -a.corr }).ptpOut n d (b.withTime (t2 + turn))

def execPdelayReq (n : Fin 2) (m : PtpMsg) (frac : BitVec 16) (turn : Word) (s : State) :
    Host.Outcome State Fault Refusal :=
  .next (s.ptpRx n 2 m frac fun d _ => s.pdelayReq n m frac turn.toNat d)

/-- PDELAY_RESP (R554, R556). -/
def State.pdelayResp (s : State) (n : Nat) (m : PtpMsg) (frac : BitVec 16) (d : Nat) : State :=
  match s.ours n d m with
  | none => s
  | some t1 =>
    let t4 := s.tickTime frac
    let c := m.corr + s.ptpAsym n
    if m.twoStep then s.updPortDom n d fun p => { p with presp := some (t4, m.stamp, c) }
    else s.pathDelay n d m frac (t4 - t1 - c)

def execPdelayResp (n : Fin 2) (m : PtpMsg) (frac : BitVec 16) (s : State) : Host.Outcome State Fault Refusal :=
  .next (s.ptpRx n 3 m frac fun d _ => s.pdelayResp n m frac d)

/-- PDELAY_RESP_FOLLOW_UP (R554, R556). -/
def State.pdelayFollow (s : State) (n : Nat) (m : PtpMsg) (d : Nat) : State :=
  match s.ours n d m, (s.portDom n d).presp with
  | some t1, some (t4, t2, c) => s.pathDelay n d m 0 ((t4 - t1) - (m.stamp - t2) - c - m.corr)
  | _, _ => s

def execPdelayRespFollowUp (n : Fin 2) (m : PtpMsg) (s : State) : Host.Outcome State Fault Refusal :=
  .next (s.ptpRx n 10 m 0 fun d _ => s.pdelayFollow n m d)

/-- ANNOUNCE (R551): two consecutive Announce messages select a master when none is selected. -/
def State.announce (s : State) (n : Nat) (m : PtpMsg) (d mode : Nat) : State :=
  let p := s.portDom n d
  if mode = 3 then s.ptpForward n d m
  else if mode ≠ 1 then s
  else match p.master with
    | some i =>
      if i = m.id then s.updPortDom n d fun p => { p with lastAnn := s.time.now, parent := some m } else s
    | none =>
      if p.cands.contains (m.id, (m.seq - 1).toNat) then
        s.updPortDom n d fun p => { p with
          master := some m.id, cands := [], lastAnn := s.time.now, parent := some m
          delay := if s.peerDelay n d then p.delay else none, pair := none, req := none }
      else s.updPortDom n d fun p => { p with
        cands := (m.id, m.seq.toNat) :: p.cands.filter fun c => c.1 ≠ m.id }

def execAnnounce (n : Fin 2) (m : PtpMsg) (s : State) : Host.Outcome State Fault Refusal :=
  .next (s.ptpRx n 11 m 0 fun d mode => s.announce n m d mode)

/-- PTP_IGNORED_MESSAGE (R550): dropped, or ignored, and counted. -/
def execPtpIgnoredMessage (n : Fin 2) (drop : Bool) (s : State) : Host.Outcome State Fault Refusal :=
  .next (if s.flag Reg.TP_CFG.EN [n.val] then s.count (if drop then Reg.TP_CNT.DROP else Reg.TP_CNT.IGN) [n.val] else s)

/-! ### Sent messages (R551, R553, R554) -/

/-- The port sends in this mode. -/
def State.sends (s : State) (n d mode : Nat) : Bool :=
  s.flag Reg.TP_CFG.EN [n] && (s.port n).link && s.ptpMode n d == mode

/-- SYNC_SEND (R551, R553, R554): at the domain's interval. -/
def State.syncSend (s : State) (n d : Nat) (frac : BitVec 16) : State :=
  if s.sends n d 2 && s.intervalOver (s.portDom n d).syncAt (s.rd Reg.DOM_CFG.LOG_SYNC [d]) then
    let q := (s.portDom n d).nextSeq.toNat
    let t := s.devTime frac + s.estimate d
    let m := (s.ptpMsg n d 0 q).withTime t
    let s := s.updPortDom n d fun p => { p with nextSeq := p.nextSeq + 1, syncAt := some s.time.now }
    if s.flag Reg.TP_CFG.ONE_STEP [n] then s.ptpOut n d m
    else (s.ptpOut n d { m with twoStep := true, corr := 0 }).ptpOut n d { m with mtype := 8 }
  else s

def execSyncSend (n d : Fin 2) (frac : BitVec 16) (s : State) : Host.Outcome State Fault Refusal :=
  .next (s.syncSend n d frac)

/-- R551: the data of an Announce: the parent's of the domain's SLAVE port, or the device's own. -/
def State.announceMsg (s : State) (n d : Nat) : PtpMsg :=
  let m := s.ptpMsg n d 11 (s.portDom n d).annSeq.toNat
  match (if s.ptpMode (1 - n) d = 1 then (s.portDom (1 - n) d).parent else none) with
  | some p => { m with gm := p.gm, cls := p.cls, timeSource := p.timeSource, steps := p.steps + 1 }
  | none => { m with gm := BitVec.ofNat 64 (s.clockId n), cls := 248, timeSource := 0xA0, steps := 0 }

/-- R551: an Announce at the domain's interval. -/
def State.announceSend (s : State) (n d : Nat) : State :=
  if s.sends n d 2 && s.intervalOver (s.portDom n d).annAt (s.rd Reg.DOM_CFG.LOG_ANN [d]) then
    (s.ptpOut n d (s.announceMsg n d)).updPortDom n d fun p => { p with annSeq := p.annSeq + 1, annAt := some s.time.now }
  else s

/-- ANNOUNCE_SEND (R551). -/
def execAnnounceSend (n d : Fin 2) (s : State) : Host.Outcome State Fault Refusal := .next (s.announceSend n d)

/-- DELAY_REQ_SEND (R551, R556): Delay_Req to a selected master, or Pdelay_Req, at the LOG_DREQ interval. -/
def State.delayReqSend (s : State) (n d : Nat) (frac : BitVec 16) : State :=
  let p := s.portDom n d
  let peer := s.peerDelay n d
  if s.sends n d 1 && (peer || p.master.isSome) && s.intervalOver p.dreqAt (s.rd Reg.DOM_CFG.LOG_DREQ [d]) then
    let q := p.nextSeq
    let s := s.updPortDom n d fun p => { p with
      nextSeq := q + 1, req := some (q.toNat, s.tickTime frac), presp := none, dreqAt := some s.time.now }
    s.ptpOut n d { s.ptpMsg n d (if peer then 2 else 1) q.toNat with corr := -s.ptpAsym n }
  else s

def execDelayReqSend (n d : Fin 2) (frac : BitVec 16) (s : State) : Host.Outcome State Fault Refusal :=
  .next (s.delayReqSend n d frac)

/-- MEMBERSHIP_REPORT (R550): at link up and every 60 s; only the UDP transports have reports. -/
def State.membership (s : State) (n : Nat) : State :=
  if s.flag Reg.TP_CFG.EN [n] && (!(s.port n).link || decide ((s.port n).reportAt + 60000000000 ≤ s.time.now)) then
    let s := s.updPort n fun p => { p with link := true, reportAt := s.time.now }
    match s.rd Reg.TP_CFG.TRANS [n] with
    | 1 => s.netOut n (.report 0)
    | 2 => s.netOut n (.report 1)
    | _ => s
  else s

def execMembershipReport (n : Fin 2) (s : State) : Host.Outcome State Fault Refusal := .next (s.membership n)

/-- TIMING_PORT_LINK_DOWN (R550). -/
def execTimingPortLinkDown (n : Fin 2) (s : State) : Host.Outcome State Fault Refusal :=
  .next (s.updPort n fun p => { p with link := false })

/-! ### Loss, corrections and the switch (R558 to R562) -/

/-- ANNOUNCE_TIMEOUT (R551, R560). -/
def State.annTimeout (s : State) (n d : Nat) : State :=
  let p := s.portDom n d
  if p.master.isSome ∧ p.lastAnn + 3 * logTicks (s.rd Reg.DOM_CFG.LOG_ANN [d]) ≤ s.time.now then s.masterLost n d 4
  else s

def execAnnounceTimeout (n d : Fin 2) (s : State) : Host.Outcome State Fault Refusal := .next (s.annTimeout n d)

/-- DOMAIN_LOST (R560). -/
def State.domainLost (s : State) (d : Nat) : State :=
  let m := s.domSt d
  if (m.st = 1 ∨ m.st = 2) ∧ m.lastSync + 3 * logTicks (s.rd Reg.DOM_CFG.LOG_SYNC [d]) ≤ s.time.now then
    (s.updDom d fun m => { m with st := 3 }).servoRecord d 2 (s.estimate d)
  else s

def execDomainLost (d : Fin 2) (s : State) : Host.Outcome State Fault Refusal := .next (s.domainLost d)

/-- R558: the samples of both domains after device time has moved by c. -/
def State.shiftSamples (s : State) (c : Int) : State :=
  (List.range 2).foldl (fun s d => s.updDom d fun m => { m with
    samples := m.samples.map fun x => (x.1 + c, x.2), pps := m.pps.map fun x => (x.1 + c, x.2) }) s

/-- R558: the estimate is at least CMIN. -/
def State.worthCorrecting (s : State) (e : Int) : Bool :=
  decide (s.rd Reg.TM_SERVO.CMIN [] * 65536 ≤ e.natAbs * 1000)

/-- What a correction by c makes, in ps (R53 allows 1,000 ticks backward). -/
def corrPs (c : Int) : Int :=
  let (t, p) := splitCorr c
  if t < -1000 then -1000000 else t * 1000 + p

/-- R558: correct device time by −e. -/
def State.applyEstimate (s : State) (e : Int) : State :=
  let (s, a) := s.correctBy (-e)
  s.shiftSamples a

/-- TIME_CORRECT (R53, R558): at a job boundary, or while idle after a new sample or for the rest of a backward
correction. -/
def State.timeCorrect (s : State) : State :=
  let d := s.net.active - 1
  if s.net.active = 0 ∨ s.time.domain = 0 ∨ (s.domSt d).st ≠ 2 ∨ !s.jobBoundary ∨ s.time.holding then s
  else
    let e := s.estimate d
    if s.worthCorrecting e ∧ (s.job.phase = .armed ∨ (s.domSt d).fresh = true) then
      (s.updDom d fun m => { m with fresh := decide ((splitCorr (-e)).1 < -1000) }).applyEstimate e
    else s

def execTimeCorrect (s : State) : Host.Outcome State Fault Refusal := .next s.timeCorrect

/-- R574: a domain switch record. A correction that four bytes cannot hold is a value the spec does
not state (log 8). -/
def State.switchRecord (s : State) (from_ dst cause : Nat) (ps : Int) : State :=
  let v := if ps = satInt 32 ps then wrapInt 32 ps else (Config.freeWord s.freeCtr).toNat
  (s.post s.home .event 771 0x61 0 s.nowStamp [(0x14, 1, from_), (0x15, 1, dst), (0x16, 1, cause), (0x18, 4, v)]).draw

/-- R559, R561: switch to domain `to` (1 A, 2 B) with its estimate. -/
def State.switchTo (s : State) (dst cause : Nat) : State :=
  let from_ := s.net.active
  let e := s.estimate (dst - 1)
  let s := { s with net.active := dst, net.switchReq := false, net.ppsPhase := false }
  if s.time.domain = (0 : BitVec 2) then
    let (t, p) := splitCorr (-e)
    let s := s.firstAlign (DevTime.ofInt ((s.time.dev.abs : Int) + t)) (BitVec.ofNat 2 dst)
    let s := { s with lace.epoch := s.lace.epoch + p }.shiftSamples (t * 65536 + psUnits p)
    s.switchRecord from_ dst cause (t * 1000 + p)
  else
    let ok := s.worthCorrecting e
    let s := { s with time.domain := BitVec.ofNat 2 dst }
    (if ok then s.applyEstimate e else s).switchRecord from_ dst cause (if ok then corrPs (-e) else 0)

/-- R561, R562: the switch that is due, if any: the domain to take and its cause. -/
def State.switchDue (s : State) : Option (Nat × Nat) :=
  let src := s.rd Reg.TM_CFG.SRC []
  let a := s.net.active
  if s.net.switchReq ∧ src ≠ 0 ∧ src ≠ a ∧ (s.domSt (src - 1)).st = 2 then some (src, 0)
  else if s.flag Reg.TM_CFG.AUTO [] ∧ a ≠ 0 ∧ (s.domSt (a - 1)).st = 3 ∧ (s.domSt (2 - a)).st = 2 then
    some (3 - a, 1)
  else none

/-- DOMAIN_SWITCH (R559, R561, R562, R563). -/
def State.domainSwitch (s : State) : State :=
  if !s.jobBoundary || s.time.holding then s
  else if s.net.switchReq ∧ s.rd Reg.TM_CFG.SRC [] = 0 then
    let a := s.net.active
    let s := { s with net.active := 0, net.switchReq := false, net.ppsPhase := false }
    if a = 0 then s else s.switchRecord a 0 0 0
  else match s.switchDue with
    | some (dst, cause) => if s.time.domain ≠ 0 ∨ s.idle then s.switchTo dst cause else s
    | none => s

def execDomainSwitch (s : State) : Host.Outcome State Fault Refusal := .next s.domainSwitch

/-! ### The 1 PPS input (R564, R565) -/

/-- R564: an edge's nanoseconds taken into ±0.5 s, minus DLY. -/
def State.ppsOffset (s : State) (frac : BitVec 16) : Int :=
  halfSecond ((s.time.dev.ns.toNat * 65536 + frac.toNat : Nat) : Int)
    - rndNearest (signedOf 16 (s.rd Reg.TM_PPS.DLY []) * 65536) 10

/-- R574: a PPS record. -/
def State.ppsRecord (s : State) (st : Stamp) (coarse what : Nat) : State :=
  s.post s.home .event 776 0x64 coarse st [(0x14, 1, what), (0x18, 4, wrapInt 32 (satInt 32 s.net.ppsOfs))]

/-- R564: a PHASE sample of the active domain, judged against its Sync-based estimate. -/
def State.ppsSample (s : State) (x : Int) : State :=
  let a := s.net.active
  if s.rd Reg.TM_PPS.MODE [] ≠ 2 ∨ a = 0 ∨ 65536000 < (x - s.syncEstimate (a - 1)).natAbs then s
  else { s with net.ppsPhase := true }.updDom (a - 1) fun m => { m with pps := ((x, s.time.now) :: m.pps).take 64, fresh := true }

/-- R564, R565: an edge of the polarity that TM_PPS.EDGE selects. -/
def State.ppsEdge (s : State) (frac : BitVec 16) : State :=
  if s.rd Reg.TM_PPS.MODE [] = 0 then s
  else
    let x := s.ppsOffset frac
    let s := { s with net.ppsOfs := x }
    if 65536000 < x.natAbs then s
    else
      let was := s.net.ppsMiss
      let s := { s with net.ppsOk := true, net.ppsMiss := false, net.ppsLast := s.time.now }
      let s := if was then s.ppsRecord { s.nowStamp with frac := frac } 0 1 else s
      s.ppsSample x

/-- PPS_EDGE (R564, R565). -/
def execPpsEdge (e : PpsEdge) (s : State) : Host.Outcome State Fault Refusal :=
  .next (if s.flag Reg.TM_PPS.EDGE [] = e.falling then s.ppsEdge e.frac else s)

/-- PPS_MISSING (R565): 1.5 s without an accepted edge. -/
def State.ppsMissing (s : State) : State :=
  if s.rd Reg.TM_PPS.MODE [] ≠ 0 ∧ s.net.ppsMiss = false ∧ s.net.ppsLast + 1500000000 ≤ s.time.now then
    let s := { s with net.ppsOk := false, net.ppsMiss := true, net.ppsPhase := false }
    let s := (List.range 2).foldl (fun s d => s.updDom d fun m => { m with pps := [] }) s
    s.ppsRecord s.coarseStamp 1 0
  else s

def execPpsMissing (s : State) : Host.Outcome State Fault Refusal := .next s.ppsMissing

/-! ### Pulse timers (R566 to R569) -/

/-- R569, R575: what a timer drives its pin to; a pin of the awl is not driven. -/
def State.timerPin (s : State) (pin : Nat) (level : Option Bool) : State :=
  if pin = 0 ∨ s.awlPin (pin - 1) then s else s.updPin (pin - 1) fun p => { p with timer := level }

/-- R572: a periodic timer whose WID is at least PER. -/
def State.timerWid (s : State) (i : Nat) : State :=
  let per := max 8 (s.rd Reg.TMR_PER.PER [i])
  let wid := max 1 (s.rd Reg.TMR_WID.WID [i])
  if s.flag Reg.TMR_CFG.MODE [i] ∧ per ≤ wid then
    (s.wr Reg.TMR_WID.WID [i] (per - 1)).logClamp s.home (fieldId 1 Reg.TMR_WID.WID [i]) (fieldId 0 Reg.TMR_PER.PER [i])
      wid (per - 1) s.coarseStamp true
  else s

/-- R573: a pin that a lower-numbered armed timer has. -/
def State.timerClash (s : State) (i : Nat) : State :=
  let pin := s.rd Reg.TMR_CFG.PIN [i]
  match (List.range i).find? fun j => (s.timer j).armed && (s.timer j).pin == pin with
  | some j =>
    if pin = 0 then s
    else (s.wr Reg.TMR_CFG.PIN [i] 0).logClamp s.home (fieldId 1 Reg.TMR_CFG.PIN [i]) (fieldId 0 Reg.TMR_CFG.PIN [j])
      pin 0 s.coarseStamp true
  | none => s

/-- TIMER_ARM (R567, R568, R569, R572, R573). -/
def State.timerArm (s : State) (i : Nat) : State :=
  let s := s.timerPin (s.timer i).pin none
  let s := (s.timerWid i).timerClash i
  let first := (s.rd Reg.TMR_SEC_LO.SEC [i] + s.rd Reg.TMR_SEC_HI.SEC [i] * 2 ^ 32) * 1000000000 + s.rd Reg.TMR_NS.NS [i]
  let bound := s.time.dev.abs + 8
  let per := s.flag Reg.TMR_CFG.MODE [i]
  let low := s.flag Reg.TMR_CFG.POL [i]
  let pin := s.rd Reg.TMR_CFG.PIN [i]
  let s := s.updTimer i fun t => { t with
    armed := true, late := false, periodic := per, polLow := low, pin := pin, next := first
    per := max 8 (s.rd Reg.TMR_PER.PER [i]), wid := max 1 (s.rd Reg.TMR_WID.WID [i]), pulseTo := 0
    lateAt := if !per && decide (first < bound) then some (s.time.now + 8) else none }
  (s.timerPin pin (some low)).timerSkip i bound

def execTimerArm (i : Fin 8) (s : State) : Host.Outcome State Fault Refusal := .next (s.gate (s.timerArm i))

/-- TIMER_DISARM (R572). -/
def State.timerDisarm (s : State) (i : Nat) : State :=
  (s.timerPin (s.timer i).pin none).updTimer i fun t => { t with armed := false, lateAt := none, pulseTo := 0 }

def execTimerDisarm (i : Fin 8) (s : State) : Host.Outcome State Fault Refusal := .next (s.gate (s.timerDisarm i))

/-- R566, R567: the fire time has come. -/
def State.timerDue (s : State) (i : Nat) : Bool :=
  let t := s.timer i
  t.armed && match t.lateAt with
    | some x => decide (x ≤ s.time.now)
    | none => decide (t.next ≤ s.time.dev.abs)

/-- R567: a one-shot that fires late says so. -/
def State.timerLate (s : State) (i : Nat) : State :=
  let t := s.timer i
  if t.lateAt.isSome then
    (s.updTimer i fun t => { t with late := true }).timerRecord i (s.stampOf t.next) 0
      (min 0xFFFFFFFF (s.time.dev.abs - t.next))
  else s

/-- TIMER_FIRE (R566, R567, R568, R171, R174, R603). A late one-shot keeps its fire time as its stamp. -/
def State.timerFire (s : State) (i : Nat) : State :=
  if s.timerDue i then
    let t := s.timer i
    let st := s.stampOf t.next
    let s := s.timerLate i
    let s := s.sendEdge (List.range 64) (17 + i) ⟨st, s.tickOf t.next⟩
    let s := (s.monSource (65 + i) st).timerPin t.pin (some (!t.polLow))
    let s := s.updTimer i fun t => { t with
      cnt := t.cnt + 1, armed := t.periodic, lateAt := none, next := t.next + (if t.periodic then t.per else 0)
      pulseTo := if t.pin = 0 then 0 else s.time.now + t.wid }
    s.timerSkip i s.time.dev.abs
  else s

def execTimerFire (i : Fin 8) (s : State) : Host.Outcome State Fault Refusal := .next (s.timerFire i)

/-- TIMER_PULSE_END (R566, R569). -/
def State.pulseEnd (s : State) (i : Nat) : State :=
  let t := s.timer i
  if t.pulseTo ≠ 0 ∧ t.pulseTo ≤ s.time.now then
    (s.timerPin t.pin (if t.armed then some t.polLow else none)).updTimer i fun t => { t with pulseTo := 0 }
  else s

def execTimerPulseEnd (i : Fin 8) (s : State) : Host.Outcome State Fault Refusal := .next (s.pulseEnd i)

end Sys2Proof.Machine
end

