-- ==== Sys2Proof/Machine/Planes.lean ====
section
/-! DEFINITION. The decision planes: routing, feedback units, decisions and their actions, dual send,
the interlock line, heartbeats and repair (chapter 08). -/

namespace Sys2Proof.Machine

/-! ### Access -/

def State.updPlane (s : State) (p : Fin 2) (f : Plane → Plane) : State :=
  { s with planes.dp := s.planes.dp.set p (f s.planes.dp[p]) }

/-- R332: the plane computes and sends. -/
def State.planeUp (s : State) (p : Fin 2) : Bool := s.planes.dp[p].mode == .up

/-- The plane that counts what both planes meet: DP0, or DP1 when DP0 does not work. -/
def State.counts (s : State) (p : Fin 2) : Bool := p.val == 0 || !s.planeUp 0

/-- R356: a record of plane p. -/
def State.planeRecord (s : State) (p : Fin 2) (kind flags : Nat) (body : List (Nat × Nat × Nat)) (ctx : Nat) : State :=
  s.postCoarse ctx (592 + p.val) kind flags body

/-- R356: a plane state record, with the plane's present state. -/
def State.planeStateRecord (s : State) (p : Fin 2) (cause : Nat) : State :=
  s.planeRecord p 0x3D 0 [(0x14, 1, s.planeState p), (0x15, 1, cause)] s.home

/-- R350: an ownership record. -/
def State.ownerRecord (s : State) (cause : Nat) : State :=
  s.post s.home .event 594 0x3B 0 s.nowStamp [(0x14, 1, s.planes.owner), (0x15, 1, cause)]

/-! ### Emergency mutes (R331, R122) -/

/-- R331: the output channels that an emergency mute group names. -/
def State.emuteOutputs (s : State) (g : Nat) : List Nat :=
  (List.range 224).filter fun k =>
    if k < 160 then let n := chanSource k; bitOf (s.rd Reg.EMG_RF.MASK [g, n / 32]) (n % 32)
    else bitOf (s.rd Reg.EMG_FF.MASK [g, (k - 160) / 32]) ((k - 160) % 32)

/-- R356: an emergency mute record. -/
def State.emuteRecord (s : State) (mask what : Nat) : State :=
  s.post s.jobCtx .event 594 0x40 (if what < 2 ∧ s.job.phase = .inShot then 8 else 0) s.nowStamp
    [(0x14, 2, mask), (0x16, 1, what)]

/-- R331: assert the groups of a mask; a group that is asserted already makes no new mute. -/
def State.emuteAssert (s : State) (mask what : Nat) : State :=
  let new := (List.range 16).filter fun g => bitOf mask g && !s.planes.emute.getLsbD g
  if new.isEmpty then s
  else
    let s := { s with planes.emute := s.planes.emute ||| BitVec.ofNat 16 mask }
    let s := new.foldl (fun s g => (s.emuteOutputs g).foldl (fun s k =>
      (s.faultMute 3 k).updChan k fun c => { c with groups := g :: c.groups.filter (· ≠ g) }) s) s
    s.emuteRecord (new.foldl (fun a g => a + 2 ^ g) 0) what

/-- R122: the channels whose emergency mutes have all been released become terminated. -/
def State.emuteRecover (s : State) : State :=
  (List.range 224).foldl (fun s k => if (s.chan k).groups = [] then s.faultClear 3 k else s) s

/-- R122: the mutes that the released groups of a mask made are over. -/
def State.emuteOver (s : State) (mask : Nat) : State :=
  let up : Nat × Chan → Nat × Chan := fun e => (e.1, { e.2 with groups := e.2.groups.filter fun g => !bitOf mask g })
  { s with outs.chans := s.outs.chans.map up }

/-- EMUTE_RELEASE (R331, R122): a write of ones to DP_EMUTE. -/
def State.emuteRelease (s : State) (mask : BitVec 16) : State :=
  let off := s.planes.emute &&& mask
  if off = 0 then s
  else
    let s := ({ s with planes.emute := s.planes.emute &&& ~~~mask }.emuteOver off.toNat).emuteRecord off.toNat 2
    if s.job.phase = .idle then s.emuteRecover else s

def execEmuteRelease (mask : BitVec 16) (s : State) : Host.Outcome State Fault Refusal :=
  .next (s.gate (s.emuteRelease mask))

/-- EMUTE_SW (R331). -/
def execEmuteSw (mask : BitVec 16) (s : State) : Host.Outcome State Fault Refusal :=
  .next (s.gate (s.emuteAssert mask.toNat 1))

/-! ### Quarantine, self-checks (R337 to R340) -/

/-- R340, R699: a plane is quarantined and releases the line if it owns it. -/
def State.planeQuarantine (s : State) (p : Fin 2) (cause : Nat) : State :=
  if s.planes.dp[p].mode = .quarantined then s
  else
    let s := s.updPlane p fun x => { x with
      mode := .quarantined, toks := [], syns := [], pend := [], buffer := [], repair := .none, take := false }
    let s := s.planeStateRecord p cause
    let s := if s.planes.owner = p.val + 1 then { s with planes.owner := 0 }.ownerRecord 2 else s
    if s.planes.dp[0].mode = .quarantined ∧ s.planes.dp[1].mode = .quarantined then s.orderlyStop 6 0 else s

/-- R337: start a self-check unless one runs. -/
def State.startCheck (s : State) (cause : Nat) : State :=
  if s.planes.selfchk.isSome then s else { s with planes.selfchk := some cause }

/-- SELFCHK (R337). -/
def execSelfchk (s : State) : Host.Outcome State Fault Refusal := .next (s.gate (s.startCheck 3))

/-- R338, R351: the digests of two working planes differ in firing counts or slot contents; they are compared
where both planes have received the same tokens, and not while the plane link is down. -/
def State.digestFails (s : State) : Bool :=
  let a := s.planes.dp[0]
  let b := s.planes.dp[1]
  s.planes.link && s.planeUp 0 && s.planeUp 1 && a.toks == b.toks && (a.fires != b.fires || a.slots != b.slots)

/-- R338: the failed parts of a plane's self-check: tables and vectors as found, and the digest. -/
def State.checkParts (s : State) (f : Nat) : Nat := f % 4 + if s.digestFails then 4 else 0

def State.checkRecord (s : State) (p : Fin 2) (f cause : Nat) : State :=
  s.planeRecord p 0x3C 0 [(0x14, 1, if f = 0 then 0 else 1), (0x15, 1, f), (0x16, 1, cause)] s.home

/-- R339: the outcome for the planes that work. A lone working plane that fails keeps sending as the
owner of a double failure does (log 16). -/
def State.checkOutcome (s : State) (f0 f1 : Bool) : State :=
  match s.planeUp 0, s.planeUp 1 with
  | true, true =>
    match f0, f1 with
    | false, false => { s with planes.suspect := false }
    | true, false => { s with planes.suspect := s.planes.suspect && s.planes.owner != 2 }.planeQuarantine 0 0
    | false, true => { s with planes.suspect := s.planes.suspect && s.planes.owner != 1 }.planeQuarantine 1 0
    | true, true => { s with planes.suspect := true }.planeQuarantine (if s.planes.owner = 2 then 0 else 1) 0
  | true, false => { s with planes.suspect := f0 }
  | false, true => { s with planes.suspect := f1 }
  | false, false => s

/-- R352: the copy of the dynamic state begins once the plane link is up. -/
def State.startCopy (s : State) (p : Fin 2) : State :=
  if s.planes.link then
    (s.updPlane p fun x => { x with mode := .resync, repair := .copying, buffer := [] }).planeStateRecord p 2
  else s.updPlane p fun x => { x with repair := .checked }

/-- The self-check of a repair ends. -/
def State.repairCheckEnd (s : State) (p : Fin 2) (f : Nat) : State :=
  if s.planes.dp[p].repair = .started then
    let s := s.checkRecord p f 1
    if f = 0 then s.startCopy p else s.updPlane p fun x => { x with repair := .none, repairReq := false }
  else s

/-- SELFCHECK_END (R338, R339, R352): `which` is 0 for a check of the device and 1 or 2 for that of the
repair of DP0 or DP1; f0 and f1 are the failed parts of each plane: bit 0 tables, bit 1 vectors. In a repair the
digest is not compared, as the state is copied after it (log 33). -/
def State.checkEnd (s : State) (which : Fin 3) (f0 f1 : Nat) : State :=
  if which = 1 then s.repairCheckEnd 0 (f0 % 4)
  else if which = 2 then s.repairCheckEnd 1 (f1 % 4)
  else match s.planes.selfchk with
    | none => s
    | some cause =>
      let f0 := s.checkParts f0
      let f1 := s.checkParts f1
      let s := { s with planes.selfchk := none }
      let s := if s.planeUp 0 then s.checkRecord 0 f0 cause else s
      let s := if s.planeUp 1 then s.checkRecord 1 f1 cause else s
      s.checkOutcome (decide (f0 ≠ 0)) (decide (f1 ≠ 0))

def execSelfcheckEnd (which : Fin 3) (f0 f1 : BitVec 2) (s : State) : Host.Outcome State Fault Refusal :=
  (s.checkEnd which f0.toNat f1.toNat).done

/-! ### Decisions (R316, R318, R325, R329, R330) -/

/-- R329: the 64-bit mask of a destination set. -/
def State.dstMask (s : State) (d : Nat) : Nat :=
  s.rd Reg.DS_MASK_LO.MASK [d] + s.rd Reg.DS_MASK_HI.MASK [d] * 2 ^ 32

/-- R532: D0 of a DECISION above DEST: the codes of the token's halves. -/
def tokenCodes (t : Token) : Nat :=
  (Config.secded (BitVec.ofNat 32 t.toNat)).toNat * 2 ^ 36 + (Config.secded (BitVec.ofNat 32 (t.toNat / 2 ^ 32))).toNat * 2 ^ 43

/-- R329: plane p sends its copy of a decision or correction to a destination set. -/
def State.sendCopies (s : State) (d : Nat) (t : Token) : State :=
  let mask := s.dstMask d
  let s := if s.flag Reg.DS_CTL.LOCAL [d] then
      { s with planes.copies := s.planes.copies ++ (seqsOf mask).map fun k => (k, t) } else s
  if s.flag Reg.DS_CTL.REMOTE_EN [d] then s.laceSend (s.rd Reg.DS_CTL.REMOTE_DEV [d]) 0 1 (tokenCodes t) [t.toNat, mask]
  else s

/-- R330, R356: the decision record of a decision, as held for the result ring of the job's context. -/
def State.decisionRecord (s : State) (t : Token) : Held :=
  let body := packNat [(0, 4, s.shotIdx), (4, 4, t.payload.toNat), (8, 2, t.target.toNat + t.kind.toNat * 4096),
    (10, 2, t.seq.toNat + (if t.origin then 32768 else 0))]
  ⟨s.jobCtx, .result, 594, 0x13, s.timeFlags, s.adcStamp t.smp, BitVec.ofNat 96 body, s.inJob⟩

/-- R330: the actions of a destination set, as plane p's side effects; `unit` names the feedback unit. -/
def State.decisionActs (s : State) (p : Fin 2) (unit : List Nat) (d : Nat) (t : Token) : State :=
  let key := unit ++ [t.seq.toNat]
  let cmd (cls : Nat) (a : SideAct) : SideCmd :=
    { cls := cls, key := key, act := a, stamp := s.adcStamp t.smp, tick := s.time.now }
  let hot := bitOf t.payload.toNat 31
  let act := s.rd Reg.DS_CTL.ACTION [d]
  let dev := if s.flag Reg.DS_CTL.REMOTE_EN [d] then s.rd Reg.DS_CTL.REMOTE_DEV [d] + 1 else 0
  let s := if act = 1 ∧ hot then s.sideFrom p (cmd 1 (.trig (s.dstMask d) (s.flag Reg.DS_CTL.LOCAL [d]) dev)) else s
  let s := if act = 2 ∧ hot then s.sideFrom p (cmd 2 (.emute (s.rd Reg.DS_CTL.MGRP [d]))) else s
  if s.flag Reg.DS_CTL.REC [d] then s.sideFrom p (cmd 3 (.records [s.decisionRecord t])) else s

/-- R318, R325: a feedback unit of plane p fires: firing count `fk`, output TARGET, destination set, the
payload of a decision that is not void. -/
def State.fireUnit (s : State) (p : Fin 2) (unit : List Nat) (fk tgt d payload smp : Nat) (void : Bool) : State :=
  let n := Table.get 0 s.planes.dp[p].fires fk
  let t : Token := {
    kind := if void then 0xB else 3, origin := p.val == 1, seq := BitVec.ofNat 15 n, target := BitVec.ofNat 12 tgt
    payload := BitVec.ofNat 32 (if void then payload % 65536 else payload), smp := smp }
  let s := s.updPlane p fun x => { x with fires := Table.set 0 x.fires fk (n + 1) }
  (s.sendCopies d t).decisionActs p unit d t

/-- R316: a decision payload. -/
def decisionPayload (dbits state conf tick : Nat) : Nat :=
  dbits % 256 * 2 ^ 24 + state % 4 * 2 ^ 21 + conf % 32 * 2 ^ 16 + tick % 2 ^ 16

/-- STATE, CONF and TICK_LO of a measurement token. -/
def Token.state (t : Token) : Nat := bitsOf t.payload.toNat 22 21
def Token.conf (t : Token) : Nat := bitsOf t.payload.toNat 20 16
def Token.tickLo (t : Token) : Nat := bitsOf t.payload.toNat 15 0

/-- The key of slot j of LUT unit u, or of parity map u. -/
def slotKey (parity : Bool) (u j : Nat) : Nat := (if parity then 1024 else 0) + u * 16 + j

/-- R323, R324: the slots in use. -/
def State.slotsUsed (s : State) (parity : Bool) (u : Nat) : List Nat :=
  let mask := if parity then s.rd Reg.PM_CFG.IN_MASK [u] else s.rd Reg.LUT_CFG.IN_MASK [u]
  (List.range 16).filter fun j => bitOf mask j

/-- R323: the entry of a LUT table. -/
def State.lutEntry (s : State) (u i : Nat) : Nat :=
  let w := s.rd Reg.DP_LUT.ENTRIES [u, i / 4]
  bitsOf w (i % 4 * 8 + 7) (i % 4 * 8)

/-- The input with the latest window end. -/
def latestIn : List (Bool × Token) → Option Token
  | [] => none
  | (_, t) :: r =>
    match latestIn r with
    | none => some t
    | some u => if u.smp ≤ t.smp then some t else some u

/-- R323, R324: fire a unit when every slot in use holds an input. -/
def State.tryFire (s : State) (p : Fin 2) (parity : Bool) (u : Nat) : State :=
  let used := s.slotsUsed parity u
  let ins := used.filterMap fun j => ((Table.get [] s.planes.dp[p].slots (slotKey parity u j)).head?).map (j, ·)
  if used.isEmpty ∨ ins.length ≠ used.length then s
  else
    let s := s.updPlane p fun x => { x with
      slots := used.foldl (fun t j => Table.upd [] t (slotKey parity u j) List.tail) x.slots }
    let toks := ins.map (·.2)
    let conf := toks.foldl (fun a e => min a e.2.conf) 31
    let tick := (latestIn toks).map Token.tickLo
    let smp := toks.foldl (fun a e => max a e.2.smp) 0
    let void := toks.any fun e => e.2.isVoid
    if parity then
      let x := toks.foldl (fun a e => a != e.1) false
      let low := decide (conf < s.rd Reg.PM_CFG2.CMIN [u])
      let db := (if x then 1 else 0) + (if low then 2 else 0)
      s.fireUnit p [2, u] (4160 + u) (s.rd Reg.PM_CFG.OUT_TGT [u]) (s.rd Reg.PM_CFG2.DSTSET [u])
        (decisionPayload db (db % 2) conf (tick.getD 0)) smp void
    else
      let i := ins.foldl (fun a e => a + if e.2.1 then 2 ^ e.1 else 0) 0
      let db := s.lutEntry u i
      s.fireUnit p [1, u] (4096 + u) (s.rd Reg.LUT_CFG.OUT_TGT [u]) (s.rd Reg.LUT_CFG.DSTSET [u])
        (decisionPayload db (db % 4) conf (tick.getD 0)) smp void

/-- R322, R326: a token is an input to a slot. -/
def State.slotInput (s : State) (p : Fin 2) (parity : Bool) (u j val : Nat) (t : Token) : State :=
  let key := slotKey parity u j
  let l := Table.get [] s.planes.dp[p].slots key
  if 4 ≤ l.length then
    s.planeRecord p 0x41 8 [(0x14, 1, 0), (0x15, 1, if parity then 2 else 1), (0x16, 1, u), (0x17, 1, j)] s.jobCtx
  else
    let e := (!t.isVoid && t.state == val, t)
    (s.updPlane p fun x => { x with slots := Table.set [] x.slots key (l ++ [e]) }).tryFire p parity u

/-- R320, R321: route a measurement token in plane p. -/
def State.routeToken (s : State) (p : Fin 2) (t : Token) : State :=
  let tgt := t.target.toNat
  let u := s.rd Reg.DP_RT0.UNIT [tgt]
  let j := s.rd Reg.DP_RT0.SLOT [tgt]
  let v := s.rd Reg.DP_RT0.VAL [tgt]
  match s.rd Reg.DP_RT0.MODE [tgt] with
  | 0 => if s.counts p then s.count Reg.DP_CNT.NOROUTE [] else s
  | 1 => s.fireUnit p [0, tgt] tgt (s.rd Reg.DP_RT1.OUT_TGT [tgt]) (s.rd Reg.DP_RT0.DSTSET [tgt])
      (decisionPayload (2 ^ t.state) t.state t.conf t.tickLo) t.smp t.isVoid
  | 2 => s.slotInput p false u j v t
  | _ => s.slotInput p true u j v t

/-- R313, R340, R352, R703: the oldest token of a TARGET on its way to plane p arrives. `bad` is 1 for a
token with an uncorrectable error and 2 for an error in the plane's own state at `addr`. -/
def State.planeToken (s : State) (p : Fin 2) (tgt bad addr : Nat) : State :=
  match takeToken tgt s.planes.dp[p].toks with
  | none => s
  | some (t, rest) =>
    let s := s.updPlane p fun x => { x with toks := rest }
    if bad = 1 then s.eccError 9 p.val 0 addr false
    else if bad = 2 then (s.eccError 4 p.val 0 addr false).planeQuarantine p 1
    else match s.planes.dp[p].mode with
      | .quarantined => s
      | .resync => s.updPlane p fun x => { x with buffer := x.buffer ++ [t] }
      | .up => s.routeToken p t

/-- PLANE_TOKEN (R313, R320 to R326, R340, R703). -/
def execPlaneToken (dp : Fin 2) (tgt : BitVec 12) (bad : Fin 3) (addr : Word) (s : State) :
    Host.Outcome State Fault Refusal :=
  (s.planeToken dp tgt.toNat bad addr.toNat).done

/-- R326: at a boundary plane p empties every slot and records the units that held inputs. -/
def State.flushPlane (s : State) (p : Fin 2) : State :=
  let held := s.planes.dp[p].slots
  let s := s.updPlane p fun x => { x with slots := [] }
  if s.planeUp p then
    held.foldl (fun s e =>
      s.planeRecord p 0x41 0 [(0x14, 1, 1), (0x15, 1, if e.1 < 1024 then 1 else 2), (0x16, 1, e.1 % 1024 / 16),
        (0x17, 1, e.1 % 16)] s.jobCtx) s
  else s

def State.slotFlush (s : State) : State := (s.flushPlane 0).flushPlane 1

/-! ### Receive ports (R333 to R337) -/

/-- R152: the decisions of a TARGET still owed once the one with SEQUENCE q has come. -/
def owedAfter (q : Nat) (l : List Nat) : List Nat := l.filter fun o => decide (16384 ≤ (q + 32768 - o) % 32768)

/-- R152, R226, R227: an accepted token enters the condition store of sequencer k, unless a branch has gone
on without it. -/
def State.storeToken (s : State) (k : Nat) (t : Token) : State :=
  let x := s.seq k
  let owed := Table.get [] x.owed t.target.toNat
  let s := s.updSeq k fun x => { x with owed := Table.set [] x.owed t.target.toNat (owedAfter t.seq.toNat owed) }
  if owed.contains t.seq.toNat then s
  else
    let s := match x.conds with
      | o :: rest =>
        if 16 ≤ x.conds.length then
          let s := s.updSeq k fun x => { x with conds := rest }
          s.seqRecord k 0x2C 8 (s.adcStamp o.smp) x.pc.toNat [(0x1A, 2, o.target.toNat)]
        else s
      | [] => s
    (s.updSeq k fun x => { x with conds := x.conds ++ [t] }).tryBranch k

/-- R334, R335: a record of a receive port (kinds 0x37 and 0x38 mark the shot invalid). -/
def State.portRecord (s : State) (k kind : Nat) (body : List (Nat × Nat × Nat)) : State :=
  s.postCoarse s.jobCtx (512 + k) kind 8 body

/-- R335, R337: a duplicate that differs from its first copy. -/
def State.disagree (s : State) (k : Nat) (first t : Token) : State :=
  let s := s.count Reg.DP_CNT.DIS_CNT []
  let s := s.portRecord k 0x38 [(0x14, 4, first.payload.toNat), (0x18, 4, t.payload.toNat),
    (0x1C, 2, t.target.toNat + (if first.origin then 4096 else 0) + (if first.kind = t.kind then 0 else 8192)),
    (0x1E, 2, t.seq.toNat)]
  let at_ := s.time.now :: s.planes.disAt.filter fun x => decide (s.time.now ≤ x + 1000000)
  let s := { s with planes.disAt := at_ }
  if 3 ≤ at_.length then s.startCheck 0 else s

/-- R333: a copy reaches the receive port of sequencer k. -/
def State.receive (s : State) (k : Nat) (t : Token) : State :=
  let x := s.seq k
  let tgt := t.target.toNat
  let hw := (Table.get 0 x.recv tgt + 32767) % 32768
  let q := t.seq.toNat
  if (hw + 32768 - q) % 32768 ≤ 1023 then
    match x.recvCopy.find? fun u => u.target == t.target && u.seq == t.seq with
    | some u => if u.kind = t.kind ∧ u.payload = t.payload then s else s.disagree k u t
    | none => s
  else
    let d := (q + 32768 - hw) % 32768
    let s := if 1 < d then s.portRecord k 0x37
        [(0x14, 4, s.shotIdx), (0x18, 2, tgt), (0x1A, 2, q), (0x1C, 4, d - 1)] else s
    let s := s.updSeq k fun x => { x with
      recv := Table.set 0 x.recv tgt ((q + 1) % 32768), recvCopy := (t :: x.recvCopy).take 1024 }
    s.storeToken k t

/-- The oldest copy on its way to sequencer k from a plane. -/
def takeCopy (k : Nat) (origin : Bool) : List (Nat × Token) → Option (Token × List (Nat × Token))
  | [] => none
  | e :: r =>
    if e.1 = k ∧ e.2.origin = origin then some (e.2, r)
    else (takeCopy k origin r).map fun p => (p.1, e :: p.2)

/-- DECISION_RECEIVE (R313, R333 to R337, R226, R227): `bad` says that a half of the copy has an
uncorrectable error. -/
def State.decisionReceive (s : State) (k : Nat) (origin bad : Bool) : State :=
  match takeCopy k origin s.planes.copies with
  | none => s
  | some (t, rest) =>
    let s := { s with planes.copies := rest }
    if bad then s.eccError 9 0 0 0 false else s.receive k t

def execDecisionReceive (sq : Fin 64) (origin bad : Bool) (s : State) : Host.Outcome State Fault Refusal :=
  .next (s.decisionReceive sq origin bad)

/-! ### The interlock unit (R341 to R343) -/

/-- R330, R532: send the trigger frames of a decision. -/
def State.sendTriggers (s : State) (mask : Nat) (here : Bool) (dev : Nat) (st : Stamp) : State :=
  let tick := s.tickOf st.time.abs + (if st.frac = 0 then 0 else 1)
  let s := if here then
      s.sendEdge ((seqsOf mask).filter fun k => s.rd Reg.SEQ_CFG.TRIG_SRC [k / 16, k % 16] == 25) 25 ⟨st, tick⟩
    else s
  if dev = 0 then s else s.laceSend (dev - 1) 0 2 0 [st.bits % 2 ^ 64, st.bits / 2 ^ 64, mask]

/-- Perform a side effect. -/
def State.performSide (s : State) (c : SideCmd) : State :=
  match c.act with
  | .cpl x entry irq =>
    if s.host.d3hot then { s with host.heldCpl := s.host.heldCpl ++ [(x, entry, irq)] } else s.postCpl x entry irq
  | .trig mask here dev => s.sendTriggers mask here dev c.stamp
  | .emute g => s.emuteAssert (2 ^ g) 0
  | .records hs => { s with recs.held := s.recs.held ++ hs }

/-- INTERLOCK_COMMAND (R342, R343): the oldest command of the owner. -/
def State.interlock (s : State) : State :=
  match s.planes.cmds with
  | [] => s
  | c :: rest =>
    let s := { s with planes.cmds := rest }
    let ks := s.planes.keys[c.cls]?.getD []
    let drop : Plane → Plane := fun x => { x with pend := x.pend.filter fun e => !(e.cls == c.cls && e.key == c.key) }
    let s := { s with planes.dp := s.planes.dp.map drop }
    if ks.contains c.key then s
    else
      let s := { s with planes.keys := s.planes.keys.set! c.cls ((c.key :: ks).take 4096) }
      let s := if c.replay then
          s.post s.home .event 594 0x3F 0 c.stamp [(0x14, 1, c.cls), (0x18, 4, min 0xFFFFFFFF (s.time.now - c.tick))]
        else s
      s.performSide c

def execInterlockCommand (s : State) : Host.Outcome State Fault Refusal := s.interlock.done

/-- R343, R350: plane p becomes the owner and issues what it holds pending. -/
def State.grant (s : State) (p : Fin 2) (cause : Nat) : State :=
  let pend := s.planes.dp[p].pend.map fun c => { c with replay := true }
  let s := { s.updPlane p fun x => { x with pend := [], take := false } with
    planes.owner := p.val + 1, planes.refresh := s.time.now }
  { s.ownerRecord cause with planes.cmds := s.planes.cmds ++ pend }

/-- R348: the plane requests a released line. -/
def State.requests (s : State) (p : Fin 2) : Bool := s.planes.dp[p].mode != .quarantined

/-- TAKE (R347, R348): a TAKE, or the request of a released line, reaches the interlock unit. -/
def State.take (s : State) (p : Fin 2) : State :=
  if s.planes.owner = 0 then
    if s.requests 0 then s.grant 0 0 else if s.requests 1 then s.grant 1 0 else s
  else if s.planes.dp[p].take && s.planeUp p && s.planes.owner != p.val + 1 then
    let o := s.planes.dp[1 - p]
    let s := s.updPlane p fun x => { x with take := false }
    if s.time.now ≤ s.planes.refresh + 400 ∧ o.beat.declared then s.ownerRecord 4 else s.grant p 1
  else s

def execTake (src : Fin 2) (s : State) : Host.Outcome State Fault Refusal := .next (s.take src)

/-- OWNER_REFRESH (R347). -/
def execOwnerRefresh (s : State) : Host.Outcome State Fault Refusal :=
  .next (if s.planes.owner = 0 then s else { s with planes.refresh := s.time.now })

/-- R349: a plane is STANDBY. -/
def State.standbyUp (s : State) : Option (Fin 2) :=
  if s.planes.owner ≠ 0 ∧ s.planes.owner ≠ 1 ∧ s.planeUp 0 then some 0
  else if s.planes.owner ≠ 0 ∧ s.planes.owner ≠ 2 ∧ s.planeUp 1 then some 1
  else none

/-- HANDOVER (R349). -/
def State.askHandover (s : State) : State :=
  if s.standbyUp.isSome then { s with planes.handover := true } else s

def execHandover (s : State) : Host.Outcome State Fault Refusal := .next (s.gate s.askHandover)

/-- HANDOVER_EXECUTE (R349, R350). -/
def State.handoverRun (s : State) : State :=
  if s.planes.handover && s.jobBoundary then
    let s := { s with planes.handover := false }
    match s.standbyUp with
    | some p => s.grant p 3
    | none => s
  else s

def execHandoverExecute (s : State) : Host.Outcome State Fault Refusal := .next s.handoverRun

/-! ### Heartbeats (R344 to R347) -/

def State.updBeat (s : State) (p : Fin 2) (f : Beat → Beat) : State := s.updPlane p fun x => { x with beat := f x.beat }

/-- R345: M1 and M2. -/
def Beat.m1 (b : Beat) : Bool := decide (4 ≤ b.miss1)
def Beat.m2 (b : Beat) : Bool := decide (2 ≤ b.miss2)

/-- R346: a path fault record of observer p. -/
def State.pathRecord (s : State) (p : Fin 2) (path on : Nat) : State :=
  s.planeRecord p 0x39 0 [(0x14, 1, path), (0x15, 1, on)] s.home

/-- R346: the onset of a path fault. -/
def State.pathFault (s : State) (p : Fin 2) (path : Nat) : State :=
  let b := s.planes.dp[p].beat
  if (if path = 1 then b.fault1 else b.fault2) then s
  else
    let s := s.updBeat p fun b => if path = 1 then { b with fault1 := true } else { b with fault2 := true }
    (s.count Reg.DP_CNT.PATHF_CNT []).pathRecord p path 1

/-- R346: a declaration clears when a pulse and a message have both arrived after it. -/
def State.declareClear (s : State) (p : Fin 2) : State :=
  let b := s.planes.dp[p].beat
  if b.declared && b.back1 && b.back2 then
    (s.updBeat p fun b => { b with declared := false, back1 := false, back2 := false }).planeRecord p 0x3A 0
      [(0x14, 1, 0)] s.home
  else s

/-- R346, R347: plane p declares its peer failed, and sends a TAKE when the peer owns the line. -/
def State.declare (s : State) (p : Fin 2) : State :=
  if s.planes.dp[p].beat.declared || !s.planeUp p then s
  else
    let s := s.updBeat p fun b => { b with declared := true, back1 := false, back2 := false }
    let s := s.planeRecord p 0x3A 0 [(0x14, 1, 1)] s.home
    if s.planes.owner = (1 - p).val + 1 then s.updPlane p fun x => { x with take := true } else s

/-- R344: a tick at which plane `src` is scheduled to beat on a path. -/
def State.onBeat (s : State) (src : Fin 2) (path2 : Bool) : Bool :=
  let n := s.time.dev.ns.toNat
  if path2 then n % 1000 == 500 * src.val else n % 100 == 50 * src.val

/-- R345, R346: plane p counts an interval that has ended on a path of its peer. -/
def State.countInterval (s : State) (p : Fin 2) (path2 : Bool) : State :=
  let was := s.planes.dp[p].beat
  let s := s.updBeat p fun b =>
    if path2 then { b with miss2 := if b.got2 then 0 else b.miss2 + 1, got2 := false }
    else { b with miss1 := if b.got1 then 0 else b.miss1 + 1, got1 := false }
  let b := s.planes.dp[p].beat
  let s := if b.m2 && !was.m2 && !b.m1 then s.pathFault p 2 else s
  if b.m1 && b.m2 then s.declare p else s

/-- HEARTBEAT_INTERVAL_END (R345, R346): at a scheduled beat of plane p's peer the interval in progress ends and
the next one starts; the first one only starts. -/
def State.intervalEnd (s : State) (p : Fin 2) (path2 : Bool) : State :=
  let b := s.planes.dp[p].beat
  let since := if path2 then b.from2 else b.from1
  if !s.onBeat (1 - p) path2 || since == s.time.now + 1 then s
  else
    let s := s.updBeat p fun b =>
      if path2 then { b with from2 := s.time.now + 1 } else { b with from1 := s.time.now + 1 }
    if since = 0 then s else s.countInterval p path2

def execHeartbeatIntervalEnd (dp : Fin 2) (path2 : Bool) (s : State) : Host.Outcome State Fault Refusal :=
  .next (s.intervalEnd dp path2)

/-- HEARTBEAT_PULSE (R344 to R346): at its scheduled tick a path-1 pulse of plane `src` reaches its peer; it lies
in the interval that starts there. -/
def State.pulse (s : State) (src : Fin 2) : State :=
  let p := 1 - src
  if !s.onBeat src false then s
  else
    let s := s.intervalEnd p false
    let b := s.planes.dp[p].beat
    let s := if b.fault1 then (s.updBeat p fun b => { b with fault1 := false }).pathRecord p 1 0 else s
    (s.updBeat p fun b => { b with got1 := true, back1 := b.declared }).declareClear p

def execHeartbeatPulse (src : Fin 2) (s : State) : Host.Outcome State Fault Refusal := .next (s.pulse src)

/-- BEAT_MESSAGE (R344 to R346): at its scheduled tick a path-2 message of plane `src` reaches its peer, with its
beat count and state. -/
def State.beatMessage (s : State) (src : Fin 2) : State :=
  let p := 1 - src
  if !s.onBeat src true then s
  else
    let s := s.intervalEnd p true
    let s := s.updPlane src fun x => { x with beats := x.beats + 1 }
    let n := s.planes.dp[src].beats
    let b := s.planes.dp[p].beat
    let s := if b.fault2 then (s.updBeat p fun b => { b with fault2 := false }).pathRecord p 2 0 else s
    let s := if b.m1 then s.pathFault p 1 else s
    (s.updBeat p fun b => { b with
      got2 := true, back2 := b.declared, cnt := n, peerState := s.planeState src }).declareClear p

def execBeatMessage (src : Fin 2) (s : State) : Host.Outcome State Fault Refusal := .next (s.beatMessage src)

/-! ### The plane link and repair (R351 to R353) -/

def State.setPlaneLink (s : State) (up : Bool) : State :=
  { s with planes.link := up, planes.lostAt := if up then none else some s.time.now }.postCoarse s.home 595 0x3E 0 [(0x14, 1, if up then 1 else 0)]

/-- PLANE_LINK_LOSS (R351). -/
def execPlaneLinkLoss (s : State) : Host.Outcome State Fault Refusal :=
  .next (if s.planes.link then s.setPlaneLink false else s)

/-- R351: the link has been down for a retraining's interval of 1 ms. -/
def State.retrainDue (s : State) : Bool :=
  match s.planes.lostAt with
  | some t => decide (t + 1000000 ≤ s.time.now)
  | none => true

/-- PLANE_LINK_RETRAIN (R351): a retraining brings the link back; repairs that waited go on. -/
def State.linkRetrain (s : State) : State :=
  if s.planes.link || !s.retrainDue then s
  else
    let s := s.setPlaneLink true
    let go (s : State) (p : Fin 2) : State := if s.planes.dp[p].repair = .checked then s.startCopy p else s
    go (go s 0) 1

def execPlaneLinkRetrain (s : State) : Host.Outcome State Fault Refusal := s.linkRetrain.done

/-- DP_REPAIR (R352). -/
def State.dpRepair (s : State) : State :=
  let ask : Plane → Plane := fun x => if x.mode = .quarantined then { x with repairReq := true } else x
  { s with planes.dp := s.planes.dp.map ask }

def execDpRepair (s : State) : Host.Outcome State Fault Refusal := .next (s.gate s.dpRepair)

/-- PLANE_REPAIR (R352): steps 1 and 2 begin at a job boundary or idle. -/
def State.planeRepair (s : State) (p : Fin 2) : State :=
  let x := s.planes.dp[p]
  if x.mode = .quarantined ∧ x.repair = .none ∧ s.jobBoundary
      ∧ (s.flag Reg.DP_CTL.AUTO_REPAIR [] ∨ x.repairReq = true) then
    s.updPlane p fun x => { x with repair := .started, repairReq := false }
  else s

def execPlaneRepair (dp : Fin 2) (s : State) : Host.Outcome State Fault Refusal := .next (s.planeRepair dp)

/-- R353, R371: the resync point of plane p falls here: where the active plane's decoder closes a round of the
running job, at a shot boundary when the job has no decoder, or idle. -/
def State.resyncHere (s : State) (p : Fin 2) : Bool :=
  s.job.phase == .idle
    || if s.place.inEffect.usesDecoder then
        s.job.phase == .inShot && s.dec.dyn[1 - p].closedAt.any fun e => e.2 == s.time.now + 1
      else s.job.phase == .shotBoundary

/-- RESYNC_POINT (R353): the plane takes the active plane's state and becomes STANDBY; after an overflow
of its buffer the cut-over moves to the next resync point. -/
def State.resync (s : State) (p : Fin 2) : State :=
  let x := s.planes.dp[p]
  let a := s.planes.dp[1 - p]
  if x.mode = .resync ∧ x.repair = .copying ∧ a.mode = .up ∧ s.resyncHere p ∧ s.planes.link then
    if 16384 < x.buffer.length then s.updPlane p fun x => { x with buffer := [] }
    else
      let s := s.updPlane p fun x => { x with
        mode := .up, repair := .none, buffer := [], toks := a.toks, syns := a.syns, slots := a.slots, fires := a.fires }
      let s := { s with dec.dyn := s.dec.dyn.set p s.dec.dyn[1 - p], dec.outs := s.dec.outs.set p s.dec.outs[1 - p] }
      s.planeStateRecord p 3
  else s

def execResyncPoint (dp : Fin 2) (s : State) : Host.Outcome State Fault Refusal := (s.resync dp).done

end Sys2Proof.Machine
end

