-- ==== Sys2Proof/Machine/Decoder.lean ====
section
/-! DEFINITION. Syndrome decoding: rounds, the cluster-growth decode, commits, boundary frames and
correction tokens (chapter 09). A node-round (n, r) is the number r · 8192 + n, so that the order of
R369 is the order of numbers. -/

namespace Sys2Proof.Machine

/-! ### The window graph (R369) -/

/-- An edge between two node-rounds of the window: its index, the round of its A end, its ends. -/
structure WEdge where
  idx : Nat := 0
  round : Nat := 0
  a : Nat := 0
  b : Nat := 0
  weight : Nat := 1
deriving DecidableEq, Repr

def nodeKey (r n : Nat) : Nat := r * 8192 + n
def keyRound (k : Nat) : Nat := k / 8192
def keyNode (k : Nat) : Nat := k % 8192

def WEdge.low (e : WEdge) : Nat := min e.a e.b

/-- The instance of edge i with its A end in round r, when both ends lie in rounds `lo` to `hi`. -/
def windowEdge (hi i r : Nat) (e : DecEdge) : Option WEdge :=
  let rb := r + if e.dr then 1 else 0
  if hi < rb then none
  else some { idx := i, round := r, a := nodeKey r e.a, b := nodeKey rb e.b, weight := e.weight }

/-- Insert in the order of the lower end, then of the edge index. -/
def insertEdge (e : WEdge) : List WEdge → List WEdge
  | [] => [e]
  | f :: r => if e.low < f.low ∨ e.low = f.low ∧ e.idx ≤ f.idx then e :: f :: r else f :: insertEdge e r

/-- The edges of a window in ascending edge order. -/
def windowEdges (g : DecGraph) (lo hi : Nat) : List WEdge :=
  let all := (List.range (hi + 1 - lo)).flatMap fun j =>
    (g.edges.zip (List.range g.edges.length)).filterMap fun e => windowEdge hi e.2 (lo + j) e.1
  all.foldr insertEdge []

/-- Clusters: the cluster of each node-round by its lowest node-round; an unlisted one is alone. -/
abbrev Clusters := Table Nat

def Clusters.of (c : Clusters) (k : Nat) : Nat :=
  let v := Table.get 0 c k
  if v = 0 then k else v - 1

/-- Merge the clusters at the two ends of an edge. -/
def Clusters.merge (keys : List Nat) (c : Clusters) (a b : Nat) : Clusters :=
  let x := c.of a
  let y := c.of b
  if x = y then c
  else
    let m := min x y
    keys.foldl (fun t k => if c.of k = x ∨ c.of k = y then Table.set 0 t k (m + 1) else t) c

/-- What a decode reads of the window: the node-rounds, the events, and which nodes are BOUNDARY. -/
structure Window where
  keys : List Nat
  events : List Nat
  bound : Nat → Bool

/-- R369: a cluster grows while it holds an odd number of events and no BOUNDARY node. -/
def Window.active (w : Window) (c : Clusters) (l : Nat) : Bool :=
  (w.events.filter fun k => c.of k == l).length % 2 == 1 && !w.keys.any fun k => c.of k == l && w.bound k

/-- The clusters that grow, in the order of their lowest node-round. -/
def Window.growing (w : Window) (c : Clusters) : List Nat := w.keys.filter fun k => c.of k == k && w.active c k

/-- Add 1 to the growth of each edge that leaves cluster l. -/
def growOne (c : Clusters) (l : Nat) (es : List (WEdge × Nat)) : List (WEdge × Nat) :=
  es.map fun e => if (c.of e.1.a == l) != (c.of e.1.b == l) then (e.1, e.2 + 1) else e

/-- R369: the growth loop. It ends when no cluster grows, or when none of those that should has an edge
that leaves it (log 17). -/
def Window.grow (w : Window) : Nat → Clusters → List (WEdge × Nat) → Clusters × List (WEdge × Nat)
  | 0, c, es => (c, es)
  | fuel + 1, c, es =>
    let act := w.growing c
    if act.isEmpty then (c, es)
    else
      let es' := act.foldl (fun es l => growOne c l es) es
      let c' := es'.foldl (fun c e => if e.1.weight ≤ e.2 then Clusters.merge w.keys c e.1.a e.1.b else c) c
      if es' = es ∧ c' = c then (c, es) else w.grow fuel c' es'

/-- R369: a spanning forest of the fully grown edges, taken in ascending edge order. -/
def spanning (keys : List Nat) : List WEdge → Clusters → List WEdge
  | [], _ => []
  | e :: r, c => if c.of e.a = c.of e.b then spanning keys r c else e :: spanning keys r (Clusters.merge keys c e.a e.b)

/-- The leaves of a forest with the edge of each. -/
def leaves (keys : List Nat) (f : List WEdge) : List (Nat × WEdge) :=
  keys.filterMap fun k => match f.filter fun e => e.a == k || e.b == k with
    | [e] => some (k, e)
    | _ => none

/-- R369: peel a forest from its leaves, the lowest node-round first. A BOUNDARY node holds no events: an edge
whose BOUNDARY leaf is peeled is not kept (log 17). -/
def Window.peel (w : Window) : Nat → List WEdge → List Nat → List WEdge
  | 0, _, _ => []
  | fuel + 1, f, odd =>
    match (leaves w.keys f).head? with
    | none => []
    | some (k, e) =>
      let f := f.erase e
      if odd.contains k ∧ w.bound k = false then
        let o := if e.a = k then e.b else e.a
        e :: w.peel fuel f (if odd.contains o then (odd.erase k).erase o else o :: odd.erase k)
      else w.peel fuel f odd

/-- R369: the correction of a window; `full` are the edges that are fully grown from the start. -/
def Window.decode (w : Window) (es : List WEdge) (full : WEdge → Bool) : List WEdge :=
  let start := es.map fun e => (e, if full e then e.weight else 0)
  let fuel := es.foldl (fun a e => a + e.weight) 2
  let (_, es') := w.grow fuel [] start
  let grown := (es'.filter fun e => decide (e.1.weight ≤ e.2)).map (·.1)
  let f := spanning w.keys grown []
  w.peel (f.length + 1) f w.events

/-! ### The planes' decoders -/

def State.dyn (s : State) (p : Fin 2) : DecDyn := s.dec.dyn[p]

def State.updDyn (s : State) (p : Fin 2) (f : DecDyn → DecDyn) : State :=
  { s with dec.dyn := s.dec.dyn.set p (f s.dec.dyn[p]) }

/-- The LOCAL nodes of a graph with their numbers. -/
def DecGraph.locals (g : DecGraph) : List (Nat × DecNode) :=
  ((List.range g.nodes.length).zip g.nodes).filter fun e => e.2.typ == 0

/-- The REMOTE nodes that mirror peer p. -/
def DecGraph.remotes (g : DecGraph) (p : Nat) : List (Nat × DecNode) :=
  ((List.range g.nodes.length).zip g.nodes).filter fun e => e.2.typ == 1 && e.2.peer == p

/-- R378: a record of the decoder, as plane p's side effect, with its key after the kind and the shot. -/
def State.decRecord (s : State) (p : Fin 2) (key : List Nat) (kind : Nat) (hs : List Held) : State :=
  let st := match hs with
    | h :: _ => h.stamp
    | [] => s.nowStamp
  let cmd : SideCmd := { cls := 3, key := [kind, s.shotIdx] ++ key, act := .records hs, stamp := st, tick := s.time.now }
  let s := if hs.any fun h => bitOf h.flags 3 then s.markInvalid else s
  s.sideFrom p cmd

/-- A held record of the running job. -/
def State.heldOf (s : State) (ring : Ring) (src kind flags : Nat) (st : Stamp) (body : List (Nat × Nat × Nat)) : Held :=
  ⟨s.jobCtx, ring, src, kind, flags + s.timeFlags, st, BitVec.ofNat 96 (packNat (body.map fun e => (e.1 - 0x14, e.2.1, e.2.2))),
   s.inJob⟩

/-! ### Syndrome tokens (R366) -/

/-- R366: the round of a syndrome token of the running shot. -/
def State.roundOf (s : State) (g : DecGraph) (t : Token) : Nat :=
  (t.seq.toNat + 32768 * (s.shotIdx + 1) * g.rounds - s.shotIdx * g.rounds) % 32768

/-- R366: a syndrome token in plane p. -/
def State.syndrome (s : State) (p : Fin 2) (t : Token) : State :=
  let nomap := if s.counts p then s.count Reg.DEC_CNT.NOMAP [] else s
  match s.dec.graph with
  | none => nomap
  | some g =>
    match g.locals.find? fun e => e.2.ref == t.target.toNat with
    | none => nomap
    | some (n, _) =>
      let r := s.roundOf g t
      if g.rounds ≤ r ∨ r < (s.dyn p).closed then if s.counts p then s.count Reg.DEC_CNT.LATE [] else s
      else s.updDyn p fun x => { x with
        toks := x.toks ++ [(r, n, t.isVoid, t.state % 2 == 1, t.smp)]
        firstAt := if Table.get 0 x.firstAt r = 0 then Table.set 0 x.firstAt r (s.time.now + 1) else x.firstAt
        ends := Table.upd 0 x.ends r (max t.smp) }

/-- SYNDROME_TOKEN (R313, R340, R352, R366): as PLANE_TOKEN, for the decoder of plane dp. -/
def State.synToken (s : State) (p : Fin 2) (tgt bad addr : Nat) : State :=
  match takeToken tgt s.planes.dp[p].syns with
  | none => s
  | some (t, rest) =>
    let s := s.updPlane p fun x => { x with syns := rest }
    if bad = 1 then s.eccError 9 p.val 0 addr false
    else if bad = 2 then (s.eccError 4 p.val 0 addr false).planeQuarantine p 1
    else match s.planes.dp[p].mode with
      | .quarantined => s
      | .resync => s.updPlane p fun x => { x with buffer := x.buffer ++ [t] }
      | .up => if s.flag Reg.DEC_CFG.EN [] then s.syndrome p t else s

def execSyndromeToken (dp : Fin 2) (tgt : BitVec 12) (bad : Fin 3) (addr : Word) (s : State) :
    Host.Outcome State Fault Refusal :=
  (s.synToken dp tgt.toNat bad addr.toNat).done

/-! ### Round closes (R365, R367, R368, R372) -/

/-- The token of a node for a round. -/
def DecDyn.tok (x : DecDyn) (r n : Nat) : Option (Nat × Nat × Bool × Bool × Nat) :=
  x.toks.find? fun e => e.1 == r && e.2.1 == n

/-- The syndrome bit of a node in the round before r (R365: zero before round 0). -/
def DecDyn.prev (x : DecDyn) (r n : Nat) : Bool := if r = 0 then false else Table.get false x.synd (nodeKey (r - 1) n)

/-- R365, R368: a node's syndrome bit in round r becomes known, or it is erased (`code` not 0). -/
def DecDyn.setBit (x : DecDyn) (r n : Nat) (bit : Bool) (code : Nat) : DecDyn :=
  let prev := x.prev r n
  let b := if code = 0 then bit else prev
  { x with
    synd := Table.set false x.synd (nodeKey r n) b
    det := Table.set false x.det (nodeKey r n) (b != prev)
    erased := Table.set 0 x.erased (nodeKey r n) code }

/-- A LOCAL node at the close of round r. -/
def DecDyn.closeNode (x : DecDyn) (r : Nat) (e : Nat × DecNode) : DecDyn :=
  match x.tok r e.1 with
  | none => x.setBit r e.1 false 2
  | some (_, _, void, bit, _) => x.setBit r e.1 (bit != e.2.inv) (if void then 1 else 0)

/-- R368: the erasure record of a round. -/
def State.erasureRecord (s : State) (p : Fin 2) (g : DecGraph) (r : Nat) : State :=
  let codes := (g.locals.map fun e => Table.get 0 (s.dyn p).erased (nodeKey r e.1)).filter (· ≠ 0)
  if codes.isEmpty then s
  else
    let miss := codes.contains 2
    let s := if s.counts p then s.count Reg.DEC_CNT.ERASE [] else s
    s.decRecord p [r] 0x42 [s.heldOf .event 628 0x42 (if miss then 9 else 1) s.coarseStamp
      [(0x14, 4, s.shotIdx), (0x18, 2, r), (0x1A, 2, codes.length), (0x1C, 1, if miss then 1 else 0)]]

/-- R372: a 256-bit map over the export nodes of a peer, as four words. -/
def mapWords (bits : List Bool) : List Nat :=
  (List.range 4).map fun i => ((bits.drop (64 * i)).take 64).zip (List.range 64) |>.foldl
    (fun a e => a + if e.1 then 2 ^ e.2 else 0) 0

/-- R372: send the boundary frame of a round to a peer. -/
def State.sendBoundary (s : State) (p : Fin 2) (g : DecGraph) (r peer : Nat) : State :=
  let ns := (g.exports.filter fun e => e.2 == peer).map (·.1)
  let x := s.dyn p
  let syn := ns.map fun n => Table.get false x.synd (nodeKey r n)
  let er := ns.map fun n => Table.get 0 x.erased (nodeKey r n) != 0
  s.laceSend (g.peers.getD peer 0) 0 4 0 ((s.shotIdx % 65536 + r * 65536) :: (mapWords syn ++ mapWords er))

/-- R367: round r of plane p may close. -/
def State.mayClose (s : State) (p : Fin 2) (g : DecGraph) (r : Nat) : Bool :=
  let x := s.dyn p
  let f := Table.get 0 x.firstAt r
  (g.locals.all fun e => (x.tok r e.1).isSome) || (f != 0 && decide (f + s.rd Reg.DEC_WAIT.ROUND_WAIT [] ≤ s.time.now + 1))

/-- The decoder of plane p runs: enabled, a graph is loaded, a shot runs. -/
def State.decoding (s : State) (p : Fin 2) : Option DecGraph :=
  if s.flag Reg.DEC_CFG.EN [] && s.planeUp p && s.job.phase == .inShot then s.dec.graph else none

/-- ROUND_CLOSE (R365, R367, R368, R372). -/
def State.roundClose (s : State) (p : Fin 2) : State :=
  match s.decoding p with
  | none => s
  | some g =>
    let r := (s.dyn p).closed
    if g.rounds ≤ r ∨ s.mayClose p g r = false then s
    else
      let s := s.updDyn p fun x => g.locals.foldl (fun x e => x.closeNode r e) { x with
        closed := r + 1, closedAt := Table.set 0 x.closedAt r (s.time.now + 1) }
      let s := s.erasureRecord p g r
      (List.range g.peers.length).foldl (fun s i => s.sendBoundary p g r i) s

def execRoundClose (dp : Fin 2) (s : State) : Host.Outcome State Fault Refusal := .next (s.roundClose dp)

/-! ### Remote nodes (R373) -/

/-- The boundary frame of a peer for a round of the running shot. -/
def State.peerFrame (s : State) (p : Fin 2) (peer r : Nat) : Option (Nat × Nat × Nat × Nat) :=
  (s.dyn p).frames.find? fun e => e.1 == peer && e.2.1 == frameKey s.shotIdx r

def DecDyn.isMissed (x : DecDyn) (peer r : Nat) : Bool := x.missed.any fun e => e.1 == peer && e.2 == r

/-- REMOTE_WAIT_EXPIRY (R373): the oldest round of which a peer's frame is missing after its wait. -/
def State.remoteMiss (s : State) (p : Fin 2) (peer : Nat) : State :=
  match s.decoding p with
  | none => s
  | some g =>
    let x := s.dyn p
    let late (r : Nat) : Bool := decide (x.decoded ≤ r) && !(s.peerFrame p peer r).isSome && !x.isMissed peer r
      && decide (Table.get 0 x.closedAt r + s.rd Reg.DEC_WAIT.REMOTE_WAIT [] ≤ s.time.now + 1)
    match (List.range x.closed).find? late with
    | none => s
    | some r =>
      if g.peers.length ≤ peer then s
      else
        let s := s.updDyn p fun x => { x with
          missed := x.missed ++ [(peer, r)], late := x.late ++ [(peer, frameKey s.shotIdx r)] }
        s.decRecord p [r] 0x44 [s.heldOf .event 629 0x44 9 s.coarseStamp
          [(0x14, 4, s.shotIdx), (0x18, 2, r), (0x1A, 1, peer)]]

def execRemoteWaitExpiry (dp : Fin 2) (peer : Fin 8) (s : State) : Host.Outcome State Fault Refusal :=
  .next (s.remoteMiss dp peer)

/-- R365, R368, R373: a REMOTE node of round r takes its peer's bit, or is erased. -/
def DecDyn.remoteNode (x : DecDyn) (r : Nat) (frame : Option (Nat × Nat × Nat × Nat)) (e : Nat × DecNode) : DecDyn :=
  match frame with
  | none => x.setBit r e.1 false 3
  | some (_, _, syn, er) => x.setBit r e.1 (bitOf syn e.2.ref) (if bitOf er e.2.ref then 1 else 0)

/-! ### Decodes (R369 to R371, R374, R376) -/

/-- R374: the tile of a node under the last in effect. -/
def State.tileOf (s : State) (g : DecGraph) (n : Nat) : Nat :=
  match s.place.inEffect.tiles[n]? with
  | some t => t
  | none => (g.nodes[n]?.getD {}).tile

/-- R374: the peer whose shared region an edge lies in: none for an interior edge. -/
def edgePeers (g : DecGraph) (e : DecEdge) : List Nat :=
  [e.a, e.b].filterMap fun n =>
    let d := g.nodes[n]?.getD {}
    if d.typ = 1 then some d.peer else none

/-- R374: this device commits the edge: an interior edge, or one of a shared region assigned to it. -/
def State.ownsEdge (s : State) (g : DecGraph) (e : DecEdge) : Bool :=
  match edgePeers g e with
  | [] => true
  | [p] => s.place.inEffect.regions.any fun r => r.1 == g.peers.getD p 0 && r.2.1
  | _ => false

/-- R380: PEAK of the tiles of plane p. -/
def State.tilePeak (s : State) (p : Fin 2) (t n : Nat) : State :=
  if s.rd Reg.DT_STAT.PEAK [p, t] < n then s.wr Reg.DT_STAT.PEAK [p, t] (min 65535 n) else s

/-- The events that tile t holds in a window. -/
def State.tileEvents (s : State) (g : DecGraph) (events : List Nat) (t : Nat) : Nat :=
  (events.filter fun k => s.tileOf g (keyNode k) == t).length

/-- R371: the rounds that the decode of round r commits: first and last. -/
def commitRounds (g : DecGraph) (committed r : Nat) : Option (Nat × Nat) :=
  if r + 1 = g.rounds then some (committed, r)
  else if g.window ≤ r + 1 then some (r + 1 - g.window, r + 1 - g.window)
  else none

/-- R376: the payload of a correction token. -/
def correctionPayload (void final : Bool) (obs : BitVec 8) (rmiss erase first : Bool) (tickLo : Nat) : Nat :=
  let b (x : Bool) (i : Nat) : Nat := if x then 2 ^ i else 0
  b final 23 + tickLo % 65536
    + (if void then 0 else obs.toNat * 2 ^ 24 + b (obs.getLsbD 0) 21 + b rmiss 18 + b erase 17 + b first 16)

/-- R371, R376: the output of a decode of round r that commits rounds `a` to `b` with edges `kept`. -/
def State.decOutput (s : State) (p : Fin 2) (g : DecGraph) (r a b : Nat) (kept : List WEdge)
    (ovf : Option (Nat × Nat)) : State :=
  let x := s.dyn p
  let mine := kept.filter fun e => decide (a ≤ e.round ∧ e.round ≤ b)
    && s.ownsEdge g (g.edges[e.idx]?.getD {})
  let own := mine.foldl (fun o e => o ^^^ (g.edges[e.idx]?.getD {}).obs) (0 : BitVec 8)
  let obs := x.obs ^^^ own
  let inRounds (k : Nat) : Bool := decide (a ≤ keyRound k ∧ keyRound k ≤ b)
  let typOf (k : Nat) : Nat := (g.nodes[keyNode k]?.getD {}).typ
  let erase := x.erased.any fun e => inRounds e.1 && typOf e.1 == 0
  let rmiss := x.erased.any fun e => inRounds e.1 && e.2 == 3
  let final := decide (r + 1 = g.rounds)
  let void := ovf.isSome
  let smp := Table.get 0 x.ends r
  let flip := (mine.filter fun e => (g.edges[e.idx]?.getD {}).dr).map (·.b)
  let det := if void then x.det.filter fun e => !inRounds e.1
    else flip.foldl (fun t k => Table.upd false t k (!·)) x.det
  let fl (v : Bool) (i : Nat) : Nat := if v then 2 ^ i else 0
  let out : DecOut := {
    void := void, first := a, last := b, obs := obs, obsOwn := own, smp := smp, ovf := ovf, round := r
    payload := BitVec.ofNat 32 (correctionPayload void final obs rmiss erase (decide (a = 0)) (s.devAt (smp / 8 + 1)).ns.toNat)
    flags := fl (decide (a = 0)) 0 + fl erase 1 + fl rmiss 2 + fl void 3 + fl final 4
    edges := mine.map fun e => (e.round, e.idx) }
  s.updDyn p fun x => { x with decoded := r + 1, committed := b + 1, obs := obs, det := det, out := some out }

/-- R370: the record of a tile on which a decode overflows. -/
def State.decOverflow (s : State) (p : Fin 2) (r t n : Nat) : State :=
  s.decRecord p [r, t] 0x43 [s.heldOf .event (596 + 16 * p.val + t) 0x43 9 s.coarseStamp
    [(0x14, 4, s.shotIdx), (0x18, 2, r), (0x1A, 2, n)]]

/-- R369: the decode of round r. -/
def State.decodeRound (s : State) (p : Fin 2) (g : DecGraph) (r : Nat) : State :=
  let x := s.dyn p
  let lo := r + 1 - min (r + 1) g.window
  let events := (x.det.filter fun e => decide (nodeKey lo 0 ≤ e.1 ∧ e.1 < nodeKey (r + 1) 0)).map (·.1)
  let s := (List.range 16).foldl (fun s t => s.tilePeak p t (s.tileEvents g events t)) s
  let heavy := ((List.range 16).map fun t => (t, s.tileEvents g events t)).filter fun e => decide (2048 < e.2)
  let ovf := heavy.head?
  let s := if heavy ≠ [] ∧ s.counts p = true then s.count Reg.DEC_CNT.OVF [] else s
  let s := heavy.foldl (fun s e => s.decOverflow p r e.1 e.2) s
  match commitRounds g x.committed r with
  | none => s.updDyn p fun x => { x with decoded := r + 1 }
  | some (a, b) =>
    let w : Window := {
      keys := (List.range (r + 1 - lo)).flatMap fun j => (List.range g.nodes.length).map (nodeKey (lo + j))
      events := events
      bound := fun k => (g.nodes[keyNode k]?.getD {}).typ == 2 }
    let es := windowEdges g lo r
    let full (e : WEdge) : Bool := Table.get 0 x.erased e.a != 0 || Table.get 0 x.erased e.b != 0
    s.decOutput p g r a b (if ovf.isSome then [] else w.decode es full) ovf

/-- DECODE (R369 to R371): the next closed round whose REMOTE nodes are known or past their wait. -/
def State.decode (s : State) (p : Fin 2) : State :=
  match s.decoding p with
  | none => s
  | some g =>
    let x := s.dyn p
    let r := x.decoded
    let ready := (List.range g.peers.length).all fun i =>
      (g.remotes i).isEmpty || (s.peerFrame p i r).isSome || x.isMissed i r
    if x.closed ≤ r ∨ x.out.isSome ∨ ready = false then s
    else
      let s := s.updDyn p fun x => (List.range g.peers.length).foldl (fun x i =>
        (g.remotes i).foldl (fun x e => x.remoteNode r (s.peerFrame p i r) e) x) x
      s.decodeRound p g r

def execDecode (dp : Fin 2) (s : State) : Host.Outcome State Fault Refusal := .next (s.decode dp)

/-- R378, R379: the records of an output: correction edges by round, then the correction. -/
def State.outRecords (s : State) (p : Fin 2) (o : DecOut) : State :=
  let st := s.adcStamp o.smp
  let rounds := (List.range (o.last + 1 - o.first)).map (o.first + ·)
  let s := if s.flag Reg.DEC_CFG.EDGE_REC [] then rounds.foldl (fun s r =>
      match (o.edges.filter fun e => e.1 == r).map fun e => s.heldOf .result 628 0x15 0 st
          [(0x14, 4, s.shotIdx), (0x18, 2, r), (0x1A, 2, e.2)] with
      | [] => s
      | hs => s.decRecord p [r] 0x15 hs) s
    else s
  if s.flag Reg.DEC_CFG.REC [] then
    s.decRecord p [o.round] 0x14 [s.heldOf .result 628 0x14 0 st
      [(0x14, 4, s.shotIdx), (0x18, 2, o.first), (0x1A, 2, o.last), (0x1C, 1, o.obs.toNat), (0x1D, 1, o.obsOwn.toNat),
       (0x1E, 2, o.flags + min 255 o.edges.length * 256)]]
  else s

/-- DECODE_OUTPUT (R376, R378, R379). -/
def State.decodeOut (s : State) (p : Fin 2) : State :=
  match (s.dyn p).out with
  | none => s
  | some o =>
    let n := s.dec.outs[p]
    let t : Token := {
      kind := if o.void then 0xC else 4, origin := p.val == 1, seq := BitVec.ofNat 15 n
      target := BitVec.ofNat 12 (s.rd Reg.DEC_OUT.OUT_TGT []), payload := o.payload, smp := o.smp }
    let s := s.updDyn p fun x => { x with out := none }
    let s := { s with dec.outs := s.dec.outs.set p (n + 1) }
    if s.planeUp p then
      let d := s.rd Reg.DEC_OUT.DSTSET []
      ((s.outRecords p o).sendCopies d t).decisionActs p [3, 0] d t
    else s

def execDecodeOutput (dp : Fin 2) (s : State) : Host.Outcome State Fault Refusal := .next (s.decodeOut dp)

/-- R371, R20: the decoder of plane p has made its FINAL output, or makes none. -/
def State.decFinal (s : State) (p : Fin 2) : Bool :=
  match s.decoding p with
  | some g => !s.place.inEffect.usesDecoder || (decide (g.rounds ≤ (s.dyn p).decoded) && (s.dyn p).out.isNone)
  | none => true

/-- A shot starts or ends: what the decoders hold of a shot goes; frames of other shots stay (R373). -/
def State.decNewShot (s : State) : State :=
  let keep (x : DecDyn) : DecDyn := { frames := x.frames.filter (fun e => e.2.1 / 32768 != s.shotIdx % 65536), late := x.late }
  { s with dec.dyn := s.dec.dyn.map keep }

end Sys2Proof.Machine
end

