-- ==== Sys2Proof/Machine/DspOps.lean ====
section
/-! DEFINITION. The operations of a readout signal processor: instruction fields, pointers and rings,
block repeats, flags and accumulators, tokens and packets (chapter 07). -/

namespace Sys2Proof.Machine

/-! ### Instruction words (R297) -/

/-- R297: the instruction word at an address of processor k. -/
def State.dspWord (s : State) (k a : Nat) : Nat := s.load (instrBase k + a % 4096 * 4) 4

/-- R297: the class of a word: 3 M, 2 A, 1 L, 0 C. -/
def dspClass (w : Nat) : Nat := bitsOf w 31 30

/-- R297: the operation code of a word in its class. -/
def dspOp (w : Nat) : Nat :=
  match dspClass w with
  | 2 => bitsOf w 29 25
  | 0 => bitsOf w 29 26
  | _ => bitsOf w 29 27

/-- R299: the operations of each class. -/
def dspOps (cls : Nat) : Nat :=
  match cls with
  | 3 => 7 | 2 => 19 | 1 => 7 | _ => 9

/-- The immediate of an A-class word, signed (R297). -/
def aImm (w : Nat) : Int := signedOf 16 w
def aDst (w : Nat) : Nat := bitsOf w 24 22
def aSrc1 (w : Nat) : Nat := bitsOf w 21 19
def aSrc2 (w : Nat) : Nat := bitsOf w 18 16
def lPtr (w : Nat) : Nat := bitsOf w 26 24
def lMod (w : Nat) : Nat := bitsOf w 23 22
def lG (w : Nat) : Nat := bitsOf w 21 19
def lImm (w : Nat) : BitVec 14 := BitVec.ofNat 14 w
def cLvl (w : Nat) : Nat := bitsOf w 25 24
def cAddr (w : Nat) : Nat := bitsOf w 23 12
def cArg (w : Nat) : Nat := bitsOf w 11 0

/-! ### Registers -/

def Dsp.greg (d : Dsp) (i : Nat) : Word := d.g[i]?.getD 0
def Dsp.setG (d : Dsp) (i : Nat) (v : Word) : Dsp := { d with g := d.g.set! i v }
def Dsp.ureg (d : Dsp) (i : Nat) : Word := d.u[i]?.getD 0
def Dsp.setU (d : Dsp) (i : Nat) (v : Word) : Dsp := { d with u := d.u.set! i v }
def Dsp.ptr (d : Dsp) (i : Nat) : Ptr := d.p[i]?.getD {}
def Dsp.updPtr (d : Dsp) (i : Nat) (f : Ptr → Ptr) : Dsp := { d with p := d.p.set! i (f (d.ptr i)) }
def Dsp.rep (d : Dsp) (i : Nat) : Rep := d.reps[i]?.getD {}

/-- The I half (bits 15:0) and the Q half (bits 31:16), signed. -/
def half0 (w : Word) : Int := signedOf 16 w.toNat
def half1 (w : Word) : Int := signedOf 16 (w.toNat / 65536)

/-- R302: an accumulator takes an exact result; beyond 40 bits it saturates and OV is set. -/
def Dsp.setAcc (d : Dsp) (v0 v1 : Int) : Dsp :=
  { d with
    a0 := BitVec.ofInt 40 (satInt 40 v0)
    a1 := BitVec.ofInt 40 (satInt 40 v1)
    ov := d.ov || decide (satInt 40 v0 ≠ v0 ∨ satInt 40 v1 ≠ v1)
    busy := { acc := true, ov := true } }

/-- R299: Z and N of a 32-bit result. -/
def Dsp.setZN (d : Dsp) (r : Word) : Dsp := { d with z := r == 0, n := r.msb }

/-- R303: the redundant sign bits of a 16-bit value. -/
def redundant (v : Int) : Nat :=
  let m := if v < 0 then (-1 - v).toNat else v.toNat
  ((List.range 16).find? fun i => decide (2 ^ (14 - i) ≤ m)).getD 15

/-- R303: update BLK with the halves of a word. -/
def Dsp.detect (d : Dsp) (w : Word) : Dsp :=
  { d with blk := BitVec.ofNat 4 (min d.blk.toNat (min (redundant (half0 w)) (redundant (half1 w)))) }

/-- R291: special register n as MOVS reads it. -/
def Dsp.readSpecial (d : Dsp) (n : Nat) : Word :=
  let b (x : Bool) (i : Nat) : Nat := if x then 2 ^ i else 0
  if n < 5 then d.special[n]?.getD 0
  else if n = 5 then BitVec.ofNat 32 (b d.sat 4 + b d.ov 3 + b d.v 2 + b d.n 1 + b d.z 0)
  else if n = 6 then d.blk.setWidth 32
  else if n = 7 then d.ash.setWidth 32
  else BitVec.ofNat 32 (d.rep (n - 8)).cnt

/-- R291: a write to a special register. A write of 0 to a sticky flag clears it. -/
def Dsp.writeSpecial (d : Dsp) (n : Nat) (v : Word) : Dsp :=
  let x := v.toNat
  if n = 5 then { d with z := bitOf x 0, n := bitOf x 1, v := bitOf x 2,
                         ov := d.ov && bitOf x 3, sat := d.sat && bitOf x 4 }
  else if n = 6 then { d with blk := BitVec.ofNat 4 x }
  else if n = 7 then { d with ash := BitVec.ofNat 6 (min 39 (bitsOf x 5 0)) }
  else d

/-! ### Pointers and rings (R292 to R294) -/

/-- R292: modify a pointer by a MOD code. -/
def Ptr.modify (p : Ptr) (m : Nat) : Ptr :=
  let st : Int := match m with
    | 0 => 0
    | 1 => 1
    | 2 => -1
    | _ => p.step.toInt
  if m = 0 then p
  else if p.len = 0 then { p with val := BitVec.ofInt 14 ((p.val.toNat : Int) + st) }
  else
    let o : Int := ((p.val - p.base).toNat : Int) + st
    { p with val := p.base + BitVec.ofInt 14 (o % (p.len.toNat : Int)) }

/-- R294: a new ring length takes effect. -/
def Ptr.setLen (p : Ptr) (l : BitVec 14) : Ptr :=
  let o := (p.val - p.base).toNat
  let v := if l ≠ 0 ∧ l.toNat ≤ o then p.base + BitVec.ofNat 14 (o % l.toNat) else p.val
  { p with len := l, pend := none, val := v }

/-- R293: the pending lengths take effect. -/
def Dsp.applyRings (d : Dsp) : Dsp :=
  { d with p := d.p.map fun q => match q.pend with
    | some l => q.setLen l
    | none => q }

/-! ### Block repeats and the program counter (R295, R296) -/

/-- R295: the innermost levels whose END is at `pc`: repeat, or end and look at the next one out. -/
def Dsp.loopEnds (pc : Nat) : List Nat → Dsp → Dsp
  | [], d => { d with pc := BitVec.ofNat 12 (pc + 1) }
  | l :: ls, d =>
    let r := d.rep l
    if r.stop ≠ pc then { d with pc := BitVec.ofNat 12 (pc + 1) }
    else if 1 < r.cnt then
      { d with reps := d.reps.set! l { r with cnt := r.cnt - 1 }, pc := BitVec.ofNat 12 r.start }
    else Dsp.loopEnds pc ls { d with reps := d.reps.set! l { r with cnt := 0 }, act := ls }

/-- The instruction at `pc` completes (R293, R295). -/
def Dsp.complete (d : Dsp) : Dsp :=
  let pc := d.pc.toNat
  let d := if d.act.any fun l => (d.rep l).stop == pc then d.applyRings else d
  d.loopEnds pc d.act

/-- R296: the active levels that a jump to `a` leaves standing: the outermost ones that hold it, up
to the first that it leaves. -/
def Dsp.keepLevels (d : Dsp) (a : Nat) : List Nat :=
  ((d.act.reverse.takeWhile fun l => decide ((d.rep l).start ≤ a ∧ a ≤ (d.rep l).stop))).reverse

/-- R293, R296: a jump. With no level left active the pending lengths take effect at once. -/
def Dsp.jump (d : Dsp) (a : Nat) : Dsp :=
  let pc := d.pc.toNat
  let d := if d.act.any fun l => (d.rep l).stop == pc then d.applyRings else d
  let keep := d.keepLevels a
  let reps := (d.act.filter fun l => !keep.contains l).foldl
    (fun (t : Vector Rep 3) l => t.set! l { d.rep l with cnt := 0 }) d.reps
  let d := { d with act := keep, reps := reps, pc := BitVec.ofNat 12 a }
  if keep = [] then d.applyRings else d

/-! ### Handshakes (R290, R299) -/

/-- What an instruction uses of a result that may not be ready: accumulators, general registers, Z, the
sticky flags, BLK. -/
structure DspUse where
  acc : Bool := false
  regs : List Nat := []
  z : Bool := false
  ov : Bool := false
  sat : Bool := false
  blk : Bool := false

/-- R298: an instruction waits one handshake for a result of the one before it. -/
def Dsp.stall (d : Dsp) (u : DspUse) : Nat :=
  let b := d.busy
  if (b.acc && u.acc) || (match b.reg with
      | some g => u.regs.contains g
      | none => false) || (b.z && u.z) || (b.ov && u.ov) || (b.sat && u.sat) || (b.blk && u.blk) then 1 else 0

/-- R291, R298: what MOVS uses of a special: FLAGS is Z and the sticky flags, 6 is BLK. -/
def readUse (n : Nat) : DspUse :=
  if n = 5 then { z := true, ov := true, sat := true } else if n = 6 then { blk := true } else {}

/-- R291, R298: what MOVT uses: a write of 1 to a sticky flag leaves the flag as the instructions before made
it (log 58: DEDUCED). -/
def writeUse (n : Nat) : DspUse := if n = 5 then { ov := true, sat := true } else {}

/-- R298: what TOKEN uses: the register of the target only when ARG bit 3 names one (R304). -/
def tokenUse (w : Nat) : DspUse :=
  { regs := if bitOf w 3 then [bitsOf w 2 0, bitsOf w 6 4] else [bitsOf w 2 0] }

/-- Count the handshakes of an instruction that issues in `n`; no earlier result is then pending. -/
def Dsp.count (d : Dsp) (u : DspUse) (n : Nat) : Dsp :=
  { d with hs := if d.cur.isSome then d.hs + d.stall u + n else 0, busy := {} }

/-! ### Tokens (R289, R290, R304, R307) -/

/-- The fields of a packet's tag (R291). -/
def Packet.tgt (p : Packet) : Nat := bitsOf p.tag 31 20
def Packet.syn (p : Packet) : Bool := bitOf p.tag 19
def Packet.tok (p : Packet) : Bool := bitOf p.tag 17
def Packet.toneId (p : Packet) : Nat := bitsOf p.tag 15 7

/-- R289, R290, R307: the void token of a packet whose TOK is set and for which none was sent. -/
def State.voidPacket (s : State) (p : Packet) : State :=
  if p.tok && !p.sent then s.makeToken p.syn true p.tgt (tokenPayload p.toneId 0 0 p.ns) p.last else s

/-- R307, R299 END: the processor stops until the job ends; packets it holds or has queued yield their
void tokens. -/
def State.stopDsp (s : State) (k : Nat) : State :=
  let d := s.dsp k
  let ps := d.cur.toList ++ d.queue
  let s := ps.foldl State.voidPacket s
  s.updDsp k fun d => { d with st := .stopped, cur := none, queue := [] }

/-- R306, R307: a processor error record. -/
def State.dspError (s : State) (k code : Nat) : State :=
  s.postCoarse s.jobCtx (576 + k) 0x36 8
    [(0x14, 4, s.shotIdx), (0x18, 1, code), (0x1A, 2, (s.dsp k).pc.toNat)]

/-- R307: codes 1 and 4. -/
def State.dspFail (s : State) (k code : Nat) : State := (s.dspError k code).stopDsp k

/-! ### Issue -/

/-- Run the instruction at the program counter of processor k when it is of the given class and
operation. Bit 0 of `bad` is an uncorrectable error in its fetch (R307). -/
def State.dspIssue (s : State) (k : Nat) (bad : BitVec 3) (cls op : Nat) (act : State → Dsp → Nat → State) :
    State :=
  let d := s.dsp k
  if d.st ≠ .run then s
  else if bad.getLsbD 0 then (s.eccError 2 k 0 d.pc.toNat true).dspFail k 1
  else
    let w := s.dspWord k d.pc.toNat
    if dspClass w = cls ∧ dspOp w = op then act s d w else s

/-- An instruction that only changes the processor: its use, its issue count, its effect. -/
def State.dspSimple (s : State) (k : Nat) (bad : BitVec 3) (cls op n : Nat) (use : Nat → DspUse)
    (f : Dsp → Nat → Dsp) : State :=
  s.dspIssue k bad cls op fun s d w => s.updDsp k fun _ => (f (d.count (use w) n) w).complete

/-! ### Memory access -/

/-- R285: a word of X (pointers 0 to 3) or Y (4 to 7) memory at a pointer. -/
def dspAddr (k p : Nat) (a : BitVec 14) : Nat := (if p < 4 then xBase k else yBase k) + a.toNat * 4

/-- R307: a read through pointer p; an uncorrectable error yields 0 and is recorded. -/
def State.dspRead (s : State) (k p : Nat) (a : BitVec 14) (bad : Bool) : State × Word :=
  if bad then
    ((s.eccError 3 k 0 a.toNat true).dspError k (if p < 4 then 2 else 3), 0)
  else (s, BitVec.ofNat 32 (s.load (dspAddr k p a) 4))

/-! ### M class (R298) -/

/-- R298: an M-class word: the multiplier operands are read, then the moves write. -/
def State.dspM (s : State) (k : Nat) (bad : BitVec 3) (op : Nat) (f : Dsp → Word → Word → Dsp) : State :=
  s.dspIssue k bad 3 op fun s d w =>
    let a := d.ureg (bitsOf w 26 24)
    let b := d.ureg (bitsOf w 23 21)
    let xp := bitsOf w 19 18
    let yp := 4 + bitsOf w 11 10
    let d1 := f (d.count {} 1) a b
    let (s, xv) := if bitOf w 20 then s.dspRead k xp (d.ptr xp).val (bad.getLsbD 1) else (s, 0)
    let d2 := if bitOf w 20 then (d1.setU (bitsOf w 15 13) xv).updPtr xp fun p => p.modify (bitsOf w 17 16) else d1
    let (s, yv) := if bitOf w 12 then s.dspRead k yp (d.ptr yp).val (bad.getLsbD 2) else (s, 0)
    let d3 := if bitOf w 12 then (d2.setU (bitsOf w 7 5) yv).updPtr yp fun p => p.modify (bitsOf w 9 8) else d2
    s.updDsp k fun _ => d3.complete

/-- The accumulators as integers. -/
def Dsp.acc0 (d : Dsp) : Int := d.a0.toInt
def Dsp.acc1 (d : Dsp) : Int := d.a1.toInt

/-- R299: Re and Im of OPA · OPB. -/
def cmulRe (a b : Word) : Int := half0 a * half0 b - half1 a * half1 b
def cmulIm (a b : Word) : Int := half0 a * half1 b + half1 a * half0 b
/-- R299: Re and Im of OPA · conj OPB. -/
def cmuljRe (a b : Word) : Int := half0 a * half0 b + half1 a * half1 b
def cmuljIm (a b : Word) : Int := half1 a * half0 b - half0 a * half1 b

/-! ### A class -/

/-- An A-class word that writes DST from registers and sets Z and N. -/
def State.dspLogic (s : State) (k : Nat) (bad : BitVec 3) (op : Nat) (f : Word → Word → Word) : State :=
  s.dspSimple k bad 2 op 1 (fun w => { regs := [aSrc1 w, aSrc2 w] }) fun d w =>
    let r := f (d.greg (aSrc1 w)) (d.greg (aSrc2 w))
    (d.setG (aDst w) r).setZN r

/-- R302: a sum or difference that wraps in 32 bits; V is signed overflow. -/
def Dsp.arith (d : Dsp) (r : Int) : Dsp × Word :=
  let w := BitVec.ofInt 32 r
  ({ d.setZN w with v := decide (satInt 32 r ≠ r) }, w)

/-! ### Packets (R288 to R290) -/

/-- R288: take the oldest packet of the queue, or wait. -/
def State.takePacket (s : State) (k : Nat) : State :=
  s.updDsp k fun d => match d.queue with
    | [] => { d with st := .wait, cur := none, hs := 0, ovf := false }
    | p :: ps => Dsp.complete { d with
        st := .run, cur := some p, queue := ps, took := true, hs := 0, ovf := false
        special := d.special.set! 0 (BitVec.ofNat 32 p.tag) |>.set! 1 (BitVec.ofNat 32 p.ns)
          |>.set! 2 (BitVec.ofNat 32 p.shot) |>.set! 3 (BitVec.ofNat 32 p.addr)
          |>.set! 4 (BitVec.ofNat 32 p.cnt) }

/-- R293, R295, R296: start a repeat level with a count; code 4 when it does not nest. -/
def State.dspRepeat (s : State) (k : Nat) (d : Dsp) (w n : Nat) : State :=
  let l := cLvl w
  let e := cAddr w
  let outer := d.act.filter (· ≠ l)
  if outer.any fun m => decide ((d.rep m).stop < e) then s.dspFail k 4
  else if n = 0 then s.updDsp k fun _ => d.jump (e + 1)
  else
    let up : Dsp := if d.act.any fun m => (d.rep m).stop == d.pc.toNat then d.applyRings else d
    s.updDsp k fun _ => { up with
      reps := up.reps.set! l { cnt := n, start := d.pc.toNat + 1, stop := e }
      act := l :: outer, pc := d.pc + 1 }

/-- R283, R287: a processor starts at arming; the next window's data starts where the previous data ended. -/
def State.startDsp (s : State) (k : Nat) : State :=
  s.updDsp k fun d =>
    { st := .run, pc := BitVec.ofNat 12 (s.rd Reg.DSP_CTL.ENTRY [k / 4, k % 4]), written := d.written, wpos := d.wpos }

/-- R287: at the job boundary a processor returns to IDLE and its queue is emptied. -/
def State.idleDsp (s : State) (k : Nat) : State :=
  s.updDsp k fun d => { d with st := .idle, queue := [], cur := none }

end Sys2Proof.Machine
end

