-- ==== Sys2Proof/Machine/Loads.lean ====
section
/-! DEFINITION. What a load checks and writes: stitches (R183 to R187), processor instructions (R300,
R301), envelope table entries (R101, R102), the matching graph (R357 to R363), the memory regions that
a last uses (R21, R390, R403), and sealed marks (R691). -/

namespace Sys2Proof.Machine

/-- The outcome of checking one structure: a violation cause (0: none), the value after its clamps, and
the clamps made, each with its lowest bit, the value written and the value used. -/
structure Checked where
  cause : Nat := 0
  val : Nat := 0
  clamps : List (Nat × Nat × Nat) := []
deriving DecidableEq, Repr

/-- Clamp the field of bits `hi` down to `lo` to a range. -/
def Checked.clamp (c : Checked) (hi lo mn mx : Nat) : Checked :=
  let v := bitsOf c.val hi lo
  let u := clampNat mn mx v
  if u = v then c else { c with val := setBits c.val hi lo u, clamps := c.clamps ++ [(lo, v, u)] }

/-! ### Stitches (R183 to R187) -/

/-- R182: the class places an event. -/
def placesEvent (cls : Nat) : Bool := [1, 3, 4, 8, 9, 11].contains cls

/-- R222: the bits of CID that a COND uses. -/
def cidMask (cond : Nat) : Nat := [0, 0xFFF, 3, 0x1F].getD cond 0

/-- R192 to R234: the bits that a stitch's class and variant give a field, by word. -/
def Stitch.fields (w : Stitch) : Stitch :=
  let w0 := if placesEvent w.cls then 0xFFFF0FFF else 0xFF
  match w.cls with
  | 1 => ⟨w0, 0xFFFFFF, 0xFFFFFF, 0xFFFF⟩
  | 2 => ⟨w0, if w.sub = 2 then 0 else 0xFFFFFFFF, 0, 0⟩
  | 3 => ⟨w0, 0xFFF77FFF, 0x1FFFF, 0⟩
  | 4 => ⟨w0, 0xFFFFFFFF, 0x3FFFF, 0xFFFF⟩
  | 5 => ⟨w0, 0x7FFFFF, 0xFFFF0000 + cidMask w.cond, if w.sub = 1 then 0xF7F else 0⟩
  | 6 => ⟨w0, if w.sub = 0 then 0xFFFFFF03 else 3, 0, 0⟩
  | 7 => ⟨w0, 0x3F, 0, 0⟩
  | 8 => ⟨w0, 0xF7F, 0xFFFFFFFF, if 2 ≤ w.sub then 0xFFFF else 0⟩
  | 9 => ⟨w0, 0x1FFFF, 0x1FFFFF, 0xFFFF⟩
  | 10 => ⟨w0, 0xFFFF, 0, 0⟩
  | _ => ⟨w0, 0xF7F, [0xFFFFF, 0xFF].getD w.sub 0, 0⟩

/-- R185: every reserved bit is 0. -/
def reservedClear (v mask : Nat) : Bool := (v &&& mask) == v

def Stitch.clean (w : Stitch) : Bool := reservedClear w.toNat w.fields.toNat

/-- R191: GEN names a generator of an output queue. -/
def genNamed (queue gen : Nat) : Bool :=
  if queue < 32 then decide (gen < 4) else if queue < 48 then true else gen == 0

/-- R190, R191, R221: QUEUE and GEN name a unit of the kind the class addresses. -/
def Stitch.named (w : Stitch) : Bool :=
  let q := w.queue
  match w.cls with
  | 1 => decide (q < 40 ∨ (48 ≤ q ∧ q < 64)) && genNamed q w.gen
  | 3 => decide (40 ≤ q ∧ q < 48)
  | 5 => w.sub == 0 || (decide (w.bqueue < 40) && genNamed w.bqueue w.bgen)
  | 8 => decide (q < 48) && genNamed q w.gen
  | 9 => decide (q < 40) && genNamed q w.gen
  | 11 => decide (64 ≤ q ∧ q < 68)
  | _ => true

/-- R113, R200, R246: the range of a FREQ_SET value on an output and on a readout input queue. -/
def freqRange (queue : Nat) : Nat × Nat :=
  if queue < 40 then (0x080000000000, 0xF00000000000) else (0x033333333333, 0x7CCCCCCCCCCC)

/-- R183, R186: the clamps of a stitch's fields, each on its own. -/
def Stitch.ownClamps (w : Stitch) : Checked :=
  let c : Checked := { val := w.toNat }
  let c := if placesEvent w.cls && w.cls != 4 then
      (if w.queue < 40 then c else if w.queue < 48 then c.clamp 11 8 0 7
       else if w.queue < 64 then c.clamp 11 8 0 1 else c)
    else c
  match w.cls with
  | 1 => if w.env = 4095 then c.clamp 87 64 1 0xFFFFFF else c
  | 3 => c.clamp 80 64 8 128000
  | 5 => if w.cond = 3 then c.clamp 68 64 1 26 else c
  | 6 => if w.sub = 0 then c.clamp 63 40 1 0xFFFFFF else c
  | 8 => if w.sub = 2 then c.clamp 111 64 (freqRange w.queue).1 (freqRange w.queue).2 else c
  | 9 => (c.clamp 84 64 1 1048576).clamp 111 96 0 0x8000
  | 10 => c.clamp 47 32 56 0xFFFF
  | _ => c

/-- R207: the pins whose mode is not don't-care. -/
def markPins (mode : Nat) : Nat :=
  (List.range 16).foldl (fun a p => if bitsOf mode (2 * p + 1) (2 * p) = 0 then a else a + 2 ^ p) 0

/-- R187: the cross-field clamps of a stitch: SYN without TOK (R203), REL (R207), the policy of a
segment-end branch (R143), and SEL (R223). -/
def Stitch.crossClamps (w : Stitch) (c : Checked) : Checked :=
  match w.cls with
  | 3 => if bitOf w.w1 16 then c else c.clamp 50 50 0 0
  | 4 =>
    let bad := w.w3 &&& markPins w.w1
    if bad = 0 then c
    else { c with val := setBits c.val 111 96 (w.w3 - bad), clamps := c.clamps ++ [(96, w.w3, w.w3 - bad)] }
  | 5 =>
    let c := if w.sub = 1 ∧ w.cond ≠ 0 then c.clamp 45 45 0 0 else c
    match w.cond with
    | 2 => if w.sel = 2 then c.clamp 49 48 0 0 else c.clamp 49 48 0 1
    | 3 => c.clamp 49 48 0 0
    | _ => c
  | _ => c

/-- R185 to R187: the check of a stitch. DESIGN CHOICE (log 40): a stitch with both an unknown CLASS or SUB and a
reserved bit set reports CAUSE 3, and one with a reserved bit and a field that names no unit CAUSE 2; R498 ranks
violations by stitch only. -/
def checkStitch (v : Nat) : Checked :=
  let w := Stitch.ofNat v
  if !w.known then { cause := 3, val := v }
  else if !w.clean then { cause := 2, val := v }
  else if !w.named then { cause := 3, val := v }
  else w.crossClamps w.ownClamps

/-! ### Processor instructions (R297 to R301) -/

/-- R299: the bits that an instruction names, beside its class and code. -/
def dspFields (w : Nat) : Nat :=
  let dst := 0x1C00000
  let src1 := 0x380000
  let src2 := 0x70000
  match dspClass w with
  | 3 => if dspOp w = 0 then 0x1FFFE0 else 0x7FFFFE0
  | 2 => [dst + src1 + src2, dst + src1 + src2, dst + src1 + src2, dst + src1 + src2, dst + src1 + src2,
          dst + src1 + 0xFFFF, dst + 0xFFFF, dst + 0xFFFF, dst + src1 + 0x1F, dst + src1 + 0x1F, src1 + src2,
          dst, src1 + 0x1F, 0, dst + 0xF, src1 + 0xF, dst + src1, dst + src1, dst + src1].getD (dspOp w) 0
  | 1 => [0x7FC0000, 0x7F80000, 0x7003FFF, 0x7003FFF, 0x7003FFF, 0x7003FFF,
          0x7380000].getD (dspOp w) 0
  | _ => [0, 0x3FFFFFF, 0x3FFF007, 0xFFF000, 0xFFF00F, 0, 0x7F, 0x771, 0].getD (dspOp w) 0

/-- The bits that hold an instruction's class and code. -/
def dspCodeBits (w : Nat) : Nat :=
  match dspClass w with
  | 2 => 0xFE000000
  | 0 => 0xFC000000
  | _ => 0xF8000000

/-- R300: what an instruction may not name, beside reserved bits. -/
def dspNamed (a w : Nat) : Bool :=
  let op := dspOp w
  match dspClass w with
  | 3 => !(bitOf w 20 && bitOf w 12 && bitsOf w 15 13 == bitsOf w 7 5)
  | 2 =>
    let sp := bitsOf w 3 0
    if op = 14 then decide (sp ≤ 10) else if op = 15 then decide (5 ≤ sp ∧ sp ≤ 7) else true
  | 1 => true
  | _ =>
    if op = 1 ∨ op = 2 then decide (cLvl w < 3 ∧ a ≤ cAddr w)
    else if op = 4 then decide (cArg w % 16 < 8) else true

/-- R300, R301: the check of the instruction at address `a`. -/
def checkInstr (a w : Nat) : Checked :=
  if dspOps (dspClass w) ≤ dspOp w then { cause := 3, val := w }
  else if !reservedClear w (dspFields w + dspCodeBits w) then { cause := 2, val := w }
  else if !dspNamed a w then { cause := 3, val := w }
  else if dspClass w = 0 ∧ dspOp w = 1 then ({ val := w } : Checked).clamp 11 0 1 4095
  else { val := w }

/-! ### Envelope table entries (R101, R102) -/

/-- The granules of a quarter that envelope data may use (R101). -/
def envGranules : Nat := 130048

/-- R101, R498: the first violation of an entry, as offset within it and cause, for a LOAD_ENVELOPE of
`len` data bytes. -/
def entryFault (e : List Byte) : Option (Nat × Nat) :=
  if fieldAt e 0 4 / 2 ^ 17 ≠ 0 then some (0, 2)
  else if envGranules < fieldAt e 0 4 % 2 ^ 17 + (clampNat 1 1048576 (fieldAt e 4 4) + 15) / 16 then some (0, 5)
  else if fieldAt e 9 1 / 2 ≠ 0 then some (9, 2)
  else match ([12, 13, 14, 15]).find? fun o => fieldAt e o 1 ≠ 0 with
    | some o => some (o, 2)
    | none => none

/-- R101, R102: the clamps of an entry: offset, size, written, used. -/
def entryClamps (e : List Byte) : List (Nat × Nat × Nat × Nat) :=
  let c (off n mn mx : Nat) : List (Nat × Nat × Nat × Nat) :=
    let v := fieldAt e off n
    let u := clampNat mn mx v
    if u = v then [] else [(off, n, v, u)]
  c 4 4 1 1048576 ++ c 8 1 0 1 ++ c 10 2 0 0x8000

/-- The 16 bytes of an entry with its clamps applied. -/
def entryBytes (e : List Byte) : List Byte :=
  let v := (entryClamps e).foldl (fun v c => setBits v (8 * (c.1 + c.2.1) - 1) (8 * c.1) c.2.2.2) (fieldAt e 0 16)
  leBytes 16 v

/-! ### The matching graph (R357 to R363) -/

/-- R357: the counts of a graph image's header. -/
structure GraphHead where
  nodes : Nat
  rounds : Nat
  edges : Nat
  window : Nat
  peers : Nat
  exports : Nat

/-- R357, R458: the counts; a NODES or EDGES of 0 is clamped to 1. -/
def graphHead (b : List Byte) : GraphHead :=
  ⟨max 1 (fieldAt b 4 2), fieldAt b 6 2, max 1 (fieldAt b 8 4), fieldAt b 0x0C 1, fieldAt b 0x0D 1, fieldAt b 0x0E 2⟩

/-- R482: the LEN that the image's counts give. -/
def GraphHead.len (h : GraphHead) : Nat := 64 + 8 * h.nodes + 8 * h.edges + 4 * h.exports

/-- R358: node entry n. -/
def graphNode (b : List Byte) (n : Nat) : DecNode :=
  let e := (b.drop (64 + 8 * n)).take 8
  { typ := fieldAt e 2 1 % 4, ref := fieldAt e 0 2, tile := fieldAt e 3 1 % 16, peer := fieldAt e 3 1 / 16 % 8
    pin := bitOf (fieldAt e 3 1) 7, inv := bitOf (fieldAt e 4 1) 0 }

/-- R359: edge entry e, its WEIGHT clamped. -/
def graphEdge (b : List Byte) (h : GraphHead) (i : Nat) : DecEdge :=
  let e := (b.drop (64 + 8 * h.nodes + 8 * i)).take 8
  { a := fieldAt e 0 2, b := fieldAt e 2 2, weight := max 1 (fieldAt e 4 1), dr := bitOf (fieldAt e 5 1) 0
    obs := BitVec.ofNat 8 (fieldAt e 6 1) }

def graphExport (b : List Byte) (h : GraphHead) (i : Nat) : Nat × Nat :=
  let e := (b.drop (64 + 8 * h.nodes + 8 * h.edges + 4 * i)).take 4
  (fieldAt e 0 2, fieldAt e 2 1)

/-- The first true condition's offset. -/
def firstBad : List (Bool × Nat) → Option Nat
  | [] => none
  | (c, o) :: t => if c then some o else firstBad t

/-- R361: the first violation of the header. -/
def headFault (b : List Byte) (h : GraphHead) : Option Nat :=
  firstBad ([(decide (fieldAt b 0 4 ≠ 1), 0)]
    ++ ((List.range 8).map fun p =>
      (decide (fieldAt b (0x10 + 4 * p) 4 / 2 ^ 18 ≠ 0 ∨ (h.peers ≤ p ∧ fieldAt b (0x10 + 4 * p) 4 ≠ 0)), 0x10 + 4 * p))
    ++ ((List.range 16).map fun o => (decide (fieldAt b (0x30 + o) 1 ≠ 0), 0x30 + o)))

/-- R358, R361: the first violation of node n. -/
def nodeFault (b : List Byte) (h : GraphHead) (n : Nat) : Option Nat :=
  let o := 64 + 8 * n
  let e := (b.drop o).take 8
  let x := graphNode b n
  let lim := if x.typ = 0 then 4096 else if x.typ = 1 then 256 else 1
  firstBad ([(decide (lim ≤ x.ref), o),
    (x.typ == 0 && (List.range n).any fun m => (graphNode b m).typ == 0 && (graphNode b m).ref == x.ref, o),
    (decide (3 ≤ fieldAt e 2 1), o + 2),
    (decide (if x.typ = 1 then h.peers ≤ x.peer else x.peer ≠ 0), o + 3),
    (decide (2 ≤ fieldAt e 4 1), o + 4)]
    ++ ([5, 6, 7].map fun k => (decide (fieldAt e k 1 ≠ 0), o + k)))

/-- R359, R361: the first violation of edge i. -/
def edgeFault (b : List Byte) (h : GraphHead) (i : Nat) : Option Nat :=
  let o := 64 + 8 * h.nodes + 8 * i
  let e := (b.drop o).take 8
  let x := graphEdge b h i
  let bound (n : Nat) : Bool := decide (n < h.nodes) && (graphNode b n).typ == 2
  firstBad [(decide (h.nodes ≤ x.a), o), (decide (x.a = x.b) && !x.dr, o), (decide (h.nodes ≤ x.b), o + 2),
    (x.dr && (bound x.a || bound x.b), o + 5), (decide (2 ≤ fieldAt e 5 1), o + 5), (decide (fieldAt e 7 1 ≠ 0), o + 7)]

/-- R360, R361: the first violation of export i. -/
def exportFault (b : List Byte) (h : GraphHead) (i : Nat) : Option Nat :=
  let o := 64 + 8 * h.nodes + 8 * h.edges + 4 * i
  let x := graphExport b h i
  firstBad [(decide (h.nodes ≤ x.1), o), ((graphNode b x.1).typ != 0, o), (decide (h.peers ≤ x.2), o + 2),
    (decide (fieldAt b (o + 3) 1 ≠ 0), o + 3)]

/-- R361, R498: the byte offset of the image's first violation. -/
def graphFault (b : List Byte) (h : GraphHead) : Option Nat :=
  (headFault b h).or
    (((List.range h.nodes).findSome? (nodeFault b h)).or
      (((List.range h.edges).findSome? (edgeFault b h)).or ((List.range h.exports).findSome? (exportFault b h))))

/-- R362: a capacity limit is exceeded. -/
def graphOver (b : List Byte) (h : GraphHead) : Bool :=
  let es := (List.range h.edges).map (graphEdge b h)
  let xs := (List.range h.exports).map (graphExport b h)
  decide (8192 < h.nodes ∨ 32768 < h.edges ∨ 2048 < h.exports ∨ 8 < h.peers)
  || ((List.range h.nodes).any fun n =>
    decide (32 < (es.filter fun e => e.a == n).length + (es.filter fun e => e.b == n && e.a != n).length))
  || ((List.range h.peers).any fun p => decide (256 < (xs.filter fun x => x.2 == p).length))

/-- R359, R362: the clamps of an image: byte offset, written, used. -/
def graphClamps (b : List Byte) (h : GraphHead) : List (Nat × Nat × Nat) :=
  let c (off v u : Nat) : List (Nat × Nat × Nat) := if u = v then [] else [(off, v, u)]
  let r := clampNat 1 32768 h.rounds
  let w := clampNat 1 64 h.window
  c 4 (fieldAt b 4 2) h.nodes ++ c 6 h.rounds r ++ c 8 (fieldAt b 8 4) h.edges ++ c 0x0C h.window w
  ++ ((List.range h.edges).map fun i =>
      let o := 64 + 8 * h.nodes + 8 * i + 4
      c o (fieldAt b o 1) (max 1 (fieldAt b o 1))).flatten
  ++ c 0x0C w (min w r)

/-- R363: the graph that an image loads, with every clamp applied. -/
def graphOf (b : List Byte) (h : GraphHead) : DecGraph :=
  let r := clampNat 1 32768 h.rounds
  { nodes := (List.range h.nodes).map (graphNode b)
    edges := (List.range h.edges).map (graphEdge b h)
    exports := (List.range h.exports).map (graphExport b h)
    peers := (List.range h.peers).map fun p => fieldAt b (0x10 + 4 * p) 4
    rounds := r
    window := min (clampNat 1 64 h.window) r }

/-! ### Regions (R21, R22, R390, R403) -/

/-- What a load writes. -/
inductive Region where
  | prog (k : Nat)
  /-- instruction, X or Y memory of a processor -/
  | dsp (k : Nat)
  | entry (q id : Nat)
  | granules (q first count : Nat)
  | points (q first count : Nat)
  | graph
deriving DecidableEq, Repr

/-- Two runs meet. -/
def overlaps (a n b m : Nat) : Bool := decide (a < b + m ∧ b < a + n)

/-- R101: the granules that a table entry covers: first and count. -/
def State.envRun (s : State) (q id : Nat) : Nat × Nat :=
  let e := s.envEntry q id
  (e.base, (e.length + 15) / 16)

/-- R252: the kernel entries that the kernel sets a last uses now name. -/
def State.kernelEnvs (s : State) (m : LastMap) : List (Nat × Nat) :=
  (m.ksets.map fun e => (e.1, s.rd Reg.KS_CFG.KERNEL [e.1, e.2])).filter fun e => e.2 ≠ 4095

/-- R252, R390, R403: a last uses a region. -/
def State.lastUses (s : State) (m : LastMap) (r : Region) : Bool :=
  match r with
  | .prog k => m.seqs.any fun e => e.1 == k
  | .dsp k => m.dsps.contains k
  | .entry q id => (m.envs ++ s.kernelEnvs m).contains (q, id)
  | .granules q a n =>
    ((m.envs ++ s.kernelEnvs m).any fun e => e.1 == q && overlaps a n (s.envRun q e.2).1 (s.envRun q e.2).2)
    || (m.streams.any fun e => e.1 == q && overlaps a n e.2.2.2 e.2.2.1)
  | .points q a n => m.waves.any fun e => e.1 == q
      && overlaps a n (s.rd Reg.BW_A.START [q, e.2]) (s.rd Reg.BW_B.LENGTH [q, e.2])
  | .graph => m.usesDecoder

/-- R402: the programs of a last whose memory a load has changed. -/
def LastMap.dirtied (rs : List Region) (m : LastMap) : LastMap :=
  { m with dirty := m.dirty ++ rs.filterMap fun r => match r with
      | .prog k => if m.seqs.any fun e => e.1 == k then some k else none
      | _ => none }

/-- R402, R403: a load changes memory that built lasts use. -/
def State.staleLoad (s : State) (rs : List Region) : State :=
  { s with place.lasts := s.place.lasts.map (LastMap.dirtied rs) }.staleWhere 0 fun m => rs.any (s.lastUses m)

/-- R21, R740: a running job uses a region, and its job boundary has not come. -/
def State.regionHeld (s : State) (rs : List Region) : Bool :=
  s.inJob && s.job.phase != .armed && rs.any (s.lastUses s.place.inEffect)

/-! ### Sealed marks (R691) -/

/-- A run of granules without those from `b` on for `m`. -/
def cutRun (x : SealMark) (b m : Nat) : List SealMark :=
  if x.count = 0 ∨ overlaps x.first x.count b m = false then [x]
  else
    let left := b - x.first
    let right := x.first + x.count - (b + m)
    (if left = 0 then [] else [{ x with count := left }])
      ++ (if right = 0 then [] else [{ x with first := b + m, count := right }])

/-- R691: a load overwrites a table entry. -/
def State.unmarkEntry (s : State) (q id : Nat) : State :=
  { s with sec.marks := s.sec.marks.filter fun x => !(x.quarter == q && x.count == 0 && x.env == id) }

/-- R691: a load overwrites granules. -/
def State.unmarkRun (s : State) (q b n : Nat) : State :=
  { s with sec.marks := (s.sec.marks.map fun x => if x.quarter = q then cutRun x b n else [x]).flatten }

def State.entrySealed (s : State) (q id : Nat) : Bool :=
  s.sec.marks.any fun x => x.quarter == q && x.count == 0 && x.env == id

def State.granuleSealed (s : State) (q g : Nat) : Bool :=
  s.sec.marks.any fun x => x.quarter == q && overlaps x.first x.count g 1

/-- R691: clear a sealed item, its mark with it. -/
def State.clearMark (s : State) (x : SealMark) : State :=
  let s := if x.count = 0 then s.clear (envTableBase x.quarter + x.env * 16) 16
    else s.clear (envBase x.quarter + x.first * 64) (x.count * 64)
  { s with sec.marks := s.sec.marks.erase x }

/-! ### Writing (R180, R186, R300) -/

/-- The items of `n` bytes that data holds. -/
def items (n : Nat) (data : List Byte) : List Nat :=
  (List.range (data.length / n)).map fun i => fieldAt data (i * n) n

/-- The first refused item of a checked load, with its address. -/
def firstRefused : Nat → List Checked → Option (Nat × Nat)
  | _, [] => none
  | a, c :: t => if c.cause = 0 then firstRefused (a + 1) t else some (a, c.cause)

/-- R461: the clamp identifier of a stitch field (ORIGIN 3) or of an instruction field (ORIGIN 4). -/
def stitchId (k a lo : Nat) : Nat := 3 * 2 ^ 29 + k * 2 ^ 23 + a % 4096 * 2 ^ 11 + lo * 2 ^ 4
def instrId (k a lo : Nat) : Nat := 4 * 2 ^ 29 + k * 2 ^ 25 + a % 4096 * 2 ^ 13 + lo * 2 ^ 8

/-- R186, R301: log the clamps of a load. -/
def State.logLoad (s : State) (c : Nat) (ident : Nat → Nat → Nat) : Nat → List Checked → State
  | _, [] => s
  | a, x :: t =>
    (x.clamps.foldl (fun s e => s.logClamp c (ident a e.1) c e.2.1 e.2.2 s.coarseStamp true) s).logLoad c ident (a + 1) t

/-- Write items of `n` bytes one after another. -/
def State.putItems (s : State) (base n : Nat) : Nat → List Nat → State
  | _, [] => s
  | a, v :: t => (s.store (base + a * n) (leBytes n v)).putItems base n (a + 1) t

/-- Note that instruction words are written (R285). -/
def State.noteInstrs (s : State) (k a n : Nat) : State :=
  { s with dsps := Table.upd {} s.dsps k fun d => { d with written := (a, n) :: d.written } }

end Sys2Proof.Machine
end

