-- ==== Sys2Proof/Machine/PlaceImage.lean ====
section
/-! DEFINITION. The input image of a PLACE (R386 to R388), and the refusal entries of a build (R406 to
R408). -/

namespace Sys2Proof.Machine

/-- R387: a pin entry. -/
structure PlacePin where
  kind : Nat
  arg0 : Nat
  arg1 : Nat
deriving DecidableEq, Repr

/-- R386, R387: an input image: wiring (qubit, kind, port), programs (sequencer, entry), pins, and
cross-device barrier entries (barrier, device). -/
structure PlaceInput where
  lastId : Nat := 0
  incr : Bool := false
  wiring : List (Nat × Nat × Nat) := []
  progs : List (Nat × Nat) := []
  pins : List PlacePin := []
  xbars : List (Nat × Nat) := []
  capin : Nat := 0
deriving DecidableEq, Repr

/-- R386: the entry counts: wiring, programs, pins, barrier entries. -/
def placeCounts (b : List Byte) : List Nat := [fieldAt b 6 2, fieldAt b 8 2, fieldAt b 0x0A 2, fieldAt b 0x0C 2]

/-- R386, R406: the limits of the counts. -/
def placeLimits : List Nat := [1024, 64, 512, 1024]

/-- R483: the bytes that the header's counts give. -/
def placeLen (b : List Byte) : Nat := 32 + 8 * (placeCounts b).foldl (· + ·) 0

/-- The byte offset of the first entry of table `t`. -/
def placeTable (b : List Byte) (t : Nat) : Nat := 32 + 8 * ((placeCounts b).take t).foldl (· + ·) 0

/-- The offsets of the entries of table `t`. -/
def placeEntries (b : List Byte) (t : Nat) : List Nat :=
  (List.range ((placeCounts b).getD t 0)).map fun i => placeTable b t + 8 * i

/-- R387: the units of each KIND: DRV, RDO, RDI, FFL, BIA, MK. -/
def kindCount (k : Nat) : Nat := [128, 32, 32, 64, 256, 64].getD k 0

/-- Bytes of an entry that must be zero. -/
def zeroFaults (b : List Byte) (o : Nat) (offs : List Nat) : List (Bool × Nat) :=
  offs.map fun k => (decide (fieldAt b (o + k) 1 ≠ 0), o + k)

def wiringFault (b : List Byte) (o : Nat) : Option Nat :=
  let k := fieldAt b (o + 2) 1
  firstBad ([(decide (512 ≤ fieldAt b o 2), o), (decide (6 ≤ k), o + 2)] ++ zeroFaults b o [3]
    ++ [(decide (k < 6 ∧ kindCount k ≤ fieldAt b (o + 4) 2), o + 4)] ++ zeroFaults b o [6, 7])

def programFault (b : List Byte) (o : Nat) : Option Nat :=
  let again := (placeEntries b 1).any fun p => decide (p < o) && fieldAt b p 1 == fieldAt b o 1
  firstBad ([(decide (64 ≤ fieldAt b o 1), o), (again, o)] ++ zeroFaults b o [1]
    ++ [(decide (4096 ≤ fieldAt b (o + 2) 2), o + 2)] ++ zeroFaults b o [4, 5, 6, 7])

def pinFault (b : List Byte) (o : Nat) : Option Nat :=
  let k := fieldAt b o 1
  let lim := [64, 2, 8].getD k 65536
  firstBad ([(decide (3 ≤ k), o)] ++ zeroFaults b o [1] ++ [(decide (lim ≤ fieldAt b (o + 2) 2), o + 2),
    (decide (k ≠ 0 ∧ 2 ^ 18 ≤ fieldAt b (o + 4) 4), o + 4)])

def xbarFault (dev : Nat) (b : List Byte) (o : Nat) : Option Nat :=
  let bar := fieldAt b o 1
  let first := (placeEntries b 3).all fun p => !(decide (p < o) && fieldAt b p 1 == bar)
  let lists := (placeEntries b 3).any fun p => fieldAt b p 1 == bar && fieldAt b (p + 4) 4 == dev
  firstBad ([(decide (64 ≤ bar), o), (first && !lists, o)] ++ zeroFaults b o [1, 2, 3]
    ++ [(decide (2 ^ 18 ≤ fieldAt b (o + 4) 4), o + 4)])

/-- R388, R498: the byte offset of the first violation of an image. -/
def imageFault (dev : Nat) (b : List Byte) : Option Nat :=
  (firstBad ([(decide (fieldAt b 0 4 ≠ 1), 0), (decide (2 ≤ fieldAt b 5 1), 5), (decide (fieldAt b 6 2 = 0), 6),
      (decide (fieldAt b 8 2 = 0), 8)] ++ zeroFaults b 0 ([14, 15] ++ (List.range 12).map (0x14 + ·)))).or
    (((placeEntries b 0).findSome? (wiringFault b)).or
      (((placeEntries b 1).findSome? (programFault b)).or
        (((placeEntries b 2).findSome? (pinFault b)).or ((placeEntries b 3).findSome? (xbarFault dev b)))))

/-- R386: LAST_ID, clamped. -/
def imageLast (b : List Byte) : Nat := min 3 (fieldAt b 4 1)

/-- R386, R387: the image. -/
def placeInput (b : List Byte) : PlaceInput :=
  { lastId := imageLast b
    incr := bitOf (fieldAt b 5 1) 0
    wiring := (placeEntries b 0).map fun o => (fieldAt b o 2, fieldAt b (o + 2) 1, fieldAt b (o + 4) 2)
    progs := (placeEntries b 1).map fun o => (fieldAt b o 1, fieldAt b (o + 2) 2)
    pins := (placeEntries b 2).map fun o => ⟨fieldAt b o 1, fieldAt b (o + 2) 2, fieldAt b (o + 4) 4⟩
    xbars := (placeEntries b 3).map fun o => (fieldAt b o 1, fieldAt b (o + 4) 4)
    capin := fieldAt b 0x10 4 }

/-! ### Refusals (R406, R408) -/

/-- R408: a refusal entry. -/
structure Refusal408 where
  code : Nat := 0
  item : Nat := 0
  idx : Nat := 0
  addr : Nat := 0
  need : Int := 0
  have_ : Int := 0
deriving DecidableEq, Repr

/-- The order of the entries: by code, item, address. -/
def Refusal408.before (a b : Refusal408) : Bool :=
  let key (r : Refusal408) : Nat := ((r.code * 256 + r.item) * 65536 + r.idx % 65536) * 65536 + r.addr
  decide (key a < key b) || (key a == key b && (decide (a.need < b.need) || (a.need == b.need && decide (a.have_ ≤ b.have_))))

def insertRefusal (r : Refusal408) : List Refusal408 → List Refusal408
  | [] => [r]
  | x :: t => if r = x then x :: t else if r.before x then r :: x :: t else x :: insertRefusal r t

/-- Each refusal once, in order. -/
def sortRefusals (l : List Refusal408) : List Refusal408 := l.foldr insertRefusal []

/-- R408: the 16 bytes of a refusal entry; NEED and HAVE hold at the ends of 32 bits. -/
def Refusal408.bytes (r : Refusal408) : List Byte :=
  leBytes 16 (packNat [(0, 1, r.code), (1, 1, r.item), (2, 2, r.idx), (4, 4, r.addr),
    (8, 4, wrapInt 32 (satInt 32 r.need)), (12, 4, wrapInt 32 (satInt 32 r.have_))])

end Sys2Proof.Machine
end

