-- ==== Sys2Proof/Machine/PlaceProof.lean ====
section
/-! DEFINITION. The proofs of a build: every path of every program walked with the slow-corner figures
(R391 to R395, R145, R156, R157, R163, R188, R204, R217, R227, R231, R741), and what the paths demand of
the feedback units (R319, R328).

Times are in units of 1/81,920 ns (`tu` of a tick), so that a figure in 1/20 ns times F (in 1/4,096) is
whole. -/

namespace Sys2Proof.Machine

/-- Units of a tick. -/
def tu : Nat := 81920

/-- R235, R394: a figure of `x` twentieths of a ns, scaled by F (R392, R393). -/
def fig (f x : Nat) : Nat := x * f

/-- Units of a sample of queue index i (R66). -/
def sampleUnits (i : Nat) : Nat := tu / queueUnit i

/-! ### Paths -/

/-- A pulse of a path: queue and generator, units from S, and envelope samples per tick (R108, R413). -/
structure PPulse where
  key : Nat
  start : Nat
  stop : Nat
  rate : Nat
deriving DecidableEq, Repr

/-- A readout window of a path: queue, kernel set, tone, TARGET, SYN, TOK, REC, LEN in samples, units at
start and end, its window-end tick, and how many TRIG stitches of each sequencer come before it (R741). -/
structure PWin where
  seq : Nat
  q : Nat
  tone : Nat
  ks : Nat
  tgt : Nat
  syn : Bool
  tok : Bool
  recd : Bool
  len : Nat
  start : Nat
  stop : Nat
  endTick : Nat
  seen : Table Nat
deriving DecidableEq, Repr

/-- A condition to prove (R156): the branch, its token (TARGET and which one) or the tick of its
compare, the deadline, what follows the arrival, and the TRIG stitches of its program before the branch. -/
structure PCheck where
  seq : Nat
  addr : Nat
  token : Option (Nat × Nat)
  cmp : Option Nat
  deadline : Nat
  extra : Nat
  trigs : Nat
deriving DecidableEq, Repr

/-- One path of a program. -/
structure PPath where
  pc : Nat := 0
  cursor : Nat := 0
  shift : Nat := 0
  loops : List (Nat × Nat) := [(0, 0), (0, 0), (0, 0), (0, 0)]
  /-- when the sequencer is ready to issue, in units from S -/
  ready : Int := 0
  /-- R157: least ticks of the next event, with the branch -/
  needs : List (Nat × Nat) := []
  /-- R163: barriers released, with the time of the release in units, after which no event has come -/
  after : List (Nat × Int) := []
  /-- tokens consumed per TARGET, compares pending per slot -/
  consumed : Table Nat := []
  slots : Table (Option Nat) := []
  pulses : List PPulse := []
  wins : List PWin := []
  /-- the cursor before each TRIG stitch, and how many of each sequencer's this path comes after -/
  trigs : List Nat := []
  seen : Table Nat := []
  checks : List PCheck := []
  /-- a fork segment starts here (R140) -/
  segAt : Option Nat := none
  /-- tick by which everything issued has ended -/
  fin : Nat := 0
  refusals : List Refusal408 := []
  /-- queue index and the stitch that names it -/
  queues : List (Nat × Nat) := []
  ports : List (Nat × Nat) := []
  envs : List Nat := []
  resident : List Nat := []
  waves : List Nat := []
  /-- stream, rate and samples of each STREAM -/
  streams : List (Nat × Nat × Nat) := []
  /-- the barrier of each arrival, and the one whose release it waits for (R159) -/
  syncs : List Nat := []
  wait : Option Nat := none
  /-- the program has ended here -/
  ended : Bool := false
  /-- R163: barrier, the time of its release in units, and the tick of the next event -/
  nexts : List (Nat × Int × Nat) := []
deriving DecidableEq, Repr

/-- What the walk of a program works with: the sequencer and F. With `moved`, the walk takes every cursor
that a TRIG stitch or a REANCHOR branch can give (R109, R155, R741); without, the one before it. -/
structure WalkEnv where
  k : Nat
  f : Nat
  moved : Bool := false

def PPath.refuse (p : PPath) (code addr : Nat) (need have_ : Int) (k : Nat) : PPath :=
  { p with refusals := ⟨code, 0, k, addr, need, have_⟩ :: p.refusals }

/-- A PROGRAM refusal (R188, R217). -/
def PPath.badProgram (p : PPath) (k a : Nat) : PPath := { p with refusals := ⟨5, 1, k, 0, a, 0⟩ :: p.refusals }

/-- R387: KIND and unit of the port that a queue of quarter q serves. -/
def portOf (q i : Nat) : Nat × Nat :=
  if i < 32 then (0, q * 32 + i) else if i < 40 then (1, q * 8 + (i - 32))
  else if i < 48 then (2, q * 8 + (i - 40)) else (3, q * 16 + (i - 48))

/-- R188: an address that no LOAD_PROGRAM has written holds the all-zero word. -/
def State.unwritten (s : State) (k a : Nat) : Bool := s.load (progBase k + a % 4096 * 16) 16 == 0

/-! ### Events -/

/-- R157, R163: an event at a tick meets the branches and barriers that wait for it. -/
def PPath.meet (p : PPath) (k tick : Nat) : PPath :=
  let bad := (p.needs.filter fun n => decide (tick < n.1)).map fun n => (⟨2, 0, k, n.2, n.1, tick⟩ : Refusal408)
  { p with
    refusals := bad ++ p.refusals
    needs := []
    nexts := (p.after.map fun e => (e.1, e.2, tick)) ++ p.nexts
    after := []
    fin := max p.fin (tick + 1) }

/-- R101, R104, R412: samples that a PLAY covers and envelope samples per tick; refused when the entry is
empty (R395). -/
def State.pathPlay (s : State) (q : Nat) (w : Stitch) : Option (Nat × Nat) :=
  if w.env = 4095 then some (bitsOf w.w2 23 0, 0)
  else if s.envEmpty q w.env then none
  else
    let e := s.envEntry q w.env
    some (s.playLen q w.queue w, if 48 ≤ w.queue then 1 else e.rate + 1)

/-- R106: a new pulse cuts the earlier ones of its generator. -/
def addPulse (x : PPulse) (l : List PPulse) : List PPulse :=
  x :: l.map fun y => if y.key = x.key ∧ x.start < y.stop then { y with stop := max y.start x.start } else y

/-- A PLAY or STREAM stitch at address `a`. -/
def State.pathPulse (s : State) (e : WalkEnv) (a : Nat) (w : Stitch) (p : PPath) : PPath :=
  let q := e.k / 16
  let i := w.queue
  let u := sampleUnits i
  let at0 := (p.cursor + w.dt) * tu + w.soff * u
  let start := p.segAt.getD at0
  let seg := p.segAt.isSome
  let p := { p with segAt := none }.meet e.k (start / tu)
  let p := if w.cls = 1 ∧ w.env ≠ 4095 then { p with envs := w.env :: p.envs } else p
  let (p, n, rate) :=
    if w.cls = 9 then
      let n := bitsOf w.w2 20 0
      let r := bitsOf w.w1 16 16
      ({ p with streams := (bitsOf w.w1 15 12, r + 1, n) :: p.streams }, n * interpOf r, r + 1)
    else match s.pathPlay q w with
      | some (n, r) => (p, n, r)
      | none => (p.refuse 0x1A a w.env q e.k, 0, 0)
  let stop := start + n * u
  let cur := if !w.adv then p.cursor
    else if seg then (stop + tu - 1) / tu else advCursor i { cursor := p.cursor } w n
  { p with
    pulses := addPulse ⟨i * 16 + w.gen, start, stop, rate⟩ p.pulses
    ports := portOf q i :: p.ports
    cursor := cur
    fin := max p.fin ((stop + tu - 1) / tu) }

/-- A MEAS stitch (R202, R204, R252). -/
def State.pathWindow (s : State) (e : WalkEnv) (a : Nat) (w : Stitch) (p : PPath) : PPath :=
  let q := e.k / 16
  let i := w.queue
  let u := sampleUnits i
  let len := bitsOf w.w2 16 0
  let start := (p.cursor + w.dt) * tu + w.soff * u
  let stop := start + len * u
  let p := p.meet e.k (start / tu)
  let tone := (i - 40) * 16 + w.gen
  let ks := tone * 8 + bitsOf w.w1 14 12
  let p := if p.wins.any fun x => x.tone == tone && decide (x.start < stop ∧ start < x.stop)
    then p.refuse 9 a 1 0 e.k else p
  let kern := s.rd Reg.KS_CFG.KERNEL [q, ks]
  let p := if kern = 4095 then p else if s.envEmpty q kern then p.refuse 9 a 3 0 e.k else { p with envs := kern :: p.envs }
  let endt := (stop + tu - 1) / tu
  let x : PWin := { seq := e.k, q := q, tone := tone, ks := ks, tgt := bitsOf w.w1 31 20, syn := bitOf w.w1 18
                    tok := bitOf w.w1 16, recd := bitOf w.w1 17, len := len, start := start, stop := stop
                    endTick := endt, seen := p.seen }
  { p with
    wins := x :: p.wins
    ports := portOf q i :: p.ports
    cursor := if w.adv then advCursor i { cursor := p.cursor } w len else p.cursor
    fin := max p.fin endt }

/-- The pins of a MARK stitch that it acts on. -/
def markActs (w : Stitch) : List Nat := (List.range 16).filter fun j => bitsOf w.w1 (2 * j + 1) (2 * j) ≠ 0 || bitOf w.w3 j

/-- The queue indices in which a stitch places events (R190, R208). -/
def eventQueues (w : Stitch) : List Nat :=
  if w.cls = 4 then ([0, 1, 2, 3].filter fun g => (markActs w).any fun j => j / 4 == g).map (68 + ·)
  else if placesEvent w.cls then [w.queue] else []

/-- A MARK stitch (R205, R209, R212, R569). -/
def State.pathMark (s : State) (e : WalkEnv) (a : Nat) (w : Stitch) (p : PPath) : PPath :=
  let q := e.k / 16
  let tick := p.cursor + w.dt
  let acts := markActs w
  let p := if acts = [] then p else p.meet e.k tick
  let awl := acts.any fun j => s.freePin (q * 16 + j)
    && bitsOf w.w1 (2 * j + 1) (2 * j) != 0
  let p := if awl then p.refuse 9 a 2 0 e.k else p
  let cmp := (List.range 16).any fun j => bitOf w.w1 (2 * j + 1)
  { p with
    ports := acts.map (fun j => (5, q * 16 + j)) ++ p.ports
    slots := if cmp then Table.set none p.slots (bitsOf w.w2 17 16) (some tick) else p.slots }

/-- A FRAME or BIAS stitch. -/
def PPath.other (e : WalkEnv) (w : Stitch) (p : PPath) : PPath :=
  let q := e.k / 16
  let p := p.meet e.k (p.cursor + w.dt)
  if w.cls = 11 then
    { p with ports := (4, (q * 4 + (w.queue - 64)) * 16 + w.gen) :: p.ports
             waves := if w.sub = 1 then bitsOf w.w2 7 0 :: p.waves else p.waves }
  else { p with ports := portOf q w.queue :: p.ports }

/-! ### Branches -/

/-- R156, R226, R228: the condition of a branch. -/
def PPath.condition (p : PPath) (k a : Nat) (w : Stitch) (deadline extra : Nat) : PPath :=
  let c : PCheck := ⟨k, a, none, none, deadline, extra, p.trigs.length⟩
  if w.cond = 1 then
    let t := bitsOf w.cid 11 0
    let n := Table.get 0 p.consumed t
    { p with consumed := Table.set 0 p.consumed t (n + 1), checks := { c with token := some (t, n) } :: p.checks }
  else if w.cond = 2 then
    let sl := bitsOf w.cid 1 0
    { p with slots := Table.set none p.slots sl none
             checks := { c with cmp := Table.get none p.slots sl } :: p.checks }
  else p

/-- R145: the condition that the first stitch of a segment-end branch's path fails; 0 when none. A
stored envelope at a target is pinned resident (R389). DEDUCED (log 62): a target that begins with STREAM is one
that the host has pinned streamed (R389), which R145's last sentence exempts from residency; R146 says what its jump
gives. -/
def State.segRule (s : State) (k : Nat) (b : Stitch) (a : Nat) (target : Bool) : Nat :=
  let w := s.stitchAt k a
  let q := k / 16
  if s.unwritten k a then 0
  else if !((w.cls == 1 || w.cls == 9) && w.queue == b.bqueue && w.gen == b.bgen) then 1
  else if w.cls = 9 then
    if bitsOf w.w2 20 0 * interpOf (bitsOf w.w1 16 16) < 1024 then 3 else 0
  else if target && w.env != 4095 && s.envEmpty q w.env then 2
  else if s.playLen q w.queue w < 1024 then 3 else 0

/-- A segment-end branch: the path that goes on, and the other path. One without a jump point is refused, and the
walk goes on (R395). -/
def State.pathSegEnd (s : State) (e : WalkEnv) (a : Nat) (w : Stitch) (p : PPath) : List PPath :=
  let q := e.k / 16
  let p := ([(a + 1, false), (w.target, true)]).foldl (fun (p : PPath) t =>
    let r := s.segRule e.k w t.1 t.2
    if r = 0 then p else p.refuse 7 a r 0 e.k) p
  let tw := s.stitchAt e.k w.target
  let p := if tw.cls = 1 ∧ tw.env ≠ 4095 ∧ s.envEmpty q tw.env = false then { p with resident := tw.env :: p.resident } else p
  let p := match p.pulses.find? fun x => x.key == w.bqueue * 16 + w.bgen with
    | none => p.refuse 7 a 4 0 e.k
    | some x =>
      let last := x.stop - sampleUnits 0
      let p := if w.cond = 0 then p else
        let p := p.condition e.k a w last (fig e.f 200)
        { p with ready := max p.ready ((last + fig e.f 120 : Nat) : Int) }
      { p with segAt := some x.stop }
  if w.cond = 0 then [{ p with pc := w.target }] else [{ p with pc := a + 1 }, { p with pc := w.target }]

/-- The paths that go on from a path whose cursor can move by up to `n` ticks: the one that has not moved, or
with `moved` every one. -/
def PPath.movedBy (p : PPath) (moved : Bool) (n : Nat) : List PPath :=
  if moved then (List.range (n + 1)).map fun x => { p with cursor := p.cursor + x } else [p]

/-- An immediate conditional branch (R156, R157, R231). The deadline signal leaves 6 ticks before D, and its flight
is 6 ns at both corners (R150, R393: scaled by F). -/
def State.pathBranch (s : State) (e : WalkEnv) (a : Nat) (w : Stitch) (p : PPath) : List PPath :=
  let d := p.cursor + w.dline
  let p := p.condition e.k a w (d * tu) 0
  let most := if w.policy then s.rd Reg.SEQ_CFG.REANCHOR_MAX [e.k / 16, e.k % 16] else 0
  let p := { p with
    shift := if e.moved then p.shift else p.shift + most
    needs := (d + (if w.policy then 40 else 32), a) :: p.needs
    ready := max p.ready ((d * tu : Nat) - (6 * tu : Nat) + (fig e.f 120 : Nat) : Int) }
  (p.movedBy e.moved most).flatMap fun p => [{ p with pc := a + 1 }, { p with pc := w.target }]

/-! ### The walk -/

/-- R235: the issue latency of a stitch in twentieths of a ns at the slow corner. -/
def issueFig (w : Stitch) : Nat :=
  match w.cls with
  | 2 | 6 | 7 | 10 => 30
  | 4 => 60 + 30 * ((eventQueues w).length - 1)
  | 5 => if w.sub = 1 then 120 else if w.cond = 0 then 90 else 60
  | _ => 60

/-- R159: a SYNC stitch: the path waits for the release of its barrier. -/
def PPath.sync (w : Stitch) (p : PPath) : PPath :=
  let bar := bitsOf w.w1 5 0
  { p with syncs := bar :: p.syncs, wait := some bar }

/-- One stitch: the paths that go on; none when the program ends here. The flag says that it ends. -/
def State.pathStep (s : State) (e : WalkEnv) (p : PPath) : Bool × List PPath :=
  let a := p.pc % 4096
  let w := s.stitchAt e.k a
  let p := { p with
    ready := p.ready + (fig e.f (issueFig w) : Nat)
    queues := (eventQueues w).map (fun i => (i, a)) ++ p.queues }
  let next (p : PPath) : Bool × List PPath := (false, [{ p with pc := a + 1 }])
  match w.cls with
  | 1 | 9 => next (s.pathPulse e a w p)
  | 3 => next (s.pathWindow e a w p)
  | 4 => next (s.pathMark e a w p)
  | 8 | 11 => next (PPath.other e w p)
  | 2 =>
    if w.sub = 2 then (true, [p])
    else next { p with cursor := if w.sub = 0 then p.cursor + w.w1 else max p.cursor w.w1 }
  | 6 =>
    let l := bitsOf w.w1 1 0
    if w.sub = 0 then next { p with loops := p.loops.set l (bitsOf w.w1 31 8, a + 1) }
    else
      let (n, st) := p.loops.getD l (0, 0)
      if 1 < n then (false, [{ p with pc := st, loops := p.loops.set l (n - 1, st), ready := p.ready + (fig e.f 60 : Nat) }])
      else next { p with loops := p.loops.set l (0, st) }
  | 7 => next (p.sync w)
  | 10 =>
    let t : Int := ((p.cursor : Int) - (bitsOf w.w1 15 0 : Int)) * (tu : Int) + (fig e.f 360 : Nat)
    let p := { p with
      ready := max (p.ready + (fig e.f 120 : Nat)) t
      trigs := p.trigs ++ [p.cursor]
      seen := Table.set 0 p.seen e.k (p.trigs.length + 1) }
    (false, (p.movedBy e.moved (0xFFFFFFFF - p.cursor)).map fun p => { p with pc := a + 1 })
  | _ =>
    if w.sub = 1 then (false, s.pathSegEnd e a w p)
    else if w.cond = 0 then (false, [{ p with pc := w.target }])
    else (false, s.pathBranch e a w p)

/-- The paths that go on after the next stitch of a path. One that reaches an unwritten address (R188), or whose
cursor can pass 32 bits (R217), is refused and ends. -/
def State.pathNext (s : State) (e : WalkEnv) (p : PPath) : List PPath :=
  let a := p.pc % 4096
  if s.unwritten e.k a then [{ p.badProgram e.k a with ended := true }]
  else
    let (fin, ps) := s.pathStep e p
    ps.map fun x =>
      if 0xFFFFFFFF < x.cursor + x.shift then { x.badProgram e.k a with ended := true }
      else { x with ended := fin }

/-- R29: a sequencer is armed at least 1,000 ns before S. DEDUCED: its first stitch follows 61 ns after arming at
the slow corner, as the walk-through of chapter 01 has it (the first events enter at 70 ns, of which R235 gives 9). -/
def firstPath (f entry : Nat) : PPath :=
  { pc := entry, ready := -((1000 * tu : Nat) : Int) + (fig f 1220 : Nat) }

/-- One path of each program, with its sequencer: the programs of a job walk together. -/
abbrev Combo := List (Nat × PPath)

/-- What the walk of a job works with: F, whether cursors move, the sequencers whose programs issue SYNC on each
barrier (R158, R389), and what a barrier that spans devices adds to its release (R162). -/
structure JointEnv where
  f : Nat
  moved : Bool := false
  parts : List (Nat × List Nat) := []
  far : Nat → Nat := fun _ => 0

/-- R160, R161, R741: what every participant knows of the TRIG stitches of the others. -/
def mergeSeen (l : List PPath) : Table Nat :=
  (List.range 64).foldl (fun t k =>
    let n := (l.map fun p => Table.get 0 p.seen k).foldl max 0
    if n = 0 then t else Table.set 0 t k n) []

/-- R160 to R163: a barrier whose participants have all arrived releases them at their largest cursor, which their
shifts can move; the next event of each is held to it. -/
def releaseJoint (e : JointEnv) (bar : Nat) (c : Combo) : Combo :=
  let mine := (c.filter fun x => x.2.wait == some bar).map (·.2)
  let cursor := (mine.map PPath.cursor).foldl max 0
  let most := (mine.map fun p => p.cursor + p.shift).foldl max 0
  let t := (mine.map PPath.ready).foldl max (-((1000 * tu : Nat) : Int)) + (fig e.f 300 + e.far bar : Nat)
  let seen := mergeSeen mine
  c.map fun x =>
    if x.2.wait == some bar then
      (x.1, { x.2 with cursor := cursor, shift := most - cursor, ready := t, wait := none, seen := seen
                       after := (bar, t) :: x.2.after })
    else x

/-- R163, R395: the release of a barrier that a participant never reaches cannot be proved. DESIGN CHOICE (log 35):
its refusal gives NEED as R406 does where nothing can arrive, and the cursor that waits as HAVE. -/
def PPath.strand (p : PPath) : PPath :=
  match p.wait with
  | some b => { p with refusals := ⟨3, 2, b, 0, 0x7FFFFFFF, p.cursor⟩ :: p.refusals, wait := none, ended := true }
  | none => p

/-- What follows from one combination; none when every program of it has ended. -/
def State.jointStep (s : State) (e : JointEnv) (c : Combo) : Option (List Combo) :=
  match c.zipIdx.find? fun x => !x.1.2.ended && x.1.2.wait.isNone with
  | some ((k, p), i) => some ((s.pathNext ⟨k, e.f, e.moved⟩ p).map fun y => c.set i (k, y))
  | none =>
    match e.parts.find? fun b => b.2 != [] && b.2.all fun k => c.any fun x => x.1 == k && x.2.wait == some b.1 with
    | some b => some [releaseJoint e b.1 c]
    | none => if c.any fun x => x.2.wait.isSome then some [c.map fun x => (x.1, x.2.strand)] else none

/-- Every combination of paths that a job can take. The fuel bounds the stitches of one combination, beyond every
job that ends. A program that runs out of it is refused with PROGRAM (the spec does not say what a program that
never ends gives). -/
def State.jointWalk (s : State) (e : JointEnv) : Nat → Combo → List Combo
  | 0, c => [c.map fun x => if x.2.ended then x else (x.1, x.2.badProgram x.1 (x.2.pc % 4096))]
  | n + 1, c =>
    match s.jointStep e c with
    | none => [c]
    | some cs => cs.flatMap fun c => s.jointWalk e n c

/-- More stitches than a job that ends can issue. -/
def walkFuel : Nat := 2 ^ 128

/-- The start of a job's programs. -/
def startCombo (f : Nat) (progs : List (Nat × Nat)) : Combo := progs.map fun x => (x.1, firstPath f x.2)

/-- R389: the barriers on which a program issues SYNC: it walks alone, with no other participant. -/
def State.programSyncs (s : State) (f : Nat) (prog : Nat × Nat) : List Nat :=
  let alone : JointEnv := { f := f, parts := (List.range 64).map fun b => (b, [prog.1]) }
  ((s.jointWalk alone walkFuel (startCombo f [prog])).flatMap fun c => c.flatMap fun x => x.2.syncs).eraseDups

/-- R158, R389: the sequencers that take part in each barrier that the programs use. -/
def State.barParts (s : State) (f : Nat) (progs : List (Nat × Nat)) : List (Nat × List Nat) :=
  let uses := progs.map fun x => (x.1, s.programSyncs f x)
  ((uses.flatMap (·.2)).eraseDups).map fun b => (b, (uses.filter fun u => u.2.contains b).map (·.1))

/-! ### Feedback -/

/-- An input at the planes: when it arrives, the unit of its producer, and its window. -/
abbrev PInput := Nat × PWin

/-- R281: the processor that a window is routed to. -/
def State.winDsp (s : State) (w : PWin) : Option Nat :=
  if s.routeOf w.q w.ks = 0 then none else some (w.q * 4 + w.ks / 256)

/-- R264, R285, R394: when a window's token reaches both planes. -/
def State.tokenArrival (s : State) (f : Nat) (w : PWin) : Nat :=
  w.endTick * tu + match s.winDsp w with
    | none => fig f 520
    | some k => fig f (280 + 13 * s.rd Reg.DSP_BOUND.BOUND [k / 4, k % 4] + 220)

/-- Insert by arrival. -/
def insertArrival {α : Type} (x : Nat × α) : List (Nat × α) → List (Nat × α)
  | [] => [x]
  | y :: t => if x.1 ≤ y.1 then x :: y :: t else y :: insertArrival x t

def sortArrivals {α : Type} (l : List (Nat × α)) : List (Nat × α) := l.foldr insertArrival []

/-- A firing of a feedback unit (its key as in R318: 0 FORWARD and TARGET, 1 LUT, 2 parity, 3 decoder),
its output TARGET and destination set, when the decision leaves the planes, and its windows. -/
structure PFire where
  unit : List Nat
  out : Nat
  dst : Nat
  sent : Nat
  wins : List PWin
deriving DecidableEq, Repr

/-- The inputs of a unit, by slot. -/
abbrev PSlots := List (Nat × List PInput)

def slotPush (s : Nat) (x : PInput) : PSlots → PSlots
  | [] => []
  | (k, l) :: t => if k = s then (k, l ++ [x]) :: t else (k, l) :: slotPush s x t

/-- R323: fire while every slot in use holds an input. -/
def slotFire : Nat → PSlots → List (List PInput) × PSlots
  | 0, sl => ([], sl)
  | n + 1, sl =>
    if sl.isEmpty || sl.any (fun x => x.2.isEmpty) then ([], sl)
    else
      let got := sl.filterMap fun x => x.2.head?
      let (more, sl) := slotFire n (sl.map fun x => (x.1, x.2.drop 1))
      (got :: more, sl)

/-- R328: a refusal of a feedback unit. -/
def ref328 (u : Nat) : Refusal408 := ⟨12, 9, u, 0, 2, 0⟩

/-- The firings of a unit on its inputs in order, and the refusals of R328. DEDUCED (log 62): an input that no
firing of its shot takes is one that a firing could take with inputs of another shot. -/
def unitFirings (u : Nat) : List (Nat × Nat × PWin) → PSlots → List (List PInput) × List Refusal408
  | [], sl => ([], if sl.any fun x => !x.2.isEmpty then [ref328 u] else [])
  | (t, slot, w) :: rest, sl =>
    match sl.find? fun x => x.1 == slot with
    | none => let (fs, rs) := unitFirings u rest sl
              (fs, ref328 u :: rs)
    | some x =>
      let ovf := if 4 ≤ x.2.length then [ref328 u] else []
      let (now, sl) := slotFire 5 (slotPush slot (t, w) sl)
      let (fs, rs) := unitFirings u rest sl
      (now ++ fs, ovf ++ rs)

/-- R320 to R325: the firings that the measurement tokens of one combination give, and refusals. -/
def State.feedback (s : State) (f : Nat) (ws : List PWin) : List PFire × List Refusal408 :=
  let toks := sortArrivals ((ws.filter fun w => w.tok && !w.syn).map fun w => (s.tokenArrival f w, w))
  let mode (w : PWin) : Nat := s.rd Reg.DP_RT0.MODE [w.tgt]
  let fwd := (toks.filter fun x => mode x.2 == 1).map fun x =>
    ({ unit := [0, x.2.tgt], out := s.rd Reg.DP_RT1.OUT_TGT [x.2.tgt], dst := s.rd Reg.DP_RT0.DSTSET [x.2.tgt]
       sent := x.1 + fig f 220, wins := [x.2] } : PFire)
  let units := ((toks.filter fun x => mode x.2 == 2 || mode x.2 == 3).map fun x =>
    (mode x.2, s.rd Reg.DP_RT0.UNIT [x.2.tgt])).eraseDups
  units.foldl (fun (acc : List PFire × List Refusal408) mu =>
    let (m, u) := mu
    let mine := (toks.filter fun x => mode x.2 == m && s.rd Reg.DP_RT0.UNIT [x.2.tgt] == u).map fun x =>
      (x.1, s.rd Reg.DP_RT0.SLOT [x.2.tgt], x.2)
    let mask := if m = 2 then s.rd Reg.LUT_CFG.IN_MASK [u] else s.rd Reg.PM_CFG.IN_MASK [u]
    let (fs, rs) := unitFirings u mine (((List.range 16).filter (bitOf mask)).map fun i => (i, []))
    let (out, dst) := if m = 2 then (s.rd Reg.LUT_CFG.OUT_TGT [u], s.rd Reg.LUT_CFG.DSTSET [u])
      else (s.rd Reg.PM_CFG.OUT_TGT [u], s.rd Reg.PM_CFG2.DSTSET [u])
    (acc.1 ++ fs.map fun g => ({ unit := [m - 1, u], out := out, dst := dst
                                 sent := (g.map (·.1)).foldl max 0 + fig f 220, wins := g.map (·.2) } : PFire),
     acc.2 ++ rs)) (fwd, [])

/-- R371, R377: the correction outputs of one combination: for each committing round, the latest window
end of the round and the decode bound. -/
def State.corrections (s : State) (f : Nat) (g : DecGraph) (bound : Nat) (ws : List PWin) : List PFire :=
  let syn := ws.filter fun w => w.syn && w.tok
  let nth (t : Nat) : List PWin := (sortArrivals ((syn.filter fun w => w.tgt == t).map fun w => (w.endTick, w))).map (·.2)
  let refs := (g.nodes.filter fun n => n.typ == 0).map DecNode.ref
  ((List.range g.rounds).filter fun r => g.window ≤ r + 1 || r + 1 == g.rounds).map fun r =>
    let mine := refs.filterMap fun t => (nth t)[r]?
    { unit := [3], out := s.rd Reg.DEC_OUT.OUT_TGT [], dst := s.rd Reg.DEC_OUT.DSTSET []
      sent := (mine.map PWin.endTick).foldl max 0 * tu + fig f bound, wins := mine }

/-- R329: a destination set names a sequencer. -/
def State.setNames (s : State) (dst k : Nat) : Bool :=
  if k < 32 then bitOf (s.rd Reg.DS_MASK_LO.MASK [dst]) k else bitOf (s.rd Reg.DS_MASK_HI.MASK [dst]) (k - 32)

/-- R156, R394: a decision that another device delivers: its TARGET, the sequencers it names, the units from S at
which it leaves that device's planes with what the route adds, and the earliest window end among its inputs. -/
structure PRemote where
  dev : Nat
  tgt : Nat
  mask : Nat
  sent : Nat
  early : Nat
deriving DecidableEq, Repr

/-- R329, R394: the decisions that reach sequencer k with a TARGET, in order of arrival: when, the earliest window
end among their inputs, and the windows of this device. -/
def State.delivered (s : State) (f : Nat) (fires : List PFire) (far : List PRemote) (k tgt : Nat) :
    List (Nat × Nat × List PWin) :=
  sortArrivals (((fires.filter fun x => x.out == tgt && s.flag Reg.DS_CTL.LOCAL [x.dst] && s.setNames x.dst k).map
      fun x => (x.sent + fig f 220, (x.wins.map PWin.endTick).foldl min (2 ^ 64), x.wins))
    ++ (far.filter fun x => x.tgt == tgt && bitOf x.mask k).map fun x => (x.sent + fig f 220, x.early, []))

/-! ### Deadlines and the condition store (R156, R227) -/

/-- A proved arrival with GUARD, in 1/16 ns rounded up; a deadline in 1/16 ns. -/
def sixteenthsUp (v : Nat) : Nat := (v + 5119) / 5120
def sixteenths (v : Nat) : Nat := v / 5120

/-- R156, R394: the slack of a check (none: no producer) and its refusal. -/
def State.prove (s : State) (f guard : Nat) (fires : List PFire) (far : List PRemote) (c : PCheck) : Option Int × List Refusal408 :=
  let arrival := match c.token with
    | some (t, n) => ((s.delivered f fires far c.seq t)[n]?).map (·.1)
    | none => c.cmp.map fun t => t * tu + fig f 280
  let have_ := sixteenths c.deadline
  match arrival with
  | none => (none, [⟨1, 0, c.seq, c.addr, 0x7FFFFFFF, have_⟩])
  | some a =>
    let need := sixteenthsUp (a + c.extra + guard * tu)
    (some ((have_ : Int) - (need : Int)), if have_ < need then [⟨1, 0, c.seq, c.addr, need, have_⟩] else [])

/-- The most intervals that hold one tick. -/
def mostAt (l : List (Nat × Nat)) : Nat :=
  (l.map fun x => (l.filter fun y => decide (y.1 ≤ x.1 ∧ x.1 < y.2)).length).foldl max 0

/-- R741: the first TRIG stitch of sequencer k that a decision's windows do not come after, of those before the
branch that consumes it; a decision of another device comes after none. -/
def firstTrig (k : Nat) (c : PCheck) (trigs : List Nat) (wins : List PWin) : Option Nat :=
  let n := (wins.map fun w => Table.get 0 w.seen k).foldl min c.trigs
  let n := if wins = [] then 0 else n
  if n < c.trigs then trigs[n]? else none

/-- R227, R741: the tokens outstanding at sequencer k on one combination, as intervals in units. A token that
comes before a TRIG and is consumed after it is outstanding from the TRIG on. -/
def State.outstanding (s : State) (f : Nat) (fires : List PFire) (far : List PRemote) (k : Nat) (p : Option PPath) : Nat :=
  let outs := (fires.map PFire.out ++ far.map PRemote.tgt).eraseDups
  let checks := match p with
    | some p => p.checks
    | none => []
  let trigs := match p with
    | some p => p.trigs
    | none => []
  mostAt ((outs.map fun t => (s.delivered f fires far k t).zipIdx.map fun e =>
    match checks.find? fun c => c.token == some (t, e.2) with
    | some c => (min e.1.2.1 ((firstTrig k c trigs e.1.2.2).getD e.1.2.1) * tu, c.deadline)
    | none => (e.1.2.1 * tu, 2 ^ 128)).flatten)

/-! ### Envelope bandwidth (R108, R109) -/

/-- Envelope samples that a pulse takes in a tick. -/
def PPulse.takes (x : PPulse) (t : Nat) : Nat :=
  if x.rate = 0 then 0
  else
    let lo := max x.start (t * tu)
    let hi := min x.stop ((t + 1) * tu)
    let step := tu / x.rate
    if hi ≤ lo then 0 else (hi - x.start + step - 1) / step - (lo - x.start + step - 1) / step

/-- R109: the peak of a combination in a quarter. The demand changes only where a pulse starts or ends. -/
def envPeak (ps : List PPulse) : Nat :=
  let ticks := (ps.map fun x => [x.start / tu, x.start / tu + 1, (x.stop - 1) / tu]).flatten.eraseDups
  (ticks.map fun t => (ps.map fun x => x.takes t).foldl (· + ·) 0).foldl max 0

end Sys2Proof.Machine
end

