-- ==== Sys2Proof/Machine/Calibration.lean ====
section
/-! DEFINITION. Calibration, scrubbing and telemetry (chapter 19). -/

namespace Sys2Proof.Machine

/-! ### Targets and units (R638, R639) -/

/-- R638: the last unit of a target. -/
def calLast (t : Nat) : Nat := [0, 159, 31, 319, 63, 7, 0].getD t 0

/-- R651: the addresses of the tap words of a unit. -/
def calAddrs (t u : Nat) : List Nat :=
  match t with
  | 1 => [regAddr .CAL_DAC_IL [u]]
  | 2 => [regAddr .CAL_ADC_IL [u]]
  | 3 => [regAddr .CAL_PORT [u]]
  | 4 => [regAddr .CAL_THRESH [u]]
  | 5 => [regAddr .CAL_LANE [u]]
  | _ => [regAddr .CAL_MON [0], regAddr .CAL_MON [1]]

/-- R639: the time of the interruptible step. The two conversions of the monitor converter take five
periods of 10 ms each (R596). -/
def calSweep (t : Nat) : Nat := [0, 400000, 400000, 64000, 200000, 16000000, 100000000].getD t 0

/-- R639: the bound of the non-interruptible step; 0 where the unit has none. -/
def calBound (t u : Nat) : Nat :=
  match t with
  | 1 => 12000
  | 2 => 18000
  | 3 => if u < 256 then 40000 else 0
  | _ => 0

/-- R638: the quarter and queue index that serve a unit. -/
def calQueue (t u : Nat) : Option (Nat × Nat) :=
  let out (u : Nat) : Nat × Nat := if u < 128 then (u / 32, u % 32) else ((u - 128) / 8, 32 + (u - 128) % 8)
  match t with
  | 1 => some (out u)
  | 2 => some (u / 8, 40 + u % 8)
  | 3 =>
    if u < 160 then some (out u)
    else if u < 192 then some ((u - 160) / 8, 40 + (u - 160) % 8)
    else if u < 256 then some ((u - 192) / 16, 48 + (u - 192) % 16)
    else some ((u - 256) / 16, 68 + (u - 256) % 16 / 4)
  | 4 => some (u / 16, 68 + u % 16 / 4)
  | _ => none

/-- The output channel of a unit. -/
def calChan (t u : Nat) : Option Nat :=
  match calQueue t u with
  | some (q, i) => queueChan q i
  | none => none

/-- R642: the running job's last names the unit. -/
def State.calUsed (s : State) (t u : Nat) : Bool :=
  match calQueue t u with
  | some (q, i) => s.jobUses q i
  | none => t == 5 && s.inJob && s.place.inEffect.links.contains u

/-- R638: the values a measurement yields are taps of the target, each in its range. -/
def calInRange (t : Nat) (vs : List Int) : Bool :=
  let within (n : Nat) (lo hi : Int) : Bool := vs.length == n && vs.all fun v => decide (lo ≤ v ∧ v ≤ hi)
  match t with
  | 1 => within 3 (-128) 127
  | 2 => within 3 (-128) 127
  | 3 => within 1 0 255
  | 4 => within 1 (-64) 63
  | 5 => within 4 0 255
  | _ => within 2 (-8388608) 8388607

/-- R651: the tap words of a unit, in the order of `calAddrs`. -/
def calWords (t : Nat) (vs : List Int) : List Word :=
  let bytes := (vs.zipIdx.map fun e => wrapInt 8 e.1 * 256 ^ e.2).foldl (· + ·) 0
  match t with
  | 1 => [BitVec.ofNat 32 bytes]
  | 2 => [BitVec.ofNat 32 bytes]
  | 4 => vs.map fun v => BitVec.ofNat 32 (wrapInt 7 v)
  | 6 => vs.map fun v => BitVec.ofNat 32 (wrapInt 24 v)
  | _ => [BitVec.ofNat 32 bytes]

/-! ### Taps (R637, R645) -/

/-- R651: the bits that the tap word at an address holds; the bits above them are reserved and read zero (R11). -/
def tapBits (a : Nat) : Nat :=
  if a < regAddr .CAL_PORT [0] then 24 else if a < regAddr .CAL_THRESH [0] then 8
  else if a < regAddr .CAL_LANE [0] then 7 else if a < regAddr .CAL_MON [0] then 32 else 24

/-- R11, R651: a tap word without its reserved bits. -/
def tapWord (a : Nat) (w : Word) : Word := BitVec.ofNat 32 (w.toNat % 2 ^ tapBits a)

/-- R651: the live tap word at an address. -/
def State.tap (s : State) (a : Nat) : Word := tapWord a (Table.get 0 s.cal.live a)

/-- R645: stage tap words over earlier ones that are not live yet. -/
def State.stageTaps (s : State) (ws : List (Nat × Word)) : State :=
  { s with cal.staged := ws.foldl (fun t e => Table.set none t e.1 (some (tapWord e.1 e.2))) s.cal.staged }

/-- R645: what is staged when boundary work starts is what it makes live. -/
def State.takeStaged (s : State) : State :=
  { s with cal.applying := s.cal.staged, cal.staged := [] }

/-- R645, R652: the taps become live, with the applied record; `at_` is 0 shot, 1 job, 2 idle. -/
def State.applyTaps (s : State) (at_ : Nat) : State :=
  let t := s.cal.applying
  let gain := regAddr .CAL_MON [1]
  let units := (t.filter fun e => e.1 ≠ gain).length
  let live := t.foldl (fun l e => Table.set 0 l e.1 (e.2.getD 0)) s.cal.live
  { s with cal.live := live, cal.applying := [] }.post s.home .event 849 0x79 0 s.nowStamp
    [(0x14, 4, units), (0x18, 4, at_)]

/-! ### The CALIBRATE that runs (R640 to R644) -/

/-- R640: TARGET, MODE and UNIT of a descriptor, clamped. -/
def calParams (bs : List Byte) : Nat × Nat × Nat :=
  let t := fieldAt bs 8 1
  let m := fieldAt bs 9 1
  let u := fieldAt bs 10 2
  (t, if 2 < m then 1 else m, if t = 7 ∨ calLast t < u then 0xFFFF else u)

/-- R641: begin with a descriptor. -/
def State.calBegin (s : State) (c : Nat) (d : Desc) : State :=
  let (t, m, u) := calParams d.bytes
  { s with
    cal.waiting := s.cal.waiting.filter (· ≠ (c, d.index))
    cal.run := some { ctx := c, index := d.index, target := t, mode := m, unit := u,
                      curT := if t = 7 then 1 else t, curU := if u = 0xFFFF then 0 else u } }

/-- The unit after the one in hand. -/
def CalRun.next (r : CalRun) : Option CalRun :=
  let go (t u : Nat) : Option CalRun := some { r with
    curT := t, curU := u, step := 0, running := false, spent := 0, begun := 0 }
  if r.unit ≠ 0xFFFF then none
  else if r.curU < calLast r.curT then go r.curT (r.curU + 1)
  else if r.target = 7 ∧ r.curT < 6 then go (r.curT + 1) 0
  else none

/-- R641, R644: every unit has posted its record: the completion is posted. -/
def State.calComplete (s : State) (r : CalRun) : State :=
  let s := { s with cal.run := none }
  match s.desc r.ctx r.index with
  | some d => s.completeNow r.ctx d 0 0 0
  | none => s

/-- R644, R652: the unit in hand is finished with a status and a word (none: the spec states none). -/
def State.calUnit (s : State) (r : CalRun) (status : Nat) (w : Option Word) : State :=
  let a := (calAddrs r.curT r.curU).headD 0
  let old := if r.curT = 6 then Config.freeWord (s.freeCtr + 1) else s.tap a
  let new := if r.curT = 6 then none else w
  let s := (s.post r.ctx .event 848 0x78 0 s.nowStamp
    [(0x14, 1, r.curT), (0x15, 1, status), (0x16, 2, r.curU), (0x18, 4, old.toNat),
     (0x1C, 4, (new.getD (Config.freeWord s.freeCtr)).toNat)]).draw.draw
  match r.next with
  | some n => { s with cal.run := some n }
  | none => s.calComplete r

/-- A step of the run is under way. One on the monitor converter that an injected conversion has
thrown out is not (R606). -/
def State.calActive (s : State) (r : CalRun) : Bool :=
  r.running && (r.curT != 6 || match s.mon.cur with
    | some c => c.kind == 3
    | none => false)

/-- R644: the unit has yielded no result within twice its step times. -/
def State.calOver (s : State) (r : CalRun) : Bool :=
  decide (0 < r.begun ∧ r.begun + 2 * (calSweep r.curT + calBound r.curT r.curU) < s.time.now + 1)

/-- R41 to R43, R643: a boundary that leaves the step its time. -/
def State.calRoom (s : State) (r : CalRun) : Bool :=
  let lead := if (calChan r.curT r.curU).isSome then 200 else 0
  let need := if r.step = 1 then calBound r.curT r.curU else 1
  s.job.phase != .inShot && (s.shotsHeld || decide (s.time.now + need + lead ≤ s.job.startTick))

/-- R642: a step may start on the unit in hand. -/
def State.calMayStart (s : State) (r : CalRun) : Bool :=
  let switching := match calChan r.curT r.curU with
    | some k => (s.chan k).switching
    | none => false
  r.mode != 2 && !s.calActive r && !s.bgPaused && !s.stopped && s.cobblerUp && !s.calOver r
    && (!s.calUsed r.curT r.curU || (s.calRoom r && !switching))

/-- R643: the output under a step is terminated; one in FAULT stays there. -/
def State.calTerminate (s : State) (t u : Nat) : State :=
  match calChan t u with
  | some k => if (s.chan k).st = 1 then s.terminate k else s
  | none => s

/-- R642, R643, R606: start or resume the step. -/
def State.calStepStart (s : State) : State :=
  match s.cal.run with
  | none => s
  | some r =>
    if !s.calMayStart r then s
    else if r.curT = 6 ∧ (s.mon.cur.isSome ∨ s.mon.queued.isSome) then { s with mon.calDue := true }
    else
      let begun := if r.begun = 0 then s.time.now + 1 else r.begun
      let s := { s with cal.run := some { r with running := true, since := s.time.now, begun := begun } }
      if r.curT = 6 then { s with mon.calDue := false }.monStart 3 0x3FF 0 0 {}
      else s.calTerminate r.curT r.curU

/-- CAL_STEP_START (R642, R643). -/
def execCalStepStart (s : State) : Host.Outcome State Fault Refusal := .next s.calStepStart

/-- R639: the time that an interruptible step takes has not passed yet. A non-interruptible step has a bound only. -/
def State.calShort (s : State) (r : CalRun) : Bool :=
  r.step == 0 && decide (r.spent + (s.time.now - r.since) < calSweep r.curT)

/-- R641, R643: an interruptible step suspends. -/
def State.calSuspend (s : State) : State :=
  match s.cal.run with
  | some r =>
    if s.calActive r ∧ r.step = 0 then
      { s with cal.run := some { r with running := false, spent := r.spent + (s.time.now - r.since) } }
    else s
  | none => s

/-- R641, R643: a calibration step is active on an output channel, with its step number. -/
def State.calOn (s : State) (k : Nat) : Option Nat :=
  match s.cal.run with
  | some r => if s.calActive r && calChan r.curT r.curU == some k then some r.step else none
  | none => none

/-- OUTPUT_SWITCH_START (R118): an interruptible calibration step on the channel gives way to the
switch, a non-interruptible one holds it back (R42, R643). -/
def State.switchFrom (s : State) (k : Nat) : State :=
  match s.calOn k with
  | none => s.switchStart k
  | some 0 => s.calSuspend.switchStart k
  | some _ => s

def execOutputSwitchStart (ch : Fin 224) (s : State) : Host.Outcome State Fault Refusal :=
  .next (s.switchFrom ch)

/-- R42: a non-interruptible step that runs on a unit of the running job. -/
def State.calBlocks (s : State) : Bool :=
  match s.cal.run with
  | some r => s.calActive r && r.step == 1 && s.calUsed r.curT r.curU
  | none => false

/-- R42: a step that has run past the start tick of the next shot delays it to now. -/
def State.calDelay (s : State) : State :=
  if s.calBlocks ∧ s.job.prepared ∧ s.job.startTick < s.time.now ∧ s.shotsHeld = false
      ∧ (s.job.phase = .armed ∨ s.job.phase = .shotBoundary) then
    { s with
      job.delayedFrom := if s.job.delayedFrom = 0 then s.job.startTick + 1 else s.job.delayedFrom
      job.startTick := s.time.now }
  else s

/-- The converter is free again after a step on it. -/
def State.calRelease (s : State) (r : CalRun) : State :=
  if r.curT = 6 then { s with mon.cur := none, mon.calDue := false }.monNext.monPowerDown else s

/-- R644: the values judged: the unit fails, is measured, or stages its taps. -/
def State.calResult (s : State) (r : CalRun) (vs : List Int) : State :=
  if !calInRange r.curT vs then s.calUnit r 2 none
  else
    let ws := calWords r.curT vs
    if r.mode = 1 then s.calUnit r 1 ws.head?
    else (s.stageTaps ((calAddrs r.curT r.curU).zip ws)).calUnit r (if r.mode = 2 then 3 else 0) ws.head?

/-- R639, R644: a step ends with the values it yields, or a unit has run out of time. The factory
taps of MODE 2 are read from NV without a step. -/
def State.calStepEnd (s : State) (vs : List Int) : State :=
  match s.cal.run with
  | none => s
  | some r =>
    if r.mode = 2 then s.calResult r vs
    else if s.calOver r then (if s.calActive r then s.calDelay.calRelease r else s).calUnit r 2 none
    else if !s.calActive r || s.calShort r then s
    else if r.step = 0 ∧ 0 < calBound r.curT r.curU ∧ vs ≠ [] then
      { s with cal.run := some { r with step := 1, running := false, spent := 0 } }
    else (s.calDelay.calRelease r).calResult r vs

/-- CAL_STEP_END (R639, R644, R42): `vals` are the values the step yields; none when the measurement
yields no result. -/
def execCalStepEnd (vals : List Int) (s : State) : Host.Outcome State Fault Refusal := (s.calStepEnd vals).done

/-! ### Scrubbing (R648, R649, R703) -/

/-- R648, R702: a pass is due. -/
def State.scrubDue (s : State) : Bool :=
  !s.cal.scrubbing && !s.bgPaused && (s.diagnostic || decide (s.cal.scrubNext ≤ s.time.now))

/-- R703, R340, R626: an uncorrectable word that scrubbing finds is recorded. A plane whose own state
is in error quarantines itself, and a cobbler whose state memory is in error fails; every other unit
meets its outcome at its next read. -/
def State.scrubError (s : State) (e : ScrubErr) : State :=
  let s := s.eccError e.cls.val e.unit 1 e.addr.toNat false
  if e.cls.val = 4 then (if e.unit = 0 then s.planeQuarantine 0 1 else s.planeQuarantine 1 1)
  else if e.cls.val = 8 ∧ e.state = true then
    (if e.unit = s.eng.active then s.cobblerFail 1 else s.standbyFail)
  else s

/-- SCRUB_PASS (R648, R703): a pass starts and finds `errs`. -/
def execScrubPass (errs : List ScrubErr) (s : State) : Host.Outcome State Fault Refusal :=
  if s.scrubDue then
    let s := { s with
      cal.scrubbing := true, cal.scrubFrom := s.time.now, cal.scrubNext := s.time.now + 10000000000 }
    (errs.foldl State.scrubError s).done
  else .next s

/-- R703: count corrected words of a class. -/
def State.countCe (s : State) (e : Fin 11 × Word) : State :=
  s.wr Reg.DG_ECC.CE [e.1.val] ((s.rd Reg.DG_ECC.CE [e.1.val] + e.2.toNat) % 65536)

/-- SCRUB_PASS_END (R648, R652): `ce` are the words corrected, by class. -/
def execScrubPassEnd (ce : List (Fin 11 × Word)) (s : State) : Host.Outcome State Fault Refusal :=
  if s.cal.scrubbing ∧ s.bgPaused = false then
    let n := (ce.map fun e => e.2.toNat).foldl (· + ·) 0
    let late := decide (s.cal.scrubNext < s.time.now)
    let s := { (ce.foldl State.countCe s) with cal.scrubbing := false }
    .next (s.postCoarse s.home 851 0x7B 0
      [(0x14, 4, (s.time.now - s.cal.scrubFrom) / 1000000), (0x18, 4, n), (0x1C, 4, if late then 1 else 0)])
  else .next s

/-! ### Telemetry (R650, R652) -/

/-- R673: VDD_INS in mV at a step. -/
def vinsMv (v : Nat) : Nat := 600 + 25 * v

/-- The highest effective value of a sampled sensor, in units of 0.125 °C. -/
def State.hottest (s : State) : Option Int :=
  s.pwr.sensors.foldl (fun m e => if e.2.valid = false then m else match m with
    | none => some e.2.val
    | some v => some (if v < e.2.val then e.2.val else v)) none

/-- R650: a telemetry record that still waits is replaced and consumes its sequence number. -/
def State.telemetry (s : State) : State :=
  let p := s.rd Reg.CAL_BG.TEL_PERIOD []
  if p = 0 ∨ s.bgPaused = true ∨ s.time.now < s.cal.telNext then s
  else
    let old := (s.recs.held.filter fun h => h.src == 852).length
    let hot := match s.hottest with
      | some v => wrapInt 16 (rndNearest (v * 5) 4)
      | none => (Config.freeWord s.freeCtr).toNat % 65536
    let s := { s with
      cal.telNext := s.time.now + p * 1000000
      recs.held := s.recs.held.filter fun h => h.src != 852
      recs.seq := Table.upd 0 s.recs.seq 852 (· + BitVec.ofNat 32 old) }
    (s.postCoarse s.home 852 0x7C 0
      [(0x14, 2, hot), (0x16, 2, vinsMv s.pwr.vins), (0x18, 4, s.pwr.power), (0x1C, 4, s.place.slow)]).draw

/-- TELEMETRY (R650). -/
def execTelemetry (s : State) : Host.Outcome State Fault Refusal := .next s.telemetry

end Sys2Proof.Machine
end

