-- ==== Sys2Proof/Machine/Power.lean ====
section
/-! DEFINITION. The power ladder, sensors, throttling, the hardware cut and the rails (chapters 20 and
23), and the loss of everything outside the always-on domain (R653, R731, R732). -/

namespace Sys2Proof.Machine

/-! ### Sensors (R657 to R662) -/

def State.sensor (s : State) (i : Nat) : Sensor := Table.get {} s.pwr.sensors i

def State.updSensor (s : State) (i : Nat) (f : Sensor → Sensor) : State :=
  { s with pwr.sensors := Table.upd {} s.pwr.sensors i f }

/-- R674: the event source of a sensor. -/
def sensorSource (i : Nat) : Nat := if i < 64 then 640 + i else 944 + (i - 64)

/-- R659: the neighbours of a sensor. -/
def sensorNear (i : Nat) : List Nat :=
  if 64 ≤ i then ([64, 65, 66, 67]).filter (· ≠ i)
  else
    let t := i / 4
    let o := if t % 2 = 0 then t + 1 else t - 1
    ((List.range 4).map (t * 4 + ·)).filter (· ≠ i) ++ (List.range 4).map (o * 4 + ·)

/-- The sensors of the quarter of sensor i, or of the insole. -/
def sensorDie (i : Nat) : List Nat :=
  if 64 ≤ i then [64, 65, 66, 67] else (List.range 16).map (i / 16 * 16 + ·)

/-- The readings of those of some sensors that have been sampled and are not broken. -/
def State.goodReadings (s : State) (is : List Nat) : List Int :=
  (is.map s.sensor).filterMap fun x => if x.valid && !x.broken then some x.raw else none

def insertInt (v : Int) : List Int → List Int
  | [] => [v]
  | w :: t => if v ≤ w then v :: w :: t else w :: insertInt v t

def sortInts (l : List Int) : List Int := l.foldr insertInt []

/-- R659: twice the median of a list. -/
def median2 (l : List Int) : Int :=
  let x := sortInts l
  let n := x.length
  if n % 2 = 1 then 2 * x.getD (n / 2) 0 else x.getD (n / 2 - 1) 0 + x.getD (n / 2) 0

def maxInts : List Int → Option Int
  | [] => none
  | v :: t => match maxInts t with
    | none => some v
    | some w => some (if v < w then w else v)

def minInts (l : List Int) : Option Int := (maxInts (l.map (- ·))).map (- ·)

/-- R660: the effective value of sensor i. Where no sensor of the device works the spec states none. -/
def State.effective (s : State) (i : Nat) : Int :=
  let x := s.sensor i
  if !x.broken then x.raw
  else match maxInts (s.goodReadings (sensorNear i)) with
    | some v => v + 24
    | none => match maxInts (s.goodReadings (List.range 68)) with
      | some v => v + 24
      | none => signedOf 12 (Config.freeWord s.freeCtr).toNat

/-- R659: the reading breaks the sensor. -/
def State.breaks (s : State) (i : Nat) (raw : Int) : Bool :=
  let near := s.goodReadings (sensorNear i)
  decide (raw < -480 ∨ 1200 < raw) || (decide (2 ≤ near.length) && decide (128 < (2 * raw - median2 near).natAbs))

/-- R674: a sensor threshold record. -/
def State.thresholdRecord (s : State) (i which : Nat) (on : Bool) : State :=
  let x := s.sensor i
  s.postCoarse s.home (sensorSource i) 0x80 0
    [(0x14, 1, which), (0x15, 1, if on then 1 else 0), (0x16, 2, wrapInt 16 x.val), (0x18, 2, wrapInt 16 x.raw)]

/-- R661: a condition after a sample: set at the onset, cleared below onset minus hysteresis. -/
def overCond (was : Bool) (v onset hyst : Int) : Bool :=
  if was then decide (onset - hyst ≤ v) else decide (onset ≤ v)

/-- R662: a low condition. -/
def underCond (was : Bool) (v onset hyst : Int) : Bool :=
  if was then decide (v ≤ onset + hyst) else decide (v ≤ onset)

/-- R668: the sensor with the highest effective value breaks while L is above 0. -/
def State.breakHold (s : State) (i : Nat) : State :=
  if 0 < s.pwr.level ∧ s.hottest = some (s.sensor i).val then
    { s with pwr.relHold := true, pwr.relHoldTo := s.time.now + 100000000 }
  else s

/-- R659: sensor i breaks. With no neighbour that works its record's median is a value the spec does
not state. -/
def State.breakSensor (s : State) (i : Nat) : State :=
  let near := s.goodReadings (sensorNear i)
  let s := (s.breakHold i).updSensor i fun x => { x with broken := true }
  let v := s.effective i
  let m := if near = [] then (Config.freeWord (s.freeCtr + 1)).toNat % 65536 else wrapInt 16 (rndNearest (median2 near) 2)
  let s := (s.postCoarse s.home (sensorSource i) 0x81 0
    [(0x14, 2, wrapInt 16 (s.sensor i).raw), (0x16, 2, m), (0x18, 2, wrapInt 16 v)])
  s.draw

/-- R662, R674: the low conditions of the quarter of sensor i. -/
def State.quarterLow (s : State) (i : Nat) : State :=
  if 64 ≤ i then s
  else
    let q := i / 16
    let vals := ((sensorDie i).map s.sensor).filterMap fun x => if x.valid then some x.val else none
    match minInts vals with
    | none => s
    | some v =>
      let step (s : State) (b : Nat) (onset hyst : Int) : State :=
        let was := bitOf s.pwr.low.toNat (2 * q + b)
        let on := underCond was v onset hyst
        if was = on then s
        else { s with pwr.low := BitVec.ofNat 8 (setBits s.pwr.low.toNat (2 * q + b) (2 * q + b) (if on then 1 else 0)) }.postCoarse
          s.home (950 + q) 0x84 0 [(0x14, 1, b + 1), (0x15, 1, if on then 1 else 0), (0x16, 2, wrapInt 16 v)]
      step (step s 0 40 24) 1 (-40) 40

/-- R664, R667: throttling starts or clears with the throttle conditions of the sensors. -/
def State.throttling (s : State) : State :=
  let on := s.pwr.sensors.any fun e => e.2.throt
  if on = s.pwr.throt then s
  else if on then { s with pwr.throt := true, pwr.riseAt := s.time.now }
  else { s with pwr.throt := false, pwr.releaseAt := s.time.now + 10000000 }

/-- R661: the conditions of sensor i after a sample. -/
def State.thresholds (s : State) (i : Nat) : State :=
  let x := s.sensor i
  let w := overCond x.warn x.val 760 40
  let t := overCond x.throt x.val 800 40
  let u := overCond x.shut x.val 880 80
  let s := s.updSensor i fun y => { y with warn := w, throt := t, shut := u }
  let s := if w = x.warn then s else s.thresholdRecord i 1 w
  let s := if t = x.throt then s else s.thresholdRecord i 2 t
  let s := if u = x.shut then s else s.thresholdRecord i 3 u
  if u && !x.shut then s.orderlyStop 1 i else s

/-- R658: the effective value of a sensor lies within 5 °C of one of its onset thresholds; the insole
has no low limits (R662). -/
def nearOnset (i : Nat) (v : Int) : Bool :=
  ([760, 800, 880] ++ if i < 64 then [40, -40] else []).any fun t => decide ((v - t).natAbs ≤ 40)

/-- R658: sensor i is due for a sample: every 1 ms, or every 100 µs near a threshold. -/
def State.sensorDue (s : State) (i : Nat) : Bool :=
  let x := s.sensor i
  !x.valid || decide (x.at_ + (if nearOnset i x.val then 100000 else 1000000) ≤ s.time.now)

/-- R659 to R662: what a reading of sensor i does. -/
def State.takeReading (s : State) (i : Nat) (raw : Int) : State :=
  let breaks := !(s.sensor i).broken && s.breaks i raw
  let s := s.updSensor i fun x => { x with raw := raw, valid := true, at_ := s.time.now }
  let s := if breaks then s.breakSensor i else s
  let v := s.effective i
  let s := (s.draw.updSensor i fun x => { x with val := v }).thresholds i
  let s := (s.quarterLow i).throttling
  let left := ((sensorDie i).filter fun k => !(s.sensor k).broken).length
  if breaks ∧ left < 2 then s.orderlyStop 4 i else s

/-- R658: a sample of sensor i when it is due. -/
def State.sensorSample (s : State) (i : Nat) (raw : Int) : State :=
  if s.sensorDue i then s.takeReading i raw else s

/-- SENSOR_SAMPLE (R658). -/
def execSensorSample (i : Fin 68) (raw : BitVec 12) (s : State) : Host.Outcome State Fault Refusal :=
  (s.sensorSample i raw.toInt).done

/-! ### Throttling (R664 to R668) -/

/-- R664: the cap in 0.1 W. -/
def State.cap (s : State) : Nat := 1200 - 100 * s.pwr.level

/-- R674: a throttle record. -/
def State.throttleRecord (s : State) (action what drop : Nat) : State :=
  s.postCoarse s.home 949 0x83 0
    [(0x14, 1, s.pwr.level), (0x15, 1, action), (0x16, 1, what), (0x18, 4, s.pwr.power), (0x1C, 4, drop)]

/-- R665: the action is taken and not undone. -/
def State.taken (s : State) (n : Nat) : Bool := s.pwr.acts.any fun a => a.num == n && !a.gone

/-- R665, R666: the first action of the table that is not taken and not skipped. -/
def State.nextAction (s : State) : Option Nat :=
  ([1, 2, 3, 4, 5, 6]).find? fun n => !s.taken n && !(n == 3 && s.pwr.skip3)

/-- R665: an action that waits to take effect, a measurement, or a re-proof is under way. -/
def State.actionBusy (s : State) : Bool :=
  s.pwr.measFrom != 0 || s.place.reproof.isSome || s.pwr.acts.any fun a => !a.live && !a.gone

/-- At a shot boundary whose work is not in progress (R23). -/
def State.openBoundary (s : State) : Bool := s.job.phase == .shotBoundary && !s.job.work

/-- R665: whether an action takes effect at once. -/
def State.atOnce (s : State) (n : Nat) : Bool :=
  match n with
  | 2 => !s.inJob || s.openBoundary
  | 3 => false
  | 5 => s.openBoundary
  | _ => true

/-- R274: suspend inputs in descending number until the demand of those left is at most half. -/
def suspendFrom (half : Nat) : List (Nat × Nat) → Nat → List Nat
  | [], _ => []
  | (i, d) :: rest, left => if left ≤ half then [] else i :: suspendFrom half rest (left - d)

/-- R271, R274: the placed capture demand of an input, in bytes per 2^20 ns. -/
def LastMap.demandOf (m : LastMap) (inp : Nat) : Nat := ((m.capDemand.find? fun e => e.1 == inp).map (·.2)).getD 0

/-- R274: the capture limit as it stands at a boundary. -/
def State.captureLimit (s : State) : State :=
  match s.job.job with
  | none => s
  | some j =>
    let ins := ((List.range 32).reverse.filter (bitOf j.inputs)).map fun i => (i, s.place.inEffect.demandOf i)
    let total := (ins.map (·.2)).foldl (· + ·) 0
    let susp := if j.capture && s.throttled 2 then suspendFrom (total / 2) ins total else []
    { s with rdo.caps := (List.range 32).foldl (fun t i =>
        Table.upd {} t i fun c => { c with susp := susp.contains i }) s.rdo.caps }

/-- R665: take an action; its measurement starts when it takes effect. -/
def State.take_ (s : State) (n : Nat) : State :=
  let live := s.atOnce n || s.throttled n
  let a : ThrotAct := { num := n, before := s.pwr.power, live := live }
  let s := { s with
    pwr.acts := a :: s.pwr.acts.filter fun x => x.num ≠ n
    pwr.measFrom := if live then s.time.now + 1 else 0 }
  match n with
  | 1 => s.monPause
  | 2 => if live then s.captureLimit else s
  | 6 => s.orderlyStop 2 0
  | _ => s

/-- R666: action 3 is skipped. -/
def State.skipAction3 (s : State) : State := { s with pwr.skip3 := true }.throttleRecord 3 2 0

/-- R665: while P exceeds the cap the next action is taken; action 3 first asks for a re-proof. -/
def State.throttleAct (s : State) : State :=
  let go (s : State) : State :=
    match s.nextAction with
    | some n => if n = 3 then { s with place.reproof := some 0 } else s.take_ n
    | none => s
  if s.pwr.throt = false ∨ s.pwr.power ≤ s.cap ∨ s.actionBusy = true then s
  else if s.nextAction = some 3 ∧ s.pwr.vins = 0 then go s.skipAction3
  else go s

/-- THROTTLE_RISE (R664, R665): P is measured as `p`. -/
def State.throttleRise (s : State) (p : Nat) : State :=
  if s.pwr.throt ∧ s.pwr.riseAt ≤ s.time.now then
    { s with
      pwr.level := min 12 (s.pwr.level + 1)
      pwr.riseAt := s.time.now + 10000000
      pwr.power := p }.throttleAct
  else s

def execThrottleRise (p : BitVec 16) (s : State) : Host.Outcome State Fault Refusal := (s.throttleRise p.toNat).done

/-- R665: the measurement that follows the latest action ends. -/
def State.measureEnd (s : State) (p : Nat) : State :=
  if s.pwr.measFrom = 0 ∨ s.time.now + 1 < s.pwr.measFrom + 1000000 then s
  else
    let s := { s with pwr.measFrom := 0, pwr.power := p }
    match s.pwr.acts with
    | a :: rest =>
      let a := { a with drop := a.before - p }
      ({ s with pwr.acts := a :: rest }.throttleRecord a.num 1 a.drop).throttleAct
    | [] => s.throttleAct

/-- THROTTLE_MEASURE_END (R665). -/
def execThrottleMeasureEnd (p : BitVec 16) (s : State) : Host.Outcome State Fault Refusal :=
  (s.measureEnd p.toNat).done

/-- R666: the skip of action 3 ends once throttling has ended and every action is undone. -/
def State.unskip (s : State) : State :=
  if s.pwr.throt = false ∧ s.pwr.acts.all (·.gone) = true then { s with pwr.skip3 := false } else s

/-- R667: undo an action; one that has no effect yet, or whose undoing acts at once, goes away. -/
def State.undo (s : State) (a : ThrotAct) : State :=
  let now := !a.live || a.num == 1 || a.num == 4 || a.num == 6 || s.job.phase == .idle
    || (a.num != 3 && s.openBoundary)
  let drop := a.num != 3 && now
  let rest := s.pwr.acts.filter fun x => x.num ≠ a.num
  let s := { s with
    pwr.acts := if drop || !a.live then rest else { a with gone := true } :: rest
    pwr.measFrom := 0 }
  let s := if a.num = 1 then s.monScan else if a.num = 2 ∧ drop = true then s.captureLimit else s
  (s.throttleRecord a.num 0 a.drop).unskip

/-- R667: a release step. -/
def State.releaseStep (s : State) (p : Nat) : State :=
  let acts := s.pwr.acts.filter fun a => !a.gone
  if s.pwr.throt ∨ s.pwr.relHold ∨ s.time.now < s.pwr.releaseAt ∨ (s.pwr.level = 0 ∧ acts = []) then s
  else
    let s := { s with
      pwr.level := s.pwr.level - 1, pwr.releaseAt := s.time.now + 10000000, pwr.power := p }
    match acts with
    | a :: _ => if p + a.drop ≤ s.cap then s.undo a else s
    | [] => s.unskip

/-- THROTTLE_RELEASE_STEP (R667). -/
def execThrottleReleaseStep (p : BitVec 16) (s : State) : Host.Outcome State Fault Refusal :=
  .next (s.releaseStep p.toNat)

/-- RELEASE_SUSPENSION_END (R668). -/
def execReleaseSuspensionEnd (s : State) : Host.Outcome State Fault Refusal :=
  .next (if s.pwr.relHold ∧ s.pwr.relHoldTo ≤ s.time.now then { s with pwr.relHold := false } else s)

/-- R665, R667: the actions that take effect, or end, at the boundary after a shot; `shots` says that
the job goes on with a further shot. -/
def State.throttleBoundary (s : State) (shots : Bool) : State :=
  let due (a : ThrotAct) : Bool := a.num == 2 || (a.num == 5 && shots)
  let new := s.pwr.acts.any fun a => due a && !a.live && !a.gone
  let acts := (s.pwr.acts.filter fun a => !(a.gone && (a.num == 2 || a.num == 5))).map fun a =>
    if due a then { a with live := true } else a
  { s with pwr.acts := acts, pwr.measFrom := if new then s.time.now + 1 else s.pwr.measFrom }.captureLimit

/-- R665, R667, R673: the VDD_INS step that should be in force. -/
def State.vinsWant (s : State) : Nat := s.rd Reg.PWR_CFG.VINS [] - (if s.taken 3 then 1 else 0)

/-- R23, R665: the VDD_INS step of the boundary work has been made; action 3 takes effect, or its undoing ends. -/
def State.vinsDone (s : State) : State :=
  let new := s.pwr.acts.any fun a => a.num == 3 && !a.live && !a.gone
  { s with
    pwr.vins := s.job.workStep
    pwr.acts := (s.pwr.acts.filter fun a => !(a.num == 3 && a.gone)).map fun a =>
      if a.num = 3 then { a with live := true } else a
    pwr.measFrom := if new then s.time.now + 1 else s.pwr.measFrom }

/-! ### The hardware cut (R663) -/

/-- R663: what the cut stops and loses, with its record held. The insole in reset serves no register and holds
no link. -/
def State.cutOff (s : State) (h : Held) : State :=
  { s with
    pwr.cut := true
    pwr.cutRec := some h
    pwr.clocksOff := true
    job := {}
    sq := {}
    place.build := none
    place.reproof := none
    planes := {}
    dec := {}
    cal.run := none
    cal.waiting := []
    cal.scrubbing := false
    host.reads := []
    lace := { out := s.lace.out }
    net := { out := s.net.out }
    sys.ready := false
    ctxs := [] }

/-- HARDWARE_CUT (R663): the comparator of `tile` trips. The insole is held in reset. -/
def State.hardwareCut (s : State) (tile : Nat) : State :=
  if s.pwr.cut then s
  else
    let h : Held := { ctx := s.home, ring := .event, src := 955, kind := 0x86, flags := 8 + s.timeFlags,
                      stamp := s.nowStamp, body := BitVec.ofNat 96 tile }
    ((s.muteAll 4).allBiasSafe 5).cutOff h

def execHardwareCut (tile : Fin 17) (s : State) : Host.Outcome State Fault Refusal := (s.hardwareCut tile).done

/-! ### Rails (R709, R730) -/

/-- R674: a supply record. -/
def State.supplyRecord (s : State) (rail : Nat) (on : Bool) (mv : Nat) : State :=
  s.postCoarse s.home 957 0x88 0 [(0x14, 1, rail), (0x15, 1, if on then 1 else 0), (0x16, 2, mv)]

/-- CORE_RAIL_LOW (R709, R669). -/
def State.coreRail (s : State) (rail mv : Nat) : State :=
  if s.pwr.rails.contains rail then s
  else ({ s with pwr.rails := rail :: s.pwr.rails }.supplyRecord rail true mv).orderlyStop 3 rail

def execCoreRailLow (rail : Fin 3) (mv : BitVec 16) (s : State) : Host.Outcome State Fault Refusal :=
  (s.coreRail rail mv.toNat).done

/-- The RF and flux outputs of a quarter. -/
def quarterOuts (q : Nat) : List Nat := (List.range 40).map (q * 40 + ·) ++ (List.range 16).map (160 + q * 16 + ·)

/-- RF_RAIL_FAULT (R709, R121). -/
def State.rfRail (s : State) (q : Nat) : State :=
  if s.pwr.rails.contains (4 + q) then s
  else
    let s := { s with
      pwr.rails := (4 + q) :: s.pwr.rails, pwr.recovered := s.pwr.recovered.filter (· ≠ q) }
    (quarterOuts q).foldl (fun s k => s.faultMute 5 k) s

def execRfRailFault (q : Fin 4) (s : State) : Host.Outcome State Fault Refusal := .next (s.rfRail q)

/-- R730: the watch of the VBIAS rails has begun. -/
def State.vbiasWatched (s : State) : Bool :=
  decide (0 < s.pwr.vbiasFrom ∧ s.pwr.vbiasFrom + 1000000 ≤ s.time.now + 1)

/-- VBIAS_FAULT (R709, R431). -/
def execVbiasFault (s : State) : Host.Outcome State Fault Refusal :=
  .next (if s.vbiasWatched ∧ s.pwr.rails.contains 8 = false then
      { s with pwr.rails := 8 :: s.pwr.rails }.allBiasSafe 6
    else s)

/-- R122: the recovered quarters' outputs return to terminated. -/
def State.recoverRf (s : State) : State :=
  let qs := s.pwr.recovered
  let s := { s with pwr.recovered := [] }
  qs.foldl (fun s q => (quarterOuts q).foldl (fun s k => s.faultClear 5 k) s) s

/-- RAIL_RECOVER (R122, R674): rails 0 to 2 of R674, 4 + q the VDD_RF of quarter q, 8 VBIAS. -/
def State.railRecover (s : State) (rail mv : Nat) : State :=
  if s.pwr.rails.contains rail then
    let s := { s with pwr.rails := s.pwr.rails.filter (· ≠ rail) }
    if rail < 3 then s.supplyRecord rail false mv
    else if rail = 8 then s.allBiasClear 6
    else
      let s := { s with pwr.recovered := (rail - 4) :: s.pwr.recovered }
      if s.betweenJobs then s.recoverRf else s
  else s

def execRailRecover (rail : Fin 9) (mv : BitVec 16) (s : State) : Host.Outcome State Fault Refusal :=
  .next (s.railRecover rail mv.toNat)

/-! ### The ladder (R653 to R656) -/

/-- R674: a rung record. -/
def State.rungRecord (s : State) (from_ dst cause us : Nat) : State :=
  s.postCoarse s.home 948 0x82 0 [(0x14, 1, from_), (0x15, 1, dst), (0x16, 1, cause), (0x18, 4, us)]

/-- R653: Hold: the outputs are terminated, sequencers and processors IDLE. -/
def State.enterHold (s : State) : State :=
  let s := (List.range 224).foldl (fun s k => if (s.chan k).st = 1 then s.terminate k else s) s
  { s with
    sq.seqs := s.sq.seqs.map fun e => (e.1, { e.2 with st := .idle })
    dsps := s.dsps.map fun e => (e.1, { e.2 with st := .idle }) }

/-- R521, R653: a link that is UP idles its transmitter. -/
def State.restLink (s : State) (l : Nat) : State :=
  let x := s.lnk l
  if x.up ∧ x.idleTx = false then
    ((s.updLink l fun x => { x with idleTx := true }).laceOut l .eidle).setLinkState l 4 0
  else s

/-- R653: Rest: converter clocks, awl, monitor and beacons stop; the lace links idle. -/
def State.enterRest (s : State) : State :=
  let s := { s with mon.cur := none, mon.queued := none, mon.pass := false }
  (List.range 8).foldl State.restLink s

/-- R653, R560: a timing port goes down and its domain is lost. -/
def State.sleepDomain (s : State) (d : Nat) : State :=
  let m := s.domSt d
  if m.st = 1 ∨ m.st = 2 then (s.updDom d fun m => { m with st := 3 }).servoRecord d 2 (s.estimate d) else s

/-- R653: Sleep: synthesizers off, lace links DOWN, timing ports down. -/
def State.enterSleep (s : State) : State :=
  let s := (List.range 8).foldl (fun s l => if (s.lnk l).st = 1 then s else s.linkDown l 1 0) s
  let s := (s.updPort 0 fun p => { p with link := false }).updPort 1 fun p => { p with link := false }
  (s.sleepDomain 0).sleepDomain 1

/-- R675, R694: the module as a start of the device leaves it. -/
def SecSt.restart (x : SecSt) : SecSt :=
  { x with resp := [], done := false, run := none, err := false, testing := true, nonce := none, marks := [] }

/-- R653, R731, R732: everything outside the always-on domain is lost. What stays: NV, the module, the
sensors' rails, the ladder, and (`pcie`) the configuration space and the link of PCI Express. What the
device has sent stays sent. -/
def State.dropVolatile (s : State) (pcie : Bool) : State :=
  { State.reset with
    pending := s.pending
    freeCtr := s.freeCtr
    time := { now := s.time.now }
    recs := { out := s.recs.out, funcMask := pcie && s.recs.funcMask }
    lace := { out := s.lace.out }
    net := { out := s.net.out }
    host := if pcie then { s.host with reads := [], heldCpl := [] } else {}
    nv := { s.nv with refuse := false, done := 0 }
    sec := s.sec
    sys := { tmode := s.sys.tmode, shown := s.sys.shown, porHeld := s.sys.porHeld }
    pwr := { rails := s.pwr.rails, vbiasFrom := s.pwr.vbiasFrom } }

/-- R656: a bias output has no ramp to end. -/
def State.biasStill (s : State) : Bool :=
  s.bias.outs.all fun e => match e.2.move with
    | .steady => true
    | _ => false

/-- R653, R656: Deep: the records held are posted, and then only the always-on domain keeps its state;
device time goes on. -/
def State.enterDeep (s : State) : State :=
  let s := State.releaseAll (fun _ => true) s.recs.held.length s
  let t := s.dropVolatile true
  let outs := s.bias.outs.map fun e => (e.1, ({ code := e.2.code, range := e.2.range } : Bias))
  { t with
    time := { s.time with holding := false, holdLeft := 0, holdLen := 0, snap := {}, hznNext := 0 }
    bias.outs := outs
    sec.marks := []
    sys := { s.sys with boot := false, ready := false, bootRecs := [] }
    pwr := { s.pwr with toDeep := false, rung := 4, acts := [], measFrom := 0 }
    regs.direct := Table.set (resetWord .PWR_CTL []) [] (regAddr .PWR_CTL []) (s.word .PWR_CTL []) }

/-- R653: enter a lower rung with everything the rungs on the way stop. -/
def State.enterRung (s : State) (dst cause : Nat) : State :=
  let from_ := s.pwr.rung
  let s := if from_ < 1 then s.enterHold else s
  let s := if from_ < 2 ∧ 2 ≤ dst then s.enterRest else s
  let s := if from_ < 3 ∧ 3 ≤ dst then s.enterSleep else s
  { s with pwr.rung := dst }.rungRecord from_ dst cause 0

/-- R656: begin the way into Deep: every bias output ramps to its safe value. -/
def State.startDeep (s : State) : State :=
  let s := (List.range 256).foldl (fun s k => s.biasSafe k) s
  { s with pwr.toDeep := true, pwr.rungFrom := s.time.now }

/-- R653, R26: a higher rung is reached at the end of boundary work. -/
def State.startRise (s : State) (dst cause : Nat) : State :=
  { s with job.work := true, job.workRung := true, pwr.toRung := some (dst, cause), pwr.rungFrom := s.time.now }

/-- R653: a higher rung is in force: the awl and the monitor start again. -/
def State.riseDone (s : State) : State :=
  match s.pwr.toRung with
  | none => s
  | some (dst, cause) =>
    let from_ := s.pwr.rung
    let s := { s with pwr.rung := dst, pwr.toRung := none, job.workRung := false }
    let s := if 2 ≤ from_ ∧ dst < 2 then (List.range 32).foldl (fun s k => s.awlRestart k) s.monRestart else s
    s.rungRecord from_ dst cause ((s.time.now - s.pwr.rungFrom) / 1000)

/-- R656, R737: an exit from Deep boots the device. -/
def State.leaveDeep (s : State) (dst : Nat) : State :=
  { s with
    sys := { s.sys with boot := true, ready := false, fromDeep := true, steps := [0, 1, 2], release := s.time.now
                        bootRecs := [] }
    eng.st := #v[3, 3]
    pwr.rung := dst
    pwr.rungFrom := s.time.now }

/-- R654, R699: a requested rung that may be applied now. -/
def State.rungDue (s : State) : Option (Nat × Nat) :=
  match s.pwr.rungReq with
  | some r =>
    if r = s.pwr.rung then none
    else if s.sys.safe ≠ 0 ∧ r < 2 then none
    else if s.pwr.rung < r ∧ s.anyReady = true then none
    else some (r, 0)
  | none => none

/-- R655: a ready job wakes the device. -/
def State.wakeDue (s : State) : Option (Nat × Nat) :=
  if 0 < s.pwr.rung ∧ s.anyReady = true ∧ s.flag Reg.PWR_CFG.AUTO_WAKE [] = true ∧ s.stopped = false then some (0, 1)
  else none

/-- RUNG_CHANGE (R654 to R656): at a job boundary or idle. A change under way to Deep ends when the
last ramp has ended. -/
def State.rungChange (s : State) : State :=
  if s.pwr.toDeep then (if s.biasStill && s.pwr.stop.isNone then (s.rungRecord s.pwr.rung 4 0 ((s.time.now - s.pwr.rungFrom) / 1000)).enterDeep else s)
  else if s.job.phase ≠ .idle ∨ s.job.work = true ∨ s.pwr.stop.isSome = true ∨ s.sys.boot = true then s
  else
    match s.rungDue.or s.wakeDue with
    | none => s
    | some (dst, cause) =>
      let s := if cause = 0 then { s with pwr.rungReq := none } else s
      if s.pwr.rung = 4 then s.leaveDeep dst
      else if dst < s.pwr.rung then s.startRise dst cause
      else if dst = 4 then s.startDeep
      else s.enterRung dst cause

def execRungChange (s : State) : Host.Outcome State Fault Refusal := s.rungChange.done

/-- RUNG_REQUEST (R654, R673): a write to PWR_CTL.RUNG. -/
def State.rungRequest (s : State) (v : Nat) : State :=
  let r := bitsOf v 2 0
  let c := min r 4
  let s := if c = r then s else s.logClamp s.home (fieldId 0 Reg.PWR_CTL.RUNG []) 0 r c s.coarseStamp true
  { s.wr Reg.PWR_CTL.RUNG [] c with pwr.rungReq := some c }

/-- R452, R653: the ladder control is in the always-on domain, which works on in Deep. -/
def State.ladderUp (s : State) : Bool := s.sys.ready || (s.pwr.rung == 4 && !s.sys.boot)

def execRungRequest (value : Word) (s : State) : Host.Outcome State Fault Refusal :=
  .next (if s.ladderUp then s.rungRequest value.toNat else s)

end Sys2Proof.Machine
end

