-- ==== Sys2Proof/Machine/PlaceBuild.lean ====
section
/-! DEFINITION. What a build decides and checks (R389, R395 to R402): queues, streams and their buffers,
feedback, the decoder, ports, the PCI Express and lace demands, routes and regions. The rules of its
paths stand in PlaceProof.lean. -/

namespace Sys2Proof.Machine

/-- What a build works with: the build, its image, F, GUARD, the participants of each barrier, and every
combination of paths, at the cursors that the proofs take and (R109) at every cursor that the programs can give. -/
structure BuildEnv where
  b : Build
  img : PlaceInput
  f : Nat
  guard : Nat
  parts : List (Nat × List Nat) := []
  cs : List Combo := []
  moved : List Combo := []

/-- The paths of each program. -/
def BuildEnv.ws (e : BuildEnv) : List (Nat × List PPath) :=
  e.img.progs.map fun x => (x.1, ((e.cs.flatMap fun c => (c.filter fun y => y.1 == x.1).map (·.2))).eraseDups)

/-- Every path of every program. -/
def BuildEnv.paths (e : BuildEnv) : List (Nat × PPath) := (e.ws.map fun w => w.2.map fun p => (w.1, p)).flatten

/-- Every window of every path. -/
def BuildEnv.wins (e : BuildEnv) : List PWin := (e.paths.map fun p => p.2.wins).flatten

/-- A refusal entry. -/
def ref (code item idx : Nat) (need have_ : Int) : Refusal408 := ⟨code, item, idx, 0, need, have_⟩

/-- The quotient rounded up. -/
def upDiv (a b : Nat) : Nat := (a + b - 1) / b

/-! ### Queues, barriers and envelopes (R131, R163, R109) -/

/-- The queue indices and stitches of a program, each once. -/
def queueStitches (ps : List PPath) : List (Nat × Nat) := (ps.map PPath.queues).flatten.eraseDups

/-- R131, R389: the sequencer that owns queue i of quarter q: the first that names it. -/
def BuildEnv.ownerOf (e : BuildEnv) (q i : Nat) : Option Nat :=
  (e.ws.find? fun w => w.1 / 16 == q && (queueStitches w.2).any fun x => x.1 == i).map (·.1)

/-- R131: a stitch that names a queue of another sequencer. -/
def BuildEnv.queueRefusals (e : BuildEnv) : List Refusal408 :=
  (e.ws.map fun w => (queueStitches w.2).filterMap fun x =>
    match e.ownerOf (w.1 / 16) x.1 with
    | some o => if o = w.1 then none else some ⟨6, 0, w.1, x.2, x.1, o⟩
    | none => none).flatten

/-- The mask of the queues that a sequencer owns. -/
def BuildEnv.queueMask (e : BuildEnv) (k : Nat) (ps : List PPath) : Nat :=
  (((queueStitches ps).map (·.1)).eraseDups.filter fun i => e.ownerOf (k / 16) i == some k).foldl (fun a i => a + 2 ^ i) 0

/-- R160 to R163: barrier, slack and refusals of each next event after a release. -/
def BuildEnv.barriers (e : BuildEnv) : List (Nat × Int × List Refusal408) :=
  (e.paths.map fun p => p.2.nexts.map fun n =>
    let t : Int := n.2.1 + (e.guard * tu : Nat)
    let need : Int := -(-t / (tu : Int)) + 32
    let have_ : Int := n.2.2
    (n.1, ((have_ - 32) * (tu : Int) - t) / 5120, if have_ < need then [ref 3 2 n.1 need have_] else [])).flatten

/-- R109: the peak of quarter q over the combinations. -/
def quarterPeak (cs : List Combo) (q : Nat) : Nat :=
  (cs.map fun c => envPeak ((c.filter fun p => p.1 / 16 == q).map fun p => p.2.pulses).flatten).foldl max 0

/-! ### Proofs over the combinations -/

/-- R399: the routes to a device, found by this build or kept, whose first link is still up. -/
def State.routesTo (s : State) (b : Build) (dev : Nat) : List (List Nat) :=
  ((b.found.filter fun r => r.1 == dev).map (·.2) ++ (s.lace.routes.filter fun r => r.dest == dev).map LaceRoute.links).filter
    fun r => match r.head? with
      | some l => (s.lnk l).up
      | none => false

/-- R375, R377: the hops of a kept route to a device. -/
def State.hopsTo (s : State) (b : Build) (dev : Nat) : Option (List Nat) :=
  (s.routesTo b dev).foldl (fun best r => match best with
    | none => some r
    | some x => if routeBefore r x then some r else some x) none

/-- R399, R743: the links that route pins name for a device. -/
def PlaceInput.routePins (i : PlaceInput) (dev : Nat) : List Nat :=
  (i.pins.filter fun p => p.kind == 2 && p.arg1 % 2 ^ 18 == dev).map (·.arg0)

/-- R399: the route a build takes to a device: a pinned link's, when it is as short. -/
def State.routeTo (s : State) (b : Build) (i : PlaceInput) (dev : Nat) : Option (List Nat) :=
  match s.hopsTo b dev with
  | none => none
  | some r =>
    match i.routePins dev with
    | [] => some r
    | l :: _ => some (((s.routesTo b dev).find? fun x => x.head? == some l && x.length == r.length).getD r)

/-- R311, R526: what a route adds to an arrival, in units: 48 ns a hop with F, and the cable delay above
5 ns of the first hop, the one link of the route whose delay this device measures. -/
def State.routeUnits (s : State) (f : Nat) (r : List Nat) : Nat :=
  let extra := match r.head? with
    | some l => (((s.lnk l).beat.delta - 5 * 65536) * (tu : Int) / 65536).toNat
    | none => 0
  fig f (960 * r.length) + extra

/-- R162: what a barrier that spans devices adds to its release. -/
def State.farUnits (s : State) (b : Build) (i : PlaceInput) (f bar : Nat) : Nat :=
  ((i.xbars.filter fun x => x.1 == bar && x.2 != s.deviceId).map fun x =>
    match s.routeTo b i x.2 with
    | some r => s.routeUnits f r
    | none => 0).foldl max 0

/-- R375, R377: the decode bound in twentieths of a ns. -/
def State.decodeBound (s : State) (b : Build) (i : PlaceInput) (g : DecGraph) : Nat :=
  match (g.peers.map fun d => ((s.routeTo b i d).map List.length).getD 0).foldl max 0 with
  | 0 => 8000
  | 1 => 8960
  | _ => 9920

/-- The job has syndrome windows. -/
def BuildEnv.syndromes (e : BuildEnv) : Bool := e.wins.any PWin.syn

/-- The graph that the job uses. -/
def State.jobGraph (s : State) (e : BuildEnv) : Option DecGraph :=
  if e.syndromes && s.flag Reg.DEC_CFG.EN [] then s.dec.graph else none

/-- The firings of one combination, and the refusals of R328. -/
def State.comboFires (s : State) (e : BuildEnv) (c : Combo) : List PFire × List Refusal408 :=
  let wins := (c.map fun p => p.2.wins).flatten
  let (fs, rs) := s.feedback e.f wins
  match s.jobGraph e with
  | some g => (fs ++ s.corrections e.f g (s.decodeBound e.b e.img g) wins, rs)
  | none => (fs, rs)

/-- R329: the sequencers that a destination set reaches, of this device or of another. -/
def State.receivers (s : State) (dst : Nat) : List (Option Nat × Nat) :=
  ((List.range 64).filter (s.setNames dst)).flatMap fun k =>
    (if s.flag Reg.DS_CTL.LOCAL [dst] then [(none, k)] else [])
    ++ if s.flag Reg.DS_CTL.REMOTE_EN [dst] then [(some (s.rd Reg.DS_CTL.REMOTE_DEV [dst]), k)] else []

/-- R319: two units, on whatever paths, can deliver one output TARGET to one sequencer. A unit of another device
counts as one. -/
def State.twoUnits (s : State) (fs : List PFire) (far : List PRemote) : List Refusal408 :=
  let units := (fs.map fun x => (x.unit, x.out, s.receivers x.dst))
    ++ far.map fun x => ([4, x.dev], x.tgt, ((List.range 64).filter (bitOf x.mask)).map fun k => (none, k))
  ((units.filter fun x => units.any fun y => x.1 != y.1 && x.2.1 == y.2.1 && x.2.2.any y.2.2.contains).map
    fun x => ref 12 9 x.2.1 1 0).eraseDups

/-- R328: two route entries of the job's tokens, on whatever paths, name one slot. -/
def State.oneSlot (s : State) (wins : List PWin) : List Refusal408 :=
  let ts := ((wins.filter fun w => w.tok && !w.syn).map PWin.tgt).eraseDups
  let at_ (t : Nat) : Nat × Nat × Nat := (s.rd Reg.DP_RT0.MODE [t], s.rd Reg.DP_RT0.UNIT [t], s.rd Reg.DP_RT0.SLOT [t])
  ((ts.filter fun t => decide (2 ≤ (at_ t).1) && ts.any fun u => t != u && at_ t == at_ u).map
    fun t => ref328 (at_ t).2.1).eraseDups

/-- R156, R227, R328, R394: what one combination proves: the slack of each sequencer's checks, and refusals. -/
def State.comboProofs (s : State) (e : BuildEnv) (far : List PRemote) (c : Combo) : List (Nat × Int) × List Refusal408 :=
  let (fs, rs) := s.comboFires e c
  let checks := (c.map fun p => p.2.checks).flatten.map fun x => (x.seq, s.prove e.f e.guard fs far x)
  let store := (List.range 64).filterMap fun k =>
    let n := s.outstanding e.f fs far k ((c.find? fun p => p.1 == k).map (·.2))
    if 16 < n then some (ref 10 1 k n 16) else none
  (checks.filterMap fun x => x.2.1.map fun v => (x.1, v), rs ++ (checks.map fun x => x.2.2).flatten ++ store)

/-- R319: a TARGET whose tokens come from more than one tone or processor. -/
def State.manyProducers (s : State) (wins : List PWin) : List Refusal408 :=
  let src (w : PWin) : Bool × Nat := match s.winDsp w with
    | some k => (true, k)
    | none => (false, toneId w.q w.tone)
  let toks := wins.filter PWin.tok
  ((toks.filter fun x => toks.any fun y => x.tgt == y.tgt && src x != src y).map PWin.tgt).eraseDups.map fun t => ref 12 9 t 1 0

/-! ### Streams (R165, R170, R198, R396) -/

/-- Each stream that a program names, by number q·16 + stream: GS/s and the bytes that a shot can
consume, at 4 bytes a sample. -/
def BuildEnv.streams (e : BuildEnv) : List (Nat × Nat × Nat) :=
  let named := (e.paths.map fun p => p.2.streams.map fun x => p.1 / 16 * 16 + x.1).flatten.eraseDups
  let of (p : Nat × PPath) (n : Nat) : List (Nat × Nat × Nat) := p.2.streams.filter fun x => p.1 / 16 * 16 + x.1 == n
  ((List.range 64).filter fun n => named.contains n).map fun n =>
    (n, ((e.paths.map fun p => (of p n).map fun x => x.2.1).flatten).foldl max 1,
      (e.ws.map fun w => (w.2.map fun p => ((of (w.1, p) n).map fun x => 4 * x.2.2).foldl (· + ·) 0).foldl max 0).foldl (· + ·) 0)

/-- R396: the length of a stream's buffer, in granules. -/
def bufferGranules (lat rate : Nat) : Nat := upDiv (max 16384 (800 * lat * rate)) 4096 * 64

/-- The granules of quarter q that loaded entries cover: first and count. -/
def State.usedRuns (s : State) (q : Nat) : List (Nat × Nat) :=
  (List.range 4095).filterMap fun id => if s.envEmpty q id then none else some (s.envRun q id)

/-- A run of granules is free. -/
def freeRun (used : List (Nat × Nat)) (a n : Nat) : Bool :=
  decide (a + n ≤ envGranules) && used.all fun u => !overlaps a n u.1 u.2

/-- The lowest free run of n granules. -/
def lowestRun (used : List (Nat × Nat)) (n : Nat) : Option Nat :=
  let starts := 0 :: used.map fun u => u.1 + u.2
  (starts.filter fun a => freeRun used a n).foldl (fun best a => match best with
    | none => some a
    | some b => some (min a b)) none

/-- The longest free run. -/
def largestRun (used : List (Nat × Nat)) : Nat :=
  let starts := 0 :: used.map fun u => u.1 + u.2
  (starts.map fun a =>
    if used.any fun u => decide (u.1 ≤ a ∧ a < u.1 + u.2) then 0
    else ((used.filter fun u => decide (a < u.1 + u.2 ∧ a ≤ u.1)).map (·.1)).foldl min envGranules - a).foldl max 0

/-- R396: place the buffers of (stream, GS/s) one after another: (quarter, stream, granules, first) and refusals. -/
def State.placeStreams (s : State) (lat : Nat) (pins : List PlacePin) :
    List (Nat × Nat) → List (Nat × Nat × Nat × Nat) → List (Nat × Nat × Nat × Nat) × List Refusal408
  | [], got => (got, [])
  | (n, rate) :: rest, got =>
    let q := n / 16
    let len := bufferGranules lat rate
    let used := s.usedRuns q ++ (got.filter fun g => g.1 == q).map fun g => (g.2.2.2, g.2.2.1)
    let fit := match pins.find? fun p => p.kind == 0 && p.arg0 == n with
      | some p => if freeRun used p.arg1 len then some p.arg1 else none
      | none => lowestRun used len
    match fit with
    | some a => s.placeStreams lat pins rest (got ++ [(q, n % 16, len, a)])
    | none =>
      let (g, rs) := s.placeStreams lat pins rest got
      (g, ref 0x11 4 n len (largestRun used) :: rs)

/-- R396: pinned buffers first. -/
def streamOrder (pins : List PlacePin) (l : List (Nat × Nat × Nat)) : List (Nat × Nat) :=
  let pinned (x : Nat × Nat × Nat) : Bool := pins.any fun p => p.kind == 0 && p.arg0 == x.1
  (l.filter pinned ++ l.filter fun x => !pinned x).map fun x => (x.1, x.2.1)

/-- R198: an unbound stream, or one whose shot consumes more than the stride. -/
def State.streamRefusals (s : State) (l : List (Nat × Nat × Nat)) (cap : Nat) : List Refusal408 :=
  (l.map fun x =>
    let t := Table.get {} s.sq.streams x.1
    (if t.bound = false then [ref 8 4 x.1 x.2.2 0]
     else if t.stride ≠ 0 ∧ t.stride < x.2.2 then [ref 8 4 x.1 x.2.2 t.stride] else [])
    ++ if cap < 4000 * x.2.1 then [ref 8 4 x.1 (4000 * x.2.1 : Nat) cap] else []).flatten

/-! ### The host link (R396, R397, R443, R587, R271) -/

/-- R443: inbound and outbound capacity in MB/s. -/
def State.linkCapacity (s : State) : Nat × Nat :=
  let r := if s.host.rate = 6 then 4 else if s.host.rate = 5 then 2 else if s.host.rate = 4 then 1 else 0
  let w := if 16 ≤ s.host.width then 4 else if 8 ≤ s.host.width then 2 else if 4 ≤ s.host.width then 1 else 0
  let h := if s.host.mps256 && s.host.tags10 then 1 else 2
  (100000 * r * w / (16 * h), 110000 * r * w / (16 * h))

/-- PCIE_IN: total and refusals. -/
def State.pcieIn (s : State) (l : List (Nat × Nat × Nat)) : Nat × List Refusal408 :=
  let cap := s.linkCapacity.1
  let sum (l : List (Nat × Nat × Nat)) : Nat := (l.map fun x => 4000 * x.2.1).foldl (· + ·) 0
  let total := sum l
  (total, (if cap < total then [ref 0x12 10 0 total cap] else [])
    ++ ([0, 1, 2, 3].filterMap fun q =>
      let d := sum (l.filter fun x => x.1 / 16 == q)
      if min 32000 cap < d then some (ref 0x12 3 q d (min 32000 cap : Nat)) else none))

/-- A sum of fractions. -/
def addFrac (a b : Nat × Nat) : Nat × Nat := (a.1 * b.2 + b.1 * a.2, a.2 * b.2)

/-- R587: the awl's demand in MB/s, as a fraction. -/
def State.awlDemand (s : State) : Nat × Nat :=
  let on := (List.range 32).filter fun i => s.flag Reg.AWL_IN_CFG.EN [i]
  let fast := ((on.filter fun i => s.rd Reg.AWL_IN_CFG.MODE [i] ≠ 2).map fun i =>
    (32000, max 2 (s.rd Reg.AWL_IN_CFG.HOLDOFF [i]))).foldl addFrac (0, 1)
  let fast := if 8000 * fast.2 < fast.1 then (8000, 1) else fast
  ((on.filter fun i => s.rd Reg.AWL_IN_CFG.MODE [i] = 2).map fun i => (32, s.rd Reg.AWL_IN_TIME.GATE [i])).foldl addFrac fast

/-- R85, R397: the horizon records' demand. -/
def State.horizonDemand (s : State) : Nat × Nat :=
  let n := ((List.range 1024).filter fun c => s.ringSize c Reg.CTX_SIZE.EVT ≠ 0).length
  let p := s.rd Reg.TIME_HZN.PERIOD []
  if p = 0 then (0, 1) else (32 * n, p)

/-- R374, R397: a decode can commit the edge: an interior edge, or one of a region that the build assigns to this
device. -/
def commits (g : DecGraph) (regions : List (Nat × Bool × Bool × Nat)) (x : DecEdge) : Bool :=
  match edgePeers g x with
  | [] => true
  | [p] => regions.any fun r => r.1 == g.peers.getD p 0 && r.2.1
  | _ => false

/-- R379, R397: the correction records of a shot. -/
def State.correctionRecords (s : State) (g : DecGraph) (regions : List (Nat × Bool × Bool × Nat)) : Nat :=
  let outs := g.rounds + 1 - g.window
  let owned := (g.edges.filter (commits g regions)).length
  (if s.flag Reg.DEC_CFG.REC [] then outs else 0)
    + (if s.flag Reg.DEC_CFG.EDGE_REC [] then owned * (outs - 1 + g.window) else 0)

/-- R397: bytes of one combination's records, completion and status block, and its shot's period in ns at
back-to-back shots (R31). -/
def State.comboOut (s : State) (e : BuildEnv) (regions : List (Nat × Bool × Bool × Nat)) (c : Combo) : Nat × Nat :=
  let wins := (c.map fun p => p.2.wins).flatten
  let fs := ((s.comboFires e c).1).filter fun x => x.unit != [3] && s.flag Reg.DS_CTL.REC [x.dst]
  let corr := match s.jobGraph e with
    | some g => s.correctionRecords g regions
    | none => 0
  let recs := (wins.filter PWin.recd).length + fs.length + corr
  (32 * (recs + 1) + 64, (c.map fun p => p.2.fin).foldl max 0 + 1000)

/-- PCIE_OUT: the largest demand of a combination, rounded up to a whole MB/s. -/
def State.pcieOut (s : State) (e : BuildEnv) (regions : List (Nat × Bool × Bool × Nat)) (cs : List Combo) : Nat :=
  let rest := addFrac s.horizonDemand s.awlDemand
  (cs.map fun c =>
    let (n, t) := s.comboOut e regions c
    let x := addFrac (n * 1000, t) rest
    upDiv x.1 x.2).foldl max 0

/-- An interval put before disjoint ones that begin no earlier; those that it meets become one with it. -/
def mergeSpan (x : Nat × Nat) : List (Nat × Nat) → List (Nat × Nat)
  | [] => [x]
  | y :: r => if y.1 ≤ x.2 then mergeSpan (x.1, max x.2 y.2) r else x :: y :: r

/-- R269: the intervals of a list, by first sample, where overlapping ones are one. -/
def mergeSpans (l : List (Nat × Nat)) : List (Nat × Nat) := l.foldr mergeSpan []

/-- R269: the intervals in which input `inp` captures in a shot of a combination, in ADC samples from S. -/
def State.captureSpans (s : State) (c : Combo) (inp : Nat) : List (Nat × Nat) :=
  let q := inp / 8
  let i := inp % 8
  if s.rd Reg.CAP_CFG.GATE [q, i] = 1 then [(0, (c.map fun p => p.2.fin).foldl max 0 * 8)]
  else
    let ws := (c.map fun p => p.2.wins).flatten.filter fun w => w.q == q && w.tone / 16 == i
      && (!s.flag Reg.CAP_CFG.TAP [q, i] || bitOf (s.rd Reg.CAP_CFG.MASK [q, i]) (w.tone % 16))
    mergeSpans ((sortArrivals (ws.map fun w => (w.start / sampleUnits 40, w.stop / sampleUnits 40))))

/-- R270, R271: the records of an input in a shot of a combination: every interval ends its last record. A record
needs a complete step (log 59). -/
def State.captureRecords (s : State) (c : Combo) (inp : Nat) : Nat :=
  let q := inp / 8
  let i := inp % 8
  let step := (if s.flag Reg.CAP_CFG.TAP [q, i] then 8 else 1) * 2 ^ s.rd Reg.CAP_CFG.D [q, i]
  let per := max 1 (s.fullSamples inp / step)
  if s.rd Reg.CAP_CFG.GATE [q, i] = 0 then 0
  else ((s.captureSpans c inp).map fun v => upDiv ((v.2 - v.1) / step) per).foldl (· + ·) 0

/-- R271, R396: the capture demand of an input over a combination, at back-to-back shots, in bytes per 2^20 ns. -/
def State.captureDemand (s : State) (c : Combo) (inp : Nat) : Nat :=
  upDiv (4096 * s.captureRecords c inp * 2 ^ 20) ((c.map fun p => p.2.fin).foldl max 0 + 1000)

/-- R271, R274: the placed capture demand of each input of CAPIN: the largest of a combination. -/
def State.placedCapture (s : State) (e : BuildEnv) : List (Nat × Nat) :=
  ((List.range 32).filter (bitOf e.img.capin)).map fun i => (i, (e.cs.map fun c => s.captureDemand c i).foldl max 0)

/-- R271: capture demand against its limits, in MB/s, over the combinations. -/
def State.captureRefusals (s : State) (e : BuildEnv) (out : Nat) : List Refusal408 :=
  let most (p : Nat → Bool) : Nat := (e.cs.map fun c =>
    upDiv ((((List.range 32).filter fun i => bitOf e.img.capin i && p i).map fun i => s.captureDemand c i * 1000).foldl (· + ·) 0)
      (2 ^ 20)).foldl max 0
  let lim := s.linkCapacity.2 - out
  ([0, 1, 2, 3].filterMap fun q =>
    let d := most fun i => i / 8 == q
    if 40000 < d then some (ref 0x0E 3 q d 40000) else none)
  ++ if lim < most (fun _ => true) then [ref 0x0E 10 0 (most fun _ => true) lim] else []

/-! ### Readout processors (R285) -/

def State.dspRefusals (s : State) (wins : List PWin) : List Refusal408 :=
  (wins.map fun w =>
    match s.winDsp w with
    | none => []
    | some k =>
      let inp := w.q * 8 + w.tone / 16
      let n := upDiv w.len (s.groupLen w.q w.ks)
      let ilen := s.rd Reg.DSP_IBUF.ILEN [k / 4, k % 4]
      let entry := s.rd Reg.DSP_CTL.ENTRY [k / 4, k % 4]
      let written := (s.dsp k).written.any fun r => decide (r.1 ≤ entry ∧ entry < r.1 + r.2)
      (if 2 ≤ s.routeOf w.q w.ks ∧ ilen < n then [ref 0x0B 8 inp n ilen] else [])
      ++ if written then [] else [ref 0x0B 8 inp (entry + 1 : Nat) 0]).flatten

/-! ### The decoder (R362 to R364, R375) -/

/-- Put the nodes that no pin places on the lowest tile with room. -/
def placeNodes : List (Nat × DecNode) → List (Nat × Nat) → List (Nat × Nat)
  | [], got => got
  | (n, d) :: rest, got =>
    if d.pin then placeNodes rest got
    else
      let room := (List.range 16).find? fun t => decide ((got.filter fun g => g.2 == t).length < 1024)
      placeNodes rest (got ++ [(n, room.getD 15)])

/-- R363, R389: the tile of each node. -/
def graphTiles (g : DecGraph) : List Nat :=
  let ns := g.nodes.zipIdx.map fun e => (e.2, e.1)
  let pinned := ns.filterMap fun e => if e.2.pin = true then some (e.1, e.2.tile) else none
  let all := placeNodes ns pinned
  (List.range g.nodes.length).map fun n => ((all.find? fun x => x.1 == n).map (·.2)).getD 0

/-- The window ends of LOCAL node TARGET t on a combination, ascending. -/
def targetEnds (wins : List PWin) (t : Nat) : List Nat :=
  (sortArrivals ((wins.filter fun w => w.syn && w.tgt == t).map fun w => (w.endTick, ()))).map (·.1)

/-- The least step between successive values. -/
def leastStep : List Nat → Nat
  | a :: b :: t => min (b - a) (leastStep (b :: t))
  | _ => 2 ^ 32

/-- R364: the rules of the syndrome windows of one combination. -/
def State.syndromeRefusals (s : State) (g : DecGraph) (wins : List PWin) : List Refusal408 :=
  let locals := g.nodes.zipIdx.filter fun e => e.1.typ == 0
  let stray := (wins.filter fun w => w.syn && !locals.any fun e => e.1.ref == w.tgt).map fun w => ref 0x0D 5 w.tgt 1 0
  let counts := (locals.map fun e =>
    let ends := targetEnds wins e.1.ref
    (if ends.length = g.rounds then [] else [ref 0x0D 5 e.2 g.rounds ends.length])
    ++ if leastStep ends < 1000 then [ref 0x0D 5 e.2 1000 (leastStep ends)] else []).flatten
  let rounds := (List.range g.rounds).map fun r => (locals.map fun e => (targetEnds wins e.1.ref).getD r 0).foldl max 0
  let wait := s.rd Reg.DEC_WAIT.ROUND_WAIT []
  stray ++ counts ++ if leastStep rounds < wait then [ref 0x0D 10 0 wait (leastStep rounds)] else []

/-- R362, R375, R393: the nodes of each tile, peers within two hops, and REMOTE_WAIT against the latest frame's
proved arrival. -/
def State.graphRefusals (s : State) (e : BuildEnv) (g : DecGraph) : List Refusal408 :=
  let tiles := graphTiles g
  let wait := s.rd Reg.DEC_WAIT.REMOTE_WAIT []
  ((List.range 16).filterMap fun t =>
    let n := (tiles.filter (· == t)).length
    if 1024 < n then some (ref 0x0D 5 t n 1024) else none)
  ++ (g.peers.map fun d =>
    match s.routeTo e.b e.img d with
    | none => []
    | some r =>
      let need := upDiv (fig e.f 300 + s.routeUnits e.f r + e.guard * tu) tu
      (if 2 < r.length then [ref 0x0D 6 d r.length 2] else [])
      ++ if wait < need then [ref 0x0D 6 d need wait] else []).flatten

def State.decoderRefusals (s : State) (e : BuildEnv) (cs : List Combo) : List Refusal408 :=
  if e.syndromes = false then []
  else match s.jobGraph e with
    | none => [ref 0x0D 10 0 1 0]
    | some g => s.graphRefusals e g ++ (cs.map fun c => s.syndromeRefusals g (c.map fun p => p.2.wins).flatten).flatten

/-! ### Ports (R395, R398) -/

/-- R395: the most qubits that a port of a KIND serves. -/
def tonesLimit (k : Nat) : Nat := [4, 16, 16, 1, 1].getD k 1024

/-- The ports that stitches name, as KIND and unit. -/
def BuildEnv.ports (e : BuildEnv) : List (Nat × Nat) := (e.paths.map fun p => p.2.ports).flatten.eraseDups

def BuildEnv.wiringRefusals (e : BuildEnv) : List Refusal408 :=
  let wired (p : Nat × Nat) : List Nat := ((e.img.wiring.filter fun w => w.2.1 == p.1 && w.2.2 == p.2).map (·.1)).eraseDups
  let at_ (p : Nat × Nat) : Nat := p.1 * 256 + p.2
  let ins := ((List.range 32).filter (bitOf e.img.capin)).map fun i => (2, i)
  (((e.ports ++ ins).eraseDups.filter fun p => wired p == []).map fun p => ref 0x0F 11 (at_ p) (at_ p) 0)
  ++ ((e.ports.filter fun p => decide (p.1 = 0 ∨ p.1 = 1 ∨ p.1 = 3) && !e.b.on.contains (at_ p)).map fun p =>
      ref 0x0F 11 (at_ p) (at_ p) 1)
  ++ ((e.img.wiring.map (·.2)).eraseDups.filterMap fun p =>
      if tonesLimit p.1 < (wired p).length then some (ref 0x10 11 (at_ p) (wired p).length (tonesLimit p.1)) else none)

/-- R398: RF and flux ports whose ENABLE is live at 1. -/
def State.enabledPorts (s : State) : List Nat :=
  ((List.range 4).map fun q => (List.range 40).filterMap fun c =>
    if s.flag Reg.CH_CTL.ENABLE [q, c] then some ((portOf q c).1 * 256 + (portOf q c).2) else none).flatten
  ++ ((List.range 64).filter fun k => s.flag Reg.FF_CTL.ENABLE [k]).map fun k => 3 * 256 + k

/-! ### Several devices (R399, R400, R526) -/

/-- R391: the destinations of the job's decisions: sets with REMOTE_EN that its units use. -/
def State.decisionDests (s : State) (fs : List PFire) : List (Nat × Nat) :=
  fs.filterMap fun x => if s.flag Reg.DS_CTL.REMOTE_EN [x.dst] then some (x.dst, s.rd Reg.DS_CTL.REMOTE_DEV [x.dst]) else none

/-- R408: the devices that the job needs a route to, with use bits: decisions, boundary frames, barriers. -/
def State.destinations (s : State) (e : BuildEnv) (fs : List PFire) : List (Nat × Nat) :=
  let dec := (s.decisionDests fs).map (·.2)
  let peers := match s.jobGraph e with
    | some g => g.peers
    | none => []
  let bars := (e.img.xbars.map (·.2)).filter (· ≠ s.deviceId)
  ((dec ++ peers ++ bars).eraseDups).map fun d =>
    (d, (if dec.contains d then 1 else 0) + (if peers.contains d then 2 else 0) + (if bars.contains d then 4 else 0))

/-- R399: a destination with no route, and the pins that a build cannot keep. -/
def State.routeRefusals (s : State) (e : BuildEnv) (dests : List (Nat × Nat)) : List Refusal408 :=
  (dests.map fun d =>
    match s.hopsTo e.b d.1 with
    | none => [ref 0x15 10 d.1 0 0]
    | some r => (e.img.routePins d.1).filterMap fun l =>
        if (s.lnk l).up && ((s.routeTo e.b e.img d.1).bind List.head?) == some l then none else some (ref 0x15 7 l r.length 0)).flatten

/-- R526: a link's urgent capacity in MB/s. -/
def State.laceCapacity (s : State) (l : Nat) : Nat :=
  let d := ((s.lnk l).beat.delta).toNat
  if d = 0 then 3875 else min 3875 (2048 * 1000 * 65536 / (2 * d))

/-- R328, R524, R532: bytes that the urgent frames of one shot put on a link: a frame has two blocks more
than its data, and each plane sends its own copy of a decision and of a boundary frame. -/
def State.laceBytes (s : State) (e : BuildEnv) (fs : List PFire) (uses l : Nat) : Nat :=
  let ovf (dev : Nat) : Bool := ((s.routeTo e.b e.img dev).bind List.head?) == some l
  let dec := ((s.decisionDests fs).filter fun x => ovf x.2).map fun x =>
    2 * 40 + (if s.rd Reg.DS_CTL.ACTION [x.1] = 1 then 48 else 0)
  let bound := match s.jobGraph e with
    | some g => ((g.peers.filter ovf).map fun _ => 2 * 96 * g.rounds)
    | none => []
  let bars := (e.img.xbars.filter fun x => x.2 != s.deviceId && ovf x.2).map fun _ => 40 * uses
  (dec ++ bound ++ bars).foldl (· + ·) 0

/-- LACE_BW over the combinations. -/
def State.laceRefusals (s : State) (e : BuildEnv) (cs : List Combo) : List Refusal408 :=
  (List.range 8).filterMap fun l =>
    let need := (cs.map fun c =>
      let uses := (c.map fun p => p.2.syncs.length).foldl max 0
      upDiv (s.laceBytes e (s.comboFires e c).1 uses l * 1000) ((c.map fun p => p.2.fin).foldl max 0 + 1000)).foldl max 0
    if s.laceCapacity l < need then some (ref 0x14 7 l need (s.laceCapacity l)) else none

/-- R374, R400: the edges shared with peer p of a graph. -/
def sharedEdges (g : DecGraph) (p : Nat) : List DecEdge := g.edges.filter fun x => (edgePeers g x).contains p

/-- R400: the CRC of the edges shared with a peer. -/
def sharedCrc (g : DecGraph) (p : Nat) : Nat :=
  (Config.edgeCrc ((sharedEdges g p).map fun x => (x.a, x.b, x.weight, if x.dr then 1 else 0, x.obs.toNat))).toNat

/-- R387: this device's pin of a peer's region: 0 none, 1 this device owns it, 2 the peer does. -/
def PlaceInput.regionPin (i : PlaceInput) (dev : Nat) : Nat :=
  match i.pins.find? fun p => p.kind == 1 && p.arg1 % 2 ^ 18 == dev with
  | some p => if bitOf p.arg0 0 then 1 else 2
  | none => 0

/-- R358: the LOCAL nodes of a graph. -/
def localNodes (g : DecGraph) : Nat := (g.nodes.filter fun n => n.typ == 0).length

/-- R400: the region shared with peer index p: its entry (peer, owned here, pinned, edges), or a refusal. A peer
with which the graph shares no edge has no region to decide (R743). A summary that comes after its wait ended does
not count. A summary's pin is as its sender sees it: 1 the sender owns the region, 2 this device does. -/
def State.region (s : State) (e : BuildEnv) (g : DecGraph) (p : Nat) : Option (Nat × Bool × Bool × Nat) × List Refusal408 :=
  let dev := g.peers.getD p 0
  match s.place.summaries.find? fun x => x.1 == dev && !e.b.peerFail.contains dev with
  | none => (none, [ref 0x17 6 p 0 dev])
  | some (_, _, nodes, crc, pin) =>
    let shared := sharedEdges g p != []
    let own := if shared then e.img.regionPin dev else 0
    let theirs := if pin = 1 then 2 else if pin = 2 then 1 else 0
    if crc ≠ sharedCrc g p then (none, [ref 0x17 6 p 1 dev])
    else if shared = false then (none, [])
    else if own ≠ 0 ∧ theirs ≠ 0 ∧ own ≠ theirs then (none, [ref 0x16 6 p own theirs])
    else
      let decided := if own ≠ 0 then own else theirs
      let mine := if decided ≠ 0 then decided == 1
        else decide (localNodes g < nodes ∨ (localNodes g = nodes ∧ s.deviceId < dev))
      (some (dev, mine, decided != 0, (sharedEdges g p).length), [])

/-! ### An incremental build (R402) -/

/-- A sequencer takes part in a barrier with one of `l`, or a decision that windows of one of `l` feed reaches it. -/
def State.reached (s : State) (e : BuildEnv) (fs : List PFire) (l : List Nat) (k : Nat) : Bool :=
  l.contains k
  || (e.parts.any fun b => b.2.contains k && b.2.any l.contains)
  || fs.any fun x => (x.wins.any fun w => l.contains w.seq) && (s.receivers x.dst).contains (none, k)

/-- R402: the sequencers whose items an incremental build re-proves. DEDUCED (log 62): those whose program entry or
memory differs from the present content, those that took part in a barrier with a program that is gone, and those
that either reaches through a barrier or a decision. Where a program is gone, every one with it if the job has
tokens, for some of them may have been its. -/
def State.touchedSeqs (s : State) (e : BuildEnv) (fs : List PFire) (m : LastMap) : List Nat :=
  let gone := (m.progs.filter fun x => !(e.img.progs.any fun y => y.1 == x.1)).map (·.1)
  let start := (e.img.progs.filter fun x =>
    !m.progs.contains x || m.dirty.contains x.1
    || m.bars.any fun b => b.2.contains x.1 && b.2.any gone.contains).map (·.1)
  let seqs := e.img.progs.map (·.1)
  if gone != [] && e.wins.any (fun w => w.tok) then seqs
  else (List.range 64).foldl (fun l _ => seqs.filter (s.reached e fs l)) start

/-- The pins of an image as a last keeps them. -/
def PlaceInput.pinList (i : PlaceInput) : List (Nat × Nat × Nat) := i.pins.map fun p => (p.kind, p.arg0, p.arg1)

/-- R402: the streams whose demand and pins the present content of a last already has, and whose buffers are free. -/
def State.keptStreams (s : State) (e : BuildEnv) (m : LastMap) (streams : List (Nat × Nat × Nat)) : List (Nat × Nat × Nat × Nat) :=
  let pinned (l : List (Nat × Nat × Nat)) (n : Nat) : List (Nat × Nat × Nat) := l.filter fun p => p.1 == 0 && p.2.1 == n
  m.streams.filter fun b =>
    let n := b.1 * 16 + b.2.1
    (streams.any fun x => x.1 == n && m.demand.contains x)
    && pinned m.pins n == pinned e.img.pinList n && freeRun (s.usedRuns b.1) b.2.2.2 b.2.2.1

/-- R402: an item that an incremental build re-proves, by the kinds of R408: one of a sequencer, barrier, quarter or
input that a touched sequencer has to do with, one of a stream that differs, or one of the whole device when
anything differs. -/
def BuildEnv.touches (e : BuildEnv) (seqs kept : List Nat) (differ : Bool) (r : Refusal408) : Bool :=
  match r.item with
  | 0 => seqs.contains r.idx || (r.code == 6 && seqs.any fun k => (k : Int) == r.have_)
  | 1 => seqs.contains r.idx
  | 2 => e.parts.any fun b => b.1 == r.idx && b.2.any seqs.contains
  | 3 => if r.code = 4 then seqs.any fun k => k / 16 == r.idx else differ
  | 4 => !kept.contains r.idx
  | 8 => e.wins.any fun w => w.q * 8 + w.tone / 16 == r.idx && seqs.contains w.seq
  | _ => differ

/-! ### The proof set (R401) -/

/-- A field of a register, as one number. -/
def fieldKey (f : Fld) (idx : List Nat) : Nat := regAddr f.reg idx * 1024 + f.hi * 32 + f.lo

/-- R401: the committed fields that the proofs used. -/
def State.proofSet (s : State) (e : BuildEnv) (fs : List PFire) (streams : Bool) : List Nat :=
  let seqs := e.ws.map fun w => fieldKey Reg.SEQ_CFG.REANCHOR_MAX [w.1 / 16, w.1 % 16]
  let wins := (e.wins.map fun w =>
    let k := w.ks / 256
    let u := w.ks % 256
    [fieldKey Reg.KS_CFG.KERNEL [w.q, w.ks], fieldKey Reg.KS_CFG.DEC [w.q, w.ks],
     regAddr .DSP_ROUTE [w.q, k, u / 16] * 1024 + (u % 16 * 2 + 1) * 32 + u % 16 * 2]
    ++ (if (s.winDsp w).isSome then [fieldKey Reg.DSP_BOUND.BOUND [w.q, k], fieldKey Reg.DSP_IBUF.ILEN [w.q, k],
          fieldKey Reg.DSP_CTL.ENTRY [w.q, k]] else [])
    ++ (if w.tok && !w.syn then
          [fieldKey Reg.DP_RT0.MODE [w.tgt], fieldKey Reg.DP_RT0.UNIT [w.tgt], fieldKey Reg.DP_RT0.SLOT [w.tgt],
           fieldKey Reg.DP_RT0.DSTSET [w.tgt], fieldKey Reg.DP_RT1.OUT_TGT [w.tgt]] else [])).flatten
  let masks := (e.wins.filter fun w => w.tok && !w.syn).map fun w =>
    let u := s.rd Reg.DP_RT0.UNIT [w.tgt]
    match s.rd Reg.DP_RT0.MODE [w.tgt] with
    | 2 => [fieldKey Reg.LUT_CFG.IN_MASK [u]]
    | 3 => [fieldKey Reg.PM_CFG.IN_MASK [u]]
    | _ => []
  let ctxs := if s.rd Reg.TIME_HZN.PERIOD [] = 0 then [] else
    (List.range 1024).flatMap fun c => [fieldKey Reg.CTX_CFG.ENABLE [c], fieldKey Reg.CTX_SIZE.EVT [c]]
  let units := (fs.map fun x => match x.unit with
    | [1, u] => [fieldKey Reg.LUT_CFG.IN_MASK [u], fieldKey Reg.LUT_CFG.OUT_TGT [u], fieldKey Reg.LUT_CFG.DSTSET [u]]
    | [2, u] => [fieldKey Reg.PM_CFG.IN_MASK [u], fieldKey Reg.PM_CFG.OUT_TGT [u], fieldKey Reg.PM_CFG2.DSTSET [u]]
    | [3] => [fieldKey Reg.DEC_OUT.OUT_TGT [], fieldKey Reg.DEC_OUT.DSTSET []]
    | _ => []).flatten
  let sets := (fs.map fun x =>
    [fieldKey Reg.DS_MASK_LO.MASK [x.dst], fieldKey Reg.DS_MASK_HI.MASK [x.dst], fieldKey Reg.DS_CTL.LOCAL [x.dst],
     fieldKey Reg.DS_CTL.REC [x.dst], fieldKey Reg.DS_CTL.REMOTE_EN [x.dst], fieldKey Reg.DS_CTL.REMOTE_DEV [x.dst],
     fieldKey Reg.DS_CTL.ACTION [x.dst]]).flatten
  let dec := if e.syndromes then [fieldKey Reg.DEC_CFG.EN [], fieldKey Reg.DEC_CFG.REC [], fieldKey Reg.DEC_CFG.EDGE_REC [],
      fieldKey Reg.DEC_WAIT.REMOTE_WAIT [], fieldKey Reg.DEC_WAIT.ROUND_WAIT []] else []
  let outs := e.ports.filterMap fun p =>
    if p.1 = 0 then some (fieldKey Reg.CH_CTL.ENABLE [p.2 / 32, p.2 % 32])
    else if p.1 = 1 then some (fieldKey Reg.CH_CTL.ENABLE [p.2 / 8, 32 + p.2 % 8])
    else if p.1 = 3 then some (fieldKey Reg.FF_CTL.ENABLE [p.2]) else none
  let awl := ((List.range 32).map fun i => [fieldKey Reg.AWL_IN_CFG.EN [i], fieldKey Reg.AWL_IN_CFG.MODE [i],
    fieldKey Reg.AWL_IN_CFG.HOLDOFF [i], fieldKey Reg.AWL_IN_TIME.GATE [i]]).flatten
  let caps := (((List.range 32).filter (bitOf e.img.capin)).map fun i =>
    [fieldKey Reg.CAP_CFG.GATE [i / 8, i % 8], fieldKey Reg.CAP_CFG.D [i / 8, i % 8], fieldKey Reg.CAP_CFG.TAP [i / 8, i % 8],
     fieldKey Reg.CAP_CFG.MASK [i / 8, i % 8]]).flatten
  (fieldKey Reg.PLC_CFG.GUARD [] :: (if streams then [fieldKey Reg.PLC_CFG.HOST_LAT []] else [])
    ++ seqs ++ wins ++ masks.flatten ++ ctxs ++ units ++ sets ++ dec ++ outs ++ awl ++ caps).eraseDups

end Sys2Proof.Machine
end

