-- ==== Sys2Proof/Machine/Commit.lean ====
section
/-! DEFINITION. A commit: the copy, the range checks of two-register fields, the cross-field rules,
what the committed values change, and the commit record (chapter 12). -/

namespace Sys2Proof.Machine

/-! ### Fields in both copies -/

/-- R464: write a field into the live copy and the shadow. -/
def State.putField (s : State) (f : Fld) (idx : List Nat) (v : Nat) : State :=
  let w (x : Word) : Word := BitVec.ofNat 32 (setBits x.toNat f.hi f.lo v)
  (s.setLive f.reg idx (w (s.word f.reg idx))).setShadow f.reg idx (w (s.shadowWord f.reg idx))

/-- A field in two registers: the part in the lower register, which starts at bit `sh` of the value,
and the part in the higher one, which starts at bit 32. -/
structure Pair where
  lo : Fld
  hi : Fld
  sh : Nat
deriving DecidableEq, Repr

def State.rdPair (s : State) (p : Pair) (idx : List Nat) : Nat := s.rd p.lo idx * 2 ^ p.sh + s.rd p.hi idx * 2 ^ 32

def State.putPair (s : State) (p : Pair) (idx : List Nat) (v : Nat) : State :=
  (s.putField p.lo idx (v / 2 ^ p.sh)).putField p.hi idx (v / 2 ^ 32)

/-- R125. -/
def genFreq : Pair := ⟨Reg.GEN_FREQ_LO.FREQ_LO, Reg.GEN_FREQ_HI.FREQ_HI, 0⟩
/-- R276. -/
def ddcFreq : Pair := ⟨Reg.DDC_FREQ_LO.FREQ_LO, Reg.DDC_FREQ_HI.FREQ_HI, 0⟩

/-- R473: the base pairs of a context: five rings in the order of CTX_STAT, and the status block. -/
def basePairs : List Pair :=
  [⟨Reg.SUB_BASE_LO.ADDR_LO, Reg.SUB_BASE_HI.ADDR_HI, 12⟩, ⟨Reg.CPL_BASE_LO.ADDR_LO, Reg.CPL_BASE_HI.ADDR_HI, 12⟩,
   ⟨Reg.RES_BASE_LO.ADDR_LO, Reg.RES_BASE_HI.ADDR_HI, 12⟩, ⟨Reg.EVT_BASE_LO.ADDR_LO, Reg.EVT_BASE_HI.ADDR_HI, 12⟩,
   ⟨Reg.CAP_BASE_LO.ADDR_LO, Reg.CAP_BASE_HI.ADDR_HI, 12⟩, ⟨Reg.STS_BASE_LO.ADDR_LO, Reg.STS_BASE_HI.ADDR_HI, 12⟩]

/-! ### The cross-field rules (R463, R464) -/

/-- R464: note a cross-field clamp: the later field, the earlier field, written and used. -/
def State.noteX (s : State) (f : Fld) (idx : List Nat) (e : Fld) (eidx : List Nat) (written used : Nat) : State :=
  { s with cfg.xlog := s.cfg.xlog ++ [(BitVec.ofNat 32 (fieldId 1 f idx), BitVec.ofNat 32 (fieldId 0 e eidx),
      BitVec.ofNat 64 written, BitVec.ofNat 64 used)] }

/-- R464: a rule gives the later field `f` the value `v` to agree with the earlier field `e`. -/
def State.xfix (s : State) (f : Fld) (idx : List Nat) (e : Fld) (eidx : List Nat) (v : Nat) : State :=
  if s.rd f idx = v then s else (s.putField f idx v).noteX f idx e eidx (s.rd f idx) v

/-- R464, R461: the same for a field in two registers, named by the lower one. -/
def State.xfixPair (s : State) (p : Pair) (idx : List Nat) (e : Fld) (eidx : List Nat) (v : Nat) : State :=
  if s.rdPair p idx = v then s else (s.putPair p idx v).noteX p.lo idx e eidx (s.rdPair p idx) v

/-- R459, R113, R246: the range check of a field in two registers, once at commit (ORIGIN 0). -/
def State.pairRange (s : State) (p : Pair) (lo hi : Nat) (idx : List Nat) : State :=
  let v := s.rdPair p idx
  let u := clampNat lo hi v
  if v = u then s else (s.putPair p idx u).logClamp s.home (fieldId 0 p.lo idx) 0 v u s.coarseStamp true

/-- Apply a rule for 0 to n − 1 in turn. -/
def State.each (s : State) (n : Nat) (f : State → Nat → State) : State := (List.range n).foldl f s

/-- R473: the sizes of context c stay as they are in the state before the copy. -/
def State.keepSizes (o s : State) (c : Nat) : State :=
  [Reg.CTX_SIZE.CAP, Reg.CTX_SIZE.EVT, Reg.CTX_SIZE.RES, Reg.CTX_SIZE.CPL, Reg.CTX_SIZE.SUB].foldl
    (fun s f => s.xfix f [c] Reg.CTX_STAT.PAUSED [c] (o.rd f [c])) s

/-- R473: and so does a base. -/
def State.keepBase (o : State) (c : Nat) (s : State) (p : Pair) : State :=
  s.xfixPair p [c] Reg.CTX_STAT.PAUSED [c] (o.rdPair p [c])

def State.keepBases (o s : State) (c : Nat) : State := basePairs.foldl (State.keepBase o c) s

/-- R473: an enabled context that is not paused keeps its rings; `o` is the state before the copy. -/
def State.keepRings (o s : State) (c : Nat) : State :=
  if o.flag Reg.CTX_CFG.ENABLE [c] && !o.paused c then
    (State.keepBases o (State.keepSizes o s c) c).xfix Reg.CTX_CFG.ENABLE [c] Reg.CTX_STAT.PAUSED [c] 1
  else s

/-- R473: the sizes that an enabled context needs. -/
def State.sizeRules (s : State) (c : Nat) : State :=
  let i := [c]
  let sub := s.rd Reg.CTX_SIZE.SUB i
  let cpl := s.rd Reg.CTX_SIZE.CPL i
  if sub = 0 then s.xfix Reg.CTX_CFG.ENABLE i Reg.CTX_SIZE.SUB i 0
  else if cpl = 0 then s.xfix Reg.CTX_CFG.ENABLE i Reg.CTX_SIZE.CPL i 0
  else if cpl < sub then s.xfix Reg.CTX_SIZE.CPL i Reg.CTX_SIZE.SUB i sub else s

/-- R473: the rules of context c; `o` is the state before the copy. -/
def State.ctxRules (o s : State) (c : Nat) : State := (State.keepRings o s c).sizeRules c

/-- R573: the rules of domain d. -/
def State.timeRules (s : State) (d : Nat) : State :=
  let mode := if d = 0 then Reg.TP_CFG.MODE_A else Reg.TP_CFG.MODE_B
  let dly := if d = 0 then Reg.TP_CFG.DLY_A else Reg.TP_CFG.DLY_B
  let s := if s.rd mode [0] = 1 ∧ s.rd mode [1] = 1 then s.xfix mode [1] mode [0] 0 else s
  let s := if s.rd mode [0] = 3 then s.xfix mode [1] mode [0] 3
    else if s.rd mode [1] = 3 then s.xfix mode [1] mode [0] 0 else s
  let s := [0, 1].foldl (fun s n => if s.rd mode [n] = 3 then s.xfix dly [n] mode [n] 0 else s) s
  if s.rd Reg.TM_CFG.SRC [] = 0 ∧ s.rd Reg.TM_PPS.MODE [] = 2 then s.xfix Reg.TM_PPS.MODE [] Reg.TM_CFG.SRC [] 1 else s

/-- R493: window w stays below 2^64. -/
def State.windowRule (s : State) (w : Nat) : State :=
  let base := s.baseOf .WIN_BASE_LO .WIN_BASE_HI w
  if 2 ^ 64 < base + s.rd Reg.WIN_SIZE.PAGES [w] * 4096 then
    s.xfix Reg.WIN_SIZE.PAGES [w] Reg.WIN_BASE_LO.ADDR_LO [w] ((2 ^ 64 - base) / 4096)
  else s

/-- R609: the rules of the monitor. -/
def State.monRules (s : State) : State :=
  let s := s.each 4 fun s n =>
    if 6 < s.rd Reg.MON_SET.ODR [n] then s.xfix Reg.MON_SET.NOTCH [n] Reg.MON_SET.ODR [n] 0 else s
  s.each 64 fun s n =>
    if 255 < s.rd Reg.MON_LIST.CH [n] then s.xfix Reg.MON_LIST.CHECK [n] Reg.MON_LIST.CH [n] 0 else s

/-- R591: the rule of awl input k. -/
def State.awlRule (s : State) (k : Nat) : State :=
  let stop := s.rd Reg.AWL_IN_CFG.STOP [k]
  if s.rd Reg.AWL_IN_CFG.MODE [k] = 1 ∧ s.flag Reg.AWL_IN_CFG.EN [stop] = false then
    s.xfix Reg.AWL_IN_CFG.MODE [k] Reg.AWL_IN_CFG.EN [stop] 0
  else s

/-- R438: the rule of a bias waveform. -/
def State.waveRule (s : State) (q w : Nat) : State :=
  let start := s.rd Reg.BW_A.START [q, w]
  if 262144 < start + s.rd Reg.BW_B.LENGTH [q, w] then
    s.xfix Reg.BW_B.LENGTH [q, w] Reg.BW_A.START [q, w] (262144 - start)
  else s

/-- R355: the rules of the decision planes. -/
def State.planeRules (s : State) : State :=
  let s := s.each 4096 fun s t =>
    if s.rd Reg.DP_RT0.MODE [t] = 2 ∧ 11 < s.rd Reg.DP_RT0.SLOT [t] then
      s.xfix Reg.DP_RT0.SLOT [t] Reg.DP_RT0.MODE [t] 11
    else s
  s.each 256 fun s d =>
    if s.rd Reg.DS_CTL.REMOTE_DEV [d] = s.deviceId then
      s.xfix Reg.DS_CTL.REMOTE_EN [d] Reg.DS_CTL.REMOTE_DEV [d] 0
    else s

/-- R114: a generator's frequency lies in the band of its channel's zone. -/
def State.genBand (q : Nat) (s : State) (n : Nat) : State :=
  let c := genChan n
  let b := rfBand (s.rd Reg.CH_CFG.ZONE [q, c])
  s.xfixPair genFreq [q, n] Reg.CH_CFG.ZONE [q, c] (clampNat b.1 b.2 (s.rdPair genFreq [q, n]))

/-- R114: a generator does not follow itself. -/
def State.genSelf (q : Nat) (s : State) (n : Nat) : State :=
  if s.rd Reg.GEN_CTL.FOLLOW_SRC [q, n] = n then
    s.xfix Reg.GEN_CTL.FOLLOW_EN [q, n] Reg.GEN_CTL.FOLLOW_SRC [q, n] 0
  else s

/-- R114: a generator does not follow one that follows another; `t` holds the FOLLOW_EN values that the
rule before left. -/
def State.genChain (t : State) (q : Nat) (s : State) (n : Nat) : State :=
  let src := s.rd Reg.GEN_CTL.FOLLOW_SRC [q, n]
  if t.flag Reg.GEN_CTL.FOLLOW_EN [q, src] then
    s.xfix Reg.GEN_CTL.FOLLOW_EN [q, n] Reg.GEN_CTL.FOLLOW_EN [q, src] 0
  else s

def State.genChains (s : State) (q : Nat) : State := s.each 256 (State.genChain s q)

/-- R114: the rules of a quarter's generators. -/
def State.genRules (s : State) (q : Nat) : State :=
  ((s.each 256 (State.genBand q)).each 256 (State.genSelf q)).genChains q

/-- R247: a tone's frequency lies in the band of its input's zone. -/
def State.toneBand (q : Nat) (s : State) (t : Nat) : State :=
  let i := t / 16
  let b := ddcBand (s.rd Reg.IN_CFG.ZONE [q, i])
  s.xfixPair ddcFreq [q, t] Reg.IN_CFG.ZONE [q, i] (clampNat b.1 b.2 (s.rdPair ddcFreq [q, t]))

/-- R277: the decimation of a capture of ADC samples. -/
def State.capDecim (q : Nat) (s : State) (i : Nat) : State :=
  if s.rd Reg.CAP_CFG.TAP [q, i] = 0 ∧ 3 < s.rd Reg.CAP_CFG.D [q, i] then
    s.xfix Reg.CAP_CFG.D [q, i] Reg.CAP_CFG.TAP [q, i] 3
  else s

/-- R277: the gate of a capture of no tone. -/
def State.capGate (q : Nat) (s : State) (i : Nat) : State :=
  if s.rd Reg.CAP_CFG.TAP [q, i] = 1 ∧ s.rd Reg.CAP_CFG.MASK [q, i] = 0 then
    s.xfix Reg.CAP_CFG.GATE [q, i] Reg.CAP_CFG.TAP [q, i] 0
  else s

/-- R247, R277: the rules of a quarter's inputs. -/
def State.inputRules (s : State) (q : Nat) : State :=
  ((s.each 128 (State.toneBand q)).each 8 (State.capDecim q)).each 8 (State.capGate q)

/-- R309: the rule of an input buffer. Where ILEN cannot shrink enough, IBASE moves. -/
def State.bufferRule (s : State) (q k : Nat) : State :=
  let b := s.rd Reg.DSP_IBUF.IBASE [q, k]
  if b + s.rd Reg.DSP_IBUF.ILEN [q, k] ≤ 16384 then s
  else
    let fix (n : Nat) := s.xfix Reg.DSP_IBUF.ILEN [q, k] Reg.DSP_IBUF.IBASE [q, k] n
    if 64 ≤ 16384 - b then fix (16384 - b)
    else (fix 64).xfix Reg.DSP_IBUF.IBASE [q, k] Reg.DSP_IBUF.ILEN [q, k] 16320

/-- The range checks and the rules of a quarter. -/
def State.quarterRules (s : State) (q : Nat) : State :=
  (((s.genRules q).inputRules q).each 4) fun s k => s.bufferRule q k

/-- R459, R113, R246: the frequencies of a quarter's generators and tones. -/
def State.genRange (q : Nat) (s : State) (n : Nat) : State :=
  s.pairRange genFreq 0x080000000000 0xF00000000000 [q, n]

def State.toneRange (q : Nat) (s : State) (t : Nat) : State :=
  s.pairRange ddcFreq 0x033333333333 0x7CCCCCCCCCCC [q, t]

def State.quarterRanges (s : State) (q : Nat) : State := (s.each 256 (State.genRange q)).each 128 (State.toneRange q)

/-- R459: the fields in two registers. -/
def State.pairRanges (s : State) : State := s.each 4 State.quarterRanges

/-- R463: every cross-field rule, in the order of the blocks. -/
def State.crossRules (o s : State) : State :=
  let s := s.each 1024 fun s c => State.ctxRules o s c
  let s := s.each 2 State.timeRules
  let s := s.each 256 State.windowRule
  let s := s.monRules
  let s := s.each 32 State.awlRule
  let s := s.each 4 fun s q => s.each 256 fun s w => s.waveRule q w
  let s := s.planeRules
  s.each 4 State.quarterRules

/-! ### What the committed values change -/

/-- The word a table holds at an address, if it lists one. -/
def rawAt (t : Table Word) (a : Nat) : Option Word := (t.find? fun e => e.1 == a).map (·.2)

/-- The addresses of the live registers that a commit has changed. -/
def changedRegs (old new : Table Word) : List Nat :=
  ((old.map (·.1) ++ new.map (·.1)).filter fun a => rawAt old a != rawAt new a).eraseDups

/-- The live value of a field of a proof set (R401). -/
def State.keyValue (s : State) (k : Nat) : Nat :=
  match regFind (k / 1024) with
  | some (r, i) => bitsOf (s.word r i).toNat (k % 1024 / 32) (k % 32)
  | none => 0

/-- R474: the base or the size of a ring has changed. -/
def State.ringMoved (o s : State) (c : Nat) (f : Fld) (p : Pair) : Bool :=
  o.rd f [c] != s.rd f [c] || o.rdPair p [c] != s.rdPair p [c]

/-- R474: a ring whose base or size has changed starts again at index 0. -/
def State.resetRing (o s : State) (c : Nat) (f : Fld) (p : Pair) (put : Ctx → Ctx) : State :=
  if State.ringMoved o s c f p then s.updCtx c put else s

/-- The size fields of a context's rings, in the order of `basePairs`. -/
def sizeFields : List Fld :=
  [Reg.CTX_SIZE.SUB, Reg.CTX_SIZE.CPL, Reg.CTX_SIZE.RES, Reg.CTX_SIZE.EVT, Reg.CTX_SIZE.CAP]

/-- R474, R478: the status block of an enabled context of which a ring has started again at index 0. -/
def State.movedStatus (o s : State) (c : Nat) : State :=
  if s.flag Reg.CTX_CFG.ENABLE [c] && (sizeFields.zip basePairs).any fun e => State.ringMoved o s c e.1 e.2 then
    s.writeStatus c
  else s

/-- R474, R478: the rings of a context, and its lost counts, which start when it is enabled. -/
def State.ctxChanged (o s : State) (c : Nat) : State :=
  let f (k : Nat) (g : Fld) (put : Ctx → Ctx) (s : State) : State :=
    State.resetRing o s c g (basePairs.getD k genFreq) put
  let s := f 0 Reg.CTX_SIZE.SUB (fun x => { x with subHead := 0, subTail := 0 }) s
  let s := f 1 Reg.CTX_SIZE.CPL (fun x => { x with cplHead := 0, cplTail := 0 }) s
  let s := f 2 Reg.CTX_SIZE.RES (fun x => { x with resHead := 0, resTail := 0 }) s
  let s := f 3 Reg.CTX_SIZE.EVT (fun x => { x with evtHead := 0, evtTail := 0 }) s
  let s := f 4 Reg.CTX_SIZE.CAP (fun x => { x with capHead := 0, capTail := 0 }) s
  let s := if !o.flag Reg.CTX_CFG.ENABLE [c] && s.flag Reg.CTX_CFG.ENABLE [c] then
      s.updCtx c fun x => { x with resLost := 0, evtLost := 0 }
    else s
  State.movedStatus o s c

/-- R119, R123, R418: a channel's ENABLE has changed. -/
def State.enableChanged (o s : State) (k : Nat) : State :=
  if o.enabled k = s.enabled k then s
  else if s.enabled k then
    if (s.chan k).lock = 2 then (s.updChan k fun c => { c with lock := 0, ocAt := [] }).faultClear 1 k else s
  else
    let s := if (s.chan k).st = 1 ∨ (s.chan k).switching = true then s.terminate k else s
    s.updChan k fun c => { c with lock := if c.lock = 1 then 2 else c.lock }

/-- The quarter and kernel set of a register address, if it is a register of a kernel set (R275). -/
def kernelSetOf (a : Nat) : Option (Nat × Nat) :=
  let q := (a - 0x200000) / 0x400000
  let o := (a - 0x200000) % 0x400000
  if 0x200000 ≤ a ∧ q < 4 ∧ 0x30000 ≤ o ∧ o < 0x40000 then some (q, (o - 0x30000) / 0x40) else none

/-- R547: a commit of the identifier: it becomes valid; a change takes every link down. -/
def State.idChanged (o s : State) : State :=
  let s := if s.lace.idWritten then { s with lace.idValid := true, lace.idWritten := false } else s
  if o.deviceId = s.deviceId ∧ o.lace.idValid = s.lace.idValid then s
  else s.each 8 fun s l =>
    let s := if o.deviceId = s.deviceId ∨ (s.lnk l).st = 0 then s else s.linkDown l 1 12
    if s.mayTrain l then s.startAttempt l 1 else s

/-- R547: link enables. A link that is enabled starts attempt 1. -/
def State.linkEnable (o s : State) (l : Nat) : State :=
  match o.flag Reg.LC_CFG.EN [l], s.flag Reg.LC_CFG.EN [l] with
  | true, false => s.linkDown l 0 13
  | false, true =>
    let s := s.updLink l fun x => { x with st := if x.st = 0 then 1 else x.st }
    if s.mayTrain l && (s.lnk l).st != 2 then s.startAttempt l 1 else s
  | _, _ => s

/-- R561, R564: network time. -/
def State.timeChanged (o s : State) : State :=
  let s := if o.rd Reg.TM_CFG.SRC [] = s.rd Reg.TM_CFG.SRC [] then s else { s with net.switchReq := true }
  if o.rd Reg.TM_PPS.MODE [] = s.rd Reg.TM_PPS.MODE [] then s
  else { s with net.ppsLast := s.time.now, net.ppsMiss := false, net.ppsPhase := false }

/-- R601: whether the commit changed MON_CFG, MON_SCAN, a set or the scan list. -/
def monScanReg (a : Nat) : Bool :=
  decide (a = 0x150000 ∨ a = 0x150004 ∨ (0x150020 ≤ a ∧ a < 0x150030) ∨ (0x150100 ≤ a ∧ a < 0x150200))

/-- R588: whether an address is a set-up register of awl input k. -/
def awlReg (k a : Nat) : Bool :=
  decide (a = 0x160100 + k * 16 ∨ a = 0x160104 + k * 16 ∨ a = 0x160108 + k * 16)

/-- What changed live values do at once. -/
def State.committed (o s : State) : State :=
  let ch := changedRegs o.regs.live s.regs.live
  let s := s.each 1024 fun s c => State.ctxChanged o s c
  let s := s.staleWhere 1 fun m => m.proofRegs.any fun k => o.keyValue k != s.keyValue k
  let s := (ch.filterMap kernelSetOf).eraseDups.foldl (fun s e => s.resetTrack e.1 e.2) s
  let s := s.each 224 fun s k => State.enableChanged o s k
  let s := s.each 256 fun s k => State.rangeChanged o (State.rampChanged o s k) k
  let s := State.idChanged o s
  let s := s.each 8 fun s l => State.linkEnable o s l
  let s := State.timeChanged o s
  let s := s.each 32 fun s k => if ch.any (awlReg k) then s.awlRestart k else s
  if ch.any monScanReg then s.monRestart else s

/-! ### The boundary work of a commit (R453, R454, R457) -/

/-- R454: the copy, the checks and the rules, at the start of the boundary work. -/
def State.commitStart (s : State) : State :=
  let o := s
  let s := { s with regs.live := s.regs.shadow, cfg.xlog := [], cfg.again := false }
  State.committed o (State.crossRules o s.pairRanges)

/-- R454: held writes go to the shadow. -/
def State.heldToShadow (s : State) : State :=
  let s := s.cfg.heldWrites.foldl (fun s e =>
    match regFind e.1 with
    | some (r, i) => s.setShadow r i e.2
    | none => s) s
  { s with cfg.heldWrites := [] }

/-- R457, R464: the values are live: the cross-field clamps are logged, CSEQ counts and the commit
record is posted; `at_` is 0 shot, 1 job, 2 idle. -/
def State.commitEnd (s : State) (at_ : Nat) : State :=
  let n := min 0xFFFF s.cfg.xlog.length
  let s := s.cfg.xlog.foldl (fun s e =>
    s.logClamp s.home e.1.toNat e.2.1.toNat e.2.2.1.toNat e.2.2.2.toNat s.nowStamp false) s
  let s := { s with
    cfg.cseq := s.cfg.cseq + 1, cfg.xclamp := n, cfg.pending := s.cfg.again, cfg.again := false, cfg.xlog := [] }
  let s := s.post s.home .event 977 0x4D 0 s.nowStamp [(0x14, 4, s.cfg.cseq.toNat), (0x18, 1, at_), (0x1A, 2, n)]
  s.heldToShadow

/-- R736: the records of boot are posted when the home context first has a live event ring. -/
def State.postBoot (s : State) : State :=
  if s.sys.bootRecs = [] ∨ s.ringSize s.home Reg.CTX_SIZE.EVT = 0 then s
  else { s with
    recs.held := s.sys.bootRecs.map (fun h => { h with ctx := s.home }) ++ s.recs.held, sys.bootRecs := [] }

end Sys2Proof.Machine
end

