-- ==== Sys2Proof/Machine/Descriptors.lean ====
section
/-! DEFINITION. The descriptors: their checks (R12, R482, R483, R485), loads (R21, R740), binds,
queries, bias steps, and the RUN and CAPTURE descriptors up to the moment they are ready (chapter 13).
PLACE stands in Placement.lean. -/

namespace Sys2Proof.Machine

/-! ### Fields of a submission entry (R482, R483) -/

def Desc.at_ (d : Desc) (off n : Nat) : Nat := fieldAt d.bytes off n

/-- R482, R483: the bytes of an entry, by opcode, that the spec gives no field: first byte and count. -/
def reservedBytes (d : Desc) : List (Nat × Nat) :=
  match d.op with
  | 1 => [(0x16, 2), (0x1C, 36)]
  | 2 => [(0x15, 1), (0x28, 24)]
  | 3 => [(0x14, 44)]
  | 4 => [(0x14, 4), (0x24, 28)]
  | 5 => [(0x1E, 34)]
  | 6 => [(0x1E, 2), (0x24, 28)]
  | 7 => [(0x0C, 52)]
  | 8 => if d.at_ 8 1 = 0 then [(0x09, 1), (0x0C, 4), (0x18, 40)] else [(0x09, 1), (0x0D, 3), (0x1C, 36)]
  | 9 => [(0x1B, 37)]
  | 10 => [(0x16, 2), (0x1C, 36)]
  | _ => [(0x08, 56)]

/-- R483: the offsets of the host addresses and strides, whose bits 5:0 are reserved. -/
def addressFields (op : Nat) : List Nat :=
  match op with
  | 1 | 2 | 3 | 10 => [0x08]
  | 4 => [0x08, 0x18]
  | 8 => [0x10]
  | 9 => [0x08, 0x10]
  | _ => []

/-- A fault of an entry: whether it holds, its byte offset, and its cause (R499). -/
abbrev EntryFault := Bool × Nat × Nat

/-- R12, R482, R483: reserved bits that are set. -/
def reservedFaults (d : Desc) : List EntryFault :=
  let runs := (2, 2) :: reservedBytes d
  [(decide (2 ≤ d.at_ 1 1), 1, 2)]
  ++ (runs.map fun r => (List.range r.2).map fun i => (decide (d.at_ (r.1 + i) 1 ≠ 0), r.1 + i, 2)).flatten
  ++ ((addressFields d.op).map fun o => (decide (d.at_ o 1 % 64 ≠ 0), o, 2))
  ++ (if d.op = 5 ∨ d.op = 6 then [(decide (4 ≤ d.at_ 0x1D 1), 0x1D, 2)] else [])

/-- R498: the first fault in ascending offset. -/
def leastFault : List EntryFault → Option (Nat × Nat)
  | [] => none
  | (b, o, c) :: t =>
    match leastFault t with
    | none => if b then some (o, c) else none
    | some (p, e) => if b && decide (o ≤ p) then some (o, c) else some (p, e)

/-- R483: bytes of one item of a LOAD_PROGRAM, and how many items its memory holds. -/
def progUnit (d : Desc) : Nat × Nat :=
  match d.at_ 0x14 1 with
  | 0 => (16, 4096)
  | 1 => (4, 4096)
  | _ => (4, 16384)

/-- R483: bytes that a LOAD_PROGRAM loads; a LEN of 0 is clamped to the unit size. -/
def progLen (d : Desc) : Nat := if d.at_ 0x10 4 = 0 then (progUnit d).1 else d.at_ 0x10 4

/-- R483: entries or points of a BIAS_SET, clamped, and bytes of each. -/
def biasCount (d : Desc) : Nat × Nat :=
  if d.at_ 8 1 = 0 then (clampNat 1 256 (d.at_ 0x0A 2), 8) else (clampNat 1 4096 (d.at_ 0x0A 2), 4)

/-- R484: bytes that a QUERY may write. -/
def queryLen (d : Desc) : Nat := clampNat 64 16777216 (d.at_ 0x10 4) / 64 * 64

/-- R485: the largest INDEX of a QUERY. -/
def queryTop (what : Nat) : Nat := [63, 15, 15, 15, 3, 3, 3, 3].getD what 0

/-- R400: bytes of a PLACE's report buffer, clamped. -/
def reportLen (d : Desc) : Nat := clampNat 64 1048576 (d.at_ 0x20 4)

/-- The data that a descriptor reads from host memory: address and bytes. -/
def Desc.source (d : Desc) : Nat × Nat :=
  match d.op with
  | 1 => (d.at_ 8 8, progLen d)
  | 2 => (d.at_ 8 8, d.at_ 0x10 4)
  | 3 => (d.at_ 8 8, d.at_ 0x10 4)
  | 4 => (d.at_ 8 8, d.at_ 0x10 4)
  | 8 => (d.at_ 0x10 8, (biasCount d).1 * (biasCount d).2)
  | _ => (0, 0)

/-- R483, R494: the extent that a descriptor reads lies outside every window open to it. -/
def State.sourceFault (s : State) (c : Nat) (d : Desc) : Bool :=
  let (a, n) := d.source
  decide (0 < n) && !s.inWindow c a n false

/-- R483 to R485, R102, R103: the faults of an entry's fields, by opcode. -/
def State.fieldFaults (s : State) (c : Nat) (d : Desc) : List EntryFault :=
  match d.op with
  | 1 =>
    let (u, top) := progUnit d
    [(s.sourceFault c d, 8, 4), (decide (progLen d % u ≠ 0), 0x10, 6), (decide (3 < d.at_ 0x14 1), 0x14, 3),
     (decide ((if d.at_ 0x14 1 = 0 then 63 else 15) < d.at_ 0x15 1), 0x15, 3),
     (decide (top < d.at_ 0x18 4 + progLen d / u), 0x18, 5)]
  | 2 =>
    let n := d.at_ 0x10 4
    let e := (d.bytes.drop 0x18).take 16
    [(s.sourceFault c d, 8, 4), (decide (n % 64 ≠ 0), 0x10, 6),
     (decide (envGranules < fieldAt e 0 4 % 2 ^ 17 + n / 64), 0x10, 5), (decide (3 < d.at_ 0x14 1), 0x14, 3),
     (decide (4094 < d.at_ 0x16 2), 0x16, 3)]
    ++ match entryFault e with
      | some (o, k) => [(true, 0x18 + o, k)]
      | none => []
  | 3 => [(s.sourceFault c d, 8, 4), (decide (d.at_ 0x10 4 < 64), 0x10, 6)]
  | 4 => [(s.sourceFault c d, 8, 4), (decide (d.at_ 0x10 4 < 32), 0x10, 6),
          (!s.inWindow c (d.at_ 0x18 8) (reportLen d) true, 0x18, 4)]
  | 7 => [(decide (d.at_ 8 1 = 0 ∨ 7 < d.at_ 8 1), 8, 3)]
  | 8 =>
    let pts := d.at_ 8 1 == 1
    [(decide (1 < d.at_ 8 1), 8, 3), (pts && decide (3 < d.at_ 0x0C 1), 0x0C, 3), (s.sourceFault c d, 0x10, 4),
     (pts && decide (262144 < d.at_ 0x18 4 + (biasCount d).1), 0x18, 5)]
  | 9 => [(decide (3 < d.at_ 0x18 1), 0x18, 3), (decide (15 < d.at_ 0x19 1), 0x19, 3), (decide (1 < d.at_ 0x1A 1), 0x1A, 3)]
  | 10 => [(!s.inWindow c (d.at_ 8 8) (queryLen d) true, 8, 4), (decide (7 < d.at_ 0x14 1), 0x14, 3),
           (decide (queryTop (d.at_ 0x14 1) < d.at_ 0x15 1), 0x15, 3)]
  | _ => []

/-- R497, R498: the first violation of a submission entry: its offset and cause. -/
def State.descFault (s : State) (c : Nat) (d : Desc) : Option (Nat × Nat) :=
  leastFault (reservedFaults d ++ s.fieldFaults c d)

/-- R458, R483, R484, R640: the clamps of an entry's fields: structure, offset, written, used. -/
def descClamps (d : Desc) : List (Nat × Nat × Nat × Nat) :=
  let c (off v u : Nat) : List (Nat × Nat × Nat × Nat) := if u = v then [] else [(0, off, v, u)]
  match d.op with
  | 1 => c 0x10 (d.at_ 0x10 4) (progLen d)
  | 2 => (entryClamps ((d.bytes.drop 0x18).take 16)).map fun e => (1, e.1, e.2.2.1, e.2.2.2)
  | 4 => c 0x20 (d.at_ 0x20 4) (reportLen d)
  | 5 | 6 =>
    c 8 (d.at_ 8 4) (max 1 (d.at_ 8 4))
    ++ (if bitOf (d.at_ 0x1D 1) 0 then
        c 0x12 (stampNs (d.at_ 0x10 12)) (min 999999999 (stampNs (d.at_ 0x10 12))) else [])
    ++ c 0x1C (d.at_ 0x1C 1) (min 3 (d.at_ 0x1C 1))
  | 7 => let p := calParams d.bytes
         c 9 (d.at_ 9 1) p.2.1 ++ c 0x0A (d.at_ 0x0A 2) p.2.2
  | 8 => c 0x0A (d.at_ 0x0A 2) (biasCount d).1
  | 10 => c 0x10 (d.at_ 0x10 4) (queryLen d)
  | _ => []

/-- R460: log the clamps of an entry. -/
def State.logDesc (s : State) (c : Nat) (d : Desc) : State :=
  (descClamps d).foldl (fun s e => s.descClamp c d.index e.1 e.2.1 e.2.2.1 e.2.2.2) s

/-! ### Starting (R480) -/

/-- R480: no completion of the context waits to be posted. -/
def State.cplPosted (s : State) (c : Nat) : Bool :=
  (s.planes.cmds.all fun x => match x.act with
    | .cpl k _ _ => k != c
    | _ => true) && (s.host.heldCpl.all fun x => x.1 != c)

/-- R480: the condition under which a fetched descriptor starts. -/
def State.mayStart (s : State) (c : Nat) (d : Desc) : Bool :=
  !s.earlierReads c d.index && match d.op with
  | 4 => s.earlierDoneButJobs c d.index
  | 5 | 6 => s.earlier c d.index == []
  | 11 => s.earlier c d.index == [] && s.cplPosted c
  | _ => s.earlierStarted c d.index

/-- R699, R702: the mode forbids the descriptor. -/
def State.forbids (s : State) (d : Desc) : Bool :=
  (s.sys.safe != 0 && d.op != 0 && d.op != 10) || (s.diagnostic && (d.op == 5 || d.op == 6))

/-- R480, R485, R498, R699: a fetched descriptor of an opcode starts: it is refused with a violation or
with DEVICE_FAULT, or `go` carries it out. -/
def State.startDesc (s : State) (c idx op : Nat) (go : State → Desc → State) : State :=
  match s.desc c idx with
  | none => s
  | some d =>
    if d.op ≠ op ∨ d.phase ≠ .fetched ∨ s.cobblerUp = false ∨ s.sys.boot = true ∨ s.mayStart c d = false then s
    else match s.descFault c d with
      | some (place, cause) => s.refuseDesc c d cause 0 place
      | none => if s.forbids d then s.completeNow c d 6 0 0 else go s d

/-- NOP (R483). -/
def execNop (c : Fin 1024) (i : BitVec 16) (s : State) : Host.Outcome State Fault Refusal :=
  .next (s.startDesc c i.toNat 0 fun s d => s.completeNow c d 0 0 0)

/-- FENCE (R480, R483). -/
def execFence (c : Fin 1024) (i : BitVec 16) (s : State) : Host.Outcome State Fault Refusal :=
  .next (s.startDesc c i.toNat 11 fun s d => s.completeNow c d 0 0 0)

/-! ### Loads (R21, R22, R740) -/

/-- The memory regions that a load writes. -/
def Desc.regions (d : Desc) : List Region :=
  match d.op with
  | 1 => if d.at_ 0x14 1 = 0 then [.prog (d.at_ 0x15 1)] else [.dsp (d.at_ 0x15 1)]
  | 2 =>
    let q := d.at_ 0x14 1
    let n := d.at_ 0x10 4 / 64
    .entry q (d.at_ 0x16 2) :: (if n = 0 then [] else [.granules q (d.at_ 0x18 4 % 2 ^ 17) n])
  | 3 => [.graph]
  | 8 => if d.at_ 8 1 = 1 then [.points (d.at_ 0x0C 1) (d.at_ 0x18 4) (biasCount d).1] else []
  | _ => []

/-- R740, R28: a load into a region of the armed job's last has completed; the start lead counts anew. -/
def State.loadEnd (s : State) (rs : List Region) : State :=
  if s.job.phase = .armed ∧ rs.any (s.lastUses s.place.inEffect) = true then s.leadNow else s

/-- R740: loads that a last waits for before its first shot. -/
def State.loadsPending (s : State) : Bool :=
  s.ctxs.any fun e => e.2.fetched.any fun d =>
    (d.phase == .deferred || d.phase == .reading || d.phase == .loaded) && d.regions.any (s.lastUses s.place.inEffect)

/-- R494: read a descriptor's data from host memory. -/
def State.readData (s : State) (c : Nat) (d : Desc) : State :=
  let (a, n) := d.source
  (s.setDesc c { d with phase := .reading }).emit (.read a n) |> fun s =>
    { s with host.reads := s.host.reads ++ [ReadFor.data c d.index false] }

/-- The data of a load, of the length its entry gives. -/
def Desc.payload (d : Desc) : List Byte :=
  let n := d.source.2
  (d.data ++ List.replicate (n - d.data.length) 0).take n

/-- R101, R460, R691: write an envelope table entry with its data. -/
def State.writeEnvelope (s : State) (q id : Nat) (e data : List Byte) : State :=
  let rs := [Region.entry q id, .granules q (fieldAt e 0 4 % 2 ^ 17) (data.length / 64)]
  let s := (s.staleLoad rs).unmarkEntry q id
  let s := s.store (envTableBase q + id * 16) (entryBytes e)
  let b := fieldAt e 0 4 % 2 ^ 17
  (s.unmarkRun q b (data.length / 64)).store (envBase q + b * 64) data

/-- R186, R301, R483: write a checked LOAD_PROGRAM. -/
def State.writeProgram (s : State) (c : Nat) (d : Desc) (xs : List Checked) : State :=
  let k := d.at_ 0x15 1
  let a := d.at_ 0x18 4
  let vs := xs.map Checked.val
  let s := s.staleLoad d.regions
  let mark (s : State) : State :=
    if xs.all fun x => x.clamps == [] then s
    else s.updCtx c fun x => { x with
      fetched := x.fetched.map fun e => if e.index = d.index then { e with clamped := true } else e }
  match d.at_ 0x14 1 with
  | 0 => mark ((s.logLoad c (stitchId k) a xs).putItems (progBase k) 16 a vs)
  | 1 => mark (((s.logLoad c (instrId k) a xs).putItems (instrBase k) 4 a vs).noteInstrs k a vs.length)
  | 2 => s.putItems (xBase k) 4 a vs
  | _ => s.putItems (yBase k) 4 a vs

/-- R185, R300, R483: check the data of a LOAD_PROGRAM and write it. -/
def State.applyProgram (s : State) (c : Nat) (d : Desc) : State :=
  let a := d.at_ 0x18 4
  let vs := items (progUnit d).1 d.payload
  let xs := match d.at_ 0x14 1 with
    | 0 => vs.map checkStitch
    | 1 => vs.zipIdx.map fun e => checkInstr (a + e.2) e.1
    | _ => vs.map fun v => ({ val := v } : Checked)
  match firstRefused a xs with
  | some (at', cause) => s.refuseDesc c d cause (if d.at_ 0x14 1 = 0 then 6 else 7) at'
  | none => ((s.logDesc c d).writeProgram c d xs).completeNow c d 0 d.source.2 0

def State.applyEnvelope (s : State) (c : Nat) (d : Desc) : State :=
  let e := (d.bytes.drop 0x18).take 16
  ((s.logDesc c d).writeEnvelope (d.at_ 0x14 1) (d.at_ 0x16 2) e d.payload).completeNow c d 0 d.source.2 0

/-- R361 to R363: check a graph image and load it into both planes. DESIGN CHOICE (log 64): every violation of an
image, a nonzero byte where the chapter gives zero among them, has CAUSE 3: R361 names none, R499 offers 2 and 3 for
such a byte, and R388 states 3 for the image of a PLACE. -/
def State.applyDecoder (s : State) (c : Nat) (d : Desc) : State :=
  let b := d.payload
  let h := graphHead b
  if h.len ≠ d.at_ 0x10 4 then s.refuseDesc c d 6 0 0x10
  else match graphFault b h with
    | some off => s.refuseDesc c d 3 2 off
    | none =>
      if graphOver b h then s.completeNow c d 3 d.source.2 0
      else
        let s := s.staleLoad [.graph]
        let s := { s with dec := { graph := some (graphOf b h), loads := s.dec.loads + 1 } }
        let s := (graphClamps b h).foldl (fun s e => s.descClamp c d.index 2 e.1 e.2.1 e.2.2) s
        s.completeNow c d 0 d.source.2 0

/-- R483, R498: the first violation of a BIAS_SET's data: byte offset and cause. -/
def biasDataFault (d : Desc) : Option (Nat × Nat) :=
  let b := d.payload
  let (n, u) := biasCount d
  leastFault ((List.range n).map fun i =>
    if u = 8 then [(decide (256 ≤ fieldAt b (i * 8) 2), i * 8, 3), (decide (fieldAt b (i * 8 + 2) 2 ≠ 0), i * 8 + 2, 2),
                   (decide (2 ^ 20 ≤ fieldAt b (i * 8 + 4) 4), i * 8 + 4, 2)]
    else [(decide (2 ^ 20 ≤ fieldAt b (i * 4) 4), i * 4, 2)]).flatten

/-- R423: a step on a channel that the running job's last uses waits for the job boundary. -/
def State.biasSetStep (s : State) (k : Nat) (code : Int) : State :=
  if s.biasUsed k ∧ s.job.phase ≠ .armed then s.updBias k fun b => { b with step := some code }
  else s.biasStep k code

/-- R423, R424: carry out a BIAS_SET. -/
def State.applyBias (s : State) (c : Nat) (d : Desc) : State :=
  let b := d.payload
  let (n, u) := biasCount d
  match biasDataFault d with
  | some (o, cause) => s.refuseDesc c d cause (if u = 4 then 4 else 5) o
  | none =>
    let s := s.logDesc c d
    let s :=
      if u = 4 then
        (s.staleLoad d.regions).store (biasWaveBase (d.at_ 0x0C 1) + d.at_ 0x18 4 * 4) b
      else (List.range n).foldl (fun s i =>
        s.biasSetStep (fieldAt b (i * 8) 2) (signedOf 20 (fieldAt b (i * 8 + 4) 4))) s
    s.completeNow c d 0 d.source.2 0

/-- R487: carry out a load whose data is at hand; an uncorrectable error while it is written completes
it with DEVICE_FAULT. -/
def State.applyLoad (s : State) (c : Nat) (d : Desc) (bad : Bool) : State :=
  let rs := d.regions
  let t :=
    if bad then s.completeNow c d 6 d.source.2 0
    else match d.op with
      | 1 => s.applyProgram c d
      | 2 => s.applyEnvelope c d
      | 3 => s.applyDecoder c d
      | _ => s.applyBias c d
  t.loadEnd rs

/-- Read the data of a load, or carry it out at once when it has none. -/
def State.beginLoad (s : State) (c : Nat) (d : Desc) (bad : Bool) : State :=
  if d.source.2 = 0 then s.applyLoad c d bad else s.readData c d

/-- R740: a load starts; one into a region of the running job waits for the job boundary. -/
def State.load_ (s : State) (c idx op : Nat) (bad : Bool) : State :=
  match s.desc c idx with
  | some d =>
    if d.op = op ∧ d.phase = .loaded then (if s.cobblerUp then s.applyLoad c d bad else s)
    else s.startDesc c idx op fun s d =>
      if s.regionHeld d.regions then s.setDesc c { d with phase := .deferred } else s.beginLoad c d bad
  | none => s

/-- LOAD_PROGRAM (R483, R185, R300). -/
def execLoadProgram (c : Fin 1024) (i : BitVec 16) (bad : Bool) (s : State) : Host.Outcome State Fault Refusal :=
  State.done (s.load_ c i.toNat 1 bad)

/-- LOAD_ENVELOPE (R483, R101). -/
def execLoadEnvelope (c : Fin 1024) (i : BitVec 16) (bad : Bool) (s : State) : Host.Outcome State Fault Refusal :=
  State.done (s.load_ c i.toNat 2 bad)

/-- LOAD_DECODER (R483, R361). -/
def execLoadDecoder (c : Fin 1024) (i : BitVec 16) (bad : Bool) (s : State) : Host.Outcome State Fault Refusal :=
  State.done (s.load_ c i.toNat 3 bad)

/-- BIAS_SET (R483, R423). -/
def execBiasSet (c : Fin 1024) (i : BitVec 16) (bad : Bool) (s : State) : Host.Outcome State Fault Refusal :=
  State.done (s.load_ c i.toNat 8 bad)

/-! ### Streams (R166, R484) -/

/-- R484: bind or unbind a stream. -/
def State.bindStream (s : State) (c : Nat) (d : Desc) : State :=
  let key := d.at_ 0x18 1 * 16 + d.at_ 0x19 1
  let t : Stream := if d.at_ 0x1A 1 = 1 then {}
    else { bound := true, ctx := c, base := d.at_ 8 8, stride := d.at_ 0x10 8 }
  { s with sq.streams := Table.set {} s.sq.streams key t }.completeNow c d 0 0 0

/-- R21: the running job uses the stream, and its job boundary has not come. -/
def State.streamHeld (s : State) (d : Desc) : Bool :=
  s.inJob && s.job.phase != .armed
    && (s.place.inEffect.streams.any fun e => e.1 == d.at_ 0x18 1 && e.2.1 == d.at_ 0x19 1)

/-- STREAM_BIND (R484, R740). -/
def execStreamBind (c : Fin 1024) (i : BitVec 16) (s : State) : Host.Outcome State Fault Refusal :=
  State.done (s.startDesc c i.toNat 9 fun s d =>
    if s.streamHeld d then s.setDesc c { d with phase := .deferred } else s.bindStream c d)

/-- LOAD_DEFERRED_APPLY (R740, R21): at the job boundary or idle a deferred load reads its data; a
deferred bind takes effect. -/
def State.deferredApply (s : State) (c idx : Nat) : State :=
  match s.desc c idx with
  | some d =>
    if d.phase = .deferred ∧ (s.job.phase = .idle ∨ s.job.phase = .armed) ∧ s.cobblerUp = true then
      if d.op = 9 then s.bindStream c d else s.beginLoad c d false
    else s
  | none => s

def execLoadDeferredApply (c : Fin 1024) (i : BitVec 16) (s : State) : Host.Outcome State Fault Refusal :=
  State.done (s.deferredApply c i.toNat)

/-! ### QUERY (R484) -/

/-- R484: bytes of an item, and items in the memory. -/
def queryUnit (what : Nat) : Nat × Nat :=
  [(16, 4096), (4, 4096), (4, 16384), (4, 16384), (16, 4096), (64, 130048), (4, 262144)].getD what (1, 0)

/-- The base address of the memory that a QUERY names. -/
def queryBase (what i : Nat) : Nat :=
  match what with
  | 0 => progBase i
  | 1 => instrBase i
  | 2 => xBase i
  | 3 => yBase i
  | 4 => envTableBase i
  | 5 => envBase i
  | _ => biasWaveBase i

/-- R484, R691: an item as QUERY writes it; a sealed one is zero. -/
def State.queryItem (s : State) (what i a : Nat) : List Byte :=
  let u := (queryUnit what).1
  if (what = 4 ∧ s.entrySealed i a = true) ∨ (what = 5 ∧ s.granuleSealed i a = true) then List.replicate u 0
  else Memory.readBytes s.ram (queryBase what i + a * u) u

/-- R407, R408: the ends of the whole entries of a report: the header first. -/
def reportEnds (r : List Byte) : List Nat :=
  let sizes := List.replicate (fieldAt r 0x1C 2) 16
    ++ List.replicate (fieldAt r 0x1E 2 + fieldAt r 0x20 2 + fieldAt r 0x22 2) 8
    ++ List.replicate (min 255 (fieldAt r 0x1A 2)) 16
  sizes.foldl (fun l n => (l.headD 64 + n) :: l) [64]

/-- R407, R484: the bytes of a report from `frm` on in a buffer of `n` bytes. DEDUCED (log 40): a report that goes
beyond the buffer is cut at the last whole entry that ends in it, with TRUNC set. -/
def reportPart (r : List Byte) (frm n : Nat) : List Byte :=
  if r.length ≤ frm + n then r.drop frm
  else
    let stop := ((reportEnds r).filter fun e => decide (e ≤ frm + n)).headD 0
    ((r.set 7 (r.getD 7 0 ||| 1)).take stop).drop frm

/-- R484: what a QUERY writes. -/
def State.queryBytes (s : State) (d : Desc) : List Byte :=
  let what := d.at_ 0x14 1
  let i := d.at_ 0x15 1
  let frm := d.at_ 0x18 4
  if what = 7 then reportPart (s.last i).report frm (queryLen d)
  else
    let (u, total) := queryUnit what
    ((List.range (min (queryLen d / u) (total - frm))).map fun k => s.queryItem what i (frm + k)).flatten

/-- QUERY (R484, R485). -/
def State.query (s : State) (c : Nat) (d : Desc) : State :=
  let out := s.queryBytes d
  let s := s.logDesc c d
  let s := if out = [] then s else s.emit (.write (d.at_ 8 8) out)
  s.completeNow c d 0 out.length 0

def execQuery (c : Fin 1024) (i : BitVec 16) (s : State) : Host.Outcome State Fault Refusal :=
  State.done (s.startDesc c i.toNat 10 fun s d => s.query c d)

/-! ### CALIBRATE (R640, R641) -/

/-- R641: the CALIBRATE is the next in the order of fetching. -/
def State.calFirst (s : State) (c idx : Nat) : Bool :=
  s.cal.run.isNone &&
    match s.cal.waiting.find? fun e => (s.desc e.1 e.2).isSome with
    | some e => e == (c, idx)
    | none => true

/-- CALIBRATE (R640, R641). -/
def execCalibrate (c : Fin 1024) (i : BitVec 16) (s : State) : Host.Outcome State Fault Refusal :=
  if s.calFirst c i.toNat then
    (s.startDesc c i.toNat 7 fun s d =>
      ((s.logDesc c d).setDesc c { d with phase := .working, clamped := d.clamped || !(descClamps d).isEmpty }).calBegin c d).done
  else .next s

/-! ### RUN and CAPTURE (R480, R483, R18) -/

/-- R480, R18: the job is ready to start. -/
def State.jobReady (s : State) (c idx op : Nat) : State :=
  s.startDesc c idx op fun s d =>
    let s := if s.anyReady || s.job.ending.isSome then s else { s with job.bridge := 0 }
    (s.logDesc c d).setDesc c { d with phase := .ready, clamped := d.clamped || !(descClamps d).isEmpty }

/-- RUN (R480, R484). -/
def execRun (c : Fin 1024) (i : BitVec 16) (s : State) : Host.Outcome State Fault Refusal :=
  (s.jobReady c i.toNat 5).done

/-- CAPTURE (R480, R267). -/
def execCapture (c : Fin 1024) (i : BitVec 16) (s : State) : Host.Outcome State Fault Refusal :=
  (s.jobReady c i.toNat 6).done

end Sys2Proof.Machine
end

