-- ==== Sys2Proof/Machine/Placement.lean ====
section
/-! DEFINITION. PLACE, the waits and the end of a build, its report, slowness samples and re-proofs
(chapter 10). -/

namespace Sys2Proof.Machine

/-! ### The proofs of a build -/

/-- R109, R160 to R163: what the walk of a job works with. -/
def State.jointEnv (s : State) (b : Build) (img : PlaceInput) (f : Nat) (moved : Bool) : JointEnv :=
  { f := f, moved := moved, parts := s.barParts f img.progs, far := s.farUnits b img f }

/-- R392, R393: what the proofs of an image work with. -/
def State.imageEnv (s : State) (b : Build) (img : PlaceInput) (guard : Nat) : BuildEnv :=
  let f := max 4096 b.slow
  let walk (moved : Bool) : List Combo := s.jointWalk (s.jointEnv b img f moved) walkFuel (startCombo f img.progs)
  { b := b, img := img, f := f, guard := guard, parts := s.barParts f img.progs, cs := walk false, moved := walk true }

/-- R392, R393: what the proofs of a build work with. -/
def State.buildEnv (s : State) (b : Build) : BuildEnv :=
  s.imageEnv b (placeInput b.image) (bitsOf b.plc.toNat 9 0)

/-- What a build finds: refusals, figures of the report, and the last. -/
structure Found where
  refusals : List Refusal408 := []
  slack : Int := 0x7FFFFFFF
  pcieIn : Nat := 0
  pcieOut : Nat := 0
  peaks : List Nat := [0, 0, 0, 0]
  last : LastMap := {}

/-- R399: the route entries of a last: destination, first-hop link, hops, use bits. -/
def State.routeEntries (s : State) (e : BuildEnv) (dests : List (Nat × Nat)) : List (Nat × Nat × Nat × Nat) :=
  dests.filterMap fun d => match s.routeTo e.b e.img d.1 with
    | some (l :: r) => some (d.1, l, r.length + 1, d.2)
    | _ => none

/-- R156: the decisions of other devices that come over a route of the last. -/
def State.remotes (s : State) (e : BuildEnv) (fs : List PFire) (remote : List RemoteDecision) : List PRemote :=
  remote.filterMap fun r =>
    if (s.destinations e fs).any fun d => d.1 == r.dev.toNat then
      (s.routeTo e.b e.img r.dev.toNat).map fun x =>
        { dev := r.dev.toNat, tgt := r.tgt.toNat, mask := r.mask.toNat
          sent := r.sent.toNat * 5120 + s.routeUnits e.f x, early := r.early.toNat }
    else none

/-- R389: what a build assigns. -/
def State.assigned (s : State) (e : BuildEnv) (fs : List PFire) (remote : List RemoteDecision) (streams : List (Nat × Nat × Nat))
    (buffers : List (Nat × Nat × Nat × Nat)) (regions : List (Nat × Bool × Bool × Nat))
    (routes : List (Nat × Nat × Nat × Nat)) : LastMap :=
  let envs := ((e.paths.map fun p => p.2.envs.map fun i => (p.1 / 16, i)).flatten).eraseDups
  { built := true
    seqs := e.ws.map fun w => (w.1, ((e.img.progs.find? fun x => x.1 == w.1).map (·.2)).getD 0, e.queueMask w.1 w.2)
    streams := buffers
    regions := regions
    routes := routes
    bars := e.parts
    xbars := e.img.xbars
    capin := e.img.capin
    usesDecoder := e.syndromes
    envs := envs
    resident := ((e.paths.map fun p => p.2.resident.map fun i => (p.1 / 16, i)).flatten).eraseDups
    dsps := (e.wins.filterMap s.winDsp).eraseDups
    waves := ((e.paths.map fun p => p.2.waves.map fun i => (p.1 / 16, i)).flatten).eraseDups
    consume := streams.map fun x => (x.1, x.2.2)
    ksets := (e.wins.map fun w => (w.q, w.ks)).eraseDups
    capDemand := s.placedCapture e
    demand := streams
    pins := e.img.pinList
    remote := remote
    ctx := e.b.ctx
    proofRegs := s.proofSet e fs (streams != [])
    slow := e.b.slow
    links := (routes.map fun r => r.2.1).eraseDups
    progs := e.img.progs
    tiles := match s.jobGraph e with
      | some g => graphTiles g
      | none => []
    graph := s.dec.loads }

/-- R402: the build is incremental. -/
def State.incremental (s : State) (b : Build) (img : PlaceInput) : Bool :=
  let m := s.last img.lastId
  let differ := (img.progs.filter fun x => !m.progs.contains x).length
    + (m.progs.filter fun x => !(img.progs.any fun y => y.1 == x.1)).length
  img.incr && m.built && decide (differ ≤ 8) && (m.usesDecoder == false || m.graph == s.dec.loads)
    && (match s.jobGraph (s.buildEnv b) with
      | some g => g.peers == []
      | none => true)

/-- R395, R402: everything a build checks and decides. An incremental build starts from the present content of its
LAST_ID and re-proves only the items that what differs touches. -/
def State.findAll (s : State) (b : Build) (remote : List RemoteDecision) : Found :=
  let e := s.buildEnv b
  let cs := e.cs
  let m := s.last e.img.lastId
  let inc := s.incremental b e.img
  let fs := ((cs.map fun c => (s.comboFires e c).1).flatten).eraseDups
  let far := s.remotes e fs remote
  let streams := e.streams
  let keep := if inc then s.keptStreams e m streams else []
  let kept := keep.map fun x => x.1 * 16 + x.2.1
  let seqs := if inc then s.touchedSeqs e fs m else e.img.progs.map (·.1)
  let differ := !inc || seqs != [] || e.img.pinList != m.pins || streams != m.demand || e.img.capin != m.capin
  let bars := e.barriers.filter fun x => e.touches seqs kept differ (ref 3 2 x.1 0 0)
  let peaks := [0, 1, 2, 3].map (quarterPeak e.moved)
  let proofs := cs.map (s.comboProofs e far)
  let slacks := ((proofs.map (·.1)).flatten.filter fun x => seqs.contains x.1).map (·.2)
  let lat := bitsOf b.plc.toNat 23 16
  let (buffers, memory) := s.placeStreams lat e.img.pins
    ((streamOrder e.img.pins streams).filter fun x => !kept.contains x.1) keep
  let (pin, inRefs) := s.pcieIn streams
  let cap := s.linkCapacity.2
  let dests := s.destinations e fs
  let regs := match s.jobGraph e with
    | some g => (List.range g.peers.length).map (s.region e g)
    | none => []
  let regions := regs.filterMap (·.1)
  let pout := s.pcieOut e regions cs
  let refs := (e.paths.map fun p => p.2.refusals).flatten ++ e.queueRefusals ++ (bars.map fun x => x.2.2).flatten
    ++ (peaks.zipIdx.filterMap fun p => if 256 < p.1 then some (ref 4 3 p.2 p.1 256) else none)
    ++ (proofs.map (·.2)).flatten ++ s.manyProducers e.wins ++ s.twoUnits fs far ++ s.oneSlot e.wins
    ++ s.streamRefusals streams (min 32000 s.linkCapacity.1)
    ++ memory ++ inRefs ++ (if cap < pout then [ref 0x13 10 0 pout cap] else []) ++ s.captureRefusals e pout
    ++ s.dspRefusals e.wins ++ s.decoderRefusals e cs ++ e.wiringRefusals ++ s.routeRefusals e dests
    ++ s.laceRefusals e cs ++ (regs.map (·.2)).flatten
  { refusals := sortRefusals (refs.filter (e.touches seqs kept differ))
    slack := (slacks ++ bars.map fun x => x.2.1).foldl min 0x7FFFFFFF
    pcieIn := pin
    pcieOut := pout
    peaks := peaks
    last := s.assigned e fs remote streams buffers regions (s.routeEntries e dests) }

/-- R388, R406: counts above their limits. -/
def capacityRefusals (b : List Byte) : List Refusal408 :=
  ((placeCounts b).zip placeLimits).filterMap fun x => if x.2 < x.1 then some (ref 0x18 10 0 x.1 x.2) else none

/-- What a build finds; counts above their limits leave the rest unchecked. -/
def State.found (s : State) (b : Build) (remote : List RemoteDecision) : Found :=
  match capacityRefusals b.image with
  | [] => s.findAll b remote
  | rs => { refusals := rs }

/-! ### The report (R407, R408) -/

/-- The entries of a report, each as its bytes. -/
def Found.entries (x : Found) : List (List Byte) :=
  (x.last.seqs.map fun e => leBytes 16 (packNat [(0, 1, e.1), (2, 2, e.2.1), (4, 9, e.2.2)]))
  ++ (x.last.streams.map fun e => leBytes 8 (packNat [(0, 1, e.1), (1, 1, e.2.1), (2, 2, e.2.2.1), (4, 4, e.2.2.2)]))
  ++ (x.last.regions.map fun e =>
      leBytes 8 (packNat [(0, 4, e.1), (4, 1, if e.2.1 then 0 else 1), (5, 1, if e.2.2.1 then 1 else 0), (6, 2, e.2.2.2)]))
  ++ (x.last.routes.map fun e => leBytes 8 (packNat [(0, 4, e.1), (4, 1, e.2.1), (5, 1, e.2.2.1), (6, 1, e.2.2.2)]))
  ++ (x.refusals.take 255).map Refusal408.bytes

/-- The whole entries that fit in a number of bytes, and whether all of them do. -/
def fitEntries : Nat → List (List Byte) → List Byte × Bool
  | _, [] => ([], true)
  | n, e :: t => if n < e.length then ([], false) else let (bs, all) := fitEntries (n - e.length) t; (e ++ bs, all)

/-- NREFUSE (R407). -/
def Found.nrefuse (x : Found) : Nat := min 0xFFFF x.refusals.length

/-- The report of a build in a buffer of `n` bytes. -/
def Found.report (x : Found) (lastId kind slow us n : Nat) (st : Stamp) : List Byte :=
  let (body, all) := fitEntries (n - 64) x.entries
  let peak (i : Nat) : Nat := x.peaks.getD i 0
  leBytes 64 (packNat [(0, 4, 1), (4, 1, lastId), (5, 1, if x.refusals == [] then 0 else 1), (6, 1, kind),
    (7, 1, if all then 0 else 1), (8, 12, st.bits), (0x14, 4, us), (0x18, 2, slow), (0x1A, 2, x.nrefuse),
    (0x1C, 2, x.last.seqs.length), (0x1E, 2, x.last.streams.length), (0x20, 2, x.last.regions.length),
    (0x22, 2, x.last.routes.length), (0x24, 4, x.pcieIn), (0x28, 4, x.pcieOut), (0x2C, 4, wrapInt 32 (satInt 32 x.slack)),
    (0x30, 2, peak 0), (0x32, 2, peak 1), (0x34, 2, peak 2), (0x36, 2, peak 3)]) ++ body

/-! ### PLACE (R382, R388) -/

/-- R391: the slowness s that the monitors' counts give, in units of 1/4,096: the largest of REF_i / count_i. A ratio
between two units and one whose count is 0 are free values, as the spec states neither; 16 bits hold s (log 63). -/
def slownessOf (counts : SpeedCounts) : Nat :=
  ((List.finRange 32).map fun i =>
    let r := Config.speedRef i
    let n := counts[i]
    if n = 0 then (Config.slowStopped i).toNat
    else
      let x := r.toNat * 4096
      x / n.toNat + if x % n.toNat = 0 then 0 else (Config.slowUp r n).toNat).foldl (fun a b => min 0xFFFF (max a b)) 0

/-- R391, R392: a sample of the slowness. -/
def State.sampleSlow (s : State) (counts : SpeedCounts) : State :=
  { s with place.counts := counts, place.slow := slownessOf counts }

/-- R382, R392, R409: a build starts, with a sample of s; the image is read. -/
def State.beginBuild (s : State) (c : Nat) (d : Desc) (counts : SpeedCounts) : State :=
  if s.place.build.isSome then s
  else
    let s := s.sampleSlow counts
    let s := { s with
      place.build := some { ctx := c, index := d.index, startAt := s.time.now, slow := s.place.slow
                            plc := s.word .PLC_CFG [], on := s.enabledPorts } }
    s.readData c d

/-- R400: the summary that goes to peer index p. -/
def State.sendSummary (s : State) (e : BuildEnv) (g : DecGraph) (p : Nat) : State :=
  let dev := g.peers.getD p 0
  let pin := e.img.regionPin dev
  s.laceSend dev 2 0x20 (e.img.lastId * 2 ^ 36 + (if pin = 0 then 0 else 2 ^ 38) + (if pin = 1 then 2 ^ 39 else 0))
    [sharedCrc g p + localNodes g * 2 ^ 32]

/-- Send the summaries of the peers of a build that meet `p`. -/
def State.sendSummaries (s : State) (e : BuildEnv) (p : Nat → Bool) : State :=
  match s.jobGraph e with
  | some g => (List.range g.peers.length).foldl (fun s i => if p (g.peers.getD i 0) then s.sendSummary e g i else s) s
  | none => s

/-- R399, R535: destinations of a build for which a route must be found: none is kept, or none by the link
that a pin names. -/
def State.lackingRoutes (s : State) (e : BuildEnv) : List Nat :=
  let fs := ((e.cs.map fun c => (s.comboFires e c).1).flatten).eraseDups
  ((s.destinations e fs).map (·.1)).filter fun d =>
    match s.lace.routes.find? fun r => r.dest == d with
    | none => true
    | some r => (e.img.routePins d).any fun l => r.links.head? != some l

/-- R388, R400, R535: the image of a build has come: it is checked, and the build asks for routes and
summaries. -/
def State.takeImage (s : State) (c : Nat) (d : Desc) (b : Build) : State :=
  let img := d.payload
  let stop (s : State) : State := { s with place.build := none }
  if d.at_ 0x10 4 ≠ placeLen img then stop (s.refuseDesc c d 6 0 0x10)
  else match imageFault s.deviceId img with
    | some off => stop (s.refuseDesc c d 3 3 off)
    | none =>
      let s := s.logDesc c d
      let s := if fieldAt img 4 1 = imageLast img then s else s.descClamp c d.index 3 4 (fieldAt img 4 1) (imageLast img)
      let b := { b with image := img }
      let e := s.buildEnv b
      let lack := if capacityRefusals img = [] then s.lackingRoutes e else []
      let s := s.sendSummaries e fun dev => !lack.contains dev
      let s := lack.foldl State.probe s
      let s := { s with place.build := some { b with probes := lack } }
      s.updCtx c fun x => { x with fetched := x.fetched.map fun y => if y.index = d.index then { y with phase := .working } else y }

/-- PLACE (R382, R388, R392): `counts` is the sample of the speed monitors at the start of the build. -/
def State.place_ (s : State) (c idx : Nat) (counts : SpeedCounts) : State :=
  match s.desc c idx with
  | some d =>
    if d.op = 4 ∧ d.phase = .loaded then
      match s.place.build with
      | some b => if s.cobblerUp ∧ b.ctx = c ∧ b.index = idx ∧ b.image = [] then s.takeImage c d b else s
      | none => s
    else s.startDesc c idx 4 fun s d => s.beginBuild c d counts
  | none => s

def execPlace (c : Fin 1024) (i : BitVec 16) (counts : SpeedCounts) (s : State) : Host.Outcome State Fault Refusal :=
  (s.place_ c i.toNat counts).done

/-! ### The waits of a build (R400, R535) -/

/-- R535: keep a route; of more than 1,024, the oldest that no built last names gives way. -/
def State.addRoute (s : State) (r : LaceRoute) : State :=
  let rs := s.lace.routes.filter (fun x => x.dest ≠ r.dest) ++ [r]
  let named (x : LaceRoute) : Bool := s.place.lasts.toList.any fun m => m.built && m.routes.any fun e => e.1 == x.dest
  let rs := if rs.length ≤ 1024 then rs
    else match rs.find? fun x => !named x with
      | some x => rs.erase x
      | none => rs
  { s with lace.routes := rs }

/-- R399, R535: the wait for replies ends. -/
def State.probeEnd (s : State) : State :=
  match s.place.build with
  | none => s
  | some b =>
    if b.probes = [] then s
    else
      let img := placeInput b.image
      let s := b.probes.foldl (fun s d => match s.routeTo b img d with
        | some r => s.addRoute ⟨d, r⟩
        | none => s) s
      let b' := { b with probes := [] }
      let s := { s with place.build := some b' }
      s.sendSummaries (s.buildEnv b') b.probes.contains

/-- PROBE_WAIT_EXPIRY (R535). -/
def execProbeWaitExpiry (s : State) : Host.Outcome State Fault Refusal := .next s.probeEnd

/-- R400: the peers whose summaries a build still waits for. -/
def State.awaited (s : State) (b : Build) : List Nat :=
  match s.jobGraph (s.buildEnv b) with
  | some g => g.peers.filter fun d => !(s.place.summaries.any fun x => x.1 == d) && !b.peerFail.contains d
  | none => []

/-- R400, R409: PEER_WAIT has passed since the build started (log 35). -/
def State.peerWaitOver (s : State) (b : Build) : Bool :=
  decide (b.startAt + bitsOf b.plc.toNat 31 24 * 1000000 ≤ s.time.now)

/-- PEER_WAIT_EXPIRY (R400): the wait for one peer's summary ends. -/
def State.peerEnd (s : State) (dev : Nat) : State :=
  match s.place.build with
  | none => s
  | some b =>
    if b.image ≠ [] ∧ s.peerWaitOver b ∧ (s.awaited b).contains dev then { s with place.build := some { b with peerFail := dev :: b.peerFail } } else s

def execPeerWaitExpiry (peer : BitVec 18) (s : State) : Host.Outcome State Fault Refusal := .next (s.peerEnd peer.toNat)

/-! ### The end of a build (R383, R385, R402, R405) -/

/-- R384, R385, R410: write the report, complete the PLACE and record the build. -/
def State.endBuild (s : State) (b : Build) (x : Found) (kind : Nat) : State :=
  let img := placeInput b.image
  let st := s.coarseStamp
  let us := (s.time.now - b.startAt) / 1000
  let full := x.report img.lastId kind b.slow us (64 + 16 * x.entries.length) st
  let m := s.last img.lastId
  let s := if x.refusals = []
    then s.setLast img.lastId { x.last with version := m.version + 1, report := full }
    else s.setLast img.lastId { m with report := full }
  let s := { s with place.build := none }
  match s.desc b.ctx b.index with
  | none => s
  | some d =>
    if d.op ≠ 4 ∨ d.phase ≠ .working then s
    else
      let out := x.report img.lastId kind b.slow us (reportLen d) st
      let s := (s.emit (.write (d.at_ 0x18 8) out)).completeNow b.ctx d (if x.refusals = [] then 0 else 2) x.nrefuse out.length
      s.postCoarse b.ctx 980 0x48 0
        [(0x14, 1, img.lastId), (0x15, 1, if x.refusals = [] then 0 else 1), (0x16, 2, x.nrefuse), (0x18, 4, us)]

/-- BUILD_DONE (R383, R385): a build that waits for nothing ends. `remote` is what other devices deliver (R156,
log 62). -/
def State.buildDone (s : State) (remote : List RemoteDecision) : State :=
  match s.place.build with
  | none => s
  | some b =>
    if b.image = [] ∨ b.probes ≠ [] ∨ s.awaited b ≠ [] ∨ s.pwr.cut = true then s
    else
      let peers := match s.jobGraph (s.buildEnv b) with
        | some g => g.peers
        | none => []
      let x := s.found b remote
      let s := s.endBuild b x (if s.incremental b (placeInput b.image) then 1 else 0)
      { s with place.summaries := s.place.summaries.filter fun y => !peers.contains y.1 }

def execBuildDone (s : State) (remote : List RemoteDecision := []) : Host.Outcome State Fault Refusal :=
  (s.buildDone remote).done

/-! ### Slowness and re-proofs (R391, R403, R404) -/

/-- R392: 1 ms has passed since the latest 1 ms sample. -/
def State.sampleDue (s : State) : Bool := decide (s.place.sampledAt + 1000000 ≤ s.time.now)

/-- R391, R392, R403: a 1 ms sample of s. -/
def State.slownessSample (s : State) (counts : SpeedCounts) : State :=
  if s.sampleDue then
    { s.sampleSlow counts with place.sampledAt := s.time.now }.staleWhere 3 fun m => decide (max 4096 m.slow < slownessOf counts)
  else s

/-- SLOWNESS_SAMPLE (R391, R392, R403). -/
def execSlownessSample (counts : SpeedCounts) (s : State) : Host.Outcome State Fault Refusal :=
  .next (s.slownessSample counts)

/-- REPROOF (R404, R665): the re-proof that a throttle step has asked for starts. -/
def execReproof (s : State) : Host.Outcome State Fault Refusal :=
  .next (if s.place.reproof = some 0 then { s with place.reproof := some 1 } else s)

/-- R404: the deadlines of the live last under a predicted s: least slack, and whether they all hold. -/
def State.reprove (s : State) (slow : Nat) : Int × Bool :=
  match s.place.live with
  | none => (0x7FFFFFFF, true)
  | some _ =>
    let m := s.place.inEffect
    let b : Build := { slow := slow, plc := s.word .PLC_CFG [] }
    let e := s.imageEnv b { progs := m.progs, xbars := m.xbars } (s.rd Reg.PLC_CFG.GUARD [])
    let fs := ((e.cs.map fun c => (s.comboFires e c).1).flatten).eraseDups
    let proofs := e.cs.map (s.comboProofs e (s.remotes e fs m.remote))
    ((proofs.map fun x => x.1.map (·.2)).flatten.foldl min 0x7FFFFFFF, !(proofs.any fun p => p.2.any fun r => r.code == 1))

/-- R665, R666: the answer of a re-proof. -/
def State.reproofAnswer (s : State) (ok : Bool) : State :=
  if ok = false then s.skipAction3.throttleAct
  else if s.pwr.throt = false ∨ s.pwr.power ≤ s.cap then s
  else s.take_ 3

/-- REPROOF_DONE (R404, R410): s as predicted at the lower VDD_INS. -/
def State.reproofDone (s : State) (slow : Nat) : State :=
  if s.place.reproof ≠ some 1 then s
  else
    let r := s.reprove slow
    (({ s with place.reproof := none }).postCoarse s.place.inEffect.ctx 982 0x4A 0
      [(0x14, 1, if r.2 then 0 else 1), (0x18, 4, slow), (0x1C, 4, wrapInt 32 (r.1 / 16))]).reproofAnswer r.2

def execReproofDone (slow : BitVec 16) (s : State) : Host.Outcome State Fault Refusal := (s.reproofDone slow.toNat).done

end Sys2Proof.Machine
end

