-- ==== Sys2Proof/Machine/Security.lean ====
section
/-! DEFINITION. The security module and its mailbox (chapter 21). A command is the writing of GO with the
request it names in the buffer; the outcome of a cryptographic check is the command's operand. -/

namespace Sys2Proof.Machine

/-! ### The mailbox (R681, R683, R684) -/

/-- A window of 1 ms, and the 100 ms of a mailbox quarantine, in ticks. -/
def mbWindow : Nat := 1000000
def mbHold : Nat := 100000000

/-- R684, R696: a mailbox violation. -/
def State.mbViolation (s : State) (code cmd : Nat) : State :=
  let vs := s.time.now :: s.sec.vios.filter fun t => decide (s.time.now < t + mbWindow)
  let s := s.postCoarse s.home 913 0x91 0 [(0x14, 1, code), (0x16, 2, cmd), (0x18, 4, vs.length)]
  if 16 ≤ vs.length then { s with sec.vios := [], sec.quarTo := s.time.now + mbHold } else { s with sec.vios := vs }

/-- R684: the mailbox is quarantined. -/
def State.mbQuar (s : State) : Bool := decide (s.time.now < s.sec.quarTo)

/-- `n` bytes of the random generator. -/
def State.drbg (s : State) (n : Nat) : List Byte := (List.range n).map fun i => Config.drbgByte (s.freeCtr + i)

def State.drawN (s : State) (n : Nat) : State := { s with freeCtr := s.freeCtr + n }

/-- Other bytes that the module computes. -/
def State.crypto (s : State) (n : Nat) : List Byte := (List.range n).map fun i => Config.cryptoByte (s.freeCtr + i)

/-- R683: the response header and payload, with the next nonce. -/
def MbRun.response (r : MbRun) (nonce : List Byte) : List Byte :=
  leBytes 16 (packNat [(0, 2, r.cmd), (2, 1, r.status), (3, 1, if r.ind then 1 else 0), (4, 4, r.payload.length),
    (8, 4, r.tag.toNat), (12, 4, r.detail)]) ++ nonce ++ r.payload

/-- R684: write the response of a service. -/
def State.respond (s : State) (r : MbRun) : State :=
  let nonce := s.drbg 48
  let s := { s with
    sec.run := none
    sec.done := true
    sec.nonce := some nonce
    sec.resp := r.response nonce }
  let s := (s.drawN 48).fire 913
  if r.status = 3 then s.mbViolation 3 r.cmd else s

/-! ### Sealed items (R691, R695) -/

def SealMark.region (x : SealMark) : Region :=
  if x.count = 0 then .entry x.quarter x.env else .granules x.quarter x.first x.count

/-- A built last uses a region. -/
def State.builtUses (s : State) (r : Region) : Bool :=
  (s.place.lasts.toList.any fun m => m.built && s.lastUses m r) || (s.inJob && s.lastUses s.place.inEffect r)

/-- R691: clear the sealed items that meet `p`; one that a built last uses goes at the next job boundary, at once
while the device is idle. -/
def State.clearSealed (s : State) (p : SealMark → Bool) : State :=
  let mine := s.sec.marks.filter p
  let (later, now) := (mine.filter fun x => s.inJob && s.builtUses x.region, mine.filter fun x => !(s.inJob && s.builtUses x.region))
  let s := now.foldl State.clearMark s
  let s := { s with sec.marks := s.sec.marks.map fun x => if later.contains x then { x with doomed := true } else x }
  if later = [] then s else s.abortJob 2

/-- R691: at a job boundary the doomed items are cleared. -/
def State.clearDoomed (s : State) : State := (s.sec.marks.filter (·.doomed)).foldl State.clearMark s

/-- R695: the owner's keys go, and with them every sealed item. -/
def State.zeroizeOwner (s : State) : State :=
  { s.clearSealed fun _ => true with
    sec.owned := false
    sec.opk := []
    sec.uak := []
    sec.lks := []
    sec.nonce := none }

/-! ### What a service does at its end (R685, R686, R693, R695) -/

/-- R696: a patch and rollback record. -/
def State.patchRecord (s : State) (what slot version : Nat) : State :=
  s.postCoarse s.home 916 0x94 0 [(0x14, 1, what), (0x15, 1, slot), (0x16, 2, version), (0x18, 4, s.sec.rollback)]

/-- R696: a seal failure record. -/
def State.sealRecord (s : State) (r : MbRun) : State :=
  s.postCoarse s.home 917 0x95 0 [(0x14, 1, r.cmd), (0x15, 1, r.status), (0x16, 1, r.slot), (0x18, 4, r.ctx)]

/-- R693, R694, R696: the module's tests end; `failed` 0 is a pass. -/
def State.selftestEnd (s : State) (failed alg : Nat) : State :=
  { s with sec.testing := false, sec.err := failed != 0 }.postCoarse s.home 912 0x90 0
    [(0x14, 1, if failed = 0 then 0 else 1), (0x15, 1, failed), (0x16, 1, alg)]

def State.mbEffect (s : State) (e : MbEffect) : State :=
  match e with
  | .none => s
  | .zeroize full code =>
    ({ s.zeroizeOwner with sec.otpGone := s.sec.otpGone || full }).postCoarse s.home 915 0x93 0 [(0x14, 1, code)]
  | .takeOwner opk uak => { s with sec.owned := true, sec.opk := opk, sec.uak := uak }
  | .setUak uak => { s with sec.uak := uak }
  | .importLk slot key => { s with sec.lks := Table.set [] s.sec.lks slot key }
  | .deleteLk slot =>
    { s.clearSealed fun x => x.slot == slot with sec.lks := Table.set [] s.sec.lks slot [] }
  | .patch slot v rom image =>
    { s with sec.slots := s.sec.slots.set! slot { valid := true, version := v, rom := rom, image := image } }.patchRecord 0 slot v
  | .patchRefused slot v => s.patchRecord 1 slot v
  | .patchInt slot v => s.patchRecord 2 slot v
  | .rollback v =>
    { s with sec.rollback := v, sec.rollLeft := s.sec.rollLeft - 1 }.patchRecord 3 0 v
  | .selftest failed alg => s.selftestEnd failed alg
  | .importCal taps => s.stageTaps taps
  | .hostWrite a d => s.emit (.write a d)

/-- R694, R703 class 10: an uncorrectable error of the module's memory puts it in its error state, which answers the
service in hand (log 66). -/
def State.moduleError (s : State) (r : MbRun) : State :=
  let s := (s.eccError 10 0 0 (Config.freeWord s.freeCtr).toNat false).draw
  { s with sec.err := true }.respond { r with status := 7, ind := false, payload := [] }

/-- R684: the service in hand has run its time. -/
def State.serviceDone (s : State) (bad : Bool) : State :=
  match s.sec.run with
  | none => s
  | some r =>
    if r.pass ≠ 0 then s
    else if bad then s.moduleError r
    else (s.mbEffect r.effect).respond r

/-- SERVICE_DONE (R684). -/
def execServiceDone (s : State) (bad : Bool := false) : Host.Outcome State Fault Refusal := (s.serviceDone bad).done

/-! ### Submitting a request (R680 to R684, R694) -/

/-- R680: who may ask for a service: 0 anyone, 1 the User, 2 the CO. -/
abbrev MbRole := Nat

/-- R681: an authentication failure. -/
def State.authFail (s : State) (role : MbRole) : State :=
  let x := s.sec.roles[role - 1]?.getD {}
  let s := s.postCoarse s.home 914 0x92 0 [(0x14, 1, role)]
  if x.fails + 1 < 8 then { s with sec.roles := s.sec.roles.set! (role - 1) { x with fails := x.fails + 1 } }
  else
    let t := if x.lockS = 0 then 10 else min 1280 (2 * x.lockS)
    { s with sec.roles := s.sec.roles.set! (role - 1) { fails := 0, lockS := t, lockTo := s.time.now + t * 1000000000 } }.postCoarse
      s.home 914 0x92 0 [(0x14, 1, role), (0x15, 1, 1), (0x18, 4, t)]

/-- R681: an accepted authentication: the nonce is used up, the failures and the doubling are reset. -/
def State.authPass (s : State) (role : MbRole) : State :=
  { s with sec.nonce := none, sec.roles := s.sec.roles.set! (role - 1) {} }

/-- R681: a role is locked. -/
def State.roleLocked (s : State) (role : MbRole) : Bool :=
  decide (s.time.now < (s.sec.roles[role - 1]?.getD {}).lockTo)

/-- R683: the seconds of lockout that a role has left; a part of a second counts as one (log 66). -/
def State.lockLeft (s : State) (role : MbRole) : Nat :=
  ((s.sec.roles[role - 1]?.getD {}).lockTo - s.time.now + 999999999) / 1000000000

/-- R683, R694: MB_STAT. -/
def State.mbStat (s : State) : Nat :=
  (if s.sec.run.isSome then 2 ^ 31 else 0) + (if s.sec.done then 2 ^ 30 else 0)
    + (if s.sec.err then 2 ^ 29 else 0) + (if s.sec.err || s.sec.testing then 0 else 2 ^ 28)
    + (if s.sec.owned then 2 ^ 27 else 0) + (if s.sec.testing then 2 ^ 26 else 0) + (if s.mbQuar then 2 ^ 25 else 0)
    + min 0xFFFF (max (s.lockLeft 1) (s.lockLeft 2))

/-- R683: what a word of BAR4 reads: MB_STAT, the response buffer, and zero elsewhere (GO is WO, the request
buffer reads zero). -/
def State.mbWord (s : State) (a : Nat) : Nat :=
  if a = 4 then s.mbStat else if 0x8000 ≤ a then fieldAt s.sec.resp (a - 0x8000) 4 else 0

/-- R684: GO is discarded while a request is in hand, and in quarantine. -/
def State.goDiscarded (s : State) : Bool := s.sec.run.isSome || s.mbQuar

/-- The status that refuses a request before its service runs; 0 when it runs. -/
def State.mbRefusal (s : State) (cmd : Nat) (role : MbRole) (r : MbReq) : Nat :=
  if r.wellFormed = false then 3
  else if s.sec.err ∧ cmd ≠ 1 ∧ cmd ≠ 3 ∧ cmd ≠ 4 then 7
  else if role = 0 then 0
  else if s.sec.owned = false then 6
  else if s.roleLocked role then 2
  else if r.authOk && s.sec.nonce.isSome then 0 else 1

/-- A request whose service does nothing but answer a status. -/
def State.answerOnly (s : State) (x : MbRun) (status : Nat) : State := { s with sec.run := some { x with status := status } }

/-- R683: GO with a request; `work` is its service once the request is accepted. -/
def State.go (s : State) (cmd : Nat) (role : MbRole) (r : MbReq) (work : State → MbRun → State) : State :=
  let x : MbRun := { cmd := cmd, tag := r.tag }
  if s.goDiscarded then s.mbViolation 0xFF cmd
  else match s.mbRefusal cmd role r with
    | 0 => work (if role = 0 then s else s.authPass role) { x with ind := true, detail := (Config.freeWord s.freeCtr).toNat }
    | 1 => (s.authFail role).answerOnly x 1
    | n => s.answerOnly x n

/-- The service is carried out with a payload and an effect. -/
def State.serve (s : State) (x : MbRun) (payload : List Byte) (e : MbEffect) : State :=
  { s.draw with sec.run := some { x with payload := payload, effect := e } }

/-- The service ends with a status other than OK, and no effect but a record's. -/
def State.decline (s : State) (x : MbRun) (status : Nat) (e : MbEffect) : State :=
  { s.draw with sec.run := some { x with status := status, ind := false, effect := e } }

/-- DISCARDED_GO (R684): GO while the mailbox takes none, or with a CMD that names no service. -/
def mbServices : List Nat := [1, 2, 3, 4, 5, 6, 0x10, 0x11, 0x12, 0x13, 0x14, 0x15, 0x16, 0x20, 0x21, 0x22, 0x30]

def execDiscardedGo (r : MbReq) (cmd : BitVec 16) (s : State) : Host.Outcome State Fault Refusal :=
  .next (if s.goDiscarded then s.mbViolation 0xFF cmd.toNat
    else if mbServices.contains cmd.toNat then s
    else s.answerOnly { cmd := cmd.toNat, tag := r.tag } 3)

/-! ### Services that anyone may ask for -/

/-- STATUS (R682). -/
def execStatus (r : MbReq) (s : State) : Host.Outcome State Fault Refusal :=
  .next (s.go 1 0 r fun s x => s.serve { x with ind := false } (Config.servicePayload 1 s.freeCtr) .none)

/-- NONCE (R682): every response carries the next nonce. -/
def execNonce (r : MbReq) (s : State) : Host.Outcome State Fault Refusal :=
  .next (s.go 2 0 r fun s x => s.serve x [] .none)

/-- SELFTEST (R693): `failed` is the failed test (0: none), `alg` its algorithm. -/
def execSelftest (r : MbReq) (failed : Fin 5) (alg : Fin 7) (s : State) : Host.Outcome State Fault Refusal :=
  .next (s.go 3 0 r fun s x =>
    { s with sec.testing := true }.serve { x with ind := failed == 0 } [] (.selftest failed.val alg.val))

/-- GET_CERTS (R682). -/
def execGetCerts (r : MbReq) (s : State) : Host.Outcome State Fault Refusal :=
  .next (s.go 6 0 r fun s x => s.serve { x with ind := false } (Config.servicePayload 6 s.freeCtr) .none)

/-- R689, R695: a pass of UNSEAL_LOAD ends with BAD_BLOB; what it wrote is cleared. -/
def State.unsealFail (s : State) (r : MbRun) : State :=
  let r := { r with status := 4, ind := false, pass := 0 }
  let s := r.wrote.foldl (fun s e => s.clear (envTableBase (e / 4096) + e % 4096 * 16) 16) s
  let s := r.wroteGr.foldl (fun s e => s.clear (envBase e.1 + e.2.1 * 64) (e.2.2 * 64)) s
  (s.sealRecord r).answerOnly r 4

/-- ZEROIZE (R695): a pass of UNSEAL_LOAD in progress is ended first, and answered. -/
def State.zeroize (s : State) (r : MbReq) (full : Bool) : State :=
  let s := match s.sec.run with
    | some u => if u.pass ≠ 0 ∧ s.mbQuar = false then (s.unsealFail u).serviceDone false else s
    | none => s
  s.go 4 0 r fun s x => s.serve x [] (.zeroize full (if full then 1 else 0))

def execZeroize (r : MbReq) (full : Bool) (s : State) : Host.Outcome State Fault Refusal := .next (s.zeroize r full)

/-- TAKE_OWNER (R680, R682): on a device with an owner the status is one the spec does not state. -/
def execTakeOwner (r : MbReq) (opk uak : List Byte) (tagOk : Bool) (s : State) : Host.Outcome State Fault Refusal :=
  .next (s.go 0x10 0 r fun s x =>
    if s.sec.owned then s.decline x (Config.freeWord s.freeCtr).toNat .none
    else if tagOk then s.serve x [] (.takeOwner opk uak) else s.decline x 4 .none)

/-! ### Services of the CO -/

/-- SET_UAK (R682). -/
def execSetUak (r : MbReq) (uak : List Byte) (tagOk : Bool) (s : State) : Host.Outcome State Fault Refusal :=
  .next (s.go 0x11 2 r fun s x => if tagOk then s.serve x [] (.setUak uak) else s.decline x 4 .none)

/-- IMPORT_LK (R679, R682). -/
def execImportLk (r : MbReq) (slot : Fin 16) (key : List Byte) (tagOk : Bool) (s : State) : Host.Outcome State Fault Refusal :=
  .next (s.go 0x12 2 r fun s x => if tagOk then s.serve x [] (.importLk slot.val key) else s.decline x 4 .none)

/-- A library key slot holds a key. -/
def State.hasLk (s : State) (slot : Nat) : Bool := Table.get [] s.sec.lks slot != []

/-- DELETE_LK (R682, R691). -/
def execDeleteLk (r : MbReq) (slot : Fin 16) (s : State) : Host.Outcome State Fault Refusal :=
  .next (s.go 0x13 2 r fun s x =>
    if s.hasLk slot.val then s.serve x [] (.deleteLk slot.val) else s.decline x 6 .none)

/-- R685: the slot that INSTALL_PATCH writes. -/
def State.patchTarget (s : State) : Nat := if s.eng.result = 0 then 1 else 0

/-- INSTALL_PATCH (R685): the slot is invalid while it is written. -/
def State.installPatch (s : State) (x : MbRun) (version rom : Nat) (image : List Byte) (sigOk : Bool) : State :=
  let t := s.patchTarget
  if sigOk = false ∨ rom ≠ romVersion ∨ s.sec.otpGone = true then s.decline x 4 (.patchRefused t version)
  else if version < s.sec.rollback then s.decline x 5 (.patchRefused t version)
  else if s.nv.refuse then s.decline x 8 (.patchInt t version)
  else
    { s with sec.slots := s.sec.slots.set! t { s.patchSlot t with valid := false } }.serve x [] (.patch t version rom image)

def execInstallPatch (r : MbReq) (version rom : BitVec 16) (image : List Byte) (sigOk : Bool) (s : State) :
    Host.Outcome State Fault Refusal :=
  .next (s.go 0x14 2 r fun s x => s.installPatch x version.toNat rom.toNat image sigOk)

/-- R451: GLB_VER.PATCH, the patch version of the active cobbler. -/
def State.patchVersion (s : State) : Nat := s.eng.version[s.eng.active]!

/-- ADVANCE_ROLLBACK (R686): DETAIL gives the advances left. -/
def execAdvanceRollback (r : MbReq) (s : State) : Host.Outcome State Fault Refusal :=
  .next (s.go 0x15 2 r fun s x =>
    let v := s.patchVersion
    if v ≤ s.sec.rollback then s.decline { x with detail := s.sec.rollLeft } 5 .none
    else if s.sec.rollLeft = 0 then s.decline { x with detail := 0 } (Config.freeWord s.freeCtr).toNat .none
    else s.serve { x with detail := s.sec.rollLeft - 1 } [] (.rollback v))

/-- RELEASE_OWNER (R682, R695). -/
def execReleaseOwner (r : MbReq) (s : State) : Host.Outcome State Fault Refusal :=
  .next (s.go 0x16 2 r fun s x => s.serve x [] (.zeroize false 2))

/-! ### Services of the User -/

/-- RANDOM (R682): 1 to 4,096 bytes. -/
def execRandom (r : MbReq) (n : Fin 4097) (s : State) : Host.Outcome State Fault Refusal :=
  .next (s.go 5 1 { r with wellFormed := r.wellFormed && n != 0 } fun s x => (s.serve x (s.drbg n.val) .none).drawN n.val)

/-- R688: the address of every tap word, in the order of the CAL block. -/
def calBlock : List Nat :=
  ([1, 2, 3, 4, 5, 6]).flatMap fun t => (List.range (calLast t + 1)).flatMap (calAddrs t)

/-- R688: the bytes that SEAL_CAL writes: the header's fixed fields, and what the module computes. -/
def State.sealedCal (s : State) (slot : Nat) : List Byte :=
  let n := 64 + 4 * calBlock.length + 16
  leBytes 12 (packNat [(0, 4, 1), (4, 1, 1), (5, 1, slot), (8, 4, n)]) ++ s.drbg 12
    ++ leBytes 4 (Config.freeWord s.freeCtr).toNat ++ List.replicate 36 0 ++ s.crypto (n - 64)

/-- SEAL_CAL (R682, R688). -/
def execSealCal (r : MbReq) (c : Fin 1024) (slot : Fin 16) (addr : BitVec 64) (s : State) :
    Host.Outcome State Fault Refusal :=
  .next (s.go 0x21 1 { r with wellFormed := r.wellFormed && s.inWindow c addr.toNat (80 + 4 * calBlock.length) true } fun s x =>
    let x := { x with slot := slot.val, ctx := c.val }
    if s.hasLk slot.val then (s.serve x [] (.hostWrite addr.toNat (s.sealedCal slot.val))).drawN 16
    else s.decline x 6 .none)

/-- R12, R688: a blob's header departs from the layout: VERSION, KIND, SLOT, the number of entries, LEN, bits 31:18
of a DEVID that names a device, or the zero bytes. -/
def sealHdrBad (hdr : List Byte) (kind slot ents len : Nat) : Bool :=
  decide (hdr.length ≠ 64 ∨ fieldAt hdr 0 4 ≠ 1 ∨ fieldAt hdr 4 1 ≠ kind ∨ fieldAt hdr 5 1 ≠ slot ∨ fieldAt hdr 8 4 ≠ len)
    || (kind == 0 && decide (ents = 0 ∨ 4096 < ents ∨ fieldAt hdr 6 2 ≠ ents))
    || decide (2 ^ 18 ≤ fieldAt hdr 0x18 4 ∧ fieldAt hdr 0x18 4 ≠ 0xFFFFFFFF)
    || (List.range 36).any fun i => fieldAt hdr (0x1C + i) 1 != 0

/-- R688: the DEVID of a header. -/
def sealDev (hdr : List Byte) : Nat := fieldAt hdr 0x18 4

/-- R688: a blob is for this device. -/
def State.blobMine (s : State) (devid : Nat) : Bool := devid == 0xFFFFFFFF || devid % 2 ^ 18 == s.deviceId

/-- IMPORT_CAL (R645, R682, R688): a header or a length that is not the layout's is MALFORMED. -/
def execImportCal (r : MbReq) (slot : Fin 16) (tagOk : Bool) (hdr : List Byte) (taps : List Word) (s : State) :
    Host.Outcome State Fault Refusal :=
  .next (s.go 0x22 1 r fun s x =>
    let x := { x with slot := slot.val }
    if s.hasLk slot.val = false then s.decline x 6 .none
    else if tagOk = false then (s.sealRecord { x with status := 4 }).decline x 4 .none
    else if sealHdrBad hdr 1 slot.val 0 (80 + 4 * taps.length) ∨ taps.length ≠ calBlock.length then s.decline x 3 .none
    else if s.blobMine (sealDev hdr) then s.serve x [] (.importCal (calBlock.zip taps))
    else (s.sealRecord { x with status := 4 }).decline x 4 .none)

/-- R692: the report without its signature. -/
def State.attestBody (s : State) (nonce : List Byte) : List Byte :=
  let lks := (List.range 16).foldl (fun a k => if s.hasLk k then a + 2 ^ k else a) 0
  leBytes 48 (packNat [(0, 4, 1), (4, 4, s.deviceId), (8, 12, s.coarseStamp.bits),
    (0x14, 4, (if s.sec.err || s.sec.testing then 0 else 1) + (if s.sec.owned then 2 else 0)),
    (0x18, 2, Config.moduleVersion.toNat), (0x1A, 2, romVersion),
    (0x1C, 2, s.eng.version[0]), (0x1E, 2, s.eng.version[1]), (0x20, 2, s.sec.rollback), (0x22, 2, lks)])
    ++ (nonce ++ List.replicate 48 0).take 48
    ++ (if s.patchVersion = 0 then List.replicate 48 0 else s.crypto 48)
    ++ (if s.sec.owned then (s.drawN 48).crypto 48 else List.replicate 48 0)

/-- ATTEST (R692); after a full zeroization the device cannot attest (R695), with a status the spec does not
state. -/
def execAttest (r : MbReq) (nonce : List Byte) (s : State) : Host.Outcome State Fault Refusal :=
  .next (s.go 0x30 1 r fun s x =>
    if s.sec.otpGone then s.decline x (Config.freeWord s.freeCtr).toNat .none
    else (s.serve x (s.attestBody nonce ++ (s.drawN 96).crypto 96) .none).drawN 192)

/-! ### UNSEAL_LOAD (R689 to R691) -/

/-- UNSEAL_LOAD (R689): the first pass begins. -/
def execUnsealLoad (r : MbReq) (c : Fin 1024) (slot : Fin 16) (addr : BitVec 64) (len : Word) (s : State) :
    Host.Outcome State Fault Refusal :=
  let ok := decide (80 ≤ len.toNat ∧ len.toNat ≤ 33554432) && s.inWindow c addr.toNat len.toNat false
  .next (s.go 0x20 1 { r with wellFormed := r.wellFormed && ok } fun s x =>
    let x := { x with slot := slot.val, ctx := c.val, addr := addr.toNat, len := len.toNat }
    if s.hasLk slot.val then
      { s.draw with sec.run := some { x with pass := 1 } }.emit (.read addr.toNat len.toNat)
    else s.decline x 6 .none)

end Sys2Proof.Machine

namespace Sys2Proof

def SealEnt.quarter (e : SealEnt) : Nat := fieldAt e.hdr 0 1
def SealEnt.env (e : SealEnt) : Nat := fieldAt e.hdr 2 2
/-- The envelope table entry that the header holds. -/
def SealEnt.entry (e : SealEnt) : List Byte := (e.hdr.drop 16).take 16
def SealEnt.base (e : SealEnt) : Nat := fieldAt e.entry 0 4 % 2 ^ 17
def SealEnt.granules (e : SealEnt) : Nat := e.data.length / 64

/-- R103, R688, R689: a structural violation in an entry. -/
def SealEnt.bad (e : SealEnt) : Bool :=
  decide (e.hdr.length ≠ 32 ∨ 3 < e.quarter ∨ 4094 < e.env ∨ e.data.length % 64 ≠ 0 ∨ fieldAt e.hdr 4 4 ≠ e.data.length)
  || ([1, 8, 9, 10, 11, 12, 13, 14, 15]).any (fun o => fieldAt e.hdr o 1 != 0)
  || decide (Machine.envGranules < e.base + e.granules) || (Machine.entryFault e.entry).isSome

def SealEnt.regions (e : SealEnt) : List Machine.Region :=
  .entry e.quarter e.env :: (if e.granules = 0 then [] else [.granules e.quarter e.base e.granules])

end Sys2Proof

namespace Sys2Proof.Machine

/-- R689, R691: load one entry, as a LOAD_ENVELOPE of context c, with its sealed marks. -/
def State.unsealEntry (s : State) (r : MbRun) (e : SealEnt) : State :=
  let s := (entryClamps e.entry).foldl (fun s k => s.descClamp r.ctx 0xFFFF 1 k.1 k.2.2.1 k.2.2.2) s
  let s := s.writeEnvelope e.quarter e.env e.entry e.data
  let m : SealMark := { quarter := e.quarter, env := e.env, slot := r.slot }
  { s with sec.marks := s.sec.marks ++ m :: (if e.granules = 0 then [] else
      [{ m with env := 0, first := e.base, count := e.granules }]) }

/-- The entries of the second pass, as the run notes them. -/
def MbRun.noted (r : MbRun) (ents : List SealEnt) : MbRun :=
  { r with
    wrote := ents.map fun e => e.quarter * 4096 + e.env
    wroteGr := ents.map fun e => (e.quarter, e.base, e.granules) }

/-- R688: the bytes of a blob of these entries. -/
def blobLen (ents : List SealEnt) : Nat := 80 + (ents.map fun e => 32 + e.data.length).sum

/-- R21, R689: the running job uses what an entry writes, by a last that was built after the first pass. -/
def State.entryInUse (s : State) (e : SealEnt) : Bool := s.inJob && e.regions.any (s.lastUses s.place.inEffect)

/-- R689: a pass ends: whether the tag matches, the blob's header, and the entries it holds. -/
def State.passEnd (s : State) (tagOk : Bool) (hdr : List Byte) (ents : List SealEnt) : State :=
  match s.sec.run with
  | none => s
  | some r =>
    if r.pass = 1 then
      if tagOk = false then s.unsealFail r
      else if sealHdrBad hdr 0 r.slot ents.length r.len ∨ r.len ≠ blobLen ents ∨ ents.any SealEnt.bad then s.answerOnly { r with pass := 0, ind := false } 3
      else if s.blobMine (sealDev hdr) = false then s.unsealFail r
      else if ents.any fun e => e.regions.any s.builtUses then s.answerOnly { r with pass := 0, ind := false } 9
      else { s with sec.run := some { r with pass := 2 } }.emit (.read r.addr r.len)
    else if r.pass = 2 then
      if s.cobblerUp = false ∨ ents.any s.entryInUse = true then s
      else
        let ents := ents.filter fun e => !e.bad
        let s := ents.foldl (fun s e => s.unsealEntry r e) s
        if tagOk then s.answerOnly { r with pass := 0 } 0
        else
          let s := ents.foldl (fun s e => (s.unmarkEntry e.quarter e.env).unmarkRun e.quarter e.base e.granules) s
          s.unsealFail (r.noted ents)
    else s

/-- UNSEAL_PASS_END (R689, R690). -/
def execUnsealPassEnd (tagOk : Bool) (hdr : List Byte) (ents : List SealEnt) (s : State) :
    Host.Outcome State Fault Refusal :=
  .next (s.passEnd tagOk hdr ents)

/-! ### Time and health -/

/-- LOCKOUT_END (R681). -/
def execLockoutEnd (co : Bool) (s : State) : Host.Outcome State Fault Refusal :=
  let k := if co then 1 else 0
  let x := s.sec.roles[k]?.getD {}
  .next (if x.lockTo = 0 ∨ s.time.now < x.lockTo then s
    else { s with sec.roles := s.sec.roles.set! k { x with lockTo := 0 } })

/-- MAILBOX_QUARANTINE_END (R684). -/
def execMailboxQuarantineEnd (s : State) : Host.Outcome State Fault Refusal :=
  .next (if s.mbQuar then s else { s with sec.quarTo := 0 })

/-- ENTROPY_HEALTH_FAILURE (R693, R694). -/
def execEntropyHealthFailure (s : State) : Host.Outcome State Fault Refusal :=
  State.done ({ s with sec.err := true }.postCoarse s.home 912 0x90 0 [(0x14, 1, 1), (0x15, 1, 3), (0x16, 1, 6)])

end Sys2Proof.Machine
end

