-- ==== Sys2Proof/Machine/Jobs.lean ====
section
/-! DEFINITION. Jobs, shots and boundaries (chapter 01), with the checks of a RUN or CAPTURE at its
start (R484) and the end of a running job under an orderly stop (R670). -/

namespace Sys2Proof.Machine

/-! ### Boundary work (R21, R26, R27) -/

/-- R26: a commit, staged taps or a step of VDD_INS is pending. -/
def State.workDue (s : State) : Bool :=
  s.cfg.pending || !s.cal.staged.isEmpty || s.vinsWant != s.pwr.vins

/-- LAST_ID of a RUN or CAPTURE, clamped (R483). -/
def Desc.lastId (d : Desc) : Nat := min 3 (d.at_ 0x1C 1)

/-- R21, R26: the built last that the next job needs and that is not in effect. -/
def State.lastDue (s : State) : Option Nat :=
  match s.nextJob with
  | none => none
  | some (_, d) =>
    let m := s.last d.lastId
    if m.built ∧ m.stale = false ∧ (s.place.live ≠ some d.lastId ∨ s.place.inEffect.version ≠ m.version) then
      some d.lastId
    else none

/-- R26, R654, R655: a rise of the rung that is due, to Run or another rung above the one in force. -/
def State.riseDue (s : State) : Option (Nat × Nat) :=
  match s.rungDue.or s.wakeDue with
  | some (dst, cause) => if dst < s.pwr.rung ∧ s.pwr.rung ≠ 4 then some (dst, cause) else none
  | none => none

/-- R27, R131, R216: every sequencer of the last in effect stands at its entry address, ready to issue. -/
def State.prepareShot (s : State) : State :=
  let s := s.place.inEffect.seqs.foldl (fun s e => s.updSeq e.1 fun x => { x with
    st := .issue, pc := BitVec.ofNat 12 e.2.1, entry := BitVec.ofNat 12 e.2.1, cursor := 0
    loopCnt := Vector.replicate 4 0, shiftSum := 0, cslots := Vector.replicate 4 CSlot.void
    branch := none, timeReq := none, jumps := [], segEnds := [], uses := [], haltPend := false, conds := [] }) s
  { s with job.prepared := true }

/-- BOUNDARY_WORK_START (R21, R23, R26, R453, R645): everything that is pending starts, but what became
pending during earlier work of the same job boundary (R23). With nothing pending there is no work, and the
sequencers run. -/
def State.workStart (s : State) : State :=
  if s.job.work || !s.atBoundary || !s.cobblerUp || s.sys.boot then s
  else
    let shot := s.job.phase == .shotBoundary
    let later := s.job.worked && !shot && s.anyReady
    let commit := s.cfg.pending && !later
    let s := if commit then s.commitStart else s
    let taps := !s.cal.staged.isEmpty && !later
    let s := if taps then s.takeStaged else s
    let vins := s.vinsWant != s.pwr.vins && !later
    let last := if shot then none else s.lastDue
    let rise := if shot then none else s.riseDue
    if commit || taps || vins || last.isSome || rise.isSome then
      let s := match rise with
        | some (dst, cause) =>
          (if cause = 0 then { s with pwr.rungReq := none } else s).startRise dst cause
        | none => s
      { s with
        job.work := true
        job.workCommit := commit
        job.workTaps := taps
        job.workVins := vins
        job.workStep := s.vinsWant
        job.workLast := last.isSome
        job.nextLast := last
        job.workAt := if shot then 0 else if s.anyReady || s.job.atEnd then 1 else 2
        job.atEnd := false }
    else if shot then s.fluxPresets.prepareShot.leadNow
    else { s.fluxPresets with job.atEnd := false }

def execBoundaryWorkStart (s : State) : Host.Outcome State Fault Refusal := s.workStart.done

/-- Streams begin anew: nothing of their data has arrived. -/
def State.restartStreams (s : State) : State :=
  let up : Nat × Stream → Nat × Stream := fun e => (e.1, { e.2 with
    off := 0, arrived := 0, under := false, issued := 0, played := 0, next := 0 })
  { s with sq.streams := s.sq.streams.map up }

/-- R21, R384: a last takes effect, unless it has become stale meanwhile. -/
def State.putLast (s : State) (n : Nat) : State :=
  let m := s.last n
  if m.built ∧ m.stale = false then { s with place.live := some n, place.inEffect := m }.restartStreams else s

/-- R26: no boundary work is in progress. -/
def State.workOver (s : State) : State :=
  { s with
    job.work := false
    job.workCommit := false
    job.workTaps := false
    job.workVins := false
    job.workLast := false
    job.workRung := false
    job.nextLast := none }

/-- BOUNDARY_WORK_END (R27, R31, R457, R645, R653): everything the work applies is in force. -/
def State.workEnd (s : State) : State :=
  if !s.job.work || !s.cobblerUp then s
  else
    let w := s.job
    let s := if w.workCommit then (s.commitEnd w.workAt).postBoot else s
    let s := if w.workTaps then s.applyTaps w.workAt else s
    let s := if w.workVins then s.vinsDone else s
    let s := match w.nextLast with
      | some n => s.putLast n
      | none => s
    let s := if w.workRung then s.riseDone else s
    let s := s.workOver.fluxPresets
    let s := { s with job.worked := w.workAt == 1 && s.anyReady && s.workDue }
    if w.phase = .shotBoundary then s.prepareShot.leadNow else s.standbyMode

def execBoundaryWorkEnd (s : State) : Host.Outcome State Fault Refusal := s.workEnd.done

/-! ### The start of a job (R18, R33, R484) -/

/-- R167: each stream of the last is full or holds all of its data for the first shot. -/
def State.streamsReady (s : State) : Bool :=
  s.place.inEffect.streams.all fun e =>
    let t := Table.get {} s.sq.streams (e.1 * 16 + e.2.1)
    !t.bound || s.streamFree e.1 e.2.1 == 0 || decide (s.streamShot e.1 e.2.1 ≤ t.arrived)

/-- R18, R21, R655, R662, R665, R670, R700: the device may start a job now. -/
def State.jobMayStart (s : State) : Bool :=
  s.job.phase == .idle && s.job.job.isNone && s.job.closing.isNone && s.job.ending.isNone && !s.job.work
    && (!s.workDue || s.job.worked) && s.lastDue.isNone
    && s.cobblerUp && !s.stopped && !s.jobsHeld && !s.sys.refLost && s.time.locked && s.pwr.rung == 0
    && !s.pwr.toDeep && !s.sys.boot

/-- INPUTS as written (CAPTURE only). -/
def Desc.inputs (d : Desc) : Nat := if d.op = 6 then d.at_ 0x20 4 else 0

/-- R484: a ring that the job needs is missing: the place of the violation with cause 12. -/
def State.ringFault (s : State) (c : Nat) (d : Desc) : Option Nat :=
  if s.ringSize c Reg.CTX_SIZE.RES = 0 then some 0
  else if d.inputs ≠ 0 ∧ s.ringSize c Reg.CTX_SIZE.CAP = 0 then some 0x20
  else none

/-- R484: the refusal code of a RUN or CAPTURE against its last. -/
def State.jobRefusal (s : State) (d : Desc) : Option Nat :=
  let m := s.last d.lastId
  if m.built = false then some 0x00
  else if m.stale then some 0x19
  else if s.linkCapacity.2 = 0 then some 0x13
  else if m.streams.any fun e => !(Table.get {} s.sq.streams (e.1 * 16 + e.2.1)).bound then some 0x08
  else none

/-- R484: the job's extent of a bound stream lies outside every window. -/
def State.extentFault (s : State) (c : Nat) (d : Desc) : Bool :=
  s.place.inEffect.streams.any fun e =>
    let t := Table.get {} s.sq.streams (e.1 * 16 + e.2.1)
    !s.inWindow c t.base ((max 1 (d.at_ 8 4) - 1) * t.stride + s.streamShot e.1 e.2.1 * 4) false

/-- R29, R61: the named start time in ns of device time, a fraction rounded up. -/
def Desc.startTime (d : Desc) : Option Nat :=
  let v := d.at_ 0x10 12
  if bitOf (d.at_ 0x1D 1) 0 then
    some (stampSec v * 1000000000 + min 999999999 (stampNs v) + if v % 65536 = 0 then 0 else 1)
  else none

/-- R177, R287, R317, R327, R333, R342: what arming a job's units clears. -/
def State.armUnits (s : State) : State :=
  let m := s.place.inEffect
  let s := m.seqs.foldl (fun s e => s.updSeq e.1 fun x => { edges := x.edges }) s
  let clear (x : Plane) : Plane := { x with slots := [], fires := [] }
  let fresh (x : DecDyn) : DecDyn := { late := x.late }
  let s := { s with
    rdo.made := []
    planes.dp := s.planes.dp.map clear
    planes.keys := #v[s.planes.keys[0], [], [], []]
    dec.dyn := s.dec.dyn.map fresh
    dec.outs := Vector.replicate 2 0
    sq.bars := [] }
  m.dsps.foldl State.startDsp s

/-- R18, R28, R29, R33: arm a job's sequencers. -/
def State.arm (s : State) (c : Nat) (d : Desc) : State :=
  let used := d.inputs &&& s.place.inEffect.capin
  let s := if used = d.inputs then s else s.descClamp c d.index 0 0x20 d.inputs used
  let d := { (s.desc c d.index).getD d with phase := .running }
  let s := (s.setDesc c d).armUnits
  let s := { s with
    job.job := some { ctx := c, index := d.index, capture := d.op == 6, shots := max 1 (d.at_ 8 4), period := d.at_ 0x0C 4
                      start := d.startTime, lastId := d.lastId, abortInv := bitOf (d.at_ 0x1D 1) 1, inputs := used }
    job.phase := .armed
    job.lastCtx := c + 1
    job.bridge := 0
    job.silent := false
    job.worked := false
    job.delayedFrom := 0
    job.gapLate := false }
  s.captureLimit.prepareShot.leadNow

/-- JOB_START (R18, R167, R484, R499): the next ready job is checked against its last and armed. The
field of an extent's violation is a value the spec does not state (log 8). -/
def State.jobStart (s : State) (werr at_ : Nat) : State :=
  match s.nextJob with
  | none => s
  | some (c, d) =>
    if s.jobMayStart = false then s
    else if werr ≠ 0 then s.workError werr at_
    else match s.ringFault c d, s.jobRefusal d with
      | some place, _ => s.refuseDesc c d 12 0 place
      | none, some code => s.completeNow c d 2 code 0
      | none, none =>
        if s.extentFault c d then (s.refuseDesc c d 4 0 ((Config.freeWord s.freeCtr).toNat % 64)).draw
        else if s.streamsReady then s.arm c d
        else s

def execJobStart (w : WorkError) (s : State) : Host.Outcome State Fault Refusal :=
  (s.jobStart w.err w.at_.toNat).done

/-! ### The start of a shot (R28 to R32, R42, R91, R243) -/

/-- R91: a generator at sample 0 of the present tick: `f` its committed frequency, `abs` its phase reference. -/
def State.startGen (s : State) (old : Gen) (f : Nat) (init : Nat) (abs : Bool) : Gen :=
  { freq := BitVec.ofNat 48 f
    frame := BitVec.ofNat 32 init
    acc := if abs then BitVec.ofNat 48 (f * 16 * s.time.dev.abs) else 0
    accAt := s.time.now * 16
    pulse := old.pulse }

/-- R91: every tone generator at the start of a shot; the flux generators keep their pulses. -/
def State.startGens (s : State) : Table Gen :=
  ((List.range 1024).map fun k =>
    let i := [k / 256, k % 256]
    (k, s.startGen (s.gen (k / 256) (k % 256)) (s.rd Reg.GEN_FREQ_LO.FREQ_LO i + s.rd Reg.GEN_FREQ_HI.FREQ_HI i * 2 ^ 32)
      (s.rd Reg.GEN_PHASE.INIT i) (s.flag Reg.GEN_CTL.PHASE_REF i)))
  ++ s.outs.gens.filter fun e => decide (1024 ≤ e.1)

/-- R243: every down-conversion tone at the start of a shot. -/
def State.startTones (s : State) : Table Gen :=
  (List.range 512).map fun k =>
    let i := [k / 128, k % 128]
    (k, s.startGen (s.tone (k / 128) (k % 128)) (s.rd Reg.DDC_FREQ_LO.FREQ_LO i + s.rd Reg.DDC_FREQ_HI.FREQ_HI i * 2 ^ 32)
      (s.rd Reg.DDC_PHASE.INIT i) (s.flag Reg.DDC_CTL.PHASE_REF i))

/-- R29, R31, R42, R54, R429, R629, R662, R665, R740: the next shot starts at this tick. -/
def State.shotDue (s : State) : Bool :=
  (s.job.phase == .armed || s.job.phase == .shotBoundary) && s.job.prepared && !s.job.work
    && decide (s.job.startTick ≤ s.time.now) && !s.time.holding && !s.stopped && !s.shotsHeld && s.cobblerUp
    && !s.calBlocks && (s.job.phase == .shotBoundary || (!s.rangeBusy && !s.loadsPending))

/-- R32, R42, R630: the shot that starts now is late. -/
def State.lateStart (s : State) (j : Job) : Bool :=
  decide (j.period ≠ 0) && ((s.job.phase == .shotBoundary && decide (s.job.prevStart + j.period < s.time.now))
    || s.job.delayedFrom != 0 || s.job.gapLate)

/-- R30: the named start time is earlier than the first tick allowed. -/
def State.startSlips (s : State) (j : Job) : Bool :=
  s.job.phase == .armed && match j.start with
    | some d => decide (s.tickOf d < s.job.leadFrom + 1000)
    | none => false

/-- R652: the record of a shot that a calibration step has delayed goes to the CALIBRATE's context. -/
def State.delayRecord (s : State) (j : Job) : State :=
  if s.job.delayedFrom = 0 then s
  else
    let c := match s.cal.run with
      | some r => r.ctx
      | none => s.home
    s.post c .event 850 0x7A 0 s.nowStamp
      [(0x14, 4, j.shot), (0x18, 4, s.time.now + 1 - s.job.delayedFrom)]

/-- R41: an interruptible calibration step on a unit of the running job's last suspends. -/
def State.calYield (s : State) : State :=
  match s.cal.run with
  | some r => if s.calUsed r.curT r.curU then s.calSuspend else s
  | none => s

/-- SHOT_START (R29, R31, R32, R41, R91, R243): this tick is S. -/
def State.shotStart (s : State) : State :=
  match s.job.job with
  | none => s
  | some j =>
    if s.shotDue = false then s
    else
      let late := s.lateStart j
      let slip := s.startSlips j
      let s := (s.delayRecord j).calYield
      let s := s.updJob fun j => { j with
        startSlip := j.startSlip || slip
        late := if late then incHold 0xFFFF j.late else j.late
        shotInvalid := j.shotInvalid || s.planes.suspect }
      let fresh : Nat × Chan → Nat × Chan := fun e => (e.1, { e.2 with clipSeen := false, inactSeen := false })
      State.captureShot { s with
        job.phase := .inShot
        job.startTick := s.time.now
        job.delayedFrom := 0
        job.gapLate := false
        outs.gens := s.startGens
        outs.tones := s.startTones
        outs.chans := s.outs.chans.map fresh
        rdo.ovrSeen := []
        rdo.hist := []
        rdo.closed := [] }

def execShotStart (s : State) : Host.Outcome State Fault Refusal := .next s.shotStart

/-! ### The end of a shot (R19, R20) -/

/-- The welt queues of the job's channels. -/
def State.jobQueues (s : State) : List Nat := (s.place.inEffect.seqs.map fun e => s.owned e.1).flatten

/-- R19: a pulse of a queue's channel still has samples to play; a held level has none. -/
def State.stillPlaying (s : State) (w : Nat) : Bool :=
  match queueChan (w / 72) (w % 72) with
  | none => false
  | some ch =>
    let keys := if ch < 160 then (gensOf (ch % 40)).map (ch / 40 * 256 + ·) else [fluxGen (ch - 160)]
    keys.any fun n => match (Table.get {} s.outs.gens n).pulse with
      | some p => decide (s.time.now * queueUnit (w % 72) < p.start + p.len)
      | none => false

/-- R19: both planes that work have received every token of the shot, those of the processors included. -/
def State.tokensIn (s : State) : Bool :=
  (s.planes.dp.toList.all fun x => x.mode != .up || (x.toks.isEmpty && x.syns.isEmpty))
    && s.place.inEffect.dsps.all fun k =>
      let d := s.dsp k
      d.st == .stopped || (d.queue ++ d.cur.toList).all fun p => !p.tok || p.sent

/-- R20: all five conditions of R19 hold. -/
def State.shotOver (s : State) : Bool :=
  s.job.phase == .inShot
    && (s.place.inEffect.seqs.all fun e => (s.seq e.1).st == .done || (s.seq e.1).st == .stopped)
    && (s.jobQueues.all fun w => s.queueLoad w == 0 && !s.stillPlaying w)
    && s.rdo.wins.isEmpty && s.tokensIn && s.decFinal 0 && s.decFinal 1

/-- R77: a halted queue of the shot is free again, and its channel returns to terminated. -/
def State.unhalt (s : State) (w : Nat) : State :=
  let s := match (s.queue w).halted, queueChan (w / 72) (w % 72) with
    | true, some k => if (s.chan k).st = 1 then s.terminate k else s
    | _, _ => s
  s.updQueue w fun _ => {}

/-- R166, R169: a stream at the end of a shot that consumes `c` samples. -/
def Stream.nextShot (t : Stream) (c : Nat) : Stream :=
  if t.under then { t with off := t.off + t.arrived, arrived := t.next, next := 0, under := false, issued := 0, played := 0 }
  else { t with off := t.off + c, arrived := t.arrived - c, issued := 0, played := 0 }

def State.streamsShot (s : State) : State :=
  { s with sq.streams := s.sq.streams.map fun e => (e.1, e.2.nextShot (s.streamShot (e.1 / 16) (e.1 % 16))) }

/-- R77, R152, R162, R226, R260, R326: what the end of a shot clears. -/
def State.closeShot (s : State) : State :=
  let idx := s.shotIdx
  let s := s.captureShotEnd.driftUpdate.slotFlush.decNewShot
  let s := (s.jobQueues.foldl State.unhalt s).streamsShot
  let drop : Nat × Seq → Nat × Seq := fun e => (e.1, { e.2 with conds := [], owed := [] })
  { s with
    outs.cmps := []
    sq.seqs := s.sq.seqs.map drop
    sq.bars := []
    sq.frames := s.sq.frames.filter fun f => f.2.2.1 != idx % 65536 }

/-! ### The end of a job (R19, R35, R211, R486 to R489) -/

/-- R35: the side effects of the job that the interlock unit holds are performed. -/
def State.flushSide : Nat → State → State
  | 0, s => s
  | n + 1, s => State.flushSide n s.interlock

/-- R486, R488, R489, R670, R450: what the completion of the job will say; none is posted under cause 5 of an
orderly stop, or after a host-interface reset. -/
def State.closingOf (s : State) (j : Job) : Closing :=
  let aborted := decide (j.abort ≠ 0 ∧ j.done < j.shots)
  { ctx := j.ctx, index := j.index, quiet := s.job.silent || s.sys.safe == 5
    status := if aborted then 1 else 0, done := j.done, aux := j.late * 65536 + j.invalid
    cflags := (if j.startSlip then 1 else 0) + if aborted then j.abort * 16 else 0
    lastStamp := j.lastStamp }

/-- R105, R211, R287: what the job's units become at the job boundary. -/
def State.disarm (s : State) : State :=
  let pins := s.outs.pins.filterMap fun e => if e.2.timer.isNone then none else some (e.1, { e.2 with drive := none })
  let idle : Nat × Seq → Nat × Seq := fun e => (e.1, { e.2 with
    st := .idle, branch := none, timeReq := none, jumps := [], edges := [] })
  let s := { s with outs.pins := pins, sq.seqs := s.sq.seqs.map idle }
  ((s.dsps.map (·.1)).foldl State.idleDsp s).restartStreams

/-- R19, R21, R35, R122, R423, R425, R631, R691: the job ends; the job boundary begins. The job is completed when
its last capture records are posted. -/
def State.jobEnd (s : State) : State :=
  match s.job.job with
  | none => s
  | some j =>
    let s := s.throttleBoundary false
    let s := State.flushSide s.planes.cmds.length s
    let c := s.closingOf ((s.job.job).getD j)
    let s := s.disarm
    let s := { s with
      job.job := none
      job.closing := some c
      job.ending := if c.quiet then s.job.ending else some c.ctx
      job.phase := .idle
      job.prepared := false
      job.worked := false
      job.delayedFrom := 0
      job.gapLate := false
      job.bridge := if j.capture then 2 else 1
      job.atEnd := s.workDue }
    let s := (if s.workDue then s else s.fluxPresets).finishJob
    s.biasJobEnd.recoverRf.emuteRecover.clearDoomed.standbyMode

/-- R489: the cause for which the job ends at this boundary; 0 none. -/
def State.abortCause (s : State) (j : Job) (invalid : Bool) : Nat :=
  if j.abort ≠ 0 then j.abort else if j.abortInv && invalid then 1 else if s.stopped then 4 else 0

/-- R23, R31: the next shot of the job. -/
def State.nextShot (s : State) : State :=
  let s := { s with
    job.phase := .shotBoundary
    job.prevStart := s.job.startTick
    job.prepared := false
    job.delayedFrom := 0
    job.gapLate := false }
  let s := s.throttleBoundary true
  if s.workDue then s else s.fluxPresets.prepareShot.leadNow

/-- R20, R25, R489: the shot is counted, and the job goes on or ends. -/
def State.countShot (s : State) : State :=
  let s := s.updJob fun j => { j with
    done := j.done + 1
    shot := j.shot + 1
    invalid := if j.shotInvalid then incHold 0xFFFF j.invalid else j.invalid
    abort := s.abortCause j j.shotInvalid
    shotInvalid := false }
  match s.job.job with
  | none => s
  | some j => if j.done < j.shots ∧ j.abort = 0 then s.nextShot else s.jobEnd

/-- SHOT_END (R20). -/
def State.shotEnd (s : State) : State := if s.shotOver then s.closeShot.countShot else s

def execShotEnd (s : State) : Host.Outcome State Fault Refusal := s.shotEnd.done

/-! ### Orderly stops (R670) -/

/-- R670 step 2: a shot that still runs is muted and its sequencers stop. -/
def State.muteShot (s : State) : State :=
  let s := (s.muteAll 4).closeShot
  let emptied (x : Plane) : Plane := { x with toks := [], syns := [] }
  let s := { s with
    rdo.wins := []
    planes.dp := s.planes.dp.map emptied
    pwr.stop := s.pwr.stop.map fun (p : StopSt) => { p with muted := true } }
  s.updJob fun j => { j with invalid := incHold 0xFFFF j.invalid, shotInvalid := false }

/-- R670 steps 2 and 3: the running job ends with abort cause 4. -/
def State.stopJob (s : State) : State :=
  if s.inJob then
    let s := if s.job.phase = .inShot then s.muteShot else s
    (s.updJob fun j => { j with abort := 4 }).jobEnd
  else s

/-- A change of rung under way is given up. -/
def State.keepRung (s : State) : State := { s with pwr.toRung := none, pwr.toDeep := false }

/-- R670 step 4, R674: outputs terminated, clocks stopped, Rest. -/
def State.stopDone (s : State) (p : StopSt) : State :=
  let s := (s.clearAll 4).keepRung
  let s := (List.range 224).foldl (fun s k => if (s.chan k).st = 1 then s.terminate k else s) s
  let s := if s.pwr.rung < 2 then s.enterRung 2 2 else s
  { s with pwr.clocksOff := true, pwr.stop := none }.postCoarse s.home 954 0x85 (if p.muted then 8 else 0)
    [(0x14, 1, p.cause), (0x15, 1, p.unit), (0x18, 4, s.nv.done)]

/-- ORDERLY_STOP_TIMEOUT (R670, R672): from t0 + 1 ms the running job ends; the stop ends when the NV
writes under way have ended. -/
def State.stopTimeout (s : State) : State :=
  match s.pwr.stop with
  | none => s
  | some p =>
    if s.time.now < p.t0 + 1000000 then s
    else
      let s := s.stopJob
      match s.pwr.stop with
      | some p => if s.nv.writes = [] then s.stopDone p else s
      | none => s

def execOrderlyStopTimeout (s : State) : Host.Outcome State Fault Refusal := s.stopTimeout.done

end Sys2Proof.Machine
end

