-- ==== Sys2Proof/Machine/Boot.lean ====
section
/-! DEFINITION. Resets and boot (chapter 24), the end of an NV write (R671, R732), and the pins that
show the state of the device. -/

namespace Sys2Proof.Machine

/-! ### Resets (R450, R663, R729 to R732) -/

/-- R663: every sensor's effective value is below 100 °C. -/
def State.coolAll (s : State) : Bool := s.pwr.sensors.all fun e => !e.2.valid || decide (e.2.val < 800)

/-- R663, R674: the latch of the hardware cut clears, and its record is posted. -/
def State.clearCut (s : State) : State :=
  let r := s.pwr.cutRec
  let s := { s with pwr.cut := false, pwr.cutRec := none }
  match r with
  | some h => s.holdBoot h
  | none => s

/-- R693, R731, R732: everything outside the always-on domain starts anew, and boot begins. The cut
stays latched while a sensor is at 100 °C or above. -/
def State.restart (s : State) (pcie : Bool) : State :=
  let t := s.dropVolatile pcie
  let t := { t with
    sec := s.sec.restart
    sys.release := s.time.now
    pwr.cut := s.pwr.cut
    pwr.cutRec := s.pwr.cutRec }
  if s.pwr.cut && s.coolAll then t.clearCut else t

/-- R732: a device reset waits for the NV writes in progress. -/
def State.deviceReset (s : State) : State :=
  if s.nv.writes = [] then s.restart true else { s with sys.resetWait := true }

/-- DEVICE_RESET (R450, R732). -/
def execDeviceReset (s : State) : Host.Outcome State Fault Refusal := s.deviceReset.done

/-- POWER_UP_RESET (R729, R731): `aon` says that VDD_AON has left its range, which interrupts NV writes
and loses what is latched. -/
def State.powerUpReset (s : State) (aon : Bool) : State :=
  let t := s.restart false
  let t := { t with sys.porHeld := true }
  if aon then { t with nv.writes := [], pwr.cut := false, pwr.cutRec := none } else t

def execPowerUpReset (aon : Bool) (s : State) : Host.Outcome State Fault Refusal := (s.powerUpReset aon).done

/-- R729: no rail that holds the power-up reset is known to be out of range; the VBIAS rails do not hold it. -/
def State.railsUp (s : State) : Bool := s.pwr.rails.all (· == 8)

/-- POWER_UP_RESET_RELEASE (R729): boot starts. -/
def State.powerUpRelease (s : State) : State :=
  if s.sys.porHeld && s.railsUp then { s with sys.porHeld := false, sys.release := s.time.now } else s

def execPowerUpResetRelease (s : State) : Host.Outcome State Fault Refusal := s.powerUpRelease.done

/-- NV_WRITE_DONE (R671, R672, R732): the write of a record ends; a device reset that waited follows. -/
def State.nvDone (s : State) (what : Nat) : State :=
  match s.nv.writes.find? fun w => w.what == what with
  | none => s
  | some w =>
    let s := s.nvFinish w
    if s.sys.resetWait && s.nv.writes.isEmpty then s.restart true else s

def execNvWriteDone (what : Fin 3) (s : State) : Host.Outcome State Fault Refusal := (s.nvDone what).done

/-! ### The steps of boot (R733, R737)

Steps have numbers: 0 TMODE, 1 sensors, 2 the module's tests, 4 patch load, 5 and 6 the self-tests of CE0
and CE1, 7 the NV read, 8 the lock of a boot from Deep, 9 the planes. Time lock itself is TIME_LOCK. -/

def State.stepDone (s : State) (n : Nat) : Bool := s.sys.steps.contains n

def State.bothFailed (s : State) : Bool := s.eng.st[0] == 2 && s.eng.st[1] == 2

/-- The steps that a step waits for have ended. -/
def State.stepReady (s : State) : BootStep → Bool
  | .tmode _ => true
  | .sensors => (List.range 68).all fun i => (s.sensor i).valid
  | .tests _ _ => true
  | .patch _ _ => s.stepDone 2
  | .selftest _ _ => s.stepDone 4 && !s.sys.fromDeep
  | .nvRead => s.stepDone 4 && (s.sys.fromDeep || (s.stepDone 5 && s.stepDone 6)) && !s.bothFailed
  | .planes _ _ => s.stepDone 7

def bootStepNo : BootStep → Nat
  | .tmode _ => 0
  | .sensors => 1
  | .tests _ _ => 2
  | .patch _ _ => 4
  | .selftest n _ => 5 + n.val
  | .nvRead => 7
  | .planes _ _ => 9

/-- R618, R620, R733: the patch load of boot; it takes no slot while the module is in its error state. -/
def State.bootPatch (s : State) (ok0 ok1 : Bool) : State :=
  let s := if s.sec.err then
      { (s.patchBoot fun _ => false) with eng.tried := 0 }
    else s.patchBoot fun n => if n = 0 then ok0 else ok1
  { s with eng.st := #v[0, 1], eng.active := 0 }

/-- R733: the self-test of a cobbler; when CE0 fails, CE1 is the active one. -/
def State.bootSelftest (s : State) (n : Nat) (pass : Bool) : State :=
  if pass then s
  else
    let s := (s.setCobbler n 2).cobblerRecord n 2 0
    if n = 0 ∧ s.eng.st[1] = 1 then { s.setCobbler 1 0 with eng.active := 1 } else s

/-- Both copies of a double-buffered field take a value that boot reads. -/
def State.bootField (s : State) (f : Fld) (idx : List Nat) (v : Nat) : State :=
  let w := BitVec.ofNat 32 (setBits (s.word f.reg idx).toNat f.hi f.lo v)
  (s.setLive f.reg idx w).setShadow f.reg idx w

/-- R435, R730: both VBIAS rails have come into range. -/
def State.vbiasUp (s : State) : Bool := decide (0 < s.pwr.vbiasFrom)

/-- R435, R739: in T2-64 mode every bias output ramps to its NV range and code. -/
def State.biasUp (s : State) : State :=
  if s.vbiasUp && s.flag Reg.BIAS_GCTL.T2MODE [] && !s.sys.fromDeep then
    (List.range 256).foldl (fun s k => s.biasSafe k) s
  else s

/-- R436, R739: T2-64 mode with its ranges and ramps comes from the NV bias record. -/
def State.readBias (s : State) : State :=
  match s.nvBias with
  | none => s
  | some r =>
    if r.t2 then
      let s := s.bootField Reg.BIAS_GCTL.T2MODE [] 1
      ((List.range 256).foldl (fun s k =>
        let e := Table.get (0, 1, 0) r.chans k
        (s.bootField Reg.BIA_CFG.RANGE [k] e.1).bootField Reg.BIA_CFG.RAMP [k] e.2.1) s).biasUp
    else s

/-- R646: the live taps come from the NV calibration record, or are 0. -/
def State.readTaps (s : State) : State :=
  { s with cal.live := match s.nvNewest 1 with
    | some ⟨_, _, some (.cal t)⟩ => t
    | _ => [] }

/-- R547: the lace identifier comes from its NV record. -/
def State.readId (s : State) : State :=
  match s.nvNewest 2 with
  | some ⟨_, _, some (.id n)⟩ => { s.bootField Reg.LACE_ID.ID [] n with lace.idValid := true }
  | _ => s

/-- R338, R351: the planes' tables are loaded and checked. -/
def State.bootPlanes (s : State) (f0 f1 : Nat) : State :=
  let s := { s with planes.link := true }
  ((s.checkRecord 0 f0 2).checkRecord 1 f1 2).checkOutcome (decide (f0 ≠ 0)) (decide (f1 ≠ 0))

/-- What a step does as it ends. -/
def State.stepEffect (s : State) : BootStep → State
  | .tmode level => { s with sys.tmode := level }
  | .sensors => s
  | .tests failed alg => s.selftestEnd failed alg
  | .patch ok0 ok1 => s.bootPatch ok0 ok1
  | .selftest n pass => s.bootSelftest n pass
  | .nvRead => s.readTaps.readBias.readId
  | .planes f0 f1 => s.bootPlanes f0.toNat f1.toNat

/-- BOOT_STEP_END (R733, R737). -/
def State.bootStep (s : State) (b : BootStep) : State :=
  if s.sys.boot && !s.sys.porHeld && !s.stepDone (bootStepNo b) && s.stepReady b then
    let s := s.stepEffect b
    { s with sys.steps := s.sys.steps ++ [bootStepNo b] }
  else s

def execBootStepEnd (stp : BootStep) (s : State) : Host.Outcome State Fault Refusal := (s.bootStep stp).done

/-! ### The end of boot (R735 to R738) -/

/-- R733: every step has ended, or both cobblers have failed. -/
def State.stepsEnded (s : State) : Bool :=
  if s.bothFailed then s.stepDone 5 && s.stepDone 6
  else (if s.sys.fromDeep then [0, 1, 2, 4, 7, 9] else [0, 1, 2, 4, 5, 6, 7, 9]).all s.stepDone

/-- R734, R737: the quarters are locked. -/
def State.lockIn (s : State) : Bool := s.time.locked && (!s.sys.fromDeep || s.stepDone 8)

/-- R663, R699, R735: no sensor holds boot back. -/
def State.bootCool (s : State) : Bool :=
  !(s.pwr.sensors.any fun e => e.2.shut) && (!s.pwr.cut || s.coolAll)

/-- R735: boot ends now. -/
def State.bootOver (s : State) : Bool :=
  s.sys.boot && !s.sys.porHeld && s.stepsEnded && s.bootCool
    && (s.lockIn || s.bothFailed || decide (s.sys.release + 50000000 ≤ s.time.now))

/-- R735, R701: without time lock, the reference counts as lost from now on. -/
def State.bootLock (s : State) : State :=
  if s.lockIn then s
  else { s with sys.refLost := true, time.holdover := s.time.locked, time.lostAt := s.time.now }.refRecord 1 0

/-- R698, R736: the mode record of the end of boot is one of boot's. -/
def State.bootMode (s : State) : State :=
  let m := s.mode
  if m = s.sys.shown then s
  else { s with sys.shown := m }.holdBoot
    ⟨s.home, .event, 1008, 0xA0, s.timeFlags, s.nowStamp,
     BitVec.ofNat 96 (packNat ((s.modeBody s.sys.shown m).map fun (e : Nat × Nat × Nat) => (e.1 - 0x14, e.2.1, e.2.2))), false⟩

/-- R738: the lace links that may train start attempt 1. -/
def State.bootLinks (s : State) : State :=
  (List.range 8).foldl (fun s l => if s.mayTrain l then s.startAttempt l 1 else s) s

/-- R653, R674: the exit from Deep ends with boot; its rung record is one that boot holds (R736). -/
def State.deepLeft (s : State) : State :=
  if s.sys.fromDeep then s.rungRecord 4 s.pwr.rung 0 ((s.time.now - s.pwr.rungFrom) / 1000) else s

/-- BOOT_END (R735, R663, R699, R738). -/
def State.bootEnd (s : State) : State :=
  if s.bootOver then
    let s := if s.pwr.cut then s.clearCut else s
    let s := s.bootLock.deepLeft
    let s := if s.bothFailed then s.orderlyStop 5 0 else s
    { s.bootLinks with sys.boot := false, sys.ready := true }.bootMode
  else s

def execBootEnd (s : State) : Host.Outcome State Fault Refusal := s.bootEnd.done

/-- VBIAS_IN_RANGE (R435, R730, R739): the watch of the rails begins 1 ms from now. -/
def State.vbiasIn (s : State) : State :=
  if s.vbiasUp then s
  else
    let s := { s with pwr.vbiasFrom := s.time.now + 1 }
    if s.sys.ready || s.stepDone 7 then s.biasUp else s

def execVbiasInRange (s : State) : Host.Outcome State Fault Refusal := .next s.vbiasIn

/-! ### Pins (R710, R716) -/

/-- R716: FAULT_N is driven low. -/
def State.faultLow (s : State) : Bool := s.mode == 7 || s.pwr.cut || s.sys.porHeld

/-- R710: VID0 to VID3 give the VDD_INS step in force. -/
def State.vid (s : State) : Nat := s.pwr.vins

end Sys2Proof.Machine
end

