-- ==== Sys2Proof/Machine/Dsp.lean ====
section
/-! DEFINITION. The instructions of the readout signal processors (R299) and their packet events
(chapter 07). -/

namespace Sys2Proof.Machine

/-! ### M class -/

/-- MOVE (R298, R299). -/
def execDspMove (k : Fin 16) (bad : BitVec 3) (s : State) : Host.Outcome State Fault Refusal :=
  .next (s.dspM k bad 0 fun d _ _ => d)

/-- CMUL (R299). -/
def execCmul (k : Fin 16) (bad : BitVec 3) (s : State) : Host.Outcome State Fault Refusal :=
  .next (s.dspM k bad 1 fun d a b => d.setAcc (cmulRe a b) (cmulIm a b))

/-- CMAC (R299, R302). -/
def execCmac (k : Fin 16) (bad : BitVec 3) (s : State) : Host.Outcome State Fault Refusal :=
  .next (s.dspM k bad 2 fun d a b => d.setAcc (d.acc0 + cmulRe a b) (d.acc1 + cmulIm a b))

/-- CMACJ (R299, R302). -/
def execCmacj (k : Fin 16) (bad : BitVec 3) (s : State) : Host.Outcome State Fault Refusal :=
  .next (s.dspM k bad 3 fun d a b => d.setAcc (d.acc0 + cmuljRe a b) (d.acc1 + cmuljIm a b))

/-- CMSU (R299, R302). -/
def execCmsu (k : Fin 16) (bad : BitVec 3) (s : State) : Host.Outcome State Fault Refusal :=
  .next (s.dspM k bad 4 fun d a b => d.setAcc (d.acc0 - cmulRe a b) (d.acc1 - cmulIm a b))

/-- DMAC (R299, R302). -/
def execDmac (k : Fin 16) (bad : BitVec 3) (s : State) : Host.Outcome State Fault Refusal :=
  .next (s.dspM k bad 5 fun d a b => d.setAcc (d.acc0 + half0 a * half0 b) (d.acc1 + half1 a * half1 b))

/-- DMUL (R299). -/
def execDmul (k : Fin 16) (bad : BitVec 3) (s : State) : Host.Outcome State Fault Refusal :=
  .next (s.dspM k bad 6 fun d a b => d.setAcc (half0 a * half0 b) (half1 a * half1 b))

/-! ### A class -/

/-- ADD and SUB: the exact sum or difference of two registers, wrapped (R302). -/
def State.dspArith (s : State) (k : Nat) (bad : BitVec 3) (op : Nat) (f : Int → Int → Int) : State :=
  s.dspSimple k bad 2 op 1 (fun w => { regs := [aSrc1 w, aSrc2 w] }) fun d w =>
    let (d, r) := d.arith (f (d.greg (aSrc1 w)).toInt (d.greg (aSrc2 w)).toInt)
    d.setG (aDst w) r

/-- ADD (R299, R302). -/
def execDspAdd (k : Fin 16) (bad : BitVec 3) (s : State) : Host.Outcome State Fault Refusal :=
  .next (s.dspArith k bad 0 (· + ·))

/-- SUB (R299, R302). -/
def execDspSub (k : Fin 16) (bad : BitVec 3) (s : State) : Host.Outcome State Fault Refusal :=
  .next (s.dspArith k bad 1 (· - ·))

/-- AND (R299). -/
def execDspAnd (k : Fin 16) (bad : BitVec 3) (s : State) : Host.Outcome State Fault Refusal :=
  .next (s.dspLogic k bad 2 (· &&& ·))

/-- OR (R299). -/
def execDspOr (k : Fin 16) (bad : BitVec 3) (s : State) : Host.Outcome State Fault Refusal :=
  .next (s.dspLogic k bad 3 (· ||| ·))

/-- XOR (R299). -/
def execDspXor (k : Fin 16) (bad : BitVec 3) (s : State) : Host.Outcome State Fault Refusal :=
  .next (s.dspLogic k bad 4 (· ^^^ ·))

def State.dspAddi (s : State) (k : Nat) (bad : BitVec 3) : State :=
  s.dspSimple k bad 2 5 1 (fun w => { regs := [aSrc1 w] }) fun d w =>
    let (d, r) := d.arith ((d.greg (aSrc1 w)).toInt + aImm w)
    d.setG (aDst w) r

/-- ADDI (R299, R302). -/
def execAddi (k : Fin 16) (bad : BitVec 3) (s : State) : Host.Outcome State Fault Refusal :=
  .next (s.dspAddi k bad)

def State.dspLdi (s : State) (k : Nat) (bad : BitVec 3) : State :=
  s.dspSimple k bad 2 6 1 (fun _ => {}) fun d w =>
    d.setG (aDst w) (BitVec.ofInt 32 (aImm w))

/-- LDI (R299). -/
def execLdi (k : Fin 16) (bad : BitVec 3) (s : State) : Host.Outcome State Fault Refusal :=
  .next (s.dspLdi k bad)

def State.dspLdih (s : State) (k : Nat) (bad : BitVec 3) : State :=
  s.dspSimple k bad 2 7 1 (fun w => { regs := [aDst w] }) fun d w =>
    d.setG (aDst w) (BitVec.ofNat 32 (setBits (d.greg (aDst w)).toNat 31 16 (bitsOf w 15 0)))

/-- LDIH (R299). -/
def execLdih (k : Fin 16) (bad : BitVec 3) (s : State) : Host.Outcome State Fault Refusal :=
  .next (s.dspLdih k bad)

def State.dspShl (s : State) (k : Nat) (bad : BitVec 3) : State :=
  s.dspSimple k bad 2 8 1 (fun w => { regs := [aSrc1 w] }) fun d w =>
    let r := d.greg (aSrc1 w) <<< bitsOf w 4 0
    (d.setG (aDst w) r).setZN r

/-- SHL (R299). -/
def execShl (k : Fin 16) (bad : BitVec 3) (s : State) : Host.Outcome State Fault Refusal :=
  .next (s.dspShl k bad)

def State.dspAsr (s : State) (k : Nat) (bad : BitVec 3) : State :=
  s.dspSimple k bad 2 9 1 (fun w => { regs := [aSrc1 w] }) fun d w =>
    let r := (d.greg (aSrc1 w)).sshiftRight (bitsOf w 4 0)
    (d.setG (aDst w) r).setZN r

/-- ASR (R299). -/
def execAsr (k : Fin 16) (bad : BitVec 3) (s : State) : Host.Outcome State Fault Refusal :=
  .next (s.dspAsr k bad)

def State.dspCmp (s : State) (k : Nat) (bad : BitVec 3) : State :=
  s.dspSimple k bad 2 10 1 (fun w => { regs := [aSrc1 w, aSrc2 w] }) fun d w =>
    (d.arith ((d.greg (aSrc1 w)).toInt - (d.greg (aSrc2 w)).toInt)).1

/-- CMP (R299, R302). -/
def execCmp (k : Fin 16) (bad : BitVec 3) (s : State) : Host.Outcome State Fault Refusal :=
  .next (s.dspCmp k bad)

def State.dspGeta (s : State) (k : Nat) (bad : BitVec 3) : State :=
  s.dspSimple k bad 2 11 1 (fun _ => { acc := true }) fun d w =>
    let x := asrInt d.acc0 d.ash.toNat
    let y := asrInt d.acc1 d.ash.toNat
    let r := BitVec.ofNat 32 (pairWord (satInt 16 x) (satInt 16 y))
    { (d.setG (aDst w) r).detect r with
      sat := d.sat || decide (satInt 16 x ≠ x ∨ satInt 16 y ≠ y)
      busy := { reg := some (aDst w), sat := true, blk := true } }

/-- GETA (R299, R302, R303). -/
def execGeta (k : Fin 16) (bad : BitVec 3) (s : State) : Host.Outcome State Fault Refusal :=
  .next (s.dspGeta k bad)

def State.dspLda (s : State) (k : Nat) (bad : BitVec 3) : State :=
  s.dspSimple k bad 2 12 1 (fun w => { regs := [aSrc1 w] }) fun d w =>
    let v := d.greg (aSrc1 w)
    let m : Int := ((2 ^ bitsOf w 4 0 : Nat) : Int)
    { d.setAcc (half0 v * m) (half1 v * m) with busy := {} }

/-- LDA (R299, R302). -/
def execLda (k : Fin 16) (bad : BitVec 3) (s : State) : Host.Outcome State Fault Refusal :=
  .next (s.dspLda k bad)

def State.dspClra (s : State) (k : Nat) (bad : BitVec 3) : State :=
  s.dspSimple k bad 2 13 1 (fun _ => {}) fun d w =>
    { d with a0 := 0, a1 := 0 }

/-- CLRA (R299). -/
def execClra (k : Fin 16) (bad : BitVec 3) (s : State) : Host.Outcome State Fault Refusal :=
  .next (s.dspClra k bad)

def State.dspMovs (s : State) (k : Nat) (bad : BitVec 3) : State :=
  s.dspSimple k bad 2 14 1 (fun w => readUse (bitsOf w 3 0)) fun d w =>
    d.setG (aDst w) (d.readSpecial (bitsOf w 3 0))

/-- MOVS (R291). -/
def execMovs (k : Fin 16) (bad : BitVec 3) (s : State) : Host.Outcome State Fault Refusal :=
  .next (s.dspMovs k bad)

def State.dspMovt (s : State) (k : Nat) (bad : BitVec 3) : State :=
  s.dspSimple k bad 2 15 1 (fun w => { writeUse (bitsOf w 3 0) with regs := [aSrc1 w] }) fun d w =>
    d.writeSpecial (bitsOf w 3 0) (d.greg (aSrc1 w))

/-- MOVT (R291). -/
def execMovt (k : Fin 16) (bad : BitVec 3) (s : State) : Host.Outcome State Fault Refusal :=
  .next (s.dspMovt k bad)

def State.dspMag2 (s : State) (k : Nat) (bad : BitVec 3) : State :=
  s.dspSimple k bad 2 16 1 (fun w => { regs := [aSrc1 w] }) fun d w =>
    let v := d.greg (aSrc1 w)
    let m := half0 v * half0 v + half1 v * half1 v
    let r := BitVec.ofInt 32 (satInt 32 m)
    { d.setG (aDst w) r with
      z := r == 0, sat := d.sat || decide (satInt 32 m ≠ m), busy := { reg := some (aDst w), z := true, sat := true } }

/-- MAG2 (R299, R302). -/
def execMag2 (k : Fin 16) (bad : BitVec 3) (s : State) : Host.Outcome State Fault Refusal :=
  .next (s.dspMag2 k bad)

def State.dspUmov (s : State) (k : Nat) (bad : BitVec 3) : State :=
  s.dspSimple k bad 2 17 1 (fun w => { regs := [aSrc1 w] }) fun d w =>
    d.setU (aDst w) (d.greg (aSrc1 w))

/-- UMOV (R299). -/
def execUmov (k : Fin 16) (bad : BitVec 3) (s : State) : Host.Outcome State Fault Refusal :=
  .next (s.dspUmov k bad)

def State.dspGmov (s : State) (k : Nat) (bad : BitVec 3) : State :=
  s.dspSimple k bad 2 18 1 (fun _ => {}) fun d w =>
    d.setG (aDst w) (d.ureg (aSrc1 w))

/-- GMOV (R299). -/
def execGmov (k : Fin 16) (bad : BitVec 3) (s : State) : Host.Outcome State Fault Refusal :=
  .next (s.dspGmov k bad)

/-! ### L class -/

/-- LD (R292, R303, R307): bits 1 and 2 of `bad` are an uncorrectable error of the X or Y read. -/
def State.dspLd (s : State) (k : Nat) (bad : BitVec 3) : State :=
  s.dspIssue k bad 1 0 fun s d w =>
    let p := lPtr w
    let (s, v) := s.dspRead k p (d.ptr p).val (if p < 4 then bad.getLsbD 1 else bad.getLsbD 2)
    let d := ((d.count {} 1).setG (lG w) v).updPtr p fun q => q.modify (lMod w)
    let d := if bitOf w 18 then d.detect v else d
    s.updDsp k fun _ => { d with busy := { reg := some (lG w), blk := bitOf w 18 } }.complete

/-- LD (R292, R303, R307). -/
def execDspLd (k : Fin 16) (bad : BitVec 3) (s : State) : Host.Outcome State Fault Refusal :=
  .next (s.dspLd k bad)

/-- ST (R292). -/
def State.dspSt (s : State) (k : Nat) (bad : BitVec 3) : State :=
  s.dspIssue k bad 1 1 fun s d w =>
    let p := lPtr w
    let s := s.store (dspAddr k p (d.ptr p).val) (leBytes 4 (d.greg (lG w)).toNat)
    let d := (d.count { regs := [lG w] } 1).updPtr p fun q => q.modify (lMod w)
    s.updDsp k fun _ => d.complete

/-- ST (R292). -/
def execDspSt (k : Fin 16) (bad : BitVec 3) (s : State) : Host.Outcome State Fault Refusal :=
  .next (s.dspSt k bad)

def State.dspSetp (s : State) (k : Nat) (bad : BitVec 3) : State :=
  s.dspSimple k bad 1 2 1 (fun _ => {}) fun d w =>
    d.updPtr (lPtr w) fun p => { p with val := lImm w }

/-- SETP (R294, R299). -/
def execSetp (k : Fin 16) (bad : BitVec 3) (s : State) : Host.Outcome State Fault Refusal :=
  .next (s.dspSetp k bad)

def State.dspSets (s : State) (k : Nat) (bad : BitVec 3) : State :=
  s.dspSimple k bad 1 3 1 (fun _ => {}) fun d w =>
    d.updPtr (lPtr w) fun p => { p with step := lImm w }

/-- SETS (R294, R299). -/
def execSets (k : Fin 16) (bad : BitVec 3) (s : State) : Host.Outcome State Fault Refusal :=
  .next (s.dspSets k bad)

def State.dspSetrb (s : State) (k : Nat) (bad : BitVec 3) : State :=
  s.dspSimple k bad 1 4 1 (fun _ => {}) fun d w =>
    d.updPtr (lPtr w) fun p => { p with base := lImm w }

/-- SETRB (R294, R299). -/
def execSetrb (k : Fin 16) (bad : BitVec 3) (s : State) : Host.Outcome State Fault Refusal :=
  .next (s.dspSetrb k bad)

def State.dspSetrl (s : State) (k : Nat) (bad : BitVec 3) : State :=
  s.dspSimple k bad 1 5 1 (fun _ => {}) fun d w =>
    let d := d.updPtr (lPtr w) fun p => { p with pend := some (lImm w) }
    if d.act = [] then d.applyRings else d

/-- SETRL (R293, R294). -/
def execSetrl (k : Fin 16) (bad : BitVec 3) (s : State) : Host.Outcome State Fault Refusal :=
  .next (s.dspSetrl k bad)

def State.dspMovp (s : State) (k : Nat) (bad : BitVec 3) : State :=
  s.dspSimple k bad 1 6 1 (fun w => { regs := [lG w] }) fun d w =>
    d.updPtr (lPtr w) fun p => { p with val := (d.greg (lG w)).setWidth 14 }

/-- MOVP (R299). -/
def execMovp (k : Fin 16) (bad : BitVec 3) (s : State) : Host.Outcome State Fault Refusal :=
  .next (s.dspMovp k bad)

/-! ### C class -/

def State.dspNop (s : State) (k : Nat) (bad : BitVec 3) : State :=
  s.dspSimple k bad 0 0 1 (fun _ => {}) fun d _ =>
    d

/-- NOP of the processor (R299). -/
def execDspNop (k : Fin 16) (bad : BitVec 3) (s : State) : Host.Outcome State Fault Refusal :=
  .next (s.dspNop k bad)

/-- REP (R295, R296). -/
def State.dspRep (s : State) (k : Nat) (bad : BitVec 3) : State :=
  s.dspIssue k bad 0 1 fun s d w => s.dspRepeat k (d.count {} 2) w (cArg w)

/-- REP (R295, R296). -/
def execRep (k : Fin 16) (bad : BitVec 3) (s : State) : Host.Outcome State Fault Refusal :=
  .next (s.dspRep k bad)

/-- REPG (R295, R296). -/
def State.dspRepg (s : State) (k : Nat) (bad : BitVec 3) : State :=
  s.dspIssue k bad 0 2 fun s d w =>
    let g := bitsOf w 2 0
    s.dspRepeat k (d.count { regs := [g] } 2) w (bitsOf (d.greg g).toNat 15 0)

/-- REPG (R295, R296). -/
def execRepg (k : Fin 16) (bad : BitVec 3) (s : State) : Host.Outcome State Fault Refusal :=
  .next (s.dspRepg k bad)

/-- JMP (R296). -/
def State.dspJmp (s : State) (k : Nat) (bad : BitVec 3) : State :=
  s.dspIssue k bad 0 3 fun s d w => s.updDsp k fun _ => (d.count {} 2).jump (cAddr w)

/-- JMP (R296). -/
def execJmp (k : Fin 16) (bad : BitVec 3) (s : State) : Host.Outcome State Fault Refusal :=
  .next (s.dspJmp k bad)

/-- R299: the conditions of JCC. -/
def Dsp.cond (d : Dsp) (c : Nat) : Bool :=
  match c with
  | 0 => d.z
  | 1 => !d.z
  | 2 => d.n
  | 3 => !d.n
  | 4 => d.v
  | 5 => !d.v
  | 6 => !d.queue.isEmpty
  | _ => d.queue.isEmpty

/-- JCC (R299): two handshakes when taken, else one. -/
def State.dspJcc (s : State) (k : Nat) (bad : BitVec 3) : State :=
  s.dspIssue k bad 0 4 fun s d w =>
    let c := bitsOf w 3 0
    let use : DspUse := { z := decide (c < 2) }
    if d.cond c then s.updDsp k fun _ => (d.count use 2).jump (cAddr w)
    else s.updDsp k fun _ => (d.count use 1).complete

/-- JCC (R299). -/
def execJcc (k : Fin 16) (bad : BitVec 3) (s : State) : Host.Outcome State Fault Refusal :=
  .next (s.dspJcc k bad)

/-- WAITIN (R288, R289): release the packet held, with its void token when owed, and take the next. -/
def State.dspWaitin (s : State) (k : Nat) (bad : BitVec 3) : State :=
  s.dspIssue k bad 0 5 fun s d _ =>
    let s := match d.cur with
      | some p => s.voidPacket p
      | none => s
    (s.updDsp k fun d => { d with cur := none, busy := {} }).takePacket k

/-- WAITIN (R288, R289). -/
def execWaitin (k : Fin 16) (bad : BitVec 3) (s : State) : Host.Outcome State Fault Refusal :=
  .next (s.dspWaitin k bad)

/-- R304: the token of a TOKEN instruction, from G(r) and the packet's tag. -/
def State.sendDspToken (s : State) (d : Dsp) (w : Nat) (p : Packet) : State :=
  let v := (d.greg (bitsOf w 2 0)).toNat
  let tgt := if bitOf w 3 then bitsOf (d.greg (bitsOf w 6 4)).toNat 11 0 else p.tgt
  s.makeToken p.syn false tgt (tokenPayload p.toneId (bitsOf v 1 0) (bitsOf v 6 2) p.ns) p.last

/-- TOKEN (R304, R290, R307 code 5). -/
def State.dspTokenI (s : State) (k : Nat) (bad : BitVec 3) : State :=
  s.dspIssue k bad 0 6 fun s d w =>
    let up := (d.count (tokenUse w) 1).complete
    match d.cur with
    | none => (s.dspError k 5).updDsp k fun _ => up
    | some p =>
      if p.voided then s.updDsp k fun _ => up
      else (s.sendDspToken d w p).updDsp k fun _ => { up with cur := some { p with sent := true } }

/-- TOKEN (R304, R307). -/
def execDspToken (k : Fin 16) (bad : BitVec 3) (s : State) : Host.Outcome State Fault Refusal :=
  .next (s.dspTokenI k bad)

/-- RECORD (R305): a window result record, or a processor record. Before the job's first WAITIN there
is no window whose stamp it could carry: the stamp is a free value (log 8). -/
def State.dspRecordI (s : State) (k : Nat) (bad : BitVec 3) : State :=
  s.dspIssue k bad 0 7 fun s d w =>
    let up := (d.count { regs := [bitsOf w 6 4, bitsOf w 10 8] } 1).complete
    let x := (d.greg (bitsOf w 6 4)).toNat
    let y := (d.greg (bitsOf w 10 8)).toNat
    let tag := (d.readSpecial 0).toNat
    let fl := (if bitOf tag 1 then 1 else 0) + (if bitOf tag 0 then 4 else 0) + (if bitOf tag 2 then 32 else 0)
    let st := match d.cur with
      | some p => s.adcStamp p.last
      | none => s.adcStamp (Config.freeWord s.freeCtr).toNat
    let s := if d.cur.isNone then s.draw else s
    let s := if bitOf w 0 then
        s.post s.jobCtx .result (576 + k) 0x12 0 st
          [(0x14, 4, (d.readSpecial 2).toNat), (0x18, 4, x), (0x1C, 4, y)]
      else
        s.post s.jobCtx .result (576 + k) 0x10 0 st
          [(0x14, 4, (d.readSpecial 2).toNat), (0x18, 4, x), (0x1C, 1, bitsOf y 7 0),
            (0x1D, 1, bitsOf tag 10 7 + bitsOf tag 6 4 * 16), (0x1E, 2, fl)]
    s.updDsp k fun _ => up

/-- RECORD (R305). -/
def execDspRecord (k : Fin 16) (bad : BitVec 3) (s : State) : Host.Outcome State Fault Refusal :=
  .next (s.dspRecordI k bad)

/-- END (R299): STOPPED until the job ends. -/
def State.dspEndI (s : State) (k : Nat) (bad : BitVec 3) : State :=
  s.dspIssue k bad 0 8 fun s d _ => (s.updDsp k fun _ => d.count {} 1).stopDsp k

/-- END of the processor (R299). -/
def execDspEnd (k : Fin 16) (bad : BitVec 3) (s : State) : Host.Outcome State Fault Refusal :=
  .next (s.dspEndI k bad)

/-! ### Packets -/

/-- WAITIN_WAKE (R288): a packet enters the queue of a processor that waits, which takes it. -/
def State.waitinWake (s : State) (k : Nat) : State :=
  if (s.dsp k).st = .wait ∧ (s.dsp k).queue ≠ [] then s.takePacket k else s

def execWaitinWake (k : Fin 16) (s : State) : Host.Outcome State Fault Refusal := .next (s.waitinWake k)

/-- DSP_BUDGET_OVERRUN (R290): the handshakes of the packet held have passed BOUND. -/
def State.budgetOverrun (s : State) (k : Nat) : State :=
  let d := s.dsp k
  let bound := s.rd Reg.DSP_BOUND.BOUND [k / 4, k % 4]
  match d.cur with
  | none => s
  | some p =>
    if d.ovf || decide (d.hs ≤ bound) then s
    else
      let s := s.count Reg.DSP_CNT.OVR_CNT [k / 4, k % 4]
      let s := s.postCoarse s.jobCtx (576 + k) 0x34 0
        [(0x14, 4, s.shotIdx), (0x18, 2, p.tgt), (0x1C, 4, bound)]
      let owed := p.tok && !p.sent
      let s := s.voidPacket p
      let p := if owed then { p with sent := true, voided := true } else p
      s.updDsp k fun d => { d with ovf := true, cur := some p }

def execDspBudgetOverrun (k : Fin 16) (s : State) : Host.Outcome State Fault Refusal :=
  .next (s.budgetOverrun k)

end Sys2Proof.Machine
end

