-- ==== Sys2Proof/Machine/Records.lean ====
section
/-! DEFINITION. Records, horizon records, snapshots and the interrupt path (chapters 02, 12). -/

namespace Sys2Proof.Machine

/-- The records that a side effect has still to post. -/
def SideCmd.recs (c : SideCmd) : List Held :=
  match c.act with
  | .records hs => hs
  | _ => []

/-- R341: the records that the interlock unit has still to post: of the commands on their way to it, and,
while the line is released, of those that both planes hold. -/
def State.sideRecs (s : State) : List Held :=
  let held := if s.planes.owner = 0 then (s.planes.dp.toList.map (·.pend)).flatten else []
  ((s.planes.cmds ++ held).map SideCmd.recs).flatten

/-- R85: a record for the context of a horizon record, stamped no later, has not been posted: it is held, it
is a capture record or gap still to come, waits at the interlock unit, or a window of the job that gives it has not closed. -/
def State.horizonWaits (s : State) (h : Held) : Bool :=
  ((s.recs.held ++ s.sideRecs).any fun g => g.ctx == h.ctx && g.kind != 0x31 && decide (g.stamp.key ≤ h.stamp.key))
  || (s.rdo.caps.any fun e => e.2.ctx == h.ctx && match e.2.waiting with
        | some (st, _) => decide (st.key ≤ h.stamp.key)
        | none => false)
  || (s.capCtx == h.ctx && s.rdo.caps.any fun e => (match e.2.ivals with
        | v :: _ => decide ((s.adcStamp v.start).key ≤ h.stamp.key)
        | [] => false) || match e.2.gap with
        | some (_, last) => decide (last.key ≤ h.stamp.key)
        | none => false)
  || (s.jobCtx == h.ctx && s.rdo.wins.any fun w => decide ((s.adcStamp w.last).key ≤ h.stamp.key))

/-- R84: an event that has entered late and is still to be applied, whose record (R78) will come from the
source of h with an earlier stamp. -/
def State.lateWaits (s : State) (h : Held) : Bool :=
  s.outs.queues.any fun e => s.queueSource e.1 == h.src && e.2.events.any fun v => match v.how with
    | .state _ =>
      decide ((s.sampleStamp (queueUnit (e.1 % 72)) (eventSample (e.1 % 72) (s.job.startTick + v.tick) v.off)).key
        < h.stamp.key)
    | _ => false

/-- R84: a record whose stamp device time has not reached waits; so does a horizon record while an
earlier record for its context is still to be posted (R85), a record of a source that will produce one
with an earlier stamp, and a record of a sequencer that waits at a branch under REANCHOR when it is
stamped after the branch's D. -/
def State.mustHold (s : State) (h : Held) : Bool :=
  decide (s.time.dev.abs < h.stamp.time.abs)
  || (h.kind == 0x31 && s.horizonWaits h)
  || s.lateWaits h || s.captureHolds h
  || (decide (512 ≤ h.src ∧ h.src < 576) &&
        match (Table.get {} s.sq.seqs (h.src - 512)).branch with
        | some b => b.reanchor && decide ((s.stampAt (s.job.startTick + b.d) 0).key < h.stamp.key)
        | none => false)

/-- R585: the awl FIFO drains at up to 250 million records per second. -/
def State.awlBusy (s : State) (src : Nat) : Bool := decide (800 ≤ src ∧ src < 832 ∧ s.time.now < s.recs.awlNext)

def State.awlGave (s : State) (src : Nat) : State :=
  if 800 ≤ src ∧ src < 832 then { s with recs.awlNext := s.time.now + 4 } else s

/-- R650: a telemetry record enters the outbound buffer only while 32 KiB of it are free. -/
def telemetryWaits (src free : Nat) : Bool := src == 852 && decide (free < 32768)

/-- R490, R703 class 6: a record that holds an uncorrectable error on its way out is lost; it has its number. -/
def State.spoilRecord (s : State) (h : Held) : State :=
  let s := { s with recs.seq := Table.upd 0 s.recs.seq h.src (· + h.skips + 1) }
  (s.eccError 6 0 0 (Config.freeWord s.freeCtr).toNat false).draw.loseRecord h

def State.releaseOne (s : State) (src free : Nat) (bad : Bool) : State :=
  match nextHeld (fun h => h.src == src) s.recs.held with
  | none => s
  | some h =>
    if s.mustHold h || s.pwr.cut || s.awlBusy src || telemetryWaits src free then s
    else
      let s := (s.dropHeld h).awlGave src
      if bad then s.spoilRecord h else s.numberAndPost h

/-- RECORD_RELEASE (R84, R81, R467, R490, R650). -/
def execRecordRelease (r : Outbound 1024) (s : State) : Host.Outcome State Fault Refusal :=
  .next (s.releaseOne r.src r.free r.bad)

/-- R85: the horizon record of one context. -/
def State.postHorizon (s : State) (c : Nat) : State :=
  if s.ringSize c Reg.CTX_SIZE.EVT = 0 then s else s.postCoarse c 1010 0x31 0 []

/-- R80: the next horizon record is due a period of p µs from now. -/
def State.hznSet (s : State) (p : Nat) : State := { s with time.hznNext := s.time.now + p * 1000 }

/-- R85: one period ends. -/
def State.horizon (s : State) : State :=
  let p := s.rd Reg.TIME_HZN.PERIOD []
  if p = 0 ∨ s.time.now < s.time.hznNext then s
  else
    ((List.range 1024).foldl State.postHorizon s).hznSet p

/-- HORIZON_RECORD (R85, R80). -/
def execHorizonRecord (s : State) : Host.Outcome State Fault Refusal := .next s.horizon

/-- TIME_SNAP (R80). -/
def State.timeSnap (s : State) : State := { s with time.snap := s.coarseStamp }

def execTimeSnap (s : State) : Host.Outcome State Fault Refusal := .next (s.gate s.timeSnap)

/-- R80: a write to TIME_HZN takes effect on the write. With PERIOD 0, horizon records stop at once. DEDUCED (log 64):
one that waits to be posted is not posted either. -/
def State.hznWrite (s : State) (p : Nat) : State :=
  let s := s.wr Reg.TIME_HZN.PERIOD [] p
  { s with
    time.hznNext := if p = 0 then 0 else s.time.now + p * 1000
    recs.held := if p = 0 then s.recs.held.filter fun h => h.kind != 0x31 else s.recs.held }

/-- R468: a vector's holdoff ends; one held message is sent. -/
def State.holdoffEnd (s : State) (v : Nat) : State :=
  if s.recs.heldVec.contains v ∧ ¬ s.inHoldoff v then
    if s.masked v then
      { s with recs.heldVec := s.recs.heldVec.filter (· ≠ v), recs.pba := Table.set false s.recs.pba v true }
    else s.sendMsix v
  else s

/-- VECTOR_HOLDOFF_END (R468). -/
def execVectorHoldoffEnd (v : Fin 256) (s : State) : Host.Outcome State Fault Refusal :=
  .next (s.holdoffEnd v)

/-- R468: a vector's mask, or the function mask, is cleared; a pending message is sent. -/
def State.unmask (s : State) (v : Nat) (func : Bool) : State :=
  let s := if func then { s with recs.funcMask := false } else s.wr Reg.MSIX_CTL.MASK [v] 0
  if Table.get false s.recs.pba v && !s.masked v then s.sendMsix v else s

/-- MSIX_UNMASK (R468). -/
def execMsixUnmask (v : Fin 256) (func : Bool) (s : State) : Host.Outcome State Fault Refusal :=
  .next (if func then s.unmask v true else s.gate (s.unmask v false))

end Sys2Proof.Machine
end

