-- ==== Sys2Proof/Machine/Registers.lean ====
section
/-! DEFINITION. Host accesses to the BARs (R447 to R452): register writes with their checks and actions,
register reads, and the diagnostic window (R704). -/

namespace Sys2Proof.Machine

/-! ### Writes -/

/-- R462: a value as the clamp log extends it. -/
def logValue (f : FieldSpec) (v : Nat) : Nat :=
  if fieldSigned f then wrapInt 64 (signedOf (f.hi + 1 - f.lo) v) else v

/-- R458 to R460: the fields of a register that a write sets, each checked on its own; `w` is the word
written and the result the word to store. Reserved bits, and fields that are not RW, keep what they hold. -/
def State.checkFields (s : State) (r : RegName) (idx : List Nat) (w : Nat) : List FieldSpec → Nat → State × Nat
  | [], x => (s, x)
  | f :: fs, x =>
    if f.acc ≠ .rw then State.checkFields s r idx w fs x
    else
      let v := bitsOf w f.hi f.lo
      let u := clampField f idx v
      let s := if u = v then s else
        s.logClamp s.home (fieldId 0 ⟨r, f.hi, f.lo⟩ idx) 0 (logValue f v) (logValue f u) s.coarseStamp true
      State.checkFields s r idx w fs (setBits x f.hi f.lo u)

/-- R453, R454: a register that is not double-buffered takes the word at once, a double-buffered one in
its shadow, once the copy of boundary work in progress has ended. -/
def State.storeWord (s : State) (r : RegName) (idx : List Nat) (x : Word) : State :=
  if (regSpec r).dbuf then
    if s.job.work && s.job.workCommit then
      { s with cfg.heldWrites := s.cfg.heldWrites ++ [(regAddr r idx, x)] }
    else s.setShadow r idx x
  else s.setDirect r idx x

/-- R459: check and store the fields of a register. -/
def State.storeFields (s : State) (r : RegName) (idx : List Nat) (w : Nat) : State :=
  let old := if (regSpec r).dbuf then s.shadowWord r idx else s.word r idx
  let (s, x) := State.checkFields s r idx w (regSpec r).fields old.toNat
  s.storeWord r idx (BitVec.ofNat 32 x)

/-- Registers whose writes are wholly the matter of the operation behind them. -/
def ownWrite : RegName → Bool
  | .CTX_CTL => true
  | .MSIX_CTL => true
  | .PWR_CTL => true
  | .TMR_CTL => true
  | _ => false

/-- R450: GLB_RESET. -/
def State.glbReset (s : State) (w : Nat) : State :=
  if bitsOf w 31 16 ≠ 0xB5A1 then s
  else match bitsOf w 1 0 with
    | 1 => s.hostIfReset
    | 2 => s.deviceReset
    | _ => s

/-- R468: the mask bit of a vector. -/
def State.maskWrite (s : State) (v : Nat) (m : Bool) : State :=
  if m then s.wr Reg.MSIX_CTL.MASK [v] 1 else s.unmask v false

/-- `f` where `b` holds. -/
def State.when_ (s : State) (b : Bool) (f : State → State) : State := if b then f s else s

/-- What the bits of a written word do at once, beside being stored. -/
def State.writeAction (s : State) (r : RegName) (idx : List Nat) (w : Nat) : State :=
  let i := idx.headD 0
  let j := idx.getD 1 0
  match r with
  | .GLB_RESET => s.glbReset w
  | .CFG_COMMIT => (s.when_ (bitOf w 1) State.discard).when_ (bitOf w 0) State.commit
  | .EVT_PEND => s.setDirect .EVT_PEND idx (s.word .EVT_PEND idx &&& ~~~(BitVec.ofNat 32 w))
  | .MSIX_CTL => s.maskWrite i (bitOf w 0)
  | .CTX_CTL =>
    ((s.when_ (bitOf w 2) fun s => s.ctxRelease i).when_ (bitOf w 1) fun s => s.ctxAbort i).pause i (bitOf w 0)
  | .TIME_SNAP => s.when_ (bitOf w 0) State.timeSnap
  | .TIME_HZN => s.hznWrite (s.rd Reg.TIME_HZN.PERIOD [])
  | .TMR_CTL => if bitOf w 0 then s.timerArm i else s.timerDisarm i
  | .LACE_ID => { s with lace.idWritten := true }.when_ (bitOf w 30) State.idNvSave
  | .LC_CTL => (s.when_ (bitOf w 1) fun s => s.lcRelease i).when_ (bitOf w 0) fun s => s.lcRetrain i
  | .PWR_CTL => s.rungRequest w
  | .CAL_CTL => s.when_ (bitOf w 0) State.calSave
  | .MON_INJ => s.monGo w
  | .FF_CTL => s.when_ (bitOf w 1) fun s => s.ffClr i
  | .BIA_CTL => s.when_ (bitOf w 0) fun s => s.biasRearm i
  | .BIAS_NVCTL => s.when_ (bitOf w 0) State.biasNvSave
  | .DP_CTL =>
    ((s.when_ (bitOf w 2) fun s => s.startCheck 3).when_ (bitOf w 1) State.dpRepair).when_ (bitOf w 0) State.askHandover
  | .DP_EMUTE => s.emuteRelease (BitVec.ofNat 16 w)
  | .DP_EMUTE_SW => s.emuteAssert (bitsOf w 15 0) 1
  | .KS_TRKCTL => s.when_ (bitOf w 31) fun s => s.resetTrack i j
  | .SEQ_CTL => s.when_ (bitOf w 0) fun s => s.trigSw (i * 16 + j)
  | .ENG_CTL => s.when_ (bitOf w 0) State.engRepair
  | _ => s

/-- A write of a word to a register. -/
def State.regWrite (s : State) (r : RegName) (idx : List Nat) (w : Nat) : State :=
  (if ownWrite r then s else s.storeFields r idx w).writeAction r idx w

/-- R452: GLB is always open; the other blocks are once READY is 1, the ladder control also in Deep. -/
def State.blockOpen (s : State) (a : Nat) : Bool :=
  s.sys.ready || decide (a < 0x10000) || (a == regAddr .PWR_CTL [] && s.ladderUp)

/-- An aligned 32-bit write to BAR0 offset `a`. Offsets without a register take none (R448). -/
def State.writeAt (s : State) (a w : Nat) : State :=
  if s.blockOpen a then
    match regFind a with
    | some (r, i) => s.regWrite r i w
    | none => s
  else s

/-- R448: a write of `size` bytes. -/
def State.barWrite (s : State) (a size v : Nat) : State :=
  if size = 4 ∧ a % 4 = 0 then s.writeAt a (v % 2 ^ 32)
  else if size = 8 ∧ a % 8 = 0 then (s.writeAt a (v % 2 ^ 32)).writeAt (a + 4) (v / 2 ^ 32)
  else s.violate 738 none 11 9 a v

/-- R13, R683: a write to BAR4. MB_STAT.DONE is W1C; MB_STAT is the upper word of a write of 8 bytes at 0.
The writing of GO with the request in the buffer is the command of the service (log 66). -/
def State.mbWrite (s : State) (a size v : Nat) : State :=
  if (size = 4 ∧ a = 4 ∧ bitOf v 30 = true) ∨ (size = 8 ∧ a = 0 ∧ bitOf v 62 = true) then { s with sec.done := false }
  else s

/-- R447: a host write, by its BAR. Addresses wrap at the size of the BAR. -/
def State.hostWrite (s : State) (bar : HostBar) (a size v : Nat) : State :=
  match bar with
  | .bar0 => s.barWrite a size v
  | .bar2 => s.doorbellWrite (a % 2 ^ 22) size v
  | .bar4 => s.mbWrite (a % 2 ^ 16) size v

/-- REGISTER_WRITE (R13, R448 to R460, R476, R683). -/
def execRegisterWrite (addr : HostAddr) (size : Fin 9) (data : BitVec 64) (s : State) :
    Host.Outcome State Fault Refusal :=
  (s.hostWrite addr.bar addr.off.toNat size data.toNat).done

/-- R80: TIME_HZN, checked as a register field (R459). -/
def State.hznReg (s : State) (w : Nat) : State := s.regWrite .TIME_HZN [] w

/-- TIME_HZN_WRITE (R80). -/
def execTimeHznWrite (value : Word) (s : State) : Host.Outcome State Fault Refusal :=
  .next (s.gate (s.hznReg value.toNat))

/-! ### Read-only fields -/

/-- A field value at its place. -/
def Fld.at_ (f : Fld) (v : Nat) : Nat := v % 2 ^ (f.hi + 1 - f.lo) * 2 ^ f.lo

def Fld.bit (f : Fld) (b : Bool) : Nat := if b then f.at_ 1 else 0

/-- R137: the code of a sequencer state. -/
def SeqState.code : SeqState → Nat
  | .idle => 0
  | .issue => 1
  | .queueWait => 2
  | .branchWait => 3
  | .syncWait => 4
  | .trigWait => 5
  | .done => 6
  | .stopped => 7

/-- R308. -/
def DspState.code : DspState → Nat
  | .idle => 0
  | .run => 1
  | .wait => 2
  | .stopped => 3

/-- R437: BIA_STAT.STATE. -/
def Bias.state (b : Bias) : Nat :=
  if b.st ≠ 0 then b.st else match b.move with
    | .steady => 0
    | _ => 1

/-- R125, R437: STATE and FAULT_CAUSE of an output channel. -/
def State.chanWord (s : State) (k : Nat) (cause st : Fld) : Nat :=
  cause.at_ (s.chan k).cause + st.at_ (s.chan k).st.toNat

/-- R462: word `w` of an entry of the clamp log. -/
def ClampEntry.words (e : ClampEntry) : List Nat :=
  [e.id.toNat, e.aux.toNat, e.written.toNat, e.written.toNat / 2 ^ 32, e.used.toNat, e.used.toNat / 2 ^ 32,
   e.stamp.bits, e.stamp.bits / 2 ^ 32, e.stamp.bits / 2 ^ 64, e.num.toNat]

/-- Bits 0 to n − 1 of a word. -/
def bitWord (n : Nat) (p : Nat → Bool) : Nat := (List.range n).foldl (fun a i => if p i then a + 2 ^ i else a) 0

/-- R547: LC_STAT. -/
def State.lcStat (s : State) (l : Nat) : Nat :=
  let x := s.lnk l
  let w (m : Nat) : Nat := if x.st = 3 then widthOf m else 0
  Reg.LC_STAT.STATE.at_ x.st + Reg.LC_STAT.RXW.at_ (w x.rxMask) + Reg.LC_STAT.TXW.at_ (w x.txMask)
    + Reg.LC_STAT.LANES.at_ x.lanes + Reg.LC_STAT.ATTEMPT.at_ x.attempt + Reg.LC_STAT.PLINK.at_ x.plink

/-- R337, R352, R354: a self-check runs, that of a repair included (its reload comes first; log 33). -/
def PlaneSt.checking (p : PlaneSt) : Bool :=
  p.selfchk.isSome || p.dp[0].repair == .started || p.dp[1].repair == .started

/-- R354: DP_STAT. -/
def State.dpStat (s : State) : Nat :=
  let d0 := s.planes.dp[0]
  let d1 := s.planes.dp[1]
  let paths := bitWord 4 fun i => [d0.beat.m1, d0.beat.m2, d1.beat.m1, d1.beat.m2].getD i false
  Reg.DP_STAT.SUSPECT.bit s.planes.suspect + Reg.DP_STAT.SELFCHK.bit s.planes.checking
    + Reg.DP_STAT.LINK.bit s.planes.link + Reg.DP_STAT.PATHS.at_ paths + Reg.DP_STAT.PF1.bit d1.beat.declared
    + Reg.DP_STAT.PF0.bit d0.beat.declared + Reg.DP_STAT.STATE1.at_ (s.planeState 1)
    + Reg.DP_STAT.STATE0.at_ (s.planeState 0) + Reg.DP_STAT.OWNER.at_ s.planes.owner

/-- R673: TS_VAL. -/
def State.tsVal (s : State) (i : Nat) : Nat :=
  let x := s.sensor i
  Reg.TS_VAL.BROKEN.bit x.broken + Reg.TS_VAL.VALID.bit x.valid + Reg.TS_VAL.SHUT.bit x.shut
    + Reg.TS_VAL.THROT.bit x.throt + Reg.TS_VAL.WARN.bit x.warn + Reg.TS_VAL.RAW.at_ (wrapInt 12 x.raw)
    + Reg.TS_VAL.VALUE.at_ (wrapInt 12 x.val)

/-- R673: PWR_STAT. -/
def State.pwrStat (s : State) : Nat :=
  Reg.PWR_STAT.RUNG.at_ s.pwr.rung + Reg.PWR_STAT.LEVEL.at_ s.pwr.level
    + Reg.PWR_STAT.ACTIONS.at_ (bitWord 6 fun i => s.taken (i + 1)) + Reg.PWR_STAT.THROT.bit s.pwr.throt
    + Reg.PWR_STAT.RELHOLD.bit s.pwr.relHold + Reg.PWR_STAT.CUT.bit s.pwr.cut + Reg.PWR_STAT.POWER.at_ s.pwr.power

/-- R409: PLC_STAT. -/
def State.plcStat (s : State) : Nat :=
  Reg.PLC_STAT.BUSY.bit (s.place.build.isSome || s.place.reproof == some 1)
    + Reg.PLC_STAT.LIVE_V.bit s.place.live.isSome + Reg.PLC_STAT.LIVE.at_ (s.place.live.getD 0)
    + Reg.PLC_STAT.STALE.at_ (bitWord 4 fun n => (s.last n).stale)
    + Reg.PLC_STAT.BUILT.at_ (bitWord 4 fun n => (s.last n).built) + Reg.PLC_STAT.SLOW.at_ s.place.slow

/-- R651: CAL_STAT. -/
def State.calStat (s : State) : Nat :=
  Reg.CAL_STAT.BUSY.bit s.cal.run.isSome + Reg.CAL_STAT.STAGED.bit (s.cal.staged != []) +
    Reg.CAL_STAT.NVBUSY.bit (s.nvBusy 1) + match s.cal.run with
      | some r => Reg.CAL_STAT.TARGET.at_ r.curT + Reg.CAL_STAT.UNIT.at_ r.curU
      | none => 0

/-- R608: MON_STAT. -/
def State.monStat (s : State) : Nat :=
  Reg.MON_STAT.PD.bit s.mon.pd + Reg.MON_STAT.QUEUED.bit s.mon.queued.isSome
    + Reg.MON_STAT.STATE.at_ (match s.mon.cur with
        | some c => c.kind
        | none => 0)
    + Reg.MON_STAT.ENTRY.at_ s.mon.entry

/-- R635: ENG_STAT. -/
def State.engStat (s : State) : Nat :=
  Reg.ENG_STAT.SYNC.bit s.eng.sync + Reg.ENG_STAT.WARM.bit s.eng.warm + Reg.ENG_STAT.STATE1.at_ s.eng.st[1]
    + Reg.ENG_STAT.STATE0.at_ s.eng.st[0] + Reg.ENG_STAT.ACTIVE.at_ s.eng.active

/-- R380: DEC_STAT, of the plane whose decoder counts. -/
def State.decStat (s : State) : Nat :=
  let p : Fin 2 := if s.planeUp 0 then 0 else 1
  Reg.DEC_STAT.ROUND.at_ ((s.dyn p).closed - 1) + match s.dec.graph with
    | some g => Reg.DEC_STAT.LOADED.at_ 1 + Reg.DEC_STAT.WINDOW.at_ g.window
    | none => 0

/-- R437: BIA_STAT. -/
def State.biaStat (s : State) (k : Nat) : Nat :=
  let b := s.biasOut k
  Reg.BIA_STAT.CODE.at_ (wrapInt 20 (s.biasCode k)) + Reg.BIA_STAT.RANGE.at_ b.range + Reg.BIA_STAT.OPEN.bit b.openLoad
    + Reg.BIA_STAT.COMPL.bit b.compl + Reg.BIA_STAT.STATE.at_ b.state

/-- R472: CTX_STAT. -/
def State.ctxStat (s : State) (c : Nat) : Nat :=
  Reg.CTX_STAT.QUAR.bit (s.ctx c).quar + Reg.CTX_STAT.PAUSED.bit (s.paused c)
    + Reg.CTX_STAT.JOB.bit (match s.job.job with
        | some j => j.ctx == c
        | none => false)
    + Reg.CTX_STAT.INFLT.at_ (s.ctx c).inflt

/-- R572: TP_STAT. -/
def State.tpStat (s : State) (n : Nat) : Nat :=
  Reg.TP_STAT.LINK.bit (s.port n).link + Reg.TP_STAT.SEL_A.bit (s.portDom n 0).master.isSome
    + Reg.TP_STAT.SEL_B.bit (s.portDom n 1).master.isSome
    + Reg.TP_STAT.QUAR.at_ ((s.port n).peers.filter fun p => decide (0 < p.quarTo)).length

/-- The part of a register that the device itself keeps and only shows: its RO fields (and W1C or RW
fields whose value is a state of the device), from the tables of its chapter. -/
def State.shown (s : State) (r : RegName) (idx : List Nat) : Nat :=
  let i := idx.headD 0
  let j := idx.getD 1 0
  match r with
  | .GLB_ID => Reg.GLB_ID.PART.at_ 0x5512 + Reg.GLB_ID.STEP.at_ 1
  | .GLB_VER => Reg.GLB_VER.ROM.at_ 1 + Reg.GLB_VER.PATCH.at_ s.patchVersion
  | .GLB_MODE => Reg.GLB_MODE.READY.bit s.sys.ready + Reg.GLB_MODE.MODE.at_ s.mode
  | .GLB_LINK => Reg.GLB_LINK.FLIT.bit s.host.flit + Reg.GLB_LINK.RATE.at_ s.host.rate
      + Reg.GLB_LINK.WIDTH.at_ s.host.width + Reg.GLB_LINK.L0P_WIDTH.at_ s.host.l0p
  | .GLB_DEVID => s.deviceId
  | .CFG_STAT => Reg.CFG_STAT.XCLAMP.at_ s.cfg.xclamp + Reg.CFG_STAT.CSEQ.at_ s.cfg.cseq.toNat
      + Reg.CFG_STAT.PENDING.bit s.cfg.pending
  | .CFG_CLAMP_CNT => s.cfg.clampNum.toNat
  | .CLAMP_LOG => ((Table.get {} s.cfg.clampLog i).words.getD j 0) % 2 ^ 32
  | .PLC_STAT => s.plcStat
  | .MSIX_PBA => bitWord 32 fun b => Table.get false s.recs.pba (i * 32 + b)
  | .CTX_STAT => s.ctxStat i
  | .TIME_NOW => s.time.snap.bits / 2 ^ (32 * i) % 2 ^ 32
  | .TIME_STAT => Reg.TIME_STAT.HOLD.bit s.time.holding + Reg.TIME_STAT.HOLDOVER.bit s.time.holdover
      + Reg.TIME_STAT.DOMAIN.at_ s.time.domain.toNat
  | .TM_STAT => Reg.TM_STAT.STATE_B.at_ (s.domSt 1).st + Reg.TM_STAT.STATE_A.at_ (s.domSt 0).st
      + Reg.TM_STAT.PPS_OK.bit s.net.ppsOk + Reg.TM_STAT.ACTIVE.at_ s.net.active
  | .TM_OFS => wrapInt 32 (satInt 32 (s.estimate i))
  | .TM_RATE => Reg.TM_RATE.A.at_ (Config.rateEst (s.domSt 0).samples).toNat
      + Reg.TM_RATE.B.at_ (Config.rateEst (s.domSt 1).samples).toNat
  | .TM_PPS_OFS => wrapInt 32 (satInt 32 s.net.ppsOfs)
  | .TP_STAT => s.tpStat i
  | .TMR_CTL => Reg.TMR_CTL.LATE.bit (s.timer i).late + Reg.TMR_CTL.ARM.bit (s.timer i).armed
  | .TMR_CNT => (s.timer i).cnt.toNat
  | .LACE_ID => Reg.LACE_ID.VALID.bit s.lace.idValid
  | .LACE_TSTAT => Reg.LACE_TSTAT.RHOPS.at_ s.rank.2.1 + Reg.LACE_TSTAT.FOLLOW.bit s.lace.follow.isSome
      + Reg.LACE_TSTAT.LINK.at_ (s.lace.follow.getD 0) + Reg.LACE_TSTAT.ROOT.at_ s.rank.1
  | .LC_STAT => s.lcStat i
  | .LC_PARTNER => Reg.LC_PARTNER.VALID.bit (s.lnk i).partner.isSome + Reg.LC_PARTNER.PID.at_ ((s.lnk i).partner.getD 0)
  | .LC_TOFS => wrapInt 32 (s.lnk i).beat.theta
  | .LC_DELAY => wrapInt 32 (s.lnk i).beat.delta
  | .PWR_STAT => s.pwrStat
  | .PWR_QSTAT => Reg.PWR_QSTAT.VINS.at_ s.pwr.vins + Reg.PWR_QSTAT.LOW.at_ s.pwr.low.toNat
  | .NV_STAT => Reg.NV_STAT.BUSY.bit (s.nv.writes != []) + Reg.NV_STAT.REFUSE.bit s.nv.refuse
      + Reg.NV_STAT.VALID.at_ (bitWord 6 fun b => (s.nvSlot (b / 2) (b % 2)).valid)
  | .TS_VAL => s.tsVal i
  | .CAL_STAT => s.calStat
  | .CAL_DAC_IL => (s.tap (regAddr r idx)).toNat
  | .CAL_ADC_IL => (s.tap (regAddr r idx)).toNat
  | .CAL_PORT => (s.tap (regAddr r idx)).toNat
  | .CAL_THRESH => (s.tap (regAddr r idx)).toNat
  | .CAL_LANE => (s.tap (regAddr r idx)).toNat
  | .CAL_MON => (s.tap (regAddr r idx)).toNat
  | .MON_STAT => s.monStat
  | .MON_IRES => s.mon.ires.toNat
  | .MON_RES => (Table.get 0 s.mon.res i).toNat
  | .FF_STAT => s.chanWord (160 + i) Reg.FF_STAT.FAULT_CAUSE Reg.FF_STAT.STATE
  | .BIA_STAT => s.biaStat i
  | .BIAS_NVCTL => Reg.BIAS_NVCTL.VALID.bit s.nvBias.isSome + Reg.BIAS_NVCTL.BUSY.bit (s.nvBusy 0)
  | .DP_STAT => s.dpStat
  | .DP_EMUTE => s.planes.emute.toNat
  | .DEC_STAT => s.decStat
  | .DT_STAT => Reg.DT_STAT.NODES.at_ ((s.place.inEffect.tiles.filter (· == j)).length)
  | .CH_STAT => s.chanWord (i * 40 + j) Reg.CH_STAT.FAULT_CAUSE Reg.CH_STAT.STATE
  | .CAP_STAT => Reg.CAP_STAT.SUSP.bit (Table.get {} s.rdo.caps (i * 8 + j)).susp
  | .KS_DRIFT => Reg.KS_DRIFT.DI.at_ (wrapInt 16 (s.track i j).di) + Reg.KS_DRIFT.DQ.at_ (wrapInt 16 (s.track i j).dq)
  | .KS_TRKCTL => Reg.KS_TRKCTL.NSHOT.at_ (s.track i j).nshot
  | .WELT_STAT => Reg.WELT_STAT.HALTED.bit (s.queue (i * 72 + j)).halted
      + Reg.WELT_STAT.DEPTH.at_ (s.queue (i * 72 + j)).events.length
  | .SEQ_STAT => Reg.SEQ_STAT.STATE.at_ (s.seq (i * 16 + j)).st.code + Reg.SEQ_STAT.PC.at_ (s.seq (i * 16 + j)).pc.toNat
  | .DSP_STAT => Reg.DSP_STAT.STATE.at_ (s.dsp (i * 4 + j)).st.code + Reg.DSP_STAT.PC.at_ (s.dsp (i * 4 + j)).pc.toNat
  | .ENG_STAT => s.engStat
  | .ENG_PATCH => Reg.ENG_PATCH.VERSION.at_ s.patchVersion + Reg.ENG_PATCH.RESULT.at_ s.eng.result
      + Reg.ENG_PATCH.TRIED.at_ s.eng.tried
  | .ENG_MATCH => s.matchWord i j
  | .DG_FAULT => Reg.DG_FAULT.ACT.at_ s.act + Reg.DG_FAULT.SAFE.at_ s.sys.safe + Reg.DG_FAULT.TMODE.bit s.sys.tmode
      + Reg.DG_FAULT.DEG.at_ s.deg
  | .DG_ECC => (s.word .DG_ECC idx).toNat
  | _ => 0

/-! ### Reads -/

/-- R13, R456: the RW, W1C and RC fields of a register as they are held; WO fields read zero. CFG_CTL.VIEW
selects the copy of a double-buffered register. -/
def State.heldWord (s : State) (r : RegName) (idx : List Nat) : Nat :=
  let w := if (regSpec r).dbuf && !s.flag Reg.CFG_CTL.VIEW [] then s.shadowWord r idx else s.word r idx
  (regSpec r).fields.foldl (fun a f =>
    if f.acc = .ro ∨ f.acc = .wo then a else a + bitsOf w.toNat f.hi f.lo * 2 ^ f.lo) 0

/-- The value that a read of a register returns. -/
def State.regValue (s : State) (r : RegName) (idx : List Nat) : Nat := s.heldWord r idx + s.shown r idx

/-- R13: a read clears the RC fields of a register. -/
def State.clearRc (s : State) (r : RegName) (idx : List Nat) : State :=
  let x := (regSpec r).fields.foldl (fun a f => if f.acc = .rc then setBits a f.hi f.lo 0 else a) (s.word r idx).toNat
  if (regSpec r).fields.any fun f => f.acc == .rc then s.setDirect r idx (BitVec.ofNat 32 x) else s

/-- R704: the memory class, unit and word address of a byte of the diagnostic window. -/
def windowUnit (o : Nat) : Nat × Nat × Nat :=
  if o < 0x800000 then (1, (o - 0x400000) / 0x10000, o % 0x10000 / 16)
  else if o < 0xA00000 then (3, (o - 0x800000) / 0x20000, o % 0x10000 / 4)
  else if o < 0xB00000 then (2, (o - 0xA00000) / 0x4000, o % 0x4000 / 4)
  else if o < 0xF00000 then (5, (o - 0xB00000) / 0x100000, o % 0x100000 / 4)
  else (0, (o - 0xF00000) / 0x10000, o % 0x10000 / 16)

/-- R704: the window offset holds a memory. -/
def inMemWindow (o : Nat) : Bool :=
  decide ((0x400000 ≤ o ∧ o < 0xA40000) ∨ (0xB00000 ≤ o ∧ o < 0xF40000))

/-- R704, R691: a word of the diagnostic window; `bad` says that it holds an uncorrectable error. -/
def State.windowWord (s : State) (o : Nat) (bad : Bool) : State × Nat :=
  let (cls, unit, a) := windowUnit o
  if bad then (s.eccError cls unit 0 a false, 0xFFFFFFFF)
  else if cls = 0 ∧ s.entrySealed unit a = true then (s, 0)
  else (s, s.load o 4)

/-- An aligned read of one word of BAR0. -/
def State.readAt (s : State) (a : Nat) (bad : Bool) : State × Nat :=
  if s.blockOpen a then
    match regFind a with
    | some (r, i) => (s.clearRc r i, s.regValue r i)
    | none => if 0x3000000 ≤ a ∧ inMemWindow (a - 0x3000000) then s.windowWord (a - 0x3000000) bad else (s, 0)
  else (s, 0)

/-- R448: a read of `size` bytes. -/
def State.barRead (s : State) (a size : Nat) (bad : BitVec 2) : State × Nat :=
  if size < 4 then
    let (t, v) := s.readAt (a / 4 * 4) (bad.getLsbD 0)
    (t, v / 2 ^ (8 * (a % 4)) % 2 ^ (8 * size))
  else if (size = 4 ∨ size = 8) ∧ a % size = 0 then
    let (t, v) := s.readAt a (bad.getLsbD 0)
    if size = 4 then (t, v)
    else
      let (u, x) := t.readAt (a + 4) (bad.getLsbD 1)
      (u, v + x * 2 ^ 32)
  else (s, 0)

/-- R448: a read of `size` bytes of registers whose words `f` gives. -/
def wordsRead (f : Nat → Nat) (a size : Nat) : Nat :=
  if size < 4 then f (a / 4 * 4) / 2 ^ (8 * (a % 4)) % 2 ^ (8 * size)
  else if (size = 4 ∨ size = 8) ∧ a % size = 0 then (if size = 4 then f a else f a + f (a + 4) * 2 ^ 32)
  else 0

/-- R447, R476, R683: a host read, by its BAR: BAR2 reads zero, BAR4 shows the mailbox. -/
def State.hostRead (s : State) (bar : HostBar) (a size : Nat) (bad : BitVec 2) : State × Nat :=
  match bar with
  | .bar0 => s.barRead a size bad
  | .bar2 => (s, 0)
  | .bar4 => (s, wordsRead s.mbWord (a % 2 ^ 16) size)

/-- REGISTER_READ_CLEAR (R13, R448, R452, R456, R476, R683, R704). -/
def execRegisterReadClear (addr : HostAddr) (size : Fin 9) (bad : BitVec 2) (s : State) :
    Host.Outcome State Fault Refusal :=
  let (t, v) := s.hostRead addr.bar addr.off.toNat size bad
  .next { t with host.readData := BitVec.ofNat 64 v }

end Sys2Proof.Machine
end

