-- ==== Sys2Proof/Machine/Dispatch.lean ====
section
/-! DEFINITION. The dispatch: one arm per command, one call of its meaning each. -/
namespace Sys2Proof.Machine

def exec (i : Instr) (s : State) : Host.Outcome State Fault Refusal :=
  match i with
  | .registerWrite addr size data => Sys2Proof.Machine.execRegisterWrite addr size data s
  | .registerReadClear addr size bad => Sys2Proof.Machine.execRegisterReadClear addr size bad s
  | .timeSnap => Sys2Proof.Machine.execTimeSnap s
  | .timeHznWrite value => Sys2Proof.Machine.execTimeHznWrite value s
  | .horizonRecord => Sys2Proof.Machine.execHorizonRecord s
  | .recordRelease r => Sys2Proof.Machine.execRecordRelease r s
  | .jobStart w => Sys2Proof.Machine.execJobStart w s
  | .shotStart => Sys2Proof.Machine.execShotStart s
  | .shotEnd => Sys2Proof.Machine.execShotEnd s
  | .boundaryWorkStart => Sys2Proof.Machine.execBoundaryWorkStart s
  | .boundaryWorkEnd => Sys2Proof.Machine.execBoundaryWorkEnd s
  | .outputSwitchStart ch => Sys2Proof.Machine.execOutputSwitchStart ch s
  | .outputSwitchEnd ch => Sys2Proof.Machine.execOutputSwitchEnd ch s
  | .timeFirstAlign t dom => Sys2Proof.Machine.execTimeFirstAlign t dom s
  | .timeCorrect => Sys2Proof.Machine.execTimeCorrect s
  | .timeHoldEnd => Sys2Proof.Machine.execTimeHoldEnd s
  | .referenceLoss => Sys2Proof.Machine.execReferenceLoss s
  | .referenceReturn => Sys2Proof.Machine.execReferenceReturn s
  | .weltEventEnter queue => Sys2Proof.Machine.execWeltEventEnter queue s
  | .weltEventRelease queue levels bad addr off => Sys2Proof.Machine.execWeltEventRelease queue levels bad addr off s
  | .outputOvercurrent ch => Sys2Proof.Machine.execOutputOvercurrent ch s
  | .outputFaultRetest ch passes => Sys2Proof.Machine.execOutputFaultRetest ch passes s
  | .play sq bad => Sys2Proof.Machine.execPlay sq bad s
  | .stream sq bad => Sys2Proof.Machine.execStream sq bad s
  | .phaseAdd sq bad => Sys2Proof.Machine.execPhaseAdd sq bad s
  | .phaseSet sq bad => Sys2Proof.Machine.execPhaseSet sq bad s
  | .freqSet sq bad => Sys2Proof.Machine.execFreqSet sq bad s
  | .freqAdd sq bad => Sys2Proof.Machine.execFreqAdd sq bad s
  | .waitRel sq bad => Sys2Proof.Machine.execWaitRel sq bad s
  | .waitAbs sq bad => Sys2Proof.Machine.execWaitAbs sq bad s
  | .waitEnd sq bad => Sys2Proof.Machine.execWaitEnd sq bad s
  | .meas sq bad => Sys2Proof.Machine.execMeas sq bad s
  | .mark sq bad => Sys2Proof.Machine.execMark sq bad s
  | .branch sq bad => Sys2Proof.Machine.execBranch sq bad s
  | .branchSegmentEnd sq bad => Sys2Proof.Machine.execBranchSegmentEnd sq bad s
  | .loopBegin sq bad => Sys2Proof.Machine.execLoopBegin sq bad s
  | .loopEnd sq bad => Sys2Proof.Machine.execLoopEnd sq bad s
  | .sync sq bad => Sys2Proof.Machine.execSync sq bad s
  | .trig sq bad => Sys2Proof.Machine.execTrig sq bad s
  | .biasSetStitch sq bad => Sys2Proof.Machine.execBiasSetStitch sq bad s
  | .biasWave sq bad => Sys2Proof.Machine.execBiasWave sq bad s
  | .biasStop sq bad => Sys2Proof.Machine.execBiasStop sq bad s
  | .seqQueueResume sq => Sys2Proof.Machine.execSeqQueueResume sq s
  | .deadlineSignalSend sq => Sys2Proof.Machine.execDeadlineSignalSend sq s
  | .deadlineSignal sq => Sys2Proof.Machine.execDeadlineSignal sq s
  | .timeRequest sq frac => Sys2Proof.Machine.execTimeRequest sq frac s
  | .timeAnswer sq => Sys2Proof.Machine.execTimeAnswer sq s
  | .reanchorLimit sq => Sys2Proof.Machine.execReanchorLimit sq s
  | .jumpRequest j => Sys2Proof.Machine.execJumpRequest j s
  | .jumpReject sq => Sys2Proof.Machine.execJumpReject sq s
  | .jumpPointSignal sq => Sys2Proof.Machine.execJumpPointSignal sq s
  | .compareResult sq => Sys2Proof.Machine.execCompareResult sq s
  | .externalEvent sq => Sys2Proof.Machine.execExternalEvent sq s
  | .markerEdge pin => Sys2Proof.Machine.execMarkerEdge pin s
  | .triggerArrive sq => Sys2Proof.Machine.execTriggerArrive sq s
  | .trigSw sq => Sys2Proof.Machine.execTrigSw sq s
  | .barrierRelease bar => Sys2Proof.Machine.execBarrierRelease bar s
  | .syncTimeout sq => Sys2Proof.Machine.execSyncTimeout sq s
  | .streamDataArrive q strm data => Sys2Proof.Machine.execStreamDataArrive q strm data s
  | .streamUnderrun queue => Sys2Proof.Machine.execStreamUnderrun queue s
  | .adcOverrange inp k => Sys2Proof.Machine.execAdcOverrange inp k s
  | .windowEnd q t codes kerr => Sys2Proof.Machine.execWindowEnd q t codes kerr s
  | .trackReset q ks => Sys2Proof.Machine.execTrackReset q ks s
  | .captureRecordComplete inp first codes closed => Sys2Proof.Machine.execCaptureRecordComplete inp first codes closed s
  | .captureRecordOutbound r => Sys2Proof.Machine.execCaptureRecordOutbound r s
  | .waitinWake k => Sys2Proof.Machine.execWaitinWake k s
  | .dspBudgetOverrun k => Sys2Proof.Machine.execDspBudgetOverrun k s
  | .dspMove k bad => Sys2Proof.Machine.execDspMove k bad s
  | .cmul k bad => Sys2Proof.Machine.execCmul k bad s
  | .cmac k bad => Sys2Proof.Machine.execCmac k bad s
  | .cmacj k bad => Sys2Proof.Machine.execCmacj k bad s
  | .cmsu k bad => Sys2Proof.Machine.execCmsu k bad s
  | .dmac k bad => Sys2Proof.Machine.execDmac k bad s
  | .dmul k bad => Sys2Proof.Machine.execDmul k bad s
  | .dspAdd k bad => Sys2Proof.Machine.execDspAdd k bad s
  | .dspSub k bad => Sys2Proof.Machine.execDspSub k bad s
  | .dspAnd k bad => Sys2Proof.Machine.execDspAnd k bad s
  | .dspOr k bad => Sys2Proof.Machine.execDspOr k bad s
  | .dspXor k bad => Sys2Proof.Machine.execDspXor k bad s
  | .addi k bad => Sys2Proof.Machine.execAddi k bad s
  | .ldi k bad => Sys2Proof.Machine.execLdi k bad s
  | .ldih k bad => Sys2Proof.Machine.execLdih k bad s
  | .shl k bad => Sys2Proof.Machine.execShl k bad s
  | .asr k bad => Sys2Proof.Machine.execAsr k bad s
  | .cmp k bad => Sys2Proof.Machine.execCmp k bad s
  | .geta k bad => Sys2Proof.Machine.execGeta k bad s
  | .lda k bad => Sys2Proof.Machine.execLda k bad s
  | .clra k bad => Sys2Proof.Machine.execClra k bad s
  | .movs k bad => Sys2Proof.Machine.execMovs k bad s
  | .movt k bad => Sys2Proof.Machine.execMovt k bad s
  | .mag2 k bad => Sys2Proof.Machine.execMag2 k bad s
  | .umov k bad => Sys2Proof.Machine.execUmov k bad s
  | .gmov k bad => Sys2Proof.Machine.execGmov k bad s
  | .dspLd k bad => Sys2Proof.Machine.execDspLd k bad s
  | .dspSt k bad => Sys2Proof.Machine.execDspSt k bad s
  | .setp k bad => Sys2Proof.Machine.execSetp k bad s
  | .sets k bad => Sys2Proof.Machine.execSets k bad s
  | .setrb k bad => Sys2Proof.Machine.execSetrb k bad s
  | .setrl k bad => Sys2Proof.Machine.execSetrl k bad s
  | .movp k bad => Sys2Proof.Machine.execMovp k bad s
  | .dspNop k bad => Sys2Proof.Machine.execDspNop k bad s
  | .rep k bad => Sys2Proof.Machine.execRep k bad s
  | .repg k bad => Sys2Proof.Machine.execRepg k bad s
  | .jmp k bad => Sys2Proof.Machine.execJmp k bad s
  | .jcc k bad => Sys2Proof.Machine.execJcc k bad s
  | .waitin k bad => Sys2Proof.Machine.execWaitin k bad s
  | .dspToken k bad => Sys2Proof.Machine.execDspToken k bad s
  | .dspRecord k bad => Sys2Proof.Machine.execDspRecord k bad s
  | .dspEnd k bad => Sys2Proof.Machine.execDspEnd k bad s
  | .planeToken dp tgt bad addr => Sys2Proof.Machine.execPlaneToken dp tgt bad addr s
  | .decisionReceive sq origin bad => Sys2Proof.Machine.execDecisionReceive sq origin bad s
  | .interlockCommand => Sys2Proof.Machine.execInterlockCommand s
  | .emuteRelease mask => Sys2Proof.Machine.execEmuteRelease mask s
  | .emuteSw mask => Sys2Proof.Machine.execEmuteSw mask s
  | .selfchk => Sys2Proof.Machine.execSelfchk s
  | .selfcheckEnd which f0 f1 => Sys2Proof.Machine.execSelfcheckEnd which f0 f1 s
  | .heartbeatPulse src => Sys2Proof.Machine.execHeartbeatPulse src s
  | .beatMessage src => Sys2Proof.Machine.execBeatMessage src s
  | .heartbeatIntervalEnd dp path2 => Sys2Proof.Machine.execHeartbeatIntervalEnd dp path2 s
  | .ownerRefresh => Sys2Proof.Machine.execOwnerRefresh s
  | .take src => Sys2Proof.Machine.execTake src s
  | .handover => Sys2Proof.Machine.execHandover s
  | .handoverExecute => Sys2Proof.Machine.execHandoverExecute s
  | .planeLinkLoss => Sys2Proof.Machine.execPlaneLinkLoss s
  | .planeLinkRetrain => Sys2Proof.Machine.execPlaneLinkRetrain s
  | .dpRepair => Sys2Proof.Machine.execDpRepair s
  | .planeRepair dp => Sys2Proof.Machine.execPlaneRepair dp s
  | .resyncPoint dp => Sys2Proof.Machine.execResyncPoint dp s
  | .syndromeToken dp tgt bad addr => Sys2Proof.Machine.execSyndromeToken dp tgt bad addr s
  | .roundClose dp => Sys2Proof.Machine.execRoundClose dp s
  | .decode dp => Sys2Proof.Machine.execDecode dp s
  | .decodeOutput dp => Sys2Proof.Machine.execDecodeOutput dp s
  | .remoteWaitExpiry dp peer => Sys2Proof.Machine.execRemoteWaitExpiry dp peer s
  | .buildDone remote => Sys2Proof.Machine.execBuildDone s remote
  | .peerWaitExpiry peer => Sys2Proof.Machine.execPeerWaitExpiry peer s
  | .slownessSample counts => Sys2Proof.Machine.execSlownessSample counts s
  | .reproof => Sys2Proof.Machine.execReproof s
  | .reproofDone slow => Sys2Proof.Machine.execReproofDone slow s
  | .ffClr k => Sys2Proof.Machine.execFfClr k s
  | .biasWavePoint k bad => Sys2Proof.Machine.execBiasWavePoint k bad s
  | .rangeSequence k => Sys2Proof.Machine.execRangeSequence k s
  | .rangeHoldEnd k => Sys2Proof.Machine.execRangeHoldEnd k s
  | .rampDone k => Sys2Proof.Machine.execRampDone k s
  | .biasCompliance k => Sys2Proof.Machine.execBiasCompliance k s
  | .biasComplianceClear k => Sys2Proof.Machine.execBiasComplianceClear k s
  | .biasOpenLoad k => Sys2Proof.Machine.execBiasOpenLoad k s
  | .biasRearm k => Sys2Proof.Machine.execBiasRearm k s
  | .biasNvSave => Sys2Proof.Machine.execBiasNvSave s
  | .nvWriteDone what => Sys2Proof.Machine.execNvWriteDone what s
  | .functionLevelReset => Sys2Proof.Machine.execFunctionLevelReset s
  | .d3hotEntry => Sys2Proof.Machine.execD3hotEntry s
  | .d0Return => Sys2Proof.Machine.execD0Return s
  | .linkStateChange low flit rate width l0p => Sys2Proof.Machine.execLinkStateChange low flit rate width l0p s
  | .hostInterfaceReset => Sys2Proof.Machine.execHostInterfaceReset s
  | .deviceReset => Sys2Proof.Machine.execDeviceReset s
  | .commit => Sys2Proof.Machine.execCommit s
  | .discard => Sys2Proof.Machine.execDiscard s
  | .vectorHoldoffEnd v => Sys2Proof.Machine.execVectorHoldoffEnd v s
  | .msixUnmask v func => Sys2Proof.Machine.execMsixUnmask v func s
  | .doorbellSubTail c v => Sys2Proof.Machine.execDoorbellSubTail c v s
  | .doorbellCplHead c v => Sys2Proof.Machine.execDoorbellCplHead c v s
  | .doorbellResHead c v => Sys2Proof.Machine.execDoorbellResHead c v s
  | .doorbellEvtHead c v => Sys2Proof.Machine.execDoorbellEvtHead c v s
  | .doorbellCapHead c v => Sys2Proof.Machine.execDoorbellCapHead c v s
  | .submissionFetch c w => Sys2Proof.Machine.execSubmissionFetch c w s
  | .hostReadCompletion r data => Sys2Proof.Machine.execHostReadCompletion r data s
  | .hostReadFailure r cause addr => Sys2Proof.Machine.execHostReadFailure r cause addr s
  | .ctxPause c pause => Sys2Proof.Machine.execCtxPause c pause s
  | .ctxAbort c => Sys2Proof.Machine.execCtxAbort c s
  | .ctxRelease c => Sys2Proof.Machine.execCtxRelease c s
  | .nop c idx => Sys2Proof.Machine.execNop c idx s
  | .loadProgram c idx bad => Sys2Proof.Machine.execLoadProgram c idx bad s
  | .loadEnvelope c idx bad => Sys2Proof.Machine.execLoadEnvelope c idx bad s
  | .loadDecoder c idx bad => Sys2Proof.Machine.execLoadDecoder c idx bad s
  | .place c idx counts => Sys2Proof.Machine.execPlace c idx counts s
  | .run c idx => Sys2Proof.Machine.execRun c idx s
  | .capture c idx => Sys2Proof.Machine.execCapture c idx s
  | .calibrate c idx => Sys2Proof.Machine.execCalibrate c idx s
  | .biasSet c idx bad => Sys2Proof.Machine.execBiasSet c idx bad s
  | .streamBind c idx => Sys2Proof.Machine.execStreamBind c idx s
  | .query c idx => Sys2Proof.Machine.execQuery c idx s
  | .fence c idx => Sys2Proof.Machine.execFence c idx s
  | .loadDeferredApply c idx => Sys2Proof.Machine.execLoadDeferredApply c idx s
  | .laneSignalGain l lane => Sys2Proof.Machine.execLaneSignalGain l lane s
  | .laneLock l lane => Sys2Proof.Machine.execLaneLock l lane s
  | .laneLockLoss l lane => Sys2Proof.Machine.execLaneLockLoss l lane s
  | .trainingAttempt l sig => Sys2Proof.Machine.execTrainingAttempt l sig s
  | .trainBlock l lane b drift => Sys2Proof.Machine.execTrainBlock l lane b drift s
  | .alignBlock l b => Sys2Proof.Machine.execAlignBlock l b s
  | .trainingTimeout l sig => Sys2Proof.Machine.execTrainingTimeout l sig s
  | .trainingBackoffEnd l => Sys2Proof.Machine.execTrainingBackoffEnd l s
  | .laneRetrain l lane => Sys2Proof.Machine.execLaneRetrain l lane s
  | .widthBlock l b => Sys2Proof.Machine.execWidthBlock l b s
  | .lcRetrain l => Sys2Proof.Machine.execLcRetrain l s
  | .lcRelease l => Sys2Proof.Machine.execLcRelease l s
  | .laceQuarantineEnd l => Sys2Proof.Machine.execLaceQuarantineEnd l s
  | .idleEntry l => Sys2Proof.Machine.execIdleEntry l s
  | .eidleBlock b => Sys2Proof.Machine.execEidleBlock b s
  | .idleExit l => Sys2Proof.Machine.execIdleExit l s
  | .idleExitTimeout l => Sys2Proof.Machine.execIdleExitTimeout l s
  | .ack l hdr typ body => Sys2Proof.Machine.execAck l hdr typ body s
  | .nak l hdr typ body bad => Sys2Proof.Machine.execNak l hdr typ body bad s
  | .resendTimeout v bad => Sys2Proof.Machine.execResendTimeout v bad s
  | .decisionFrame l blocks a => Sys2Proof.Machine.execDecisionFrame l blocks a s
  | .triggerFrame l blocks a => Sys2Proof.Machine.execTriggerFrame l blocks a s
  | .barrierFrame l blocks a => Sys2Proof.Machine.execBarrierFrame l blocks a s
  | .boundaryFrame l blocks a => Sys2Proof.Machine.execBoundaryFrame l blocks a s
  | .probe l blocks a => Sys2Proof.Machine.execProbe l blocks a s
  | .reply l blocks a => Sys2Proof.Machine.execReply l blocks a s
  | .testFrame l blocks a biterr => Sys2Proof.Machine.execTestFrame l blocks a biterr s
  | .summary l blocks a => Sys2Proof.Machine.execSummary l blocks a s
  | .reject l blocks a => Sys2Proof.Machine.execReject l blocks a s
  | .timeFrame l blocks a => Sys2Proof.Machine.execTimeFrame l blocks a s
  | .timeFrameSend l => Sys2Proof.Machine.execTimeFrameSend l s
  | .beaconSend l dep => Sys2Proof.Machine.execBeaconSend l dep s
  | .bcn0 l hdr payload arr => Sys2Proof.Machine.execBcn0 l hdr payload arr s
  | .bcn1 l hdr typ d rest => Sys2Proof.Machine.execBcn1 l hdr typ d rest s
  | .laceTimeAlign => Sys2Proof.Machine.execLaceTimeAlign s
  | .laceIdNvsave => Sys2Proof.Machine.execLaceIdNvsave s
  | .ptpSync n m frac res => Sys2Proof.Machine.execPtpSync n m frac res s
  | .followUp n m => Sys2Proof.Machine.execFollowUp n m s
  | .delayReq n m frac res => Sys2Proof.Machine.execDelayReq n m frac res s
  | .delayResp n m => Sys2Proof.Machine.execDelayResp n m s
  | .pdelayReq n m frac turn => Sys2Proof.Machine.execPdelayReq n m frac turn s
  | .pdelayResp n m frac => Sys2Proof.Machine.execPdelayResp n m frac s
  | .pdelayRespFollowUp n m => Sys2Proof.Machine.execPdelayRespFollowUp n m s
  | .announce n m => Sys2Proof.Machine.execAnnounce n m s
  | .ptpIgnoredMessage n drop => Sys2Proof.Machine.execPtpIgnoredMessage n drop s
  | .syncSend n d frac => Sys2Proof.Machine.execSyncSend n d frac s
  | .announceSend n d => Sys2Proof.Machine.execAnnounceSend n d s
  | .delayReqSend n d frac => Sys2Proof.Machine.execDelayReqSend n d frac s
  | .membershipReport n => Sys2Proof.Machine.execMembershipReport n s
  | .announceTimeout n d => Sys2Proof.Machine.execAnnounceTimeout n d s
  | .domainLost d => Sys2Proof.Machine.execDomainLost d s
  | .domainSwitch => Sys2Proof.Machine.execDomainSwitch s
  | .ptpQuarantineEnd n peer => Sys2Proof.Machine.execPtpQuarantineEnd n peer s
  | .ppsEdge e => Sys2Proof.Machine.execPpsEdge e s
  | .ppsMissing => Sys2Proof.Machine.execPpsMissing s
  | .timerArm n => Sys2Proof.Machine.execTimerArm n s
  | .timerDisarm n => Sys2Proof.Machine.execTimerDisarm n s
  | .timerFire n => Sys2Proof.Machine.execTimerFire n s
  | .timerPulseEnd n => Sys2Proof.Machine.execTimerPulseEnd n s
  | .awlEdge k falling ref n n1 n2 => Sys2Proof.Machine.execAwlEdge k falling ref n n1 n2 s
  | .awlGateEnd k => Sys2Proof.Machine.execAwlGateEnd k s
  | .scanPassStart => Sys2Proof.Machine.execScanPassStart s
  | .monModulatorStart => Sys2Proof.Machine.execMonModulatorStart s
  | .monConversionEnd v => Sys2Proof.Machine.execMonConversionEnd v s
  | .monInjGo value => Sys2Proof.Machine.execMonInjGo value s
  | .cobblerInterrupt abandon => Sys2Proof.Machine.execCobblerInterrupt abandon s
  | .cobblerWatchdog => Sys2Proof.Machine.execCobblerWatchdog s
  | .switchoverResume => Sys2Proof.Machine.execSwitchoverResume s
  | .stateSave => Sys2Proof.Machine.execStateSave s
  | .warmSyncDone => Sys2Proof.Machine.execWarmSyncDone s
  | .engRepair => Sys2Proof.Machine.execEngRepair s
  | .cobblerRepair => Sys2Proof.Machine.execCobblerRepair s
  | .cobblerRepairDone ok0 ok1 pass => Sys2Proof.Machine.execCobblerRepairDone ok0 ok1 pass s
  | .calStepStart => Sys2Proof.Machine.execCalStepStart s
  | .calStepEnd vals => Sys2Proof.Machine.execCalStepEnd vals s
  | .calSave => Sys2Proof.Machine.execCalSave s
  | .scrubPass errs => Sys2Proof.Machine.execScrubPass errs s
  | .scrubPassEnd ce => Sys2Proof.Machine.execScrubPassEnd ce s
  | .telemetry => Sys2Proof.Machine.execTelemetry s
  | .rungRequest value => Sys2Proof.Machine.execRungRequest value s
  | .rungChange => Sys2Proof.Machine.execRungChange s
  | .sensorSample k raw => Sys2Proof.Machine.execSensorSample k raw s
  | .orderlyStopTimeout => Sys2Proof.Machine.execOrderlyStopTimeout s
  | .hardwareCut tile => Sys2Proof.Machine.execHardwareCut tile s
  | .throttleRise p => Sys2Proof.Machine.execThrottleRise p s
  | .throttleMeasureEnd p => Sys2Proof.Machine.execThrottleMeasureEnd p s
  | .throttleReleaseStep p => Sys2Proof.Machine.execThrottleReleaseStep p s
  | .coreRailLow rail mv => Sys2Proof.Machine.execCoreRailLow rail mv s
  | .rfRailFault q => Sys2Proof.Machine.execRfRailFault q s
  | .vbiasFault => Sys2Proof.Machine.execVbiasFault s
  | .railRecover rail mv => Sys2Proof.Machine.execRailRecover rail mv s
  | .status r => Sys2Proof.Machine.execStatus r s
  | .nonce r => Sys2Proof.Machine.execNonce r s
  | .selftest r failed alg => Sys2Proof.Machine.execSelftest r failed alg s
  | .zeroize r full => Sys2Proof.Machine.execZeroize r full s
  | .random r n => Sys2Proof.Machine.execRandom r n s
  | .getCerts r => Sys2Proof.Machine.execGetCerts r s
  | .takeOwner r opk uak tagOk => Sys2Proof.Machine.execTakeOwner r opk uak tagOk s
  | .setUak r uak tagOk => Sys2Proof.Machine.execSetUak r uak tagOk s
  | .importLk r slot key tagOk => Sys2Proof.Machine.execImportLk r slot key tagOk s
  | .deleteLk r slot => Sys2Proof.Machine.execDeleteLk r slot s
  | .installPatch r version rom image sigOk => Sys2Proof.Machine.execInstallPatch r version rom image sigOk s
  | .advanceRollback r => Sys2Proof.Machine.execAdvanceRollback r s
  | .releaseOwner r => Sys2Proof.Machine.execReleaseOwner r s
  | .unsealLoad r c slot addr len => Sys2Proof.Machine.execUnsealLoad r c slot addr len s
  | .unsealPassEnd tagOk hdr ents => Sys2Proof.Machine.execUnsealPassEnd tagOk hdr ents s
  | .sealCal r c slot addr => Sys2Proof.Machine.execSealCal r c slot addr s
  | .importCal r slot tagOk hdr taps => Sys2Proof.Machine.execImportCal r slot tagOk hdr taps s
  | .attest r nonce => Sys2Proof.Machine.execAttest r nonce s
  | .serviceDone bad => Sys2Proof.Machine.execServiceDone s bad
  | .lockoutEnd co => Sys2Proof.Machine.execLockoutEnd co s
  | .mailboxQuarantineEnd => Sys2Proof.Machine.execMailboxQuarantineEnd s
  | .powerUpReset aon => Sys2Proof.Machine.execPowerUpReset aon s
  | .powerUpResetRelease => Sys2Proof.Machine.execPowerUpResetRelease s
  | .perst => Sys2Proof.Machine.execPerst s
  | .bootStepEnd stp => Sys2Proof.Machine.execBootStepEnd stp s
  | .timeLock => Sys2Proof.Machine.execTimeLock s
  | .bootEnd => Sys2Proof.Machine.execBootEnd s
  | .probeWaitExpiry => Sys2Proof.Machine.execProbeWaitExpiry s
  | .timingPortLinkDown n => Sys2Proof.Machine.execTimingPortLinkDown n s
  | .doorbellUnlistedWrite off size v => Sys2Proof.Machine.execDoorbellUnlistedWrite off size v s
  | .discardedGo r cmd => Sys2Proof.Machine.execDiscardedGo r cmd s
  | .vbiasInRange => Sys2Proof.Machine.execVbiasInRange s
  | .entropyHealthFailure => Sys2Proof.Machine.execEntropyHealthFailure s
  | .releaseSuspensionEnd => Sys2Proof.Machine.execReleaseSuspensionEnd s

end Sys2Proof.Machine
end

