-- ==== Sys2Proof/Machine/Tick.lean ====
section
/-! DEFINITION. One tick of the reference-derived clocks (R47, R50, R53, R63, R89, R414, R505): what the device
does when no command waits. -/

namespace Sys2Proof.Machine

/-- R50, R53: device time at the next tick. In a hold it stands still for the ticks that are left. -/
def TimeSt.next (t : TimeSt) : TimeSt :=
  if !t.locked then { t with now := t.now + 1 }
  else if t.holding && decide (0 < t.holdLeft) then { t with now := t.now + 1, holdLeft := t.holdLeft - 1 }
  else { t with now := t.now + 1, dev := t.dev.succ }

/-- R50: the nanoseconds after which device time wraps. -/
def devWrap : Nat := 2 ^ 48 * 1000000000

/-- R63: the value held in the insole is a recent one, at most 24 ns behind (log 3), and never steps back;
both wrap together (R50). -/
def TimeSt.lag (t : TimeSt) : TimeSt :=
  let n := (t.dev.abs + devWrap - (Config.coarseLag t.now).toNat % 25) % devWrap
  let d := (n + devWrap - t.coarse.abs % devWrap) % devWrap
  if t.locked && decide (0 < d ∧ d < devWrap / 2) then { t with coarse := DevTime.ofInt n } else t

/-- R87, R414: an active output channel plays up to the present tick: 16 samples of an RF channel, 2 of a
fast flux channel. -/
def State.playOut (s : State) (ch : Nat) : State :=
  if ch < 160 then s.renderRf (ch / 40) (ch % 40) (s.time.now * 16) else s.renderFlux (ch - 160) (s.time.now * 2)

/-- One tick. -/
def State.tick (s : State) : State :=
  let s := { s with time := s.time.next.lag }
  if s.awake then
    let s := (s.outs.chans.map (·.1)).foldl State.playOut s
    ((s.awl.map (·.1)).foldl State.awlTake ((List.range 8).foldl State.laceRow s)).monWatch
  else s

end Sys2Proof.Machine
end

