-- ==== Sys2Proof/Machine/Step.lean ====
section
/-! DEFINITION. The step: it takes the command at the front of the queue; on an empty queue one tick of
the device's clocks passes (log 1). -/

namespace Sys2Proof.Machine

/-- The commands that wait, replaced. -/
def State.withPending (s : State) (q : List Instr) : State := { s with pending := q }

def step (s : State) : Host.Outcome State Fault Refusal :=
  match s.pending with
  | [] => .next s.tick
  | c :: rest => exec c (s.withPending rest)

/-- The table gives no row bits, so no word spells a command (log 2). -/
def State.withFetchWord (s : State) (nbits w : Nat) : State :=
  match decodeTableWord nbits w with
  | some c => s.withPending (c :: s.pending)
  | none => s

end Sys2Proof.Machine
end

