-- ==== Sys2Proof/WellFormed.lean ====
section
/-! DEFINITION. Which commands the outside of the part can give it: the operands that the types of
Sys2Proof/Syntax.lean leave wider than the spec does. `exec` asks for none of these: a command
whose operands break them is still given its effect by the same rules (log 21). -/

namespace Sys2Proof

/-- R50: device time with a nanoseconds count below 1,000,000,000. -/
def DevTime.wf (t : DevTime) : Bool := decide (t.ns.toNat < 1000000000)

/-- A command that the buses, links and pins of the part can carry: an access of one byte or more (R448); a
time of day (R50); whole samples of four bytes (R165); an entry read of 64 bytes (R479); entry headers
of 32 bytes (R688). -/
def Instr.wf : Instr → Bool
  | .registerWrite _ size _ => size != 0
  | .registerReadClear _ size _ => size != 0
  | .doorbellUnlistedWrite _ size _ => size != 0
  | .timeFirstAlign t _ => t.wf
  | .streamDataArrive _ _ data => data.length % 4 == 0
  | .hostReadCompletion (.entry _ _ _) data => data.length == 64
  | .unsealPassEnd _ _ ents => ents.all fun e => e.hdr.length == 32
  | _ => true

end Sys2Proof
end

