-- ==== Sys2Proof/Safety.lean ====
section
/-! DEFINITION. The predicates that the statements speak in: the form of the memory, the commands that
can end a latch of the always-on domain, what a sequencer, a processor or the cobbler is about to carry out, what a timing port takes,
and the part of the state that a record, a violation or a clamp leaves alone. -/

namespace Sys2Proof.Machine

/-- The memory is in its canonical form. -/
def State.memoryOk (s : State) : Prop := Memory.wf s.ram = true

/-- R450: the word of a write to GLB_RESET asks for a device reset. -/
def asksDeviceReset (w : Nat) : Prop := bitsOf w 31 16 = 0xB5A1 ∧ bitsOf w 1 0 = 2

/-- R699, R731, R732: the command is a device reset or a power-up reset: the commands of those names, a
register write that asks for one (GLB_RESET at 0xC), and the end of the NV write that one waits for. -/
def resetsDevice (s : State) : Instr → Prop
  | .deviceReset => True
  | .powerUpReset _ => True
  | .nvWriteDone _ => s.sys.resetWait = true
  | .registerWrite ⟨.bar0, a⟩ n d =>
    (n = 4 ∧ a = 0xC ∧ asksDeviceReset (d.toNat % 2 ^ 32)) ∨ (n = 8 ∧ a = 8 ∧ asksDeviceReset (d.toNat / 2 ^ 32))
  | _ => False

/-- R131, R136, R184: sequencer k issues the stitch w, of CLASS c and SUB v, without an error. -/
abbrev State.issues (s : State) (k : Nat) (w : Stitch) (c v : Nat) : Prop :=
  (s.seq k).st = .issue ∧ (s.seq k).haltPend = false ∧ s.stitchAt k (s.seq k).pc.toNat = w ∧ w.known = true
  ∧ w.cls = c ∧ w.sub = v

/-- R480, R485, R498, R699: the fetched descriptor d of context c at index i, of opcode op, starts: its turn has come,
its fields have no violation, and the mode allows it. -/
abbrev State.starts (s : State) (c i op : Nat) (d : Desc) : Prop :=
  s.desc c i = some d ∧ d.op = op ∧ d.phase = .fetched ∧ s.cobblerUp = true ∧ s.sys.boot = false
  ∧ s.mayStart c d = true ∧ s.descFault c d = none ∧ s.forbids d = false

/-- R480, R487: the data of the started descriptor d of context c at index i, of opcode op, has come. -/
abbrev State.hasData (s : State) (c i op : Nat) (d : Desc) : Prop :=
  s.desc c i = some d ∧ d.op = op ∧ d.phase = .loaded ∧ s.cobblerUp = true

/-- R297: the word at the program counter of processor k. -/
abbrev State.dspNow (s : State) (k : Nat) : Nat := s.dspWord k (s.dsp k).pc.toNat

/-- R287, R297, R307: processor k runs, and its instruction, of a class and an operation, is fetched without an error. -/
abbrev State.dspIssues (s : State) (k : Nat) (bad : BitVec 3) (cls op : Nat) : Prop :=
  (s.dsp k).st = .run ∧ bad.getLsbD 0 = false ∧ dspClass (s.dspNow k) = cls ∧ dspOp (s.dspNow k) = op

/-- R550, R551, R570: port n takes the message m of type t for domain d: the port is enabled with its link, and the
message has no fault. -/
abbrev State.ptpTakes (s : State) (n t : Nat) (m : PtpMsg) (d : Nat) : Prop :=
  s.flag Reg.TP_CFG.EN [n] = true ∧ (s.port n).link = true ∧ (s.port n).quarantined m.id = false ∧ m.major = 2
  ∧ m.badLen = false ∧ m.mtype.toNat = t ∧ s.ptpDomain m = some d ∧ s.ptpMode n d ≠ 0 ∧ m.ns.toNat < 1000000000
  ∧ ptpWrongDelay t (s.peerDelay n d) = false

/-- Beside records and events, nothing has changed: what a posted record (R83, R84), a violation (R499)
and a clamp (R460) have in common. -/
structure SameWork (s t : State) : Prop where
  pending : t.pending = s.pending
  time : t.time = s.time
  live : t.regs.live = s.regs.live
  shadow : t.regs.shadow = s.regs.shadow
  outs : t.outs = s.outs
  sq : t.sq = s.sq
  place : t.place = s.place
  rdo : t.rdo = s.rdo
  dsps : t.dsps = s.dsps
  planes : t.planes = s.planes
  bias : t.bias = s.bias
  nv : t.nv = s.nv
  pwr : t.pwr = s.pwr
  eng : t.eng = s.eng
  cal : t.cal = s.cal
  sec : t.sec = s.sec
  lace : t.lace = s.lace
  net : t.net = s.net
  awl : t.awl = s.awl
  mon : t.mon = s.mon
  dec : t.dec = s.dec
  ram : t.ram = s.ram

end Sys2Proof.Machine
end

