-- ==== Sys2Proof/Certificates/Slice0/Obligations.lean ====
section
/-! DEFINITION. The statements for the provers. -/

open Sys2Proof Sys2Proof.Machine

/-- For every state whose queue begins with a command c, the step is exec of c on the same state with the rest
of the queue. The queue is the model's own way to give the part its commands (log 1); the order of the rows'
events is the order of the queue. (spec/INDEX.md, spec/opcode_table.json) -/
def Obligations.StepRunsFrontCommand : Prop :=
  ∀ (s : State) (c : Instr) (rest : List Instr), s.pending = c :: rest →
    step s = exec c { s with pending := rest }

/-- On an empty queue (log 1, the model's choice) a step answers a next state in which one more tick has passed
(R56). Device time advances by R50 where it runs and is not held, and stands still in a hold, one tick of
which is used up (R53); before time lock it does not run (R734). Without converter clocks only the clocks change. With
them the outputs play, the links send their rows (R505), the pairing units take their edges (R582) and a conversion
sees its bias code change (R607); the configuration, contexts, sequencers, the place of the job, planes, processors,
windows, bias outputs, memory, power, NV, the module, network time, syndrome decoding and the queue are as before. (R47,
R50, R53, R56, R505, R582, R607, R734) -/
def Obligations.EmptyQueueLetsATickPass : Prop :=
  ∀ s : State, s.pending = [] → ∃ t : State, step s = .next t
    ∧ t.time.now = s.time.now + 1
    ∧ t.time.dev = (if s.time.locked = false ∨ (s.time.holding = true ∧ 0 < s.time.holdLeft) then s.time.dev
        else if s.time.dev.ns = 999999999#30 then ⟨s.time.dev.sec + 1, 0⟩ else ⟨s.time.dev.sec, s.time.dev.ns + 1⟩)
    ∧ t.time.holdLeft = (if s.time.locked = true ∧ s.time.holding = true then s.time.holdLeft - 1 else s.time.holdLeft)
    ∧ t.time.domain = s.time.domain ∧ t.time.holding = s.time.holding
    ∧ (s.awake = false → t = { s with time := t.time })
    ∧ t.pending = s.pending ∧ t.cfg = s.cfg ∧ t.ctxs = s.ctxs ∧ t.host = s.host ∧ t.sq.seqs = s.sq.seqs ∧ t.place = s.place
    ∧ t.rdo = s.rdo ∧ t.dsps = s.dsps ∧ t.planes = s.planes ∧ t.bias = s.bias ∧ t.nv = s.nv ∧ t.pwr = s.pwr ∧ t.eng = s.eng
    ∧ t.cal = s.cal ∧ t.sec = s.sec ∧ t.net = s.net ∧ t.dec = s.dec ∧ t.ram = s.ram ∧ t.job.phase = s.job.phase
    ∧ t.job.startTick = s.job.startTick ∧ t.regs.live = s.regs.live ∧ t.regs.shadow = s.regs.shadow

/-- R50: with no command waiting, time lock reached and no hold in progress, one step advances the nanoseconds
count by one; after 999,999,999 it returns to 0 and the seconds count advances by one in the same tick; the
seconds count, of 48 bits, wraps from 2^48 - 1 to 0. The second clause is the wrap. (R50) -/
def Obligations.DeviceTimeCountsNanoseconds : Prop :=
  (∀ s : State, s.pending = [] → s.time.locked = true → s.time.holding = false → ∃ t : State, step s = .next t
    ∧ t.time.dev = (if s.time.dev.ns = 999999999#30 then ⟨s.time.dev.sec + 1, 0⟩
        else ⟨s.time.dev.sec, s.time.dev.ns + 1⟩))
  ∧ (∀ s : State, s.pending = [] → s.time.locked = true → s.time.holding = false →
      s.time.dev = ⟨BitVec.ofNat 48 (2 ^ 48 - 1), 999999999#30⟩ →
      ∃ t : State, step s = .next t ∧ t.time.dev = ⟨0, 0⟩)

/-- Right after reset no command waits, boot runs and GLB_MODE reads Boot with READY 0 (R697, R733); device time
is 0 s and 0 ns with domain 0 and does not run yet (R52, R734); no memory byte is listed; every sequence
counter is 0 (R81); no job runs and none is ready (R20); every RF output is terminated (R117) and every
marker pin is at high impedance (R211); every sequencer is IDLE (R137); CE0 is the active cobbler and CE1
the standby (R612); the ownership line is released (R348); no last is built (R381); no Safe cause is
latched. The zero values of internal state are the model's (log 10). (R52, R81, R117, R137, R211, R348, R381, R612, R697, R733, R734) -/
def Obligations.ResetState : Prop :=
  State.reset.pending = [] ∧ State.reset.sys.boot = true ∧ State.reset.sys.ready = false ∧ State.reset.mode = 0
  ∧ State.reset.sys.safe = 0
  ∧ State.reset.time.dev = ⟨0, 0⟩ ∧ State.reset.time.domain = 0 ∧ State.reset.time.locked = false
  ∧ State.reset.ram = []
  ∧ (∀ src : Nat, Table.get 0 State.reset.recs.seq src = 0)
  ∧ State.reset.job.phase = .idle ∧ State.reset.job.job = none ∧ State.reset.idle = true
  ∧ (∀ ch : Nat, (State.reset.chan ch).st = 0)
  ∧ (∀ k : Nat, (Table.get {} State.reset.outs.pins k).drive = none)
  ∧ (∀ q : Nat, (State.reset.seq q).st = .idle)
  ∧ State.reset.eng.active = 0 ∧ State.reset.eng.st = #v[0, 1]
  ∧ State.reset.planes.owner = 0
  ∧ (∀ n : Nat, (State.reset.last n).built = false) ∧ State.reset.place.live = none

/-- The spec gives every row of the table an effect, and a row whose conditions do not hold leaves the state as
it is (log 21, the model's reading): for every command and every state exec answers a next state, never a
fault and never a refusal. (spec/opcode_table.json) -/
def Obligations.EveryCommandCompletes : Prop :=
  ∀ (c : Instr) (s : State), ∃ t : State, exec c s = .next t

/-- For every command and state, the next state holds the same queue: exec acts on everything but the queue (log
1). With StepRunsFrontCommand, the commands are taken first in first out and none is lost. (spec/opcode_table.json) -/
def Obligations.CommandsLeaveTheQueue : Prop :=
  ∀ (c : Instr) (s t : State), exec c s = .next t → t.pending = s.pending

/-- The memory of the reset state has strictly rising addresses and no byte listed that equals what an unlisted
one reads as (R188, log 9). (R188) -/
def Obligations.ResetMemoryIsCanonical : Prop :=
  State.reset.memoryOk

/-- From every state whose memory is canonical (addresses strictly rising, no byte listed that equals what an
unlisted one reads as, R188 and log 9), whatever command stands at the front of the queue and on an empty
queue, the next state's memory is canonical: equal memories are equal data. (R188, R102, R183, R285, R424) -/
def Obligations.EveryStepKeepsMemoryCanonical : Prop :=
  ∀ s t : State, s.memoryOk → step s = .next t → t.memoryOk

/-- For every command and state with a Safe cause latched: unless the command is a device reset or a power-up
reset (the commands of those names, a write to GLB_RESET that asks for one, or the end of the NV write that
one waits for), the next state holds the same cause; and a tick keeps it as well. (R699) -/
def Obligations.SafeCauseStaysLatched : Prop :=
  (∀ (c : Instr) (s t : State), s.sys.safe ≠ 0 → ¬ resetsDevice s c → exec c s = .next t → t.sys.safe = s.sys.safe)
  ∧ (∀ s : State, s.tick.sys.safe = s.sys.safe)

/-- For every command and state with the hardware cut latched (R663): unless the command is a device reset or a
power-up reset, or the end of boot (BOOT_END, whose check of the sensors is R735), the next state holds it
latched; and a tick keeps it as well. (R663, R735) -/
def Obligations.HardwareCutStaysLatched : Prop :=
  (∀ (c : Instr) (s t : State), s.pwr.cut = true → ¬ resetsDevice s c → c ≠ .bootEnd → exec c s = .next t →
      t.pwr.cut = true)
  ∧ (∀ s : State, s.tick.pwr.cut = s.pwr.cut)

/-- The bytes stored from an address on read back as they were stored, a little-endian number (R7) reads back as
that number, and a byte at any other address reads as before. (R7, R188) -/
def Obligations.MemoryReadAfterWrite : Prop :=
  (∀ (s : State) (a : Nat) (bs : List Byte), Memory.readBytes (s.store a bs).ram a bs.length = bs)
  ∧ (∀ (s : State) (a n v : Nat), v < 256 ^ n → (s.store a (leBytes n v)).load a n = v)
  ∧ (∀ (s : State) (a b : Nat) (bs : List Byte), (b < a ∨ a + bs.length ≤ b) →
      Memory.readByte (s.store a bs).ram b = Memory.readByte s.ram b)

/-- After boot, a record that a unit produces is appended to the held records with its context, ring, source,
kind, stamp and body, and with the flags HELD and HOLDOVER of the time base added to its own (R83); no
sequence number is taken yet and nothing is written to the host (R84). INVALID in its flags marks the
running shot invalid (R25), and the job is otherwise as before. During boot up to 16 records are kept apart
(R736). No register, context, time, output, sequencer, plane or memory changes. (R83, R84, R736, R25) -/
def Obligations.RecordsAreHeldByTheirSource : Prop :=
  ∀ (s : State) (c : Nat) (ring : Ring) (src kind flags : Nat) (st : Stamp) (body : List (Nat × Nat × Nat)),
    (s.sys.boot = false → ∃ h : Held, (s.post c ring src kind flags st body).recs = { s.recs with held := s.recs.held ++ [h] }
      ∧ h.ctx = c ∧ h.ring = ring ∧ h.src = src ∧ h.kind = kind ∧ h.stamp = st
      ∧ h.flags = flags + (if s.time.holding then 2 else 0) + (if s.time.holdover then 4 else 0)
      ∧ (s.post c ring src kind flags st body).sys = s.sys)
    ∧ (s.sys.boot = true → s.sys.bootRecs.length < 16 →
      (s.post c ring src kind flags st body).sys.bootRecs.length = s.sys.bootRecs.length + 1
      ∧ (s.post c ring src kind flags st body).recs = s.recs)
    ∧ (flags / 8 % 2 ≠ 1 → (s.post c ring src kind flags st body).job = s.job)
    ∧ (flags / 8 % 2 = 1 → (s.post c ring src kind flags st body).job = (s.updJob fun j => { j with shotInvalid := true }).job)
    ∧ (s.post c ring src kind flags st body).ctxs = s.ctxs ∧ (s.post c ring src kind flags st body).regs = s.regs
    ∧ SameWork s (s.post c ring src kind flags st body)

/-- R81: after a device reset that no NV write delays every source's counter is 0. When a source numbers a
record, its counter goes up by one, wrapping from 0xFFFF_FFFF to 0, and no other source's counter changes; an awl
drop record first consumes the numbers of the records that its run dropped. R82: the same holds when the record's
ring is full or absent and the record is lost, and when a host-interface reset has silenced its job (R450). A record
that goes to a ring is written with the counter's value from before at bytes 4 to 7 of its 32 bytes. (R81, R82) -/
def Obligations.SequenceNumbersCountEveryRecord : Prop :=
  (∀ (s t : State) (src : Nat), s.nv.writes = [] → exec .deviceReset s = .next t → Table.get 0 t.recs.seq src = 0)
  ∧ (∀ (s : State) (h : Held),
      (h.kind ≠ 0x6B → Table.get 0 (s.numberAndPost h).recs.seq h.src = Table.get 0 s.recs.seq h.src + 1)
      ∧ (h.kind = 0x6B → Table.get 0 (s.numberAndPost h).recs.seq h.src = Table.get 0 s.recs.seq h.src + BitVec.ofNat 32 h.body.toNat + 1)
      ∧ (∀ src : Nat, src ≠ h.src → Table.get 0 (s.numberAndPost h).recs.seq src = Table.get 0 s.recs.seq src))
  ∧ (∀ (h : Held) (q : Word), h.src < 65536 → fieldAt (h.bytes q) 4 4 = q.toNat ∧ fieldAt (h.bytes q) 0 2 = h.src)

/-- R490, R471: where a record's ring has no entries, or the producer plus one (mod the size) is the consumer,
numbering the record writes no entry of the ring: nothing is sent to the host except the interrupt messages
of the firing sources. RES_LOST or EVT_LOST of its context goes up by one (wrapping) and the ring's producer
index stays. Otherwise the 32 bytes are written at the ring's base + index x 32 and the producer index moves
on by one mod the size. A record of a job that a host-interface reset has silenced is numbered and goes nowhere (R450). (R471, R478, R490) -/
def Obligations.FullRingLosesTheRecord : Prop :=
  (∀ (s : State) (h : Held), (h.ofJob && s.job.silent) = false →
    ((s.ringState h).1 = 0 ∨ ((s.ringState h).2.1 + 1) % (s.ringState h).1 = (s.ringState h).2.2) →
    (h.ring = .result → ((s.numberAndPost h).ctx h.ctx).resLost = (s.ctx h.ctx).resLost + 1
        ∧ ((s.numberAndPost h).ctx h.ctx).resTail = (s.ctx h.ctx).resTail)
    ∧ (h.ring = .event → ((s.numberAndPost h).ctx h.ctx).evtLost = (s.ctx h.ctx).evtLost + 1
        ∧ ((s.numberAndPost h).ctx h.ctx).evtTail = (s.ctx h.ctx).evtTail)
    ∧ (∀ (a : Nat) (bs : List Byte), HostOut.write a bs ∈ (s.numberAndPost h).recs.out → HostOut.write a bs ∈ s.recs.out))
  ∧ (∀ (s : State) (h : Held), (h.ofJob && s.job.silent) = false → (s.ringState h).1 ≠ 0 →
    ((s.ringState h).2.1 + 1) % (s.ringState h).1 ≠ (s.ringState h).2.2 →
    (h.ring = .result → ((s.numberAndPost h).ctx h.ctx).resTail = ((s.ctx h.ctx).resTail + 1) % s.ringSize h.ctx Reg.CTX_SIZE.RES
      ∧ HostOut.write (s.baseOf .RES_BASE_LO .RES_BASE_HI h.ctx + (s.ctx h.ctx).resTail * 32)
          (h.bytes (Table.get 0 s.recs.seq h.src + h.skips)) ∈ (s.numberAndPost h).recs.out)
    ∧ (h.ring = .event → ((s.numberAndPost h).ctx h.ctx).evtTail = ((s.ctx h.ctx).evtTail + 1) % s.ringSize h.ctx Reg.CTX_SIZE.EVT
      ∧ HostOut.write (s.baseOf .EVT_BASE_LO .EVT_BASE_HI h.ctx + (s.ctx h.ctx).evtTail * 32)
          (h.bytes (Table.get 0 s.recs.seq h.src + h.skips)) ∈ (s.numberAndPost h).recs.out))
  ∧ (∀ (s : State) (h : Held), (h.ofJob && s.job.silent) = true →
      s.numberAndPost h = { s with recs.seq := Table.set 0 s.recs.seq h.src (Table.get 0 s.recs.seq h.src + h.skips + 1) })

/-- R467: when source src fires, bit src of EVT_PEND is set (no other register changes), and with EVT_ROUTE.EN
at 1 its vector is signalled. R468: a signalled vector that is masked sets its PBA bit and sends nothing;
one within its holdoff is held and sends nothing; else its message goes out, to the address and with the
data of the MSI-X table, and neither PBA bit nor hold remains. No context, job, output or memory changes. (R467, R468) -/
def Obligations.FiringSetsThePendingBit : Prop :=
  (∀ (s : State) (src : Nat), s.fire src =
    (let w := (s.word .EVT_PEND [src / 32]).toNat
     let t := s.setDirect .EVT_PEND [src / 32] (BitVec.ofNat 32 (setBits w (src % 32) (src % 32) 1))
     if t.flag Reg.EVT_ROUTE.EN [src] = true then t.signal (t.rd Reg.EVT_ROUTE.VECTOR [src]) else t))
  ∧ (∀ (s : State) (v : Nat), s.masked v = true →
      s.signal v = { s with recs.pba := Table.set false s.recs.pba v true })
  ∧ (∀ (s : State) (v : Nat), s.masked v = false → s.inHoldoff v = true →
      s.signal v = { s with recs.heldVec := (if s.recs.heldVec.contains v = true then s.recs.heldVec else v :: s.recs.heldVec) })
  ∧ (∀ (s : State) (v : Nat), s.masked v = false → s.inHoldoff v = false →
      (s.signal v).recs.out = .msix v ((s.word .MSIX_ADDR_LO [v]).toNat / 4 * 4 + (s.word .MSIX_ADDR_HI [v]).toNat * 2 ^ 32)
        (s.word .MSIX_DATA [v]) :: s.recs.out
      ∧ Table.get false (s.signal v).recs.pba v = false ∧ v ∉ (s.signal v).recs.heldVec
      ∧ s.signal v = { s with recs := (s.signal v).recs })
  ∧ (∀ (s : State) (src : Nat), (s.fire src).ctxs = s.ctxs ∧ (s.fire src).job = s.job ∧ SameWork s (s.fire src))

/-- R478: the device writes a context's status block as one write of 64 bytes at its base: the index of the next
submission entry to fetch, the producer indices of the completion, result, event and capture rings, the
counts of lost records, and STATE with PAUSED in bit 0 and QUAR in bit 1; the rest is zero. Nothing else
changes. (R478) -/
def Obligations.StatusBlockLayout : Prop :=
  (∀ (s : State) (c : Nat), s.writeStatus c =
    { s with recs.out := .write (s.baseOf .STS_BASE_LO .STS_BASE_HI c) (s.statusBytes c) :: s.recs.out })
  ∧ (∀ (s : State) (c : Nat), (s.statusBytes c).length = 64
    ∧ fieldAt (s.statusBytes c) 0 4 = (s.ctx c).subHead % 2 ^ 32 ∧ fieldAt (s.statusBytes c) 4 4 = (s.ctx c).cplTail % 2 ^ 32
    ∧ fieldAt (s.statusBytes c) 8 4 = (s.ctx c).resTail % 2 ^ 32 ∧ fieldAt (s.statusBytes c) 12 4 = (s.ctx c).evtTail % 2 ^ 32
    ∧ fieldAt (s.statusBytes c) 16 4 = (s.ctx c).capTail % 2 ^ 32 ∧ fieldAt (s.statusBytes c) 20 4 = (s.ctx c).resLost.toNat
    ∧ fieldAt (s.statusBytes c) 24 4 = (s.ctx c).evtLost.toNat
    ∧ fieldAt (s.statusBytes c) 28 4 = (if s.paused c then 1 else 0) + (if (s.ctx c).quar then 2 else 0)
    ∧ zeroAt (s.statusBytes c) 32 32 = true)

/-- R462: a clamp logged when CFG_CLAMP_CNT holds n stands in slot n mod 256 with its identifier, AUX, the value
written, the value used, its stamp and NUM n, in place of what the slot held; every other slot is as before,
and CFG_CLAMP_CNT holds n + 1. Read through the window of the log, the words of the entry are those fields
at the offsets of R462 and zero from 0x28 on. (R462) -/
def Obligations.ClampLogKeepsTheLast256 : Prop :=
  (∀ (s : State) (id aux written used : Nat) (st : Stamp),
    Table.get {} (s.logEntry id aux written used st).cfg.clampLog (s.cfg.clampNum.toNat % 256)
      = ⟨BitVec.ofNat 32 id, BitVec.ofNat 32 aux, BitVec.ofNat 64 written, BitVec.ofNat 64 used, st, s.cfg.clampNum⟩
    ∧ (∀ k : Nat, k ≠ s.cfg.clampNum.toNat % 256 →
        Table.get {} (s.logEntry id aux written used st).cfg.clampLog k = Table.get {} s.cfg.clampLog k)
    ∧ (s.logEntry id aux written used st).cfg.clampNum = s.cfg.clampNum + 1
    ∧ (s.logEntry id aux written used st).shown .CFG_CLAMP_CNT [] = (s.cfg.clampNum + 1).toNat
    ∧ s.logEntry id aux written used st = { s with cfg := (s.logEntry id aux written used st).cfg })
  ∧ (∀ (s : State) (k w : Nat), w < 16 → s.shown .CLAMP_LOG [k, w] =
      (match w with
       | 0 => (Table.get {} s.cfg.clampLog k).id.toNat
       | 1 => (Table.get {} s.cfg.clampLog k).aux.toNat
       | 2 => (Table.get {} s.cfg.clampLog k).written.toNat % 2 ^ 32
       | 3 => (Table.get {} s.cfg.clampLog k).written.toNat / 2 ^ 32
       | 4 => (Table.get {} s.cfg.clampLog k).used.toNat % 2 ^ 32
       | 5 => (Table.get {} s.cfg.clampLog k).used.toNat / 2 ^ 32
       | 6 => (Table.get {} s.cfg.clampLog k).stamp.bits % 2 ^ 32
       | 7 => (Table.get {} s.cfg.clampLog k).stamp.bits / 2 ^ 32 % 2 ^ 32
       | 8 => (Table.get {} s.cfg.clampLog k).stamp.bits / 2 ^ 64 % 2 ^ 32
       | 9 => (Table.get {} s.cfg.clampLog k).num.toNat
       | _ => 0))
  ∧ (∀ k w : Nat, k < 256 → w < 16 → regAddr .CLAMP_LOG [k, w] = 0x11000 + k * 0x40 + w * 4)

/-- R499, R500, R501: a violation adds one to PCIE_CNT.VIO_CNT (holding at 0xFFFF) and posts a record. A
violation of a context is counted with those of the last VIO_WIN; where the context is not quarantined and
the count reaches VIO_LIM, it is quarantined; below the limit it is not. The count of a BAR0 violation
touches no context. Outputs, sequencers, planes, memory and the live registers are as before. (R499, R500, R501) -/
def Obligations.ViolationsQuarantineAtTheLimit : Prop :=
  (∀ (s : State) (src : Nat) (c : Option Nat) (cause struct index place : Nat),
    (s.violate src c cause struct index place).rd Reg.PCIE_CNT.VIO_CNT [] = incHold 0xFFFF (s.rd Reg.PCIE_CNT.VIO_CNT [])
    ∧ (s.violate src c cause struct index place).outs = s.outs ∧ (s.violate src c cause struct index place).sq = s.sq
    ∧ (s.violate src c cause struct index place).planes = s.planes ∧ (s.violate src c cause struct index place).ram = s.ram
    ∧ (s.violate src c cause struct index place).regs.live = s.regs.live)
  ∧ (∀ (s : State) (src cause struct index place : Nat),
      (s.violate src none cause struct index place).ctxs = s.ctxs)
  ∧ (∀ (s : State) (c : Nat), (s.ctx c).quar = false →
      s.rd Reg.CTX_CFG.VIO_LIM [c] ≤
        1 + ((s.ctx c).vios.filter fun t => decide (s.time.now < t + s.rd Reg.CTX_CFG.VIO_WIN [c] * 100000)).length →
      ((s.countVio c).ctx c).quar = true)
  ∧ (∀ (s : State) (c : Nat), (s.ctx c).quar = false →
      1 + ((s.ctx c).vios.filter fun t => decide (s.time.now < t + s.rd Reg.CTX_CFG.VIO_WIN [c] * 100000)).length
        < s.rd Reg.CTX_CFG.VIO_LIM [c] →
      ((s.countVio c).ctx c).quar = false
      ∧ ((s.countVio c).ctx c).vios = s.time.now :: (s.ctx c).vios.filter fun t =>
          decide (s.time.now < t + s.rd Reg.CTX_CFG.VIO_WIN [c] * 100000))

/-- R481, R486: when a descriptor completes, it is no longer among the fetched descriptors of its context and no
other one is removed; one completion entry, of 32 bytes, with its ring index, opcode, status, tag, stamp,
DETAIL, AUX and flags, is passed to both planes under the key of its context and ring index (R342). Registers,
time, outputs, sequencers, jobs and memory are as before. (R341, R342, R481, R486) -/
def Obligations.CompletionLeavesOneEntry : Prop :=
  ∀ (s : State) (c : Nat) (d : Desc) (status detail aux : Nat) (st : Stamp) (cflags : Nat),
    ((s.complete c d status detail aux st cflags).ctx c).fetched = (s.ctx c).fetched.filter (fun e => e.index ≠ d.index)
    ∧ (∀ x : Nat, x ≠ c → (s.complete c d status detail aux st cflags).ctx x = s.ctx x)
    ∧ (∀ (idx : Nat) (entry : List Byte) (irq : Bool) (at_ : Stamp), s.passCpl c idx entry irq at_ =
        (s.sideFrom 0 { cls := 0, key := [c, idx], act := .cpl c entry irq, stamp := at_, tick := s.time.now }).sideFrom 1
          { cls := 0, key := [c, idx], act := .cpl c entry irq, stamp := at_, tick := s.time.now })
    ∧ (s.complete c d status detail aux st cflags) =
        { s with ctxs := (s.complete c d status detail aux st cflags).ctxs
                 planes := (s.complete c d status detail aux st cflags).planes }
    ∧ (∀ (now : Desc), now = ((s.ctx c).fetched.find? fun e => e.index == d.index).getD d →
        ∃ entry : List Byte, entry.length = 32
          ∧ (s.complete c d status detail aux st cflags).planes =
              ((s.updCtx c fun x => { x with fetched := x.fetched.filter fun e => e.index ≠ d.index }).passCpl c d.index entry
                (bitOf (fieldAt d.bytes 1 1) 0) st).planes
          ∧ fieldAt entry 0 2 = d.index % 65536 ∧ fieldAt entry 2 1 = fieldAt d.bytes 0 1 ∧ fieldAt entry 3 1 = status % 256
          ∧ fieldAt entry 4 4 = fieldAt d.bytes 4 4 ∧ fieldAt entry 0x14 4 = detail % 2 ^ 32 ∧ fieldAt entry 0x18 4 = aux % 2 ^ 32
          ∧ fieldAt entry 0x1C 2 = (cflags + (if now.recLost then 2 else 0) + (if now.clamped then 4 else 0)) % 65536)

/-- R698: when the mode that GLB_MODE shows changes and no mode record of this tick is held, a record of kind
0xA0 from source 1008 with the present stamp and the old and new mode in its bytes 0x14 and 0x15 is
produced; when one of this tick is held, it takes the new mode into itself and no further record is
produced; without a change nothing happens. What GLB_MODE shows next is the new mode (R697). (R697, R698, R706) -/
def Obligations.ModeChangesPostAModeRecord : Prop :=
  (∀ s : State, s.mode = s.sys.shown → s.modeSync = s)
  ∧ (∀ s : State, s.mode ≠ s.sys.shown → s.modeSync.sys.shown = s.mode)
  ∧ (∀ s : State, s.mode ≠ s.sys.shown → s.sys.boot = false →
      (s.recs.held.find? fun h => h.kind == 0xA0 && h.stamp == s.nowStamp) = none →
      s.modeSync = ({ s with sys.shown := s.mode }).post s.home .event 1008 0xA0 0 s.nowStamp
        [(0x14, 1, s.sys.shown), (0x15, 1, s.mode), (0x16, 1, s.deg), (0x17, 1, s.sys.safe), (0x18, 1, s.act)])
  ∧ (∀ (s : State) (h : Held), s.mode ≠ s.sys.shown →
      (s.recs.held.find? fun g => g.kind == 0xA0 && g.stamp == s.nowStamp) = some h →
      s.modeSync.recs.held.length = s.recs.held.length ∧ s.modeSync.recs.seq = s.recs.seq)

/-- REGISTER_WRITE to BAR0: an aligned write of 4 or 8 bytes reaches one or two words; any other write takes no
effect but a violation with cause 11, structure 9, from source 738 (R448, R499). A word reaches its register
only in an open block (GLB always, the others once READY is 1, the ladder control also in Deep, R452) and where
R449 lists one. A register takes the word field by field as storeFields says, or its operation alone. A write
to BAR2 acts as a doorbell write (R476), and in BAR4 a write of 1 to MB_STAT.DONE clears it (R13, R683).
REGISTER_READ_CLEAR: a read of BAR0 of a size the spec does not list, or not aligned, returns zero and changes
nothing; an aligned read of a word returns the register's value and clears its RC fields (R13), and only
those; a double-buffered register shows its shadow or its live copy by CFG_CTL.VIEW (R456); a read of BAR2
returns zero and one of BAR4 the mailbox's word. TIME_HZN_WRITE: with READY at 1, a write to TIME_HZN takes effect at
once, the next period beginning with it (R80); before READY nothing (R452).
Completes: registerWrite, registerReadClear, timeHznWrite. (R13, R80, R448, R449, R452, R456, R476, R499, R683) -/
def Obligations.RegisterAccesses : Prop :=
  (∀ (a : BitVec 26) (n : Fin 9) (d : BitVec 64) (s : State), exec (.registerWrite ⟨.bar0, a⟩ n d) s = .next
    (if n = 4 ∧ a.toNat % 4 = 0 then s.writeAt a.toNat (d.toNat % 2 ^ 32)
     else if n = 8 ∧ a.toNat % 8 = 0 then (s.writeAt a.toNat (d.toNat % 2 ^ 32)).writeAt (a.toNat + 4) (d.toNat / 2 ^ 32)
     else s.violate 738 none 11 9 a.toNat d.toNat).modeSync)
  ∧ (∀ (a : BitVec 26) (d : BitVec 64) (r : RegName) (i : List Nat) (s : State), a.toNat % 4 = 0 → s.sys.ready = true →
      regFind a.toNat = some (r, i) → exec (.registerWrite ⟨.bar0, a⟩ 4 d) s = .next
        ((if ownWrite r then s else s.storeFields r i (d.toNat % 2 ^ 32)).writeAction r i (d.toNat % 2 ^ 32)).modeSync)
  ∧ (∀ (a : BitVec 26) (n : Fin 9) (d : BitVec 64) (s : State), exec (.registerWrite ⟨.bar2, a⟩ n d) s = .next
      (if unlistedDoorbell (a.toNat % 2 ^ 22) n then s.doorbellUnlisted (a.toNat % 2 ^ 22) d.toNat
       else s.doorbellAt (a.toNat % 2 ^ 22 / 4096) (a.toNat % 2 ^ 22 % 4096) (d.toNat % 2 ^ 32)).modeSync)
  ∧ (∀ (d : BitVec 64) (s : State), bitOf d.toNat 30 = true →
      exec (.registerWrite ⟨.bar4, 4⟩ 4 d) s = .next ({ s with sec.done := false } : State).modeSync)
  ∧ (∀ (s : State) (a w : Nat), s.sys.ready = false → 0x10000 ≤ a → a ≠ regAddr .PWR_CTL [] → s.writeAt a w = s)
  ∧ (∀ (s : State) (a w : Nat), regFind a = none → s.writeAt a w = s)
  ∧ (∀ (s : State) (a w : Nat) (r : RegName) (i : List Nat), s.sys.ready = true → regFind a = some (r, i) →
      s.writeAt a w = (if ownWrite r then s else s.storeFields r i w).writeAction r i w)
  ∧ (∀ (a : BitVec 26) (n : Fin 9) (bad : BitVec 2) (s : State), 5 ≤ n.val → n ≠ 8 →
      exec (.registerReadClear ⟨.bar0, a⟩ n bad) s = .next { s with host.readData := 0 })
  ∧ (∀ (a : BitVec 26) (bad : BitVec 2) (s : State), a.toNat % 4 ≠ 0 →
      exec (.registerReadClear ⟨.bar0, a⟩ 4 bad) s = .next { s with host.readData := 0 })
  ∧ (∀ (a : BitVec 26) (bad : BitVec 2) (r : RegName) (i : List Nat) (s : State), a.toNat % 4 = 0 → s.sys.ready = true →
      regFind a.toNat = some (r, i) → exec (.registerReadClear ⟨.bar0, a⟩ 4 bad) s =
        .next { s.clearRc r i with host.readData := BitVec.ofNat 64 (s.heldWord r i + s.shown r i) })
  ∧ (∀ (a : BitVec 26) (n : Fin 9) (bad : BitVec 2) (s : State),
      exec (.registerReadClear ⟨.bar2, a⟩ n bad) s = .next { s with host.readData := 0 })
  ∧ (∀ (a : BitVec 26) (bad : BitVec 2) (s : State), a.toNat % 4 = 0 → exec (.registerReadClear ⟨.bar4, a⟩ 4 bad) s =
      .next { s with host.readData := BitVec.ofNat 64 (s.mbWord (a.toNat % 2 ^ 16)) })
  ∧ (∀ (s : State) (r : RegName) (i : List Nat), (∀ f ∈ (regSpec r).fields, f.acc ≠ .rc) → s.clearRc r i = s)
  ∧ (∀ (v : Word) (s : State), s.sys.ready = true → exec (.timeHznWrite v) s = .next
      ((s.storeFields .TIME_HZN [] v.toNat).writeAction .TIME_HZN [] v.toNat))
  ∧ (∀ (v : Word) (s : State), s.sys.ready = false → exec (.timeHznWrite v) s = .next s)
  ∧ (∀ (s : State) (w : Nat), s.writeAction .TIME_HZN [] w = s.hznWrite (s.rd Reg.TIME_HZN.PERIOD []))

/-- R11, R458, R459: storing a word in a register that is not double-buffered leaves every bit outside its RW
fields as it was and gives each RW field the value clampField makes of the written one; in a double-buffered
register the shadow takes it (R453), and the live copy is unchanged whatever is written. A clamped value
equals the written one when that lies in the field's range. (R11, R453, R458, R459) -/
def Obligations.ClampedFieldsTakeTheNearestValue : Prop :=
  (∀ (s : State) (r : RegName) (i : List Nat) (w : Nat), (s.storeFields r i w).regs.live = s.regs.live)
  ∧ (∀ (s : State) (r : RegName) (i : List Nat) (w : Nat), (regSpec r).dbuf = true →
      (s.storeFields r i w).regs.direct = s.regs.direct)
  ∧ (∀ (s : State) (r : RegName) (i : List Nat) (w : Nat), (regSpec r).dbuf = false →
      (s.storeFields r i w).word r i = BitVec.ofNat 32 (s.checkFields r i w (regSpec r).fields (s.word r i).toNat).2)
  ∧ (∀ (s : State) (r : RegName) (i : List Nat) (w x : Nat) (f : FieldSpec) (fs : List FieldSpec), f.acc ≠ .rw →
      s.checkFields r i w (f :: fs) x = s.checkFields r i w fs x)
  ∧ (∀ (s : State) (r : RegName) (i : List Nat) (w x : Nat) (f : FieldSpec) (fs : List FieldSpec), f.acc = .rw →
      (s.checkFields r i w (f :: fs) x).2
        = (s.checkFields r i w fs (setBits x f.hi f.lo (clampField f i (bitsOf w f.hi f.lo)))).2)
  ∧ (∀ (f : FieldSpec) (i : List Nat) (lo hi v : Nat), f.clamp = .range lo hi → lo ≤ hi →
      lo ≤ clampField f i v ∧ clampField f i v ≤ hi ∧ (lo ≤ v → v ≤ hi → clampField f i v = v))

/-- RECORD_RELEASE: of the held records of a source the one with the least stamp, the first produced of equals,
is numbered and posted, unless it must still be held, the insole is in reset (R84, R663), the awl drain is at its
rate (R585) or the outbound buffer holds less than 32 KiB free for a telemetry record (R650); an uncorrectable
error of the record on its way out loses it (R703). HORIZON_RECORD: when TIME_HZN.PERIOD is not 0 and its time
has come, every context with an event ring gets a record of kind 0x31 from source 1010 with a coarse stamp, and
the next is due a period later (R80, R85). TIME_SNAP: with READY at 1 TIME_NOW takes the coarse stamp (R80),
before READY nothing (R452). VECTOR_HOLDOFF_END: a held vector whose holdoff is over sends its message, or pends
when it is masked (R468). MSIX_UNMASK: the mask is cleared, and a pending message is sent.
Completes: recordRelease, horizonRecord, timeSnap, vectorHoldoffEnd, msixUnmask. (R63, R80, R84, R85, R452, R468, R585, R650, R663, R703) -/
def Obligations.RecordCommands : Prop :=
  (∀ (src : Fin 1024) (free : Fin 131073) (h : Held) (s : State),
      nextHeld (fun h => h.src == src.val) s.recs.held = some h → s.mustHold h = false → s.pwr.cut = false →
      s.awlBusy src = false → telemetryWaits src free = false →
      exec (.recordRelease ⟨src, free, false⟩) s = .next (((s.dropHeld h).awlGave src).numberAndPost h))
  ∧ (∀ (src : Fin 1024) (free : Fin 131073) (h : Held) (s : State),
      nextHeld (fun h => h.src == src.val) s.recs.held = some h → s.mustHold h = false → s.pwr.cut = false →
      s.awlBusy src = false → telemetryWaits src free = false →
      exec (.recordRelease ⟨src, free, true⟩) s = .next (((s.dropHeld h).awlGave src).spoilRecord h))
  ∧ (∀ (src : Fin 1024) (free : Fin 131073) (bad : Bool) (s : State),
      (∀ h : Held, nextHeld (fun h => h.src == src.val) s.recs.held = some h →
        s.mustHold h = true ∨ s.pwr.cut = true ∨ s.awlBusy src = true ∨ telemetryWaits src free = true) →
      exec (.recordRelease ⟨src, free, bad⟩) s = .next s)
  ∧ (∀ (s : State) (h : Held), s.dropHeld h = { s with recs.held := s.recs.held.erase h })
  ∧ (∀ s : State, s.rd Reg.TIME_HZN.PERIOD [] ≠ 0 → s.time.hznNext ≤ s.time.now → exec .horizonRecord s = .next
      (((List.range 1024).foldl (fun t c => if t.ringSize c Reg.CTX_SIZE.EVT = 0 then t
          else t.post c .event 1010 0x31 1 t.coarseStamp []) s).hznSet (s.rd Reg.TIME_HZN.PERIOD [])))
  ∧ (∀ s : State, (s.rd Reg.TIME_HZN.PERIOD [] = 0 ∨ s.time.now < s.time.hznNext) → exec .horizonRecord s = .next s)
  ∧ (∀ (s : State) (p : Nat), s.hznSet p = { s with time.hznNext := s.time.now + p * 1000 })
  ∧ (∀ s : State, s.sys.ready = true → exec .timeSnap s = .next { s with time.snap := ⟨s.time.domain, s.time.coarse, 0⟩ })
  ∧ (∀ s : State, s.sys.ready = false → exec .timeSnap s = .next s)
  ∧ (∀ (v : Fin 256) (s : State), v.val ∈ s.recs.heldVec → s.inHoldoff v = false → s.masked v = false →
      exec (.vectorHoldoffEnd v) s = .next (s.sendMsix v))
  ∧ (∀ (v : Fin 256) (s : State), v.val ∈ s.recs.heldVec → s.inHoldoff v = false → s.masked v = true →
      exec (.vectorHoldoffEnd v) s = .next
        { s with recs.heldVec := s.recs.heldVec.filter (· ≠ v.val), recs.pba := Table.set false s.recs.pba v true })
  ∧ (∀ (v : Fin 256) (s : State), (v.val ∉ s.recs.heldVec ∨ s.inHoldoff v = true) → exec (.vectorHoldoffEnd v) s = .next s)
  ∧ (∀ (v : Fin 256) (s : State), exec (.msixUnmask v true) s = .next
      (if Table.get false s.recs.pba v = true ∧ s.flag Reg.MSIX_CTL.MASK [v] = false then
        ({ s with recs.funcMask := false }).sendMsix v else { s with recs.funcMask := false }))
  ∧ (∀ (v : Fin 256) (s : State), s.sys.ready = true → exec (.msixUnmask v false) s = .next
      (if Table.get false s.recs.pba v = true ∧ s.recs.funcMask = false then (s.wr Reg.MSIX_CTL.MASK [v] 0).sendMsix v
       else s.wr Reg.MSIX_CTL.MASK [v] 0))
  ∧ (∀ (v : Fin 256) (s : State), s.sys.ready = false → exec (.msixUnmask v false) s = .next s)

/-- TIME_FIRST_ALIGN: only while idle, locked and with domain 0, a time of domain 1 to 3 sets device time in one
step, posts the correction and makes the timers skip (R52, R59). TIME_HOLD_END: a hold whose ticks are used
up ends and its correction, minus its length, is recorded (R53, R55). TIME_LOCK: before time lock device
time counts from 0 s and 0 ns with domain 0 (R734); a boot from Deep only notes the lock (R737); where boot has
ended without it, the reference returns (R735). REFERENCE_LOSS: once, holdover begins, every RF and flux output
mutes with cause 2, every bias output goes to SAFE with cause 4, the running job ends at its next boundary with
cause 4 and its shot is invalid (R57, R701). REFERENCE_RETURN: with the reference present for 10 ms, time goes on,
outputs and bias causes clear (R122, R701).
Completes: timeFirstAlign, timeHoldEnd, timeLock, referenceLoss, referenceReturn. (R52, R53, R55, R57, R59, R122, R701, R734, R735, R737) -/
def Obligations.TimeCommands : Prop :=
  (∀ (t : DevTime) (dom : BitVec 2) (s : State), s.idle = true → s.time.domain = 0 → dom ≠ 0 → s.time.locked = true →
    ∃ u : State, exec (.timeFirstAlign t dom) s = .next u ∧ u.time.dev = t ∧ u.time.coarse = t ∧ u.time.domain = dom
      ∧ u.time.now = s.time.now ∧ u.regs = s.regs ∧ u.ctxs = s.ctxs ∧ u.outs = s.outs ∧ u.ram = s.ram)
  ∧ (∀ (t : DevTime) (dom : BitVec 2) (s : State),
      (s.idle = false ∨ s.time.domain ≠ 0 ∨ dom = 0 ∨ s.time.locked = false) → exec (.timeFirstAlign t dom) s = .next s)
  ∧ (∀ s : State, s.time.holding = true → s.time.holdLeft = 0 → exec .timeHoldEnd s = .next
      (({ s with time.holding := false, time.holdLen := 0 }).post s.home .event 768 0x30 0 s.nowStamp
          [(0x14, 4, wrapInt 32 (-(s.time.holdLen : Int)))]).relead)
  ∧ (∀ s : State, (s.time.holding = false ∨ s.time.holdLeft ≠ 0) → exec .timeHoldEnd s = .next s)
  ∧ (∀ s : State, s.relead = (if s.job.phase = .armed then s.leadNow else s))
  ∧ (∀ s : State, s.sys.porHeld = false → s.time.locked = false → s.sys.refLost = false → exec .timeLock s = .next
      { s with time := { s.time with locked := true, dev := ⟨0, 0⟩, coarse := ⟨0, 0⟩, domain := 0, holding := false, holdLeft := 0, holdLen := 0 } })
  ∧ (∀ s : State, s.sys.porHeld = false → s.time.locked = true → exec .timeLock s = .next
      (if s.sys.boot = true ∧ s.sys.fromDeep = true ∧ s.sys.steps.contains 8 = false
       then { s with sys.steps := s.sys.steps ++ [8] } else s))
  ∧ (∀ s : State, s.sys.porHeld = true → exec .timeLock s = .next s)
  ∧ (∀ s : State, s.sys.refLost = true → exec .referenceLoss s = .next s.modeSync)
  ∧ (∀ s : State, s.sys.refLost = false → exec .referenceLoss s = .next
      (let u : State := { s with sys.refLost := true, time.holdover := true, time.lostAt := s.time.now }
       let v := (((if s.job.phase = .inShot then u.markInvalid else u).muteAll 2).allBiasSafe 4).abortJob 4
       (v.post v.home .event 1011 0xA2 0 v.nowStamp [(0x14, 1, 1), (0x18, 4, 0)]).modeSync))
  ∧ (∀ s : State, (s.sys.refLost = false ∨ s.time.now < s.time.lostAt + 10000000) →
      exec .referenceReturn s = .next s.modeSync)
  ∧ (∀ s : State, s.sys.refLost = true → s.time.locked = true → s.time.lostAt + 10000000 ≤ s.time.now →
      exec .referenceReturn s = .next
      (let u : State := { s with sys.refLost := false, time.holdover := false }
       let v := (u.clearAll 2).allBiasClear 4
       (v.post v.home .event 1011 0xA2 0 v.nowStamp
         [(0x14, 1, 0), (0x18, 4, min 0xFFFFFFFF ((s.time.now - s.time.lostAt) / 1000))]).modeSync))

/-- With READY at 1, BIAS_NV_SAVE, CAL_SAVE and LACE_ID_NVSAVE ask for a write of the bias image, the live taps
and the identifier: while writes are refused a record with result 1 is posted and nothing written (R672); while a
write of the same record runs nothing happens; else the older or invalid of the two slots becomes invalid
until its closing mark stands, and the write runs with the newest sequence plus one (R671). Before READY
nothing (R452). NV_WRITE_DONE: the slot becomes valid with its content and the record is posted; a device
reset that waited then follows (R732).
Completes: biasNvSave, calSave, laceIdNvsave, nvWriteDone. (R436, R452, R547, R646, R671, R672, R732) -/
def Obligations.NvWrites : Prop :=
  (∀ s : State, s.sys.ready = true → s.nv.refuse = false → (s.nv.writes.any fun w => w.what == 0) = false →
      exec .biasNvSave s = .next { s with nv := { s.nv with
        slots := Table.set {} s.nv.slots (s.nvTarget 0).1 { s.nvSlot 0 (s.nvTarget 0).1 with valid := false }
        writes := s.nv.writes ++ [{ what := 0, slot := (s.nvTarget 0).1, seq := (s.nvTarget 0).2, body := .bias s.biasImage }] } })
  ∧ (∀ s : State, s.sys.ready = true → s.nv.refuse = false → (s.nv.writes.any fun w => w.what == 1) = false →
      exec .calSave s = .next { s with nv := { s.nv with
        slots := Table.set {} s.nv.slots (2 + (s.nvTarget 1).1) { s.nvSlot 1 (s.nvTarget 1).1 with valid := false }
        writes := s.nv.writes ++ [{ what := 1, slot := (s.nvTarget 1).1, seq := (s.nvTarget 1).2, body := .cal s.cal.live }] } })
  ∧ (∀ s : State, s.sys.ready = true → s.nv.refuse = false → (s.nv.writes.any fun w => w.what == 2) = false →
      exec .laceIdNvsave s = .next { s with nv := { s.nv with
        slots := Table.set {} s.nv.slots (4 + (s.nvTarget 2).1) { s.nvSlot 2 (s.nvTarget 2).1 with valid := false }
        writes := s.nv.writes ++ [{ what := 2, slot := (s.nvTarget 2).1, seq := (s.nvTarget 2).2, body := .id (s.rd Reg.LACE_ID.ID []) }] } })
  ∧ (∀ s : State, exec .biasNvSave s = .next (if s.sys.ready then s.nvRequest 0 (.bias s.biasImage) else s))
  ∧ (∀ s : State, exec .calSave s = .next (if s.sys.ready then s.nvRequest 1 (.cal s.cal.live) else s))
  ∧ (∀ s : State, exec .laceIdNvsave s = .next (if s.sys.ready then s.nvRequest 2 (.id (s.rd Reg.LACE_ID.ID [])) else s))
  ∧ (∀ (s : State) (what : Nat) (body : NvRec), s.nvRequest what body =
      (let slot := (s.nvTarget what).1
       let seq := (s.nvTarget what).2
       if s.nv.refuse = true then s.post s.home .event 956 0x87 1 s.coarseStamp
         [(0x14, 1, what), (0x15, 1, slot), (0x16, 1, 1), (0x18, 4, seq.toNat)]
       else if (s.nv.writes.any fun w => w.what == what) = true then s
       else { s with nv := { s.nv with
         slots := Table.set {} s.nv.slots (what * 2 + slot) { s.nvSlot what slot with valid := false }
         writes := s.nv.writes ++ [{ what := what, slot := slot, seq := seq, body := body }] } }))
  ∧ (∀ (what : Fin 3) (s : State), (s.nv.writes.find? fun w => w.what == what.val) = none →
      exec (.nvWriteDone what) s = .next s.modeSync)
  ∧ (∀ (what : Fin 3) (w : NvWrite) (s : State), (s.nv.writes.find? fun w => w.what == what.val) = some w →
      s.sys.resetWait = false → ∃ u : State, exec (.nvWriteDone what) s = .next u
        ∧ u.nv.slots = Table.set {} s.nv.slots (w.what * 2 + w.slot) { valid := true, seq := w.seq, body := some w.body }
        ∧ u.nv.writes = s.nv.writes.filter (fun x => x.what ≠ w.what)
        ∧ u.regs = s.regs ∧ u.ctxs = s.ctxs ∧ u.outs = s.outs ∧ u.ram = s.ram)
  ∧ (∀ (what : Fin 3) (w : NvWrite) (s : State), (s.nv.writes.find? fun w => w.what == what.val) = some w →
      s.sys.resetWait = true → s.nv.writes = [w] → ∃ u : State, exec (.nvWriteDone what) s = .next u
        ∧ u.sys.boot = true ∧ u.ram = [] ∧ u.ctxs = [])

/-- R29: for an armed job the start tick is the later of 1,000 ticks after the lead's begin and the tick of the
start time named in its descriptor, or the former alone where none is named; R30's early start time gives
that first allowed tick. R31: at a shot boundary it is the later of 1,000 ticks after the lead's begin (the
end of the boundary work) and the previous shot's start tick plus the period. Nothing but the start tick and
the lead's begin changes. (R28, R29, R31) -/
def Obligations.StartTicksFollowTheLead : Prop :=
  (∀ (s : State) (j : Job), s.job.job = some j → s.job.phase = .armed → j.start = none →
    s.leadNow = { s with job := { s.job with leadFrom := s.time.now, startTick := s.time.now + 1000 } })
  ∧ (∀ (s : State) (j : Job) (d : Nat), s.job.job = some j → s.job.phase = .armed → j.start = some d →
      s.leadNow = { s with job := { s.job with leadFrom := s.time.now, startTick := max (s.time.now + 1000) (s.tickOf d) } })
  ∧ (∀ (s : State) (d : Nat), s.time.dev.abs ≤ s.time.now + d → s.tickOf d = s.time.now + d - s.time.dev.abs)
  ∧ (∀ (s : State) (j : Job), s.job.job = some j → s.job.phase = .shotBoundary → s.leadNow =
      { s with job := { s.job with leadFrom := s.time.now, startTick := max (s.time.now + 1000) (s.job.prevStart + j.period) } })

/-- R18, R484: with a ready job that the device may start (idle, no work pending or what became pending left for the
next boundary, no stop or hold, time lock, Run), in this order: an error of the engine's working memory acts by
its rule; a missing ring completes the descriptor with VIOLATION, cause 12; a last that is not built, is stale,
has no path or an unbound stream completes it REFUSED with that code; an extent outside every window completes it
with VIOLATION, cause 4; else, where the streams are ready (R167), the job is armed: its descriptor is running,
its sequencers stand at their entries and its lead begins. With no ready job, or while the device may not start
one, nothing happens.
Completes: jobStart. (R18, R20, R29, R33, R167, R484, R499) -/
def Obligations.JobStartArmsOrRefuses : Prop :=
  (∀ (a : BitVec 16) (c : Nat) (d : Desc) (s : State), s.nextJob = some (c, d) → s.jobMayStart = true →
    s.ringFault c d = none → s.jobRefusal d = none → s.extentFault c d = false → s.streamsReady = true →
    exec (.jobStart ⟨0, a⟩) s = .next (s.arm c d).modeSync)
  ∧ (∀ (w : Fin 3) (a : BitVec 16) (s : State), exec (.jobStart ⟨w, a⟩) s = .next
    (match s.nextJob with
     | none => s
     | some (c, d) =>
       if s.jobMayStart = false then s
       else if w ≠ 0 then s.workError w a.toNat
       else match s.ringFault c d, s.jobRefusal d with
         | some place, _ => s.refuseDesc c d 12 0 place
         | none, some code => s.completeNow c d 2 code 0
         | none, none =>
           if s.extentFault c d = true then (s.refuseDesc c d 4 0 ((Config.freeWord s.freeCtr).toNat % 64)).draw
           else if s.streamsReady = true then s.arm c d else s).modeSync)
  ∧ (∀ (s : State) (c : Nat) (d : Desc), ∃ j : Job, (s.arm c d).job.job = some j ∧ (s.arm c d).job.phase = .armed
      ∧ j.ctx = c ∧ j.index = d.index ∧ j.abort = 0 ∧ j.shot = 0 ∧ j.done = 0 ∧ j.late = 0 ∧ j.invalid = 0
      ∧ (s.arm c d).job.leadFrom = s.time.now ∧ (s.arm c d).job.prepared = true ∧ (s.arm c d).job.lastCtx = c + 1
      ∧ (s.arm c d).ram = s.ram ∧ (s.arm c d).pending = s.pending)

/-- R29, R31, R32, R91, R243: when a job's next shot is due (its start tick reached, the sequencers prepared, no
work, hold, stop or blocking step), this tick is S and the shot runs; every tone generator and down-
conversion tone takes its committed frequency, its initial frame, and an accumulator of 0 or of 16 x FREQ x
device time by PHASE_REF; late and START_SLIP are counted; the shot begins marked invalid only where the mark was
made before S (a program error of a sequencer that ran ahead, R136) or the planes are suspect. Otherwise nothing
happens.
Completes: shotStart. (R29, R31, R32, R91, R136, R243) -/
def Obligations.ShotStartsAtItsTick : Prop :=
  (∀ s : State, s.job.job = none ∨ s.shotDue = false → exec .shotStart s = .next s)
  ∧ (∀ (s : State) (j : Job), s.job.job = some j → s.shotDue = true → ∃ t : State, exec .shotStart s = .next t
      ∧ t.job.phase = .inShot ∧ t.job.startTick = s.time.now
      ∧ t.job.job = some { j with
          startSlip := j.startSlip || s.startSlips j
          late := if s.lateStart j then incHold 0xFFFF j.late else j.late
          shotInvalid := j.shotInvalid || s.planes.suspect }
      ∧ (∀ k : Nat, k < 1024 → (Table.get {} t.outs.gens k).freq =
            BitVec.ofNat 48 (s.rd Reg.GEN_FREQ_LO.FREQ_LO [k / 256, k % 256] + s.rd Reg.GEN_FREQ_HI.FREQ_HI [k / 256, k % 256] * 2 ^ 32)
          ∧ (Table.get {} t.outs.gens k).frame = BitVec.ofNat 32 (s.rd Reg.GEN_PHASE.INIT [k / 256, k % 256])
          ∧ (Table.get {} t.outs.gens k).accAt = s.time.now * 16
          ∧ (s.flag Reg.GEN_CTL.PHASE_REF [k / 256, k % 256] = false → (Table.get {} t.outs.gens k).acc = 0))
      ∧ t.regs = s.regs ∧ t.ctxs = s.ctxs ∧ t.ram = s.ram ∧ t.sq = s.sq ∧ t.bias = s.bias ∧ t.planes = s.planes)

/-- R20: while one of the five conditions of R19 does not hold, nothing happens. Else the shot is closed and
counted (done, and invalid where it was marked, R25); with shots left and no abort cause the device is at a
shot boundary whose sequencers start at once when no work is pending, else the job ends (R489, R486).
Completes: shotEnd. (R19, R20, R25, R31, R486, R489) -/
def Obligations.ShotEndsWhenAllFiveConditionsHold : Prop :=
  (∀ s : State, s.shotOver = false → exec .shotEnd s = .next s.modeSync)
  ∧ (∀ s : State, s.shotOver = true → exec .shotEnd s = .next
      (let t := s.closeShot.updJob fun j => { j with
         done := j.done + 1
         shot := j.shot + 1
         invalid := if j.shotInvalid then incHold 0xFFFF j.invalid else j.invalid
         abort := s.closeShot.abortCause j j.shotInvalid
         shotInvalid := false }
       match t.job.job with
       | none => t
       | some j => if j.done < j.shots ∧ j.abort = 0 then t.nextShot else t.jobEnd).modeSync)
  ∧ (∀ s : State, s.nextShot.job.phase = .shotBoundary ∧ s.nextShot.job.prevStart = s.job.startTick)
  ∧ (∀ (s : State) (j : Job), s.job.job = some j → s.jobEnd.job.job = none ∧ s.jobEnd.job.phase = .idle)

/-- BOUNDARY_WORK_START: at a boundary with no work in progress, a cobbler up and boot over, a pending commit,
staged taps, a step of VDD_INS, at a job boundary also a due last and a due rise of the rung, start as one
piece of work; at a job boundary with a job ready, what became pending during earlier work of that boundary waits
for the next one (R23). With none pending at a shot boundary the sequencers stand ready and the lead begins; at a
job boundary nothing but the presets of idle flux outputs changes (R417). BOUNDARY_WORK_END: the commit is live,
the taps apply, VDD_INS and the rung are in force, the last is in effect; no work is in progress, and at a shot
boundary the sequencers stand ready and the lead begins (R31). At any other time neither does anything.
Completes: boundaryWorkStart, boundaryWorkEnd. (R21, R23, R26, R27, R31, R37, R384, R417, R453, R645, R653) -/
def Obligations.BoundaryWork : Prop :=
  (∀ s : State, (s.job.work = true ∨ s.atBoundary = false ∨ s.cobblerUp = false ∨ s.sys.boot = true) →
    exec .boundaryWorkStart s = .next s.modeSync)
  ∧ (∀ s : State, s.job.work = false → s.atBoundary = true → s.cobblerUp = true → s.sys.boot = false →
      s.job.phase = .shotBoundary → s.cfg.pending = false → s.cal.staged = [] → s.vinsWant = s.pwr.vins →
      exec .boundaryWorkStart s = .next s.fluxPresets.prepareShot.leadNow.modeSync)
  ∧ (∀ s : State, s.job.work = false → s.atBoundary = true → s.cobblerUp = true → s.sys.boot = false →
      s.job.phase = .shotBoundary → s.cfg.pending = true → ∃ t : State, exec .boundaryWorkStart s = .next t
        ∧ t.job.work = true ∧ t.job.workCommit = true ∧ t.job.workLast = false ∧ t.job.workAt = 0
        ∧ t.job.phase = .shotBoundary ∧ t.regs.live = s.commitStart.regs.live ∧ t.ram = s.ram)
  ∧ (∀ s : State, s.job.work = false → s.atBoundary = true → s.cobblerUp = true → s.sys.boot = false →
      s.job.phase = .idle → (s.job.worked && s.anyReady) = false → s.cfg.pending = true →
      ∃ t : State, exec .boundaryWorkStart s = .next t ∧ t.job.work = true ∧ t.job.workCommit = true
        ∧ t.job.phase = .idle ∧ t.regs.live = s.commitStart.regs.live ∧ t.ram = s.ram)
  ∧ (∀ s : State, (s.job.work = false ∨ s.cobblerUp = false) → exec .boundaryWorkEnd s = .next s.modeSync)
  ∧ (∀ s : State, s.job.work = true → s.cobblerUp = true → exec .boundaryWorkEnd s = .next
      (let a := if s.job.workCommit then (s.commitEnd s.job.workAt).postBoot else s
       let b := if s.job.workTaps then a.applyTaps s.job.workAt else a
       let c := if s.job.workVins then b.vinsDone else b
       let d := match s.job.nextLast with
         | some n => c.putLast n
         | none => c
       let e := (if s.job.workRung then d.riseDone else d).workOver.fluxPresets
       let f : State := { e with job.worked := s.job.workAt == 1 && e.anyReady && e.workDue }
       (if s.job.phase = .shotBoundary then f.prepareShot.leadNow else f.standbyMode).modeSync))
  ∧ (∀ s : State, s.workOver.job.work = false ∧ s.prepareShot.job.prepared = true)

/-- R670, R672: with no stop, or earlier than 1 ms after its trigger, nothing happens. Else a running job ends
with abort cause 4, its running shot muted and invalid; and once no NV write runs, every active output is
terminated, the device is at Rest or below with its clocks stopped, the stop is over and record 0x85 is
produced.
Completes: orderlyStopTimeout. (R670, R672, R674) -/
def Obligations.OrderlyStopEnds : Prop :=
  (∀ s : State, s.pwr.stop = none → exec .orderlyStopTimeout s = .next s.modeSync)
  ∧ (∀ (s : State) (p : StopSt), s.pwr.stop = some p → s.time.now < p.t0 + 1000000 →
      exec .orderlyStopTimeout s = .next s.modeSync)
  ∧ (∀ (s : State) (p : StopSt), s.pwr.stop = some p → p.t0 + 1000000 ≤ s.time.now →
      exec .orderlyStopTimeout s = .next
        (match s.stopJob.pwr.stop with
         | some r => if s.stopJob.nv.writes = [] then s.stopJob.stopDone r else s.stopJob
         | none => s.stopJob).modeSync)
  ∧ (∀ (s : State) (p : StopSt), (s.stopDone p).pwr.stop = none ∧ (s.stopDone p).pwr.clocksOff = true)
  ∧ (∀ (s : State) (j : Job), s.job.job = some j → s.stopJob.job.job = none)

/-- WELT_EVENT_ENTER takes the oldest event on the shank towards a queue. R68, R69: it is on time when it enters
no later than tick T - 4 and its sample does not precede that of an event already released from the queue;
then it joins the queue as it is. Else it is late: LATE_CNT counts it; a state event still applies, at its
earliest sample (and halts under HALT, R76); any other posts the late record and is dropped (policy 0),
slips to the earliest release sample (policy 1, R71, R73) or halts the queue and its sequencer (policy 2,
R77). With nothing on the shank nothing happens.
Completes: weltEventEnter. (R68, R69, R71, R72, R73, R76, R77, R78, R120) -/
def Obligations.WeltJudgesEntries : Prop :=
  (∀ (w : Fin 288) (s : State), (s.queue w).shank = [] → exec (.weltEventEnter w) s = .next s)
  ∧ (∀ (w : Fin 288) (s : State) (e : WEvent) (rest : List WEvent), (s.queue w).shank = e :: rest →
      s.time.now + 4 ≤ s.job.startTick + e.tick → (s.queue w).lastRel ≤ s.targetSample w e + 1 →
      exec (.weltEventEnter w) s = .next ((s.updQueue w fun q => { q with shank := rest }).updQueue w
        fun q => { q with events := q.events ++ [e] }))
  ∧ (∀ (w : Fin 288) (s : State) (e : WEvent) (rest : List WEvent), (s.queue w).shank = e :: rest →
      (s.job.startTick + e.tick < s.time.now + 4 ∨ s.targetSample w e + 1 < (s.queue w).lastRel) →
      exec (.weltEventEnter w) s = .next ((s.updQueue w fun q => { q with shank := rest }).lateEvent w e))
  ∧ (∀ (s : State) (w : Nat) (e : WEvent), s.lateEvent w e =
      (let u := queueUnit (w % 72)
       let target := s.targetSample w e
       let earliest := (s.time.now + 4) * u
       let pol := s.rd Reg.WELT_CTL.LATE_POLICY [w / 72, w % 72]
       let a := s.count Reg.WELT_STAT.LATE_CNT [w / 72, w % 72]
       let b := a.lateRecord w e pol ((if target < s.time.now * u then 16 else 0) + 8) target (lateness u earliest target)
       if eventClass e = 5 then (if pol = 2 then a.haltFor w e else a).enqueue w { e with how := .state (max earliest target) }
       else if pol = 0 then (b.lateInactive w e target).discardEvent w e
       else if pol = 1 then b.enqueue w { e with how := .slip (max earliest target) }
       else ((b.lateInactive w e target).haltFor w e).discardEvent w e))

/-- WELT_EVENT_RELEASE: of a queue's events the one of the least sample, a state event before others of that
sample, then the first entered, is released once its tick has come; it leaves the queue, which remembers its
target sample (R66, R67, R69, R96). With an uncorrectable error of the queue entry its effect is lost and
the shot invalid (R703). A state event adds to or replaces the frame or sets the frequency, a frequency
outside the band taking the nearest edge, and the accumulator goes on (R93 to R95, R201); an output event
acts unless its queue is halted (R77). Before its tick, or with an empty queue, nothing happens.
Completes: weltEventRelease. (R66, R67, R69, R77, R93, R94, R95, R96, R201, R703) -/
def Obligations.WeltReleasesInOrder : Prop :=
  (∀ (w : Fin 288) (lv : BitVec 16) (bad : Fin 3) (addr : Word) (off : Nat) (s : State),
    exec (.weltEventRelease w lv bad addr off) s = .next
      (match s.nextEvent w (s.queue w).events with
       | none => s
       | some e =>
         let k := s.releaseSample w e
         if s.time.now < k / queueUnit (w.val % 72) then s
         else
           let t := s.updQueue w fun q => { q with events := q.events.erase e, lastRel := s.targetSample w e + 1 }
           if bad = 1 then (t.eccError 7 (w / 72) 0 addr.toNat true).discardEvent w e
           else t.applyEvent w e k lv (if bad = 2 then some (addr.toNat, off) else none)))
  ∧ (∀ (w : Fin 288) (lv : BitVec 16) (addr : Word) (off : Nat) (e : WEvent) (s : State),
      s.nextEvent w (s.queue w).events = some e → s.releaseSample w e / queueUnit (w.val % 72) ≤ s.time.now →
      exec (.weltEventRelease w lv 0 addr off) s = .next
        ((s.updQueue w fun q => { q with events := q.events.erase e, lastRel := s.targetSample w e + 1 }).applyEvent w e
          (s.releaseSample w e) lv none))
  ∧ (∀ (s : State) (w : Nat) (l : List WEvent) (e : WEvent), s.nextEvent w l = some e → e ∈ l
      ∧ (∀ f ∈ l, s.releaseSample w e ≤ s.releaseSample w f)
      ∧ (∀ f ∈ l, s.releaseSample w f = s.releaseSample w e → eventClass f = 5 → eventClass e = 5))
  ∧ (∀ (s : State) (src : Nat) (band : Nat × Nat) (g : Gen) (n : Nat) (p : BitVec 32),
      s.applyState src band g (.phaseAdd n p) = (s, { g with frame := g.frame + p })
      ∧ s.applyState src band g (.phaseSet n p) = (s, { g with frame := p }))
  ∧ (∀ (s : State) (src lo hi : Nat) (g : Gen) (n : Nat) (f : BitVec 48), lo ≤ hi → hi < 2 ^ 48 →
      (s.applyState src (lo, hi) g (.freqSet n f)).2 = { g with freq := BitVec.ofNat 48 (clampNat lo hi f.toNat) }
      ∧ (lo ≤ f.toNat → f.toNat ≤ hi → s.applyState src (lo, hi) g (.freqSet n f) = (s, { g with freq := f })))
  ∧ (∀ (g : Gen) (k : Nat), (g.advance k).freq = g.freq ∧ (g.advance k).frame = g.frame
      ∧ (g.advance k).acc = g.acc + g.freq * BitVec.ofNat 48 (k - g.accAt) ∧ (g.advance k).accAt = k)

/-- OUTPUT_SWITCH_START: from S - 200 a terminated, enabled channel of the last, whose unit no calibration step
holds, starts its switch (R118); a step that may be suspended is suspended for it. OUTPUT_SWITCH_END: a switching channel is active and plays zero until its
first pulse. OUTPUT_OVERCURRENT: an active channel goes to FAULT with cause 1, its pulses stop and its
record is posted, the shot of its job invalid; a third such fault within 1 s locks it (R121, R123).
OUTPUT_FAULT_RETEST: at a job boundary or idle, a passing retest of a channel in FAULT that is not locked
clears cause 1; with no cause left it is terminated (R122). At any other time nothing happens.
Completes: outputSwitchStart, outputSwitchEnd, outputOvercurrent, outputFaultRetest. (R25, R117, R118, R121, R122, R123, R417) -/
def Obligations.OutputStages : Prop :=
  (∀ (ch : Fin 224) (s : State), exec (.outputSwitchStart ch) s = .next (s.switchFrom ch))
  ∧ (∀ (ch : Fin 224) (s : State), s.calOn ch = none → s.enabled ch = true → s.chanUsed ch = true → (s.chan ch).st = 0 →
      (s.job.phase = .armed ∨ s.job.phase = .shotBoundary) → s.job.prepared = true → s.job.startTick ≤ s.time.now + 200 →
      exec (.outputSwitchStart ch) s = .next (s.updChan ch fun c => { c with switching := true, out := 0 }))
  ∧ (∀ (s : State) (ch : Nat), s.switchStart ch =
      (if s.enabled ch = true ∧ s.chanUsed ch = true ∧ (s.chan ch).st = 0 ∧ (s.job.phase = .armed ∨ s.job.phase = .shotBoundary)
        ∧ s.job.prepared = true ∧ s.job.startTick ≤ s.time.now + 200 then
        s.updChan ch fun c => { c with switching := true, out := 0 } else s))
  ∧ (∀ (ch : Fin 224) (s : State), (s.chan ch).switching = false → exec (.outputSwitchEnd ch) s = .next s)
  ∧ (∀ (ch : Fin 224) (s : State), (s.chan ch).switching = true → ch.val < 160 → exec (.outputSwitchEnd ch) s = .next
      (s.updChan ch fun c => { c with st := 1, switching := false, virgin := true, out := 0, evalTo := s.time.now * 16, playedTo := 0 }))
  ∧ (∀ (ch : Fin 224) (s : State), (s.chan ch).switching = true → 160 ≤ ch.val → exec (.outputSwitchEnd ch) s = .next
      ((s.updChan ch fun c =>
         { c with st := 1, switching := false, virgin := true, out := 0, evalTo := s.time.now * 2, playedTo := 0 }).presetFlux (ch - 160)))
  ∧ (∀ (ch : Fin 224) (s : State), (s.chan ch).st ≠ 1 → exec (.outputOvercurrent ch) s = .next s)
  ∧ (∀ (ch : Fin 224) (s : State), (s.chan ch).st = 1 → ∃ t : State, exec (.outputOvercurrent ch) s = .next t
      ∧ (t.chan ch).st = 2 ∧ (t.chan ch).cause = 1 ∧ (t.chan ch).out = 0 ∧ 1 ∈ (t.chan ch).causes
      ∧ ((t.chan ch).ocAt = s.time.now :: (s.chan ch).ocAt.filter fun x => decide (s.time.now < x + 1000000000))
      ∧ (2 ≤ ((s.chan ch).ocAt.filter fun x => decide (s.time.now < x + 1000000000)).length → (t.chan ch).lock = 1)
      ∧ (∀ c : Nat, c ≠ ch.val → t.chan c = s.chan c)
      ∧ t.regs = s.regs ∧ t.ctxs = s.ctxs ∧ t.ram = s.ram ∧ t.sq = s.sq ∧ t.bias = s.bias)
  ∧ (∀ (ch : Fin 224) (s : State), s.job.phase = .idle → (s.chan ch).st = 2 → (s.chan ch).lock = 0 → (s.chan ch).causes = [1] →
      exec (.outputFaultRetest ch true) s = .next (s.updChan ch fun c => { c with causes := [], st := if c.lock = 0 then 0 else c.st }))
  ∧ (∀ (ch : Fin 224) (ok : Bool) (s : State), exec (.outputFaultRetest ch ok) s = .next
      (if s.job.phase = .idle ∧ (s.chan ch).st = 2 ∧ (s.chan ch).lock = 0 ∧ ok = true ∧ 1 ∈ (s.chan ch).causes then
        s.updChan ch fun c =>
          { c with
            causes := (s.chan ch).causes.filter (· ≠ 1)
            st := if (s.chan ch).causes.filter (· ≠ 1) = [] ∧ c.lock = 0 then 0 else c.st }
       else s))

/-- Each command issues the stitch at the sequencer's program counter when it is of its class and variant: PLAY,
STREAM, the four FRAME stitches, MEAS, MARK and the three BIAS stitches. A placed event carries the tick
cursor + DT, the sequencer and the stitch; it goes onto the shank towards its queue, the program counter
goes on by one and the cursor moves to the event's end only where ADV says so (R182, R195, R202). With its
queue full (256 events, those on the shank among them) the sequencer waits at the stitch (R70); a cursor
above 2^32 - 1 is program error 3 (R217). A STREAM takes its samples from the shot's data in order (R196,
R197). MARK sends one event for each group of four pins it touches and, with compared pins, makes its
compare slot pending (R208, R209). Each clause with the condition issues gives the next state of the command's own
effect; the clauses on placeEvent and placePulse say what they write.
Completes: play, stream, phaseAdd, phaseSet, freqSet, freqAdd, meas, mark, biasSetStitch, biasWave, biasStop. (R70, R93, R180, R182, R192, R195, R196, R199, R202, R208, R214, R217) -/
def Obligations.StitchesPlaceEvents : Prop :=
  (∀ (q : Fin 64) (bad : Bool) (s : State),
    exec (.play q bad) s = .next (s.issue q bad 1 0 fun s x w => s.placePulse q x w (s.playPulse (q / 16) w.queue w)))
  ∧ (∀ (q : Fin 64) (bad : Bool) (s : State), exec (.stream q bad) s = .next (s.issue q bad 9 0 fun s x w =>
      let t := s.placePulse q x w (streamPulse w (Table.get {} s.sq.streams (q / 16 * 16 + bitsOf w.w1 15 12)).issued)
      if (t.seq q).st = .issue ∧ (t.seq q).pc = x.pc + 1 then t.takeStream (q / 16) w else t))
  ∧ (∀ (q : Fin 64) (bad : Bool) (s : State), exec (.phaseAdd q bad) s = .next (s.issue q bad 8 0 fun s x w =>
      s.placeEvent q x w (.phaseAdd w.gen (BitVec.ofNat 32 w.w2)) x.cursor))
  ∧ (∀ (q : Fin 64) (bad : Bool) (s : State), exec (.phaseSet q bad) s = .next (s.issue q bad 8 1 fun s x w =>
      s.placeEvent q x w (.phaseSet w.gen (BitVec.ofNat 32 w.w2)) x.cursor))
  ∧ (∀ (q : Fin 64) (bad : Bool) (s : State), exec (.freqSet q bad) s = .next (s.issue q bad 8 2 fun s x w =>
      s.placeEvent q x w (.freqSet w.gen (BitVec.ofNat 48 (w.w2 + bitsOf w.w3 15 0 * 2 ^ 32))) x.cursor))
  ∧ (∀ (q : Fin 64) (bad : Bool) (s : State), exec (.freqAdd q bad) s = .next (s.issue q bad 8 3 fun s x w =>
      s.placeEvent q x w (.freqAdd w.gen (BitVec.ofNat 48 (w.w2 + bitsOf w.w3 15 0 * 2 ^ 32))) x.cursor))
  ∧ (∀ (q : Fin 64) (bad : Bool) (s : State), exec (.meas q bad) s = .next (s.issue q bad 3 0 fun s x w =>
      s.placeEvent q x w (.window { tone := (w.queue - 40) * 16 + w.gen, kset := bitsOf w.w1 14 12, len := bitsOf w.w2 16 0, tgt := bitsOf w.w1 31 20, syn := bitOf w.w1 18, recd := bitOf w.w1 17, tok := bitOf w.w1 16 })
        (advCursor w.queue x w (bitsOf w.w2 16 0))))
  ∧ (∀ (q : Fin 64) (bad : Bool) (s : State), exec (.biasSetStitch q bad) s = .next (s.issue q bad 11 0 fun s x w =>
      s.placeEvent q x w (.biasSet w.gen (signedOf 20 w.w2)) x.cursor))
  ∧ (∀ (q : Fin 64) (bad : Bool) (s : State), exec (.biasWave q bad) s = .next (s.issue q bad 11 1 fun s x w =>
      s.placeEvent q x w (.biasWave w.gen (bitsOf w.w2 7 0)) x.cursor))
  ∧ (∀ (q : Fin 64) (bad : Bool) (s : State), exec (.biasStop q bad) s = .next (s.issue q bad 11 2 fun s x w =>
      s.placeEvent q x w (.biasStop w.gen) x.cursor))
  ∧ (∀ (q : Fin 64) (bad : Bool) (s : State), (s.seq q).st = .issue → (s.seq q).haltPend = false → bad = false →
      (s.stitchAt q (s.seq q).pc.toNat).cls = 4 → (s.stitchAt q (s.seq q).pc.toNat).sub = 0 →
      (∀ g ∈ markQueues (s.stitchAt q (s.seq q).pc.toNat), s.queueLoad (q / 16 * 72 + 68 + g) < 256) →
      ∃ t : State, exec (.mark q bad) s = .next t ∧ (t.seq q).pc = (s.seq q).pc + 1 ∧ (t.seq q).cursor = (s.seq q).cursor
        ∧ (∀ g : Nat, g < 4 → (t.queue (q / 16 * 72 + 68 + g)).shank.length = (s.queue (q / 16 * 72 + 68 + g)).shank.length
            + (if g ∈ markQueues (s.stitchAt q (s.seq q).pc.toNat) then 1 else 0))
        ∧ t.regs = s.regs ∧ t.ram = s.ram ∧ t.ctxs = s.ctxs ∧ t.job = s.job)
  ∧ (∀ (q : Fin 64) (w : Stitch) (s : State), s.issues q w 1 0 → s.queueLoad (q / 16 * 72 + w.queue) < 256 →
      advCursor w.queue (s.seq q) w (s.playPulse (q / 16) w.queue w).len < 2 ^ 32 →
      exec (.play q false) s = .next (s.placePulse q (s.seq q) w (s.playPulse (q / 16) w.queue w)))
  ∧ (∀ (q : Fin 64) (w : Stitch) (s : State), s.issues q w 9 0 → s.queueLoad (q / 16 * 72 + w.queue) < 256 →
      advCursor w.queue (s.seq q) w (streamPulse w (Table.get {} s.sq.streams (q / 16 * 16 + bitsOf w.w1 15 12)).issued).len < 2 ^ 32 →
      exec (.stream q false) s = .next ((s.placePulse q (s.seq q) w
        (streamPulse w (Table.get {} s.sq.streams (q / 16 * 16 + bitsOf w.w1 15 12)).issued)).takeStream (q / 16) w))
  ∧ (∀ (q : Fin 64) (w : Stitch) (s : State), s.issues q w 8 0 → s.queueLoad (q / 16 * 72 + w.queue) < 256 → (s.seq q).cursor < 2 ^ 32 →
      exec (.phaseAdd q false) s = .next (s.placeEvent q (s.seq q) w (.phaseAdd w.gen (BitVec.ofNat 32 w.w2)) (s.seq q).cursor)
      ∧ ((s.placeEvent q (s.seq q) w (.phaseAdd w.gen (BitVec.ofNat 32 w.w2)) (s.seq q).cursor).seq q).pc = (s.seq q).pc + 1)
  ∧ (∀ (q : Fin 64) (w : Stitch) (s : State), s.issues q w 8 1 → s.queueLoad (q / 16 * 72 + w.queue) < 256 → (s.seq q).cursor < 2 ^ 32 →
      exec (.phaseSet q false) s = .next (s.placeEvent q (s.seq q) w (.phaseSet w.gen (BitVec.ofNat 32 w.w2)) (s.seq q).cursor)
      ∧ ((s.placeEvent q (s.seq q) w (.phaseSet w.gen (BitVec.ofNat 32 w.w2)) (s.seq q).cursor).seq q).pc = (s.seq q).pc + 1)
  ∧ (∀ (q : Fin 64) (w : Stitch) (s : State), s.issues q w 8 2 → s.queueLoad (q / 16 * 72 + w.queue) < 256 → (s.seq q).cursor < 2 ^ 32 →
      exec (.freqSet q false) s = .next (s.placeEvent q (s.seq q) w (.freqSet w.gen (BitVec.ofNat 48 (w.w2 + bitsOf w.w3 15 0 * 2 ^ 32))) (s.seq q).cursor)
      ∧ ((s.placeEvent q (s.seq q) w (.freqSet w.gen (BitVec.ofNat 48 (w.w2 + bitsOf w.w3 15 0 * 2 ^ 32))) (s.seq q).cursor).seq q).pc = (s.seq q).pc + 1)
  ∧ (∀ (q : Fin 64) (w : Stitch) (s : State), s.issues q w 8 3 → s.queueLoad (q / 16 * 72 + w.queue) < 256 → (s.seq q).cursor < 2 ^ 32 →
      exec (.freqAdd q false) s = .next (s.placeEvent q (s.seq q) w (.freqAdd w.gen (BitVec.ofNat 48 (w.w2 + bitsOf w.w3 15 0 * 2 ^ 32))) (s.seq q).cursor)
      ∧ ((s.placeEvent q (s.seq q) w (.freqAdd w.gen (BitVec.ofNat 48 (w.w2 + bitsOf w.w3 15 0 * 2 ^ 32))) (s.seq q).cursor).seq q).pc = (s.seq q).pc + 1)
  ∧ (∀ (q : Fin 64) (w : Stitch) (s : State), s.issues q w 3 0 → s.queueLoad (q / 16 * 72 + w.queue) < 256 → (advCursor w.queue (s.seq q) w (bitsOf w.w2 16 0)) < 2 ^ 32 →
      exec (.meas q false) s = .next (s.placeEvent q (s.seq q) w (.window { tone := (w.queue - 40) * 16 + w.gen, kset := bitsOf w.w1 14 12, len := bitsOf w.w2 16 0, tgt := bitsOf w.w1 31 20, syn := bitOf w.w1 18, recd := bitOf w.w1 17, tok := bitOf w.w1 16 }) (advCursor w.queue (s.seq q) w (bitsOf w.w2 16 0)))
      ∧ ((s.placeEvent q (s.seq q) w (.window { tone := (w.queue - 40) * 16 + w.gen, kset := bitsOf w.w1 14 12, len := bitsOf w.w2 16 0, tgt := bitsOf w.w1 31 20, syn := bitOf w.w1 18, recd := bitOf w.w1 17, tok := bitOf w.w1 16 }) (advCursor w.queue (s.seq q) w (bitsOf w.w2 16 0))).seq q).pc = (s.seq q).pc + 1)
  ∧ (∀ (q : Fin 64) (w : Stitch) (s : State), s.issues q w 11 0 → s.queueLoad (q / 16 * 72 + w.queue) < 256 → (s.seq q).cursor < 2 ^ 32 →
      exec (.biasSetStitch q false) s = .next (s.placeEvent q (s.seq q) w (.biasSet w.gen (signedOf 20 w.w2)) (s.seq q).cursor)
      ∧ ((s.placeEvent q (s.seq q) w (.biasSet w.gen (signedOf 20 w.w2)) (s.seq q).cursor).seq q).pc = (s.seq q).pc + 1)
  ∧ (∀ (q : Fin 64) (w : Stitch) (s : State), s.issues q w 11 1 → s.queueLoad (q / 16 * 72 + w.queue) < 256 → (s.seq q).cursor < 2 ^ 32 →
      exec (.biasWave q false) s = .next (s.placeEvent q (s.seq q) w (.biasWave w.gen (bitsOf w.w2 7 0)) (s.seq q).cursor)
      ∧ ((s.placeEvent q (s.seq q) w (.biasWave w.gen (bitsOf w.w2 7 0)) (s.seq q).cursor).seq q).pc = (s.seq q).pc + 1)
  ∧ (∀ (q : Fin 64) (w : Stitch) (s : State), s.issues q w 11 2 → s.queueLoad (q / 16 * 72 + w.queue) < 256 → (s.seq q).cursor < 2 ^ 32 →
      exec (.biasStop q false) s = .next (s.placeEvent q (s.seq q) w (.biasStop w.gen) (s.seq q).cursor)
      ∧ ((s.placeEvent q (s.seq q) w (.biasStop w.gen) (s.seq q).cursor).seq q).pc = (s.seq q).pc + 1)
  ∧ (∀ (s : State) (k : Nat) (x : Seq) (w : Stitch) (act : WAct) (c : Nat), s.placeEvent k x w act c =
      (if 256 ≤ s.queueLoad (k / 16 * 72 + w.queue) then s.updSeq k fun y => { y with st := .queueWait }
       else if 2 ^ 32 ≤ c then s.progError k 3
       else (s.updQueue (k / 16 * 72 + w.queue) fun y => { y with shank := y.shank ++
             [{ tick := x.cursor + w.dt, off := if w.queue < 64 then w.soff else 0, act := act, seq := k, stitch := x.pc.toNat }] }).updSeq k
              fun y => { y with cursor := c, pc := y.pc + 1 }))
  ∧ (∀ (s : State) (k : Nat) (x : Seq) (w : Stitch) (p : Pulse), s.queueLoad (k / 16 * 72 + w.queue) < 256 →
      advCursor w.queue x w p.len < 2 ^ 32 → s.placePulse k x w p =
        ((s.updQueue (k / 16 * 72 + w.queue) fun y => { y with shank := y.shank ++
           [{ tick := x.cursor + w.dt, off := if w.queue < 64 then w.soff else 0, act := .play w.gen p, seq := k, stitch := x.pc.toNat }] }).updSeq k
            fun y => { y with
              cursor := advCursor w.queue x w p.len
              pc := y.pc + 1
              segEnds := Table.set 0 y.segEnds (w.queue * 16 + w.gen) (eventSample w.queue (x.cursor + w.dt) w.soff + p.len) }))
  ∧ (∀ (i n : Nat) (x : Seq) (w : Stitch), w.adv = false → advCursor i x w n = x.cursor)

/-- A sequencer that is not issuing does nothing; a pending halt stops it (R77); an uncorrectable error of the
fetched word is logged and program error 0; an unknown class or variant is program error 1 (R136, R184,
R703). A program error stops the sequencer at its stitch and posts record 0x2B. A stop keeps its program
counter and cursor and discards its wait. A stitch of another class or variant than the command's is left
for its own command. All of this leaves the other sequencers' program counters and cursors, and the memory,
as they are. (R77, R136, R137, R184, R703) -/
def Obligations.StitchIssue : Prop :=
  (∀ (s : State) (k : Nat) (bad : Bool) (c v : Nat) (act : State → Seq → Stitch → State),
    (s.seq k).st ≠ .issue → s.issue k bad c v act = s)
  ∧ (∀ (s : State) (k : Nat) (bad : Bool) (c v : Nat) (act : State → Seq → Stitch → State),
      (s.seq k).st = .issue → (s.seq k).haltPend = true → s.issue k bad c v act = s.stopSeq k)
  ∧ (∀ (s : State) (k c v : Nat) (act : State → Seq → Stitch → State), (s.seq k).st = .issue → (s.seq k).haltPend = false →
      s.issue k true c v act = (s.eccError 1 k 0 (s.seq k).pc.toNat true).progError k 0)
  ∧ (∀ (s : State) (k c v : Nat) (act : State → Seq → Stitch → State), (s.seq k).st = .issue → (s.seq k).haltPend = false →
      (s.stitchAt k (s.seq k).pc.toNat).known = false → s.issue k false c v act = s.progError k 1)
  ∧ (∀ (s : State) (k c v : Nat) (act : State → Seq → Stitch → State), (s.seq k).st = .issue → (s.seq k).haltPend = false →
      (s.stitchAt k (s.seq k).pc.toNat).known = true →
      s.issue k false c v act =
        if (s.stitchAt k (s.seq k).pc.toNat).cls = c ∧ (s.stitchAt k (s.seq k).pc.toNat).sub = v then
          act s (s.seq k) (s.stitchAt k (s.seq k).pc.toNat) else s)
  ∧ (∀ (s : State) (k cause : Nat), (s.progError k cause).ram = s.ram ∧ (s.progError k cause).pending = s.pending
      ∧ ((s.progError k cause).seq k).st = .stopped ∧ ((s.progError k cause).seq k).branch = none
      ∧ ((s.progError k cause).seq k).timeReq = none
      ∧ ∀ n : Nat, ((s.progError k cause).seq n).pc = (s.seq n).pc ∧ ((s.progError k cause).seq n).cursor = (s.seq n).cursor)

/-- WAIT_REL adds to the cursor, WAIT_ABS raises it to its tick plus the shifts so far, and both go on (R154,
R216); WAIT_END enters DONE and releases the held pulses of the sequencer's outputs (R105, R216). LOOP_BEGIN
loads a counter and remembers the next stitch; LOOP_END goes back there while more than one pass is left,
else clears the counter and goes on (R219). A BRANCH with no condition jumps; else it waits with its
deadline cursor + DLINE and is tried on what the sequencer holds (R223 to R231). A segment-end branch needs
two paths that begin with a pulse of its queue and generator and a segment that is placed, else program
error 2; its fork pair takes a place in the queue (R140, R145). SYNC arrives at its barrier with its cursor
and waits (R159, R232). TRIG takes a latched trigger, asking the welt for the time, or waits (R173, R175).
Completes: waitRel, waitAbs, waitEnd, loopBegin, loopEnd, branch, branchSegmentEnd, sync, trig. (R105, R140, R145, R154, R159, R173, R175, R216, R217, R219, R223, R232) -/
def Obligations.StitchesControlTheProgram : Prop :=
  (∀ (q : Fin 64) (bad : Bool) (s : State),
    exec (.waitRel q bad) s = .next (s.issue q bad 2 0 fun s x w => s.waitCursor q (x.cursor + w.w1)))
  ∧ (∀ (q : Fin 64) (bad : Bool) (s : State),
      exec (.waitAbs q bad) s = .next (s.issue q bad 2 1 fun s x w => s.waitCursor q (max x.cursor (w.w1 + x.shiftSum))))
  ∧ (∀ (s : State) (k c : Nat), (s.seq k).st ≠ .stopped → c < 2 ^ 32 →
      s.waitCursor k c = (s.updSeq k fun x => { x with cursor := c }).updSeq k fun x => { x with pc := x.pc + 1 })
  ∧ (∀ (s : State) (k c : Nat), 2 ^ 32 ≤ c → s.waitCursor k c = s.progError k 3)
  ∧ (∀ (q : Fin 64) (bad : Bool) (s : State), exec (.waitEnd q bad) s = .next (s.issue q bad 2 2 fun s _ _ =>
      (s.updSeq q fun y => { y with st := .done }).releaseHolds q))
  ∧ (∀ (q : Fin 64) (bad : Bool) (s : State), exec (.loopBegin q bad) s = .next (s.issue q bad 6 0 fun s _ w =>
      s.updSeq q fun y => { y with
        loopCnt := y.loopCnt.set! (bitsOf w.w1 1 0) (bitsOf w.w1 31 8)
        loopStart := y.loopStart.set! (bitsOf w.w1 1 0) ((y.pc.toNat + 1) % 4096)
        pc := y.pc + 1 }))
  ∧ (∀ (q : Fin 64) (bad : Bool) (s : State), exec (.loopEnd q bad) s = .next (s.issue q bad 6 1 fun s x w =>
      let l := bitsOf w.w1 1 0
      let n := x.loopCnt[l]?.getD 0
      if 1 < n then s.updSeq q fun y => { y with
          loopCnt := y.loopCnt.set! l (n - 1)
          pc := BitVec.ofNat 12 (x.loopStart[l]?.getD 0) }
      else s.updSeq q fun y => { y with
          loopCnt := y.loopCnt.set! l 0
          pc := y.pc + 1 }))
  ∧ (∀ (q : Fin 64) (bad : Bool) (s : State), exec (.branch q bad) s = .next (s.issue q bad 5 0 fun s x w =>
      if w.cond = 0 then s.updSeq q fun y => { y with pc := BitVec.ofNat 12 w.target, st := .issue, branch := none, timeReq := none }
      else (s.updSeq q fun y => { y with
          st := .branchWait
          branch := some { d := x.cursor + w.dline, listenFrom := s.job.startTick + x.cursor, reanchor := w.policy } }).tryBranch q))
  ∧ (∀ (q : Fin 64) (bad : Bool) (s : State), exec (.branchSegmentEnd q bad) s = .next (s.issue q bad 5 1 fun s x w =>
      match s.forkPulse q w (x.pc.toNat + 1), s.forkPulse q w w.target with
      | some f, some t =>
        let e := Table.get 0 x.segEnds (w.bqueue * 16 + w.bgen)
        if e = 0 then s.progError q 2
        else if 256 ≤ s.queueLoad (q / 16 * 72 + w.bqueue) then s.queueWait q
        else
          let u := (s.sendEvent (q / 16 * 72 + w.bqueue)
            { tick := e / 16, off := e % 16, act := .fork w.bgen f t, seq := q, stitch := x.pc.toNat }).updSeq q fun y => { y with
              st := .branchWait
              branch := some { segEnd := true, lastSample := e - 1, listenFrom := s.job.startTick + x.cursor } }
          if w.cond = 0 then u.takePath q true else u.tryBranch q
      | _, _ => s.progError q 2))
  ∧ (∀ (q : Fin 64) (bad : Bool) (s : State), exec (.sync q bad) s = .next (s.issue q bad 7 0 fun s x w =>
      let b := bitsOf w.w1 5 0
      let n := Table.get 0 x.uses b
      let t := s.updSeq q fun y => { y with
        st := .syncWait
        waitFrom := s.time.now
        uses := Table.set 0 y.uses b (n + 1) }
      t.sendBarrier { s.barUse b n with arrived := (s.barUse b n).arrived ++ [((q : Nat), x.cursor)] }))
  ∧ (∀ (q : Fin 64) (bad : Bool) (s : State), exec (.trig q bad) s = .next (s.issue q bad 10 0 fun s x _ =>
      match x.latch with
      | some _ => s.updSeq q fun y => { y with
          st := .trigWait
          latch := none
          timeReq := some { forTrig := true } }
      | none => s.updSeq q fun y => { y with st := .trigWait }))
  ∧ (∀ (q : Fin 64) (w : Stitch) (s : State), s.issues q w 2 0 → (s.seq q).cursor + w.w1 < 2 ^ 32 →
      exec (.waitRel q false) s = .next ((s.updSeq q fun x => { x with cursor := (s.seq q).cursor + w.w1 }).updSeq q
        fun x => { x with pc := x.pc + 1 }))
  ∧ (∀ (q : Fin 64) (w : Stitch) (s : State), s.issues q w 2 1 → max (s.seq q).cursor (w.w1 + (s.seq q).shiftSum) < 2 ^ 32 →
      exec (.waitAbs q false) s = .next ((s.updSeq q fun x => { x with
        cursor := max (s.seq q).cursor (w.w1 + (s.seq q).shiftSum) }).updSeq q fun x => { x with pc := x.pc + 1 }))
  ∧ (∀ (q : Fin 64) (w : Stitch) (s : State), s.issues q w 2 2 →
      exec (.waitEnd q false) s = .next ((s.updSeq q fun y => { y with st := .done }).releaseHolds q))
  ∧ (∀ (q : Fin 64) (w : Stitch) (s : State), s.issues q w 6 0 →
      exec (.loopBegin q false) s = .next (s.updSeq q fun y => { y with
        loopCnt := y.loopCnt.set! (bitsOf w.w1 1 0) (bitsOf w.w1 31 8)
        loopStart := y.loopStart.set! (bitsOf w.w1 1 0) ((y.pc.toNat + 1) % 4096)
        pc := y.pc + 1 }))
  ∧ (∀ (q : Fin 64) (w : Stitch) (s : State), s.issues q w 6 1 → 1 < (s.seq q).loopCnt[bitsOf w.w1 1 0]?.getD 0 →
      exec (.loopEnd q false) s = .next (s.updSeq q fun y => { y with
        loopCnt := y.loopCnt.set! (bitsOf w.w1 1 0) ((s.seq q).loopCnt[bitsOf w.w1 1 0]?.getD 0 - 1)
        pc := BitVec.ofNat 12 ((s.seq q).loopStart[bitsOf w.w1 1 0]?.getD 0) }))
  ∧ (∀ (q : Fin 64) (w : Stitch) (s : State), s.issues q w 6 1 → (s.seq q).loopCnt[bitsOf w.w1 1 0]?.getD 0 ≤ 1 →
      exec (.loopEnd q false) s = .next (s.updSeq q fun y => { y with
        loopCnt := y.loopCnt.set! (bitsOf w.w1 1 0) 0
        pc := y.pc + 1 }))
  ∧ (∀ (q : Fin 64) (w : Stitch) (s : State), s.issues q w 5 0 → w.cond = 0 →
      exec (.branch q false) s = .next (s.updSeq q fun y => { y with
        pc := BitVec.ofNat 12 w.target, st := .issue, branch := none, timeReq := none }))
  ∧ (∀ (q : Fin 64) (w : Stitch) (s : State), s.issues q w 5 0 → w.cond ≠ 0 →
      exec (.branch q false) s = .next ((s.updSeq q fun y => { y with
        st := .branchWait
        branch := some { d := (s.seq q).cursor + w.dline, listenFrom := s.job.startTick + (s.seq q).cursor, reanchor := w.policy } }).tryBranch q))
  ∧ (∀ (q : Fin 64) (w : Stitch) (f t : Pulse) (s : State), s.issues q w 5 1 →
      s.forkPulse q w ((s.seq q).pc.toNat + 1) = some f → s.forkPulse q w w.target = some t →
      0 < Table.get 0 (s.seq q).segEnds (w.bqueue * 16 + w.bgen) → s.queueLoad (q / 16 * 72 + w.bqueue) < 256 → w.cond ≠ 0 →
      exec (.branchSegmentEnd q false) s = .next
        (((s.sendEvent (q / 16 * 72 + w.bqueue)
            { tick := Table.get 0 (s.seq q).segEnds (w.bqueue * 16 + w.bgen) / 16
              off := Table.get 0 (s.seq q).segEnds (w.bqueue * 16 + w.bgen) % 16
              act := .fork w.bgen f t, seq := q, stitch := (s.seq q).pc.toNat }).updSeq q fun y => { y with
              st := .branchWait
              branch := some { segEnd := true, lastSample := Table.get 0 (s.seq q).segEnds (w.bqueue * 16 + w.bgen) - 1
                               listenFrom := s.job.startTick + (s.seq q).cursor } }).tryBranch q))
  ∧ (∀ (q : Fin 64) (w : Stitch) (s : State), s.issues q w 7 0 →
      exec (.sync q false) s = .next ((s.updSeq q fun y => { y with
        st := .syncWait
        waitFrom := s.time.now
        uses := Table.set 0 y.uses (bitsOf w.w1 5 0) (Table.get 0 (s.seq q).uses (bitsOf w.w1 5 0) + 1) }).sendBarrier
          { s.barUse (bitsOf w.w1 5 0) (Table.get 0 (s.seq q).uses (bitsOf w.w1 5 0)) with
            arrived := (s.barUse (bitsOf w.w1 5 0) (Table.get 0 (s.seq q).uses (bitsOf w.w1 5 0))).arrived
              ++ [((q : Nat), (s.seq q).cursor)] }))
  ∧ (∀ (q : Fin 64) (w : Stitch) (s : State), s.issues q w 10 0 → (s.seq q).latch = none →
      exec (.trig q false) s = .next (s.updSeq q fun y => { y with st := .trigWait }))
  ∧ (∀ (q : Fin 64) (w : Stitch) (t : Trig) (s : State), s.issues q w 10 0 → (s.seq q).latch = some t →
      exec (.trig q false) s = .next (s.updSeq q fun y => { y with st := .trigWait, latch := none, timeReq := some { forTrig := true } }))

/-- DEADLINE_SIGNAL_SEND marks the signal of a waiting branch sent from tick D - 6 (R150). DEADLINE_SIGNAL: a
branch without REANCHOR, or one that met a void token, takes its default path with a deadline miss of
OUTCOME 0; one with REANCHOR waits on (R151, R152, R75). TIME_REQUEST stores the tick after the request's
arrival, rounded up, counted from S; TIME_ANSWER resolves the trigger stitch with it, or shifts the cursor
by at least 1 and takes the chosen path (R153, R154, R175). REANCHOR_LIMIT takes the default path with
OUTCOME 1 (R155). JUMP_POINT_SIGNAL: a segment-end branch with no condition by the segment's last sample
falls through with OUTCOME 2 (R143). JUMP_REQUEST in time switches the fork, later it is rejected;
JUMP_REJECT halts the queue, stops the sequencer and counts the miss (R142, R143, R146). COMPARE_RESULT
tries a branch on a compare slot (R228). EXTERNAL_EVENT resolves the branch that listens for the oldest edge
(R229). SEQ_QUEUE_RESUME issues again once there is space (R70).
Completes: deadlineSignalSend, deadlineSignal, timeRequest, timeAnswer, reanchorLimit, jumpRequest, jumpReject,
jumpPointSignal, compareResult, externalEvent, seqQueueResume. (R70, R75, R142, R143, R150, R151, R152, R153, R154, R155, R228, R229) -/
def Obligations.BranchesMeetTheirDeadline : Prop :=
  (∀ (q : Fin 64) (s : State), exec (.deadlineSignalSend q) s = .next
    (match (s.seq q).branch with
     | some br => if br.segEnd = false ∧ s.job.startTick + br.d ≤ s.time.now + 6 then
         s.updSeq q fun y => { y with branch := some { br with signalSent := true } } else s
     | none => s))
  ∧ (∀ (q : Fin 64) (s : State), exec (.deadlineSignal q) s = .next
      (match (s.seq q).branch with
       | some br =>
         if br.signalSent = false ∨ br.signalled = true ∨ br.segEnd = true then s
         else if br.voided = true ∨ br.reanchor = false then s.defaultPath q 0
         else s.updSeq q fun y => { y with branch := some { br with signalled := true } }
       | none => s))
  ∧ (∀ (q : Fin 64) (frac : Bool) (s : State), exec (.timeRequest q frac) s = .next
      (match (s.seq q).timeReq with
       | some r => if r.answer.isSome = true then s else s.updSeq q fun y => { y with
           timeReq := some { r with answer := some ((s.time.now : Int) - (s.job.startTick : Int) + (if frac then 1 else 0)) } }
       | none => s))
  ∧ (∀ (q : Fin 64) (s : State) (a : Int), (s.seq q).timeReq = some ⟨true, some a⟩ →
      exec (.timeAnswer q) s = .next (s.resolveTrig q a))
  ∧ (∀ (q : Fin 64) (s : State) (a : Int) (br : Branch), (s.seq q).timeReq = some ⟨false, some a⟩ → (s.seq q).branch = some br →
      exec (.timeAnswer q) s = .next (s.reanchor q a br (br.chosen.getD false)))
  ∧ (∀ (s : State) (k : Nat) (a : Int) (br : Branch) (p : Bool), s.reanchor k a br p =
      (let sh := max 1 (a - (br.d : Int)).toNat
       let t := ((s.count Reg.SEQ_CNT.SHIFT_CNT [k / 16, k % 16]).seqRecord k 0x26 0 (s.stampAt (s.job.startTick + br.d) 0)
         (s.seq k).pc.toNat [(0x1C, 4, sh)]).setCursor k ((s.seq k).cursor + sh)
       if (t.seq k).st = .stopped then t else (t.updSeq k fun y => { y with shiftSum := y.shiftSum + sh }).takePath k p))
  ∧ (∀ (q : Fin 64) (s : State), exec (.reanchorLimit q) s = .next
      (match (s.seq q).branch with
       | some br => if br.reanchor = true ∧ br.signalled = true ∧ br.chosen = none
           ∧ s.job.startTick + br.d + s.rd Reg.SEQ_CFG.REANCHOR_MAX [q / 16, q % 16] ≤ s.time.now then s.defaultPath q 1 else s
       | none => s))
  ∧ (∀ (q : Fin 64) (s : State), exec (.jumpPointSignal q) s = .next
      (match (s.seq q).branch with
       | some br => if br.segEnd = true ∧ s.job.startTick * 16 + br.lastSample < (s.time.now + 1) * 16 then s.defaultPath q 2 else s
       | none => s))
  ∧ (∀ (q : Fin 64) (smp : Fin 16) (s : State), ((s.seq q).jumps.find? fun j => !j.rejected) = none →
      exec (.jumpRequest ⟨q, smp⟩) s = .next s)
  ∧ (∀ (q : Fin 64) (smp : Fin 16) (s : State) (j : JumpReq), ((s.seq q).jumps.find? fun j => !j.rejected) = some j →
      (s.job.startTick * 16 + j.lastSample < s.time.now * 16 + smp
        ∨ hasFork j ((s.queue (q / 16 * 72 + j.queue)).events ++ (s.queue (q / 16 * 72 + j.queue)).shank) = false) →
      exec (.jumpRequest ⟨q, smp⟩) s =
        .next (s.updSeq q fun y => { y with jumps := y.jumps.erase j ++ [{ j with rejected := true }] }))
  ∧ (∀ (q : Fin 64) (smp : Fin 16) (s : State) (j : JumpReq), ((s.seq q).jumps.find? fun j => !j.rejected) = some j →
      s.time.now * 16 + smp ≤ s.job.startTick * 16 + j.lastSample →
      hasFork j ((s.queue (q / 16 * 72 + j.queue)).events ++ (s.queue (q / 16 * 72 + j.queue)).shank) = true →
      exec (.jumpRequest ⟨q, smp⟩) s = .next
        ((s.updQueue (q / 16 * 72 + j.queue) fun y =>
            if hasFork j y.events = true then { y with events := swapFork q j y.events }
            else { y with shank := swapFork q j y.shank }).updSeq q fun y => { y with jumps := y.jumps.erase j }))
  ∧ (∀ (q : Fin 64) (s : State), ((s.seq q).jumps.find? fun j => j.rejected) = none → exec (.jumpReject q) s = .next s)
  ∧ (∀ (q : Fin 64) (s : State) (j : JumpReq), ((s.seq q).jumps.find? fun j => j.rejected) = some j →
      exec (.jumpReject q) s = .next
        (let t := ((s.haltQueue (q / 16 * 72 + j.queue)).stopSeq q).updSeq q fun y => { y with jumps := y.jumps.erase j }
         t.deadlineMiss q j.stitch j.source 2 (t.sampleStamp 16 (t.job.startTick * 16 + j.lastSample))))
  ∧ (∀ (q : Fin 64) (s : State), exec (.compareResult q) s = .next
      (if (s.stitchAt q (s.seq q).pc.toNat).cond = 2 then s.tryBranch q else s))
  ∧ (∀ (q : Fin 64) (s : State), exec (.externalEvent q) s = .next
      (match (s.seq q).edges with
       | [] => s
       | (src, t) :: rest =>
         if s.listens q src (s.atArrival src t) = true then (s.updSeq q fun y => { y with edges := rest }).condKnown q true else s))
  ∧ (∀ (q : Fin 64) (s : State), (s.seq q).st ≠ .queueWait → exec (.seqQueueResume q) s = .next s)
  ∧ (∀ (q : Fin 64) (s : State), (s.seq q).st = .queueWait → (s.stitchAt q (s.seq q).pc.toNat).cls = 1 →
      s.queueLoad (q / 16 * 72 + (s.stitchAt q (s.seq q).pc.toNat).queue) < 256 →
      exec (.seqQueueResume q) s = .next (s.updSeq q fun y => { y with st := .issue }))
  ∧ (∀ (q : Fin 64) (br : Branch) (s : State), (s.seq q).branch = some br → br.segEnd = false →
      s.job.startTick + br.d ≤ s.time.now + 6 →
      exec (.deadlineSignalSend q) s = .next (s.updSeq q fun y => { y with branch := some { br with signalSent := true } }))
  ∧ (∀ (q : Fin 64) (br : Branch) (s : State), (s.seq q).branch = some br → br.segEnd = false → br.signalSent = true →
      br.signalled = false → (br.voided = true ∨ br.reanchor = false) → exec (.deadlineSignal q) s = .next (s.defaultPath q 0))
  ∧ (∀ (q : Fin 64) (br : Branch) (s : State), (s.seq q).branch = some br → br.segEnd = false → br.signalSent = true →
      br.signalled = false → br.voided = false → br.reanchor = true →
      exec (.deadlineSignal q) s = .next (s.updSeq q fun y => { y with branch := some { br with signalled := true } }))
  ∧ (∀ (q : Fin 64) (frac : Bool) (r : TimeReq) (s : State), (s.seq q).timeReq = some r → r.answer = none →
      exec (.timeRequest q frac) s = .next (s.updSeq q fun y => { y with
        timeReq := some { r with answer := some ((s.time.now : Int) - (s.job.startTick : Int) + (if frac then 1 else 0)) } }))
  ∧ (∀ (q : Fin 64) (br : Branch) (s : State), (s.seq q).branch = some br → br.reanchor = true → br.signalled = true →
      br.chosen = none → s.job.startTick + br.d + s.rd Reg.SEQ_CFG.REANCHOR_MAX [q / 16, q % 16] ≤ s.time.now →
      exec (.reanchorLimit q) s = .next (s.defaultPath q 1))
  ∧ (∀ (q : Fin 64) (br : Branch) (s : State), (s.seq q).branch = some br → br.segEnd = true →
      s.job.startTick * 16 + br.lastSample < (s.time.now + 1) * 16 → exec (.jumpPointSignal q) s = .next (s.defaultPath q 2))
  ∧ (∀ (q : Fin 64) (s : State), (s.stitchAt q (s.seq q).pc.toNat).cond = 2 → exec (.compareResult q) s = .next (s.tryBranch q))
  ∧ (∀ (q : Fin 64) (src : Nat) (t : Trig) (rest : List (Nat × Trig)) (s : State), (s.seq q).edges = (src, t) :: rest →
      s.listens q src (s.atArrival src t) = true →
      exec (.externalEvent q) s = .next ((s.updSeq q fun y => { y with edges := rest }).condKnown q true))

/-- TRIG_SW sets a software trigger out to a sequencer whose TRIG_SRC is 26, while the device is ready (R171,
R178). TRIGGER_ARRIVE takes the oldest edge on its way that no branch listens for; it is a trigger only from
TRIG_SRC (R172, R229). A trigger of a waiting sequencer resolves its stitch at once; else it is latched, or
with one latched counted and posted as overrun. A sequencer whose trigger resolves goes on with the later of
its cursor and the trigger's tick plus the offset (R174). BARRIER_RELEASE gives every waiting participant of
the first complete use the largest cursor of all, and forgets that use and the frames it has used up (R160, R162). SYNC_TIMEOUT stops a
sequencer that has waited for SYNC_TIMEOUT microseconds, has the frames that still come for the use discarded and
posts 0x2A (R164); its held pulses are released, and no other output changes.
STREAM_UNDERRUN takes a streamed segment whose data is incomplete past its limit off its queue, stops its
sequencer at that stitch and posts 0x28 (R168, R169).
Completes: trigSw, triggerArrive, barrierRelease, syncTimeout, streamUnderrun. (R160, R162, R164, R168, R169, R171, R172, R174, R178, R229) -/
def Obligations.TriggersBarriersAndUnderruns : Prop :=
  (∀ (q : Fin 64) (s : State), exec (.trigSw q) s = .next
    (s.gate (if s.rd Reg.SEQ_CFG.TRIG_SRC [q / 16, q % 16] = 26 then s.sendEdge [(q : Nat)] 26 {} else s)))
  ∧ (∀ (q : Fin 64) (s : State), exec (.triggerArrive q) s = .next
      (match (s.seq q).edges with
       | [] => s
       | (src, t) :: rest =>
         if s.listens q src (s.atArrival src t) = true then s
         else if s.rd Reg.SEQ_CFG.TRIG_SRC [q / 16, q % 16] = src then
           (s.updSeq q fun y => { y with edges := rest }).trigger q src (s.atArrival src t)
         else s.updSeq q fun y => { y with edges := rest }))
  ∧ (∀ (s : State) (k src : Nat) (t : Trig), (s.seq k).st = .idle → s.trigger k src t = s)
  ∧ (∀ (s : State) (k src : Nat) (t : Trig), (s.seq k).st = .trigWait → (s.seq k).timeReq = none →
      s.trigger k src t = s.resolveTrig k ((t.tick : Int) - (s.job.startTick : Int)))
  ∧ (∀ (s : State) (k src : Nat) (t : Trig), (s.seq k).st ≠ .idle → (s.seq k).st ≠ .trigWait → (s.seq k).latch = none →
      s.trigger k src t = s.updSeq k fun y => { y with latch := some t })
  ∧ (∀ (s : State) (k : Nat) (a : Int), (s.seq k).st = .trigWait →
      (max ((s.seq k).cursor : Int) (a + (bitsOf (s.stitchAt k (s.seq k).pc.toNat).w1 15 0 : Int))).toNat < 2 ^ 32 →
      ((s.resolveTrig k a).seq k).cursor
        = (max ((s.seq k).cursor : Int) (a + (bitsOf (s.stitchAt k (s.seq k).pc.toNat).w1 15 0 : Int))).toNat
      ∧ ((s.resolveTrig k a).seq k).pc = (s.seq k).pc + 1 ∧ ((s.resolveTrig k a).seq k).st = .issue)
  ∧ (∀ (b : Fin 64) (s : State), exec (.barrierRelease b) s = .next
      (match s.sq.bars.find? fun u => u.bar == (b : Nat) && s.barReady u with
       | none => s
       | some u => (u.arrived.map (·.1)).foldl
           (fun t k => t.barResume ((s.barDevs u.bar).foldl (fun m d => max m ((s.heldFrame u d).getD 0)) (s.localCursor u)) k)
           { s with
             sq.bars := s.sq.bars.filter fun v => !(v.bar == u.bar && v.use == u.use)
             sq.frames := s.sq.frames.filter fun f => !(f.1 == u.bar && f.2.1 == u.use % 256 && f.2.2.1 == s.shotIdx % 65536) }))
  ∧ (∀ (q : Fin 64) (s : State), ((s.seq q).st ≠ .syncWait
        ∨ s.time.now < (s.seq q).waitFrom + s.rd Reg.SEQ_CFG.SYNC_TIMEOUT [q / 16, q % 16] * 1000) →
      exec (.syncTimeout q) s = .next s)
  ∧ (∀ (q : Fin 64) (s : State), (s.seq q).st = .syncWait →
      (s.seq q).waitFrom + s.rd Reg.SEQ_CFG.SYNC_TIMEOUT [q / 16, q % 16] * 1000 ≤ s.time.now →
      ∃ t : State, exec (.syncTimeout q) s = .next t ∧ (t.seq q).st = .stopped ∧ (t.seq q).pc = (s.seq q).pc
        ∧ (t.seq q).cursor = (s.seq q).cursor ∧ (∀ n : Nat, n ≠ q.val → t.seq n = s.seq n)
        ∧ t.regs.live = s.regs.live ∧ t.outs = (s.releaseHolds q).outs ∧ t.ram = s.ram)
  ∧ (∀ (w : Fin 288) (s : State), (s.queue w).events = [] → exec (.streamUnderrun w) s = .next s)
  ∧ (∀ (w : Fin 288) (s : State) (e : WEvent) (g strm rate pos : Nat) (p : Pulse), (s.queue w).events = [e] → e.act = .play g p → p.gap = none →
      p.src = .stream strm rate pos → 0 < s.missing (w / 72) p → s.job.startTick + e.tick < s.time.now + 4 →
      ∃ t : State, exec (.streamUnderrun w) s = .next t ∧ (t.queue w).events = [] ∧ (t.seq e.seq).st = .stopped
        ∧ (t.seq e.seq).pc = BitVec.ofNat 12 e.stitch ∧ t.ram = s.ram
        ∧ (Table.get {} t.sq.streams (w / 72 * 16 + strm)).under = true)
  ∧ (∀ (q : Fin 64) (s : State), s.sys.ready = true → s.rd Reg.SEQ_CFG.TRIG_SRC [q / 16, q % 16] = 26 →
      exec (.trigSw q) s = .next (s.updSeq q fun y => { y with edges := y.edges ++ [(26, {})] }))
  ∧ (∀ (q : Fin 64) (src : Nat) (t : Trig) (rest : List (Nat × Trig)) (s : State), (s.seq q).edges = (src, t) :: rest →
      s.listens q src (s.atArrival src t) = false → s.rd Reg.SEQ_CFG.TRIG_SRC [q / 16, q % 16] = src →
      exec (.triggerArrive q) s = .next ((s.updSeq q fun y => { y with edges := rest }).trigger q src (s.atArrival src t)))
  ∧ (∀ (b : Fin 64) (u : BarUse) (s : State), (s.sq.bars.find? fun u => u.bar == (b : Nat) && s.barReady u) = some u →
      ∃ t : State, exec (.barrierRelease b) s = .next t ∧ t.ram = s.ram ∧ t.regs.live = s.regs.live
        ∧ (∀ k : Nat, (∀ c : Nat, (k, c) ∉ u.arrived) → (t.seq k).pc = (s.seq k).pc ∧ (t.seq k).cursor = (s.seq k).cursor))

/-- WINDOW_END closes the window of a tone that ends next, at or after its window-end tick, with an ADC code
for each sample (R263): a void window yields its void token (R266); before the end, a GROUPS window gives
the processor the groups complete so far; routes 2 and 3 hand the saturated
group sums to the processor, route 1 the point (R281, R283); an uncorrectable kernel read yields the void
token, its error and record 0x24 (R253, R110); route 0 discriminates the point, tracks it, makes the token
of TOK and the record of REC (R254, R258, R263, R265). A word that would overwrite a packet is not written and
the window is full; a packet with no room in the input buffer, with 16
queued or for a stopped processor is dropped with cause 0, 1 or 2: its void token, its count and record 0x35 (R284).
ADC_OVERRANGE counts each sample
at a limit and posts the record of a shot's first (R241; that the stamp is the sample's, log 58, is the model's
reading). TRACK_RESET empties the tracking history of one
kernel set (R257). CAPTURE_RECORD_COMPLETE names a record by first sample and close (one that the slot does not hold is
no event: log 59). A record of a gate interval that is full, or that the close ends, takes the
input's next sequence number; while one already waits, or the input is suspended, it is dropped and counted
and the gap grows to its stamp (R272, R273), else the gap so far is posted and the record waits for its
ring. CAPTURE_RECORD_OUTBOUND: a waiting record is written at the tail of its context's capture ring when
that has a free place and the outbound buffer has 16 KiB free, as 4,096 bytes; the tail advances, the status block is written and the input's vector
fires (R46, R270, R491, R493); else it waits on; one with an uncorrectable error is dropped (R272; that it takes no second number, log 67, is the model's choice).
Completes: windowEnd, adcOverrange, trackReset, captureRecordComplete, captureRecordOutbound. (R46, R241, R253, R257, R263, R265, R266, R281, R283, R284, R270, R272) -/
def Obligations.WindowsAndCaptures : Prop :=
  (∀ (q : Fin 4) (t : Fin 128) (codes : List (BitVec 12)) (kerr : Option Word) (s : State),
    s.winOn q t = none → exec (.windowEnd q t codes kerr) s = .next s)
  ∧ (∀ (q : Fin 4) (t : Fin 128) (codes : List (BitVec 12)) (kerr : Option Word) (s : State) (w : Win), s.winOn q t = some w →
      s.time.now < w.endTick → (s.byGroups w = false ∨ w.cfg.len ≤ w.taken + codes.length) →
      exec (.windowEnd q t codes kerr) s = .next s)
  ∧ (∀ (q : Fin 4) (t : Fin 128) (codes : List (BitVec 12)) (kerr : Option Word) (s : State) (w : Win), s.winOn q t = some w →
      s.time.now < w.endTick → s.byGroups w = true → w.taken + codes.length < w.cfg.len →
      w.first + w.taken + codes.length ≤ s.time.now * 8 → exec (.windowEnd q t codes kerr) s = .next
        (let r := s.takeGroups w.proc w codes false
         { r.1 with rdo.wins := r.1.rdo.wins.map fun x => if x = w then r.2 else x }))
  ∧ (∀ (q : Fin 4) (t : Fin 128) (codes : List (BitVec 12)) (kerr : Option Word) (s : State) (w : Win), s.winOn q t = some w →
      w.endTick ≤ s.time.now → w.void = true → ∃ u : State, exec (.windowEnd q t codes kerr) s = .next u
        ∧ u = State.voidWindow { s with rdo.wins := s.rdo.wins.erase w } w)
  ∧ (∀ (q : Fin 4) (t : Fin 128) (codes : List (BitVec 12)) (kerr : Option Word) (s : State) (w : Win), s.winOn q t = some w →
      w.endTick ≤ s.time.now → w.void = false → w.taken + codes.length = w.cfg.len →
      exec (.windowEnd q t codes kerr) s = .next (State.closeWindow { s with
        rdo.wins := s.rdo.wins.erase w
        rdo.closed := (w.q, w.tone, w.first, w.last) :: s.rdo.closed } w codes kerr))
  ∧ (∀ (s : State) (w : Win) (codes : List (BitVec 12)) (kerr : Option Word), w.void = false →
      s.closeWindow w codes kerr =
        (let ds := s.groups w.q w.tone (s.groupLen w.q w.ks) w.first (codes.map adcSample) 0 (0, 0)
         let ovr := codes.any overrange
         if s.routeOf w.q w.ks = 2 ∨ s.routeOf w.q w.ks = 3 then
           (s.takeGroups w.proc w codes true).1.packetEnter w.proc (s.takeGroups w.proc w codes true).2 true false
         else match kerr with
         | some a => s.kernelError w a.toNat
         | none =>
           let p := s.point w.q w.ks ds
           let a : State := { s with freeCtr := s.freeCtr + 4 }
           if s.routeOf w.q w.ks = 1 then
             (a.putWords w.proc 1 { w with ovr := ovr } [pairWord p.1 p.2.1]).1.packetEnter w.proc
               (a.putWords w.proc 1 { w with ovr := ovr } [pairWord p.1 p.2.1]).2 false p.2.2.1
           else
             let r := a.discriminate w.q w.ks w p.1 p.2.1
             let b := a.trackPoint w.q w.ks r.1 r.2 p.1 p.2.1
             let c := if w.cfg.tok = true then b.makeToken w.cfg.syn false w.cfg.tgt
                 (tokenPayload (toneId w.q w.tone) r.1 r.2 (b.devAt w.endTick).ns.toNat) w.last else b
             if w.cfg.recd = true then c.windowRecord w p.1 p.2.1 r.1 r.2 (rflags ovr p.2.2.2 p.2.2.1 w) else c))
  ∧ (∀ (s : State) (k : Nat) (w : Win) (g p : Bool), s.packetEnter k w g p =
      (if w.full = true then s.dropWindow k w 0
       else if 16 ≤ (s.dsp k).queue.length then s.dropWindow k w 1
       else if (s.dsp k).st = .stopped then s.dropWindow k w 2
       else s.updDsp k fun d => { d with
         queue := d.queue ++ [{ tag := winTag w g (decide ((s.dsp k).lastShot ≠ s.shotIdx + 1)) w.ovr p, ns := (s.devAt w.endTick).ns.toNat, shot := s.shotIdx, addr := s.rd Reg.DSP_IBUF.IBASE [k / 4, k % 4] + w.at_.getD 0, cnt := w.done, last := w.last }]
         lastShot := s.shotIdx + 1 }))
  ∧ (∀ (s : State) (k : Nat) (w : Win) (n : Nat) (x : Nat) (xs : List Nat), w.full = false → w.at_ = none →
      n ≤ s.rd Reg.DSP_IBUF.ILEN [k / 4, k % 4] →
      (s.dsp k).clash (s.rd Reg.DSP_IBUF.IBASE [k / 4, k % 4]) (s.rd Reg.DSP_IBUF.ILEN [k / 4, k % 4])
        (((s.dsp k).wpos % s.rd Reg.DSP_IBUF.ILEN [k / 4, k % 4] + w.done) % s.rd Reg.DSP_IBUF.ILEN [k / 4, k % 4]) = true →
      (s.putWords k n w (x :: xs)).2.full = true ∧ (s.putWords k n w (x :: xs)).2.done = w.done
        ∧ (s.putWords k n w (x :: xs)).1.ram = s.ram)
  ∧ (∀ (s : State) (k : Nat) (w : Win) (n : Nat) (x : Nat), w.full = false → w.at_ = none →
      n ≤ s.rd Reg.DSP_IBUF.ILEN [k / 4, k % 4] →
      (s.dsp k).clash (s.rd Reg.DSP_IBUF.IBASE [k / 4, k % 4]) (s.rd Reg.DSP_IBUF.ILEN [k / 4, k % 4])
        (((s.dsp k).wpos % s.rd Reg.DSP_IBUF.ILEN [k / 4, k % 4] + w.done) % s.rd Reg.DSP_IBUF.ILEN [k / 4, k % 4]) = false →
      (s.putWords k n w [x]).2 = { w with at_ := some ((s.dsp k).wpos % s.rd Reg.DSP_IBUF.ILEN [k / 4, k % 4]), done := w.done + 1 }
      ∧ (s.putWords k n w [x]).1.ram = (s.store (xBase k + (s.rd Reg.DSP_IBUF.IBASE [k / 4, k % 4]
          + ((s.dsp k).wpos % s.rd Reg.DSP_IBUF.ILEN [k / 4, k % 4] + w.done) % s.rd Reg.DSP_IBUF.ILEN [k / 4, k % 4]) * 4) (leBytes 4 x)).ram)
  ∧ (∀ (s : State) (k : Nat) (w : Win) (c : Nat), s.dropWindow k w c =
      (State.count ((s.abandon k w).voidWindow w) Reg.DSP_CNT.DROP_CNT [k / 4, k % 4]).post
        (State.count ((s.abandon k w).voidWindow w) Reg.DSP_CNT.DROP_CNT [k / 4, k % 4]).jobCtx .event (576 + k) 0x35 8
        ((State.count ((s.abandon k w).voidWindow w) Reg.DSP_CNT.DROP_CNT [k / 4, k % 4]).adcStamp w.last)
        [(0x14, 4, (State.count ((s.abandon k w).voidWindow w) Reg.DSP_CNT.DROP_CNT [k / 4, k % 4]).shotIdx), (0x18, 2, w.cfg.tgt),
          (0x1A, 1, c), (0x1B, 1, w.cfg.kset), (0x1C, 2, toneId w.q w.tone)])
  ∧ (∀ (inp : Fin 32) (j : Fin 8) (s : State), (s.job.phase ≠ .inShot ∨ Table.get false s.rdo.ovrSeen inp.val = true) →
      exec (.adcOverrange inp j) s = .next (s.count Reg.IN_STAT.OVR_CNT [inp / 8, inp % 8]))
  ∧ (∀ (inp : Fin 32) (j : Fin 8) (s : State), s.job.phase = .inShot → Table.get false s.rdo.ovrSeen inp.val = false →
      ∃ t : State, exec (.adcOverrange inp j) s = .next t ∧ Table.get false t.rdo.ovrSeen inp.val = true
        ∧ t = State.post { s.count Reg.IN_STAT.OVR_CNT [inp / 8, inp % 8] with
            rdo.ovrSeen := Table.set false s.rdo.ovrSeen inp true } s.jobCtx .event (160 + inp) 0x2D 0
            (s.adcStamp (s.time.now * 8 + j)) [(0x14, 4, s.shotIdx)])
  ∧ (∀ (q : Fin 4) (ks : Fin 1024) (s : State), exec (.trackReset q ks) s = .next
      (if s.sys.ready = true then { s with rdo.sets := Table.set {} s.rdo.sets (q * 1024 + ks) {} } else s))
  ∧ (∀ (inp : Fin 32) (first : Nat) (codes : List (BitVec 12)) (closed : Bool) (s : State), (s.capSlot inp).ivals = [] →
      exec (.captureRecordComplete inp first codes closed) s = .next s)
  ∧ (∀ (inp : Fin 32) (first : Nat) (codes : List (BitVec 12)) (closed : Bool) (v : CapIval) (rest : List CapIval) (s : State),
      (s.capSlot inp).ivals = v :: rest → (first ≠ v.start ∨ closed ≠ decide (v.stop = some (v.start + codes.length))
        ∨ s.recordFull inp v codes.length = false ∨ s.windowBefore inp v.start = true) →
      exec (.captureRecordComplete inp first codes closed) s = .next s)
  ∧ (∀ (inp : Fin 32) (codes : List (BitVec 12)) (v : CapIval) (rest : List CapIval) (s : State),
      (s.capSlot inp).ivals = v :: rest → s.recordFull inp v codes.length = true → s.windowBefore inp v.start = false →
      (s.captureData inp v.start codes).2 ≠ 0 → s.job.silent = false → s.job.closing = none → s.recs.held = [] →
      ((s.capSlot inp).susp = true ∨ (s.capSlot inp).waiting.isSome = true) →
      ∃ t : State, exec (.captureRecordComplete inp v.start codes (decide (v.stop = some (v.start + codes.length)))) s = .next t
        ∧ Table.get 0 t.recs.seq (160 + inp.val) = Table.get 0 s.recs.seq (160 + inp.val) + 1
        ∧ (t.capSlot inp).waiting = (s.capSlot inp).waiting ∧ (t.capSlot inp).ivals = nextIvals v codes.length rest
        ∧ (t.capSlot inp).gap = (match (s.capSlot inp).gap with
            | some g => some (g.1, s.adcStamp v.start)
            | none => some (s.adcStamp v.start, s.adcStamp v.start))
        ∧ t.ctxs = s.ctxs ∧ t.recs.out = s.recs.out ∧ t.ram = s.ram)
  ∧ (∀ (inp : Fin 32) (codes : List (BitVec 12)) (v : CapIval) (rest : List CapIval) (s : State),
      (s.capSlot inp).ivals = v :: rest → s.recordFull inp v codes.length = true → s.windowBefore inp v.start = false →
      (s.captureData inp v.start codes).2 ≠ 0 → s.job.silent = false →
      (s.capSlot inp).susp = false → (s.capSlot inp).waiting = none →
      ∃ t : State, exec (.captureRecordComplete inp v.start codes (decide (v.stop = some (v.start + codes.length)))) s = .next t
        ∧ (∃ b : List Byte, (t.capSlot inp).waiting = some (s.adcStamp v.start, b) ∧ b.length = 4096)
        ∧ (t.capSlot inp).ivals = nextIvals v codes.length rest ∧ (t.capSlot inp).ctx = s.capCtx ∧ t.ram = s.ram)
  ∧ (∀ (inp : Fin 32) (free : Fin 131073) (bad : Bool) (s : State), (s.capSlot inp).waiting = none →
      exec (.captureRecordOutbound ⟨inp, free, bad⟩) s = .next s)
  ∧ (∀ (inp : Fin 32) (free : Fin 131073) (bad : Bool) (s : State) (st : Stamp) (b : List Byte), (s.capSlot inp).waiting = some (st, b) →
      (free.val < 16384 ∨ s.ringSize (s.capSlot inp).ctx Reg.CTX_SIZE.CAP = 0
        ∨ ((s.ctx (s.capSlot inp).ctx).capTail + 1) % s.ringSize (s.capSlot inp).ctx Reg.CTX_SIZE.CAP = (s.ctx (s.capSlot inp).ctx).capHead) →
      exec (.captureRecordOutbound ⟨inp, free, bad⟩) s = .next s)
  ∧ (∀ (inp : Fin 32) (free : Fin 131073) (s : State) (st : Stamp) (b : List Byte), (s.capSlot inp).waiting = some (st, b) →
      16384 ≤ free.val →
      let c := (s.capSlot inp).ctx
      let n := s.ringSize c Reg.CTX_SIZE.CAP
      n ≠ 0 → ((s.ctx c).capTail + 1) % n ≠ (s.ctx c).capHead →
      exec (.captureRecordOutbound ⟨inp, free, false⟩) s = .next
        (let t := s.updCap inp fun y => { y with waiting := none }
         let u := (t.emit (.write (t.baseOf .CAP_BASE_LO .CAP_BASE_HI c + (s.ctx c).capTail * 4096) b)).updCtx c fun y =>
           { y with capTail := ((s.ctx c).capTail + 1) % n }
         (((u.noteStamp st).writeStatus c).fire (160 + inp)).finishJob))
  ∧ (∀ (inp : Fin 32) (free : Fin 131073) (s : State) (st : Stamp) (b : List Byte), (s.capSlot inp).waiting = some (st, b) →
      16384 ≤ free.val →
      let c := (s.capSlot inp).ctx
      let n := s.ringSize c Reg.CTX_SIZE.CAP
      n ≠ 0 → ((s.ctx c).capTail + 1) % n ≠ (s.ctx c).capHead → s.job.closing = none →
      ∃ t : State, exec (.captureRecordOutbound ⟨inp, free, true⟩) s = .next t ∧ (t.capSlot inp).waiting = none
        ∧ (∀ h : Nat, (t.ctx h).capTail = (s.ctx h).capTail) ∧ t.ram = s.ram)
  ∧ (∀ (q : Fin 4) (ks : Fin 1024) (s : State), s.sys.ready = true →
      exec (.trackReset q ks) s = .next { s with rdo.sets := Table.set {} s.rdo.sets (q * 1024 + ks) {} })

/-- An instruction of the given class and operation at the program counter of a running processor has this
effect, counts its handshakes and completes. Class M: the multiplier operands are read before the moves
write; complex and dual products go to or accumulate in the pair, which saturates at 40 bits and sets OV
(R298, R299, R302). Class A: sums and differences wrap with V of the exact result, logic and shifts set Z
and N, LDI and LDIH load halves, GETA shifts, saturates to 16 bits, sets SAT and updates BLK, LDA and CLRA
write the pair, MAG2 saturates to 32 bits, MOVS and MOVT move specials (R291, R303).
Completes: dspMove, cmul, cmac, cmacj, cmsu, dmac, dmul, dspAdd, dspSub, dspAnd, dspOr, dspXor, addi, ldi, ldih,
shl, asr, cmp, geta, lda, clra, movs, movt, mag2, umov, gmov. (R291, R298, R299, R302, R303) -/
def Obligations.ProcessorArithmetic : Prop :=
  (∀ (k : Fin 16) (bad : BitVec 3) (s : State),
    exec (.dspMove k bad) s = .next (s.dspM k bad 0 fun d _ _ => d)
    ∧ exec (.cmul k bad) s = .next (s.dspM k bad 1 fun d a b => d.setAcc (cmulRe a b) (cmulIm a b))
    ∧ exec (.cmac k bad) s = .next (s.dspM k bad 2 fun d a b => d.setAcc (d.a0.toInt + cmulRe a b) (d.a1.toInt + cmulIm a b))
    ∧ exec (.cmacj k bad) s = .next (s.dspM k bad 3 fun d a b => d.setAcc (d.a0.toInt + cmuljRe a b) (d.a1.toInt + cmuljIm a b))
    ∧ exec (.cmsu k bad) s = .next (s.dspM k bad 4 fun d a b => d.setAcc (d.a0.toInt - cmulRe a b) (d.a1.toInt - cmulIm a b))
    ∧ exec (.dmac k bad) s = .next (s.dspM k bad 5 fun d a b =>
        d.setAcc (d.a0.toInt + half0 a * half0 b) (d.a1.toInt + half1 a * half1 b))
    ∧ exec (.dmul k bad) s = .next (s.dspM k bad 6 fun d a b => d.setAcc (half0 a * half0 b) (half1 a * half1 b)))
  ∧ (∀ (a b : Word), cmulRe a b = half0 a * half0 b - half1 a * half1 b ∧ cmulIm a b = half0 a * half1 b + half1 a * half0 b
      ∧ cmuljRe a b = half0 a * half0 b + half1 a * half1 b ∧ cmuljIm a b = half1 a * half0 b - half0 a * half1 b)
  ∧ (∀ (d : Dsp) (x y : Int), (d.setAcc x y).a0.toInt = satInt 40 x ∧ (d.setAcc x y).a1.toInt = satInt 40 y
      ∧ (d.setAcc x y).ov = (d.ov || decide (satInt 40 x ≠ x ∨ satInt 40 y ≠ y))
      ∧ (d.setAcc x y).g = d.g ∧ (d.setAcc x y).u = d.u ∧ (d.setAcc x y).p = d.p ∧ (d.setAcc x y).pc = d.pc)
  ∧ (∀ (k : Fin 16) (bad : BitVec 3) (s : State),
      exec (.dspAdd k bad) s = .next (s.dspSimple k bad 2 0 1 (fun w => { regs := [aSrc1 w, aSrc2 w] }) fun d w =>
        (d.arith ((d.greg (aSrc1 w)).toInt + (d.greg (aSrc2 w)).toInt)).1.setG (aDst w) (d.greg (aSrc1 w) + d.greg (aSrc2 w)))
      ∧ exec (.dspSub k bad) s = .next (s.dspSimple k bad 2 1 1 (fun w => { regs := [aSrc1 w, aSrc2 w] }) fun d w =>
        (d.arith ((d.greg (aSrc1 w)).toInt - (d.greg (aSrc2 w)).toInt)).1.setG (aDst w) (d.greg (aSrc1 w) - d.greg (aSrc2 w)))
      ∧ exec (.addi k bad) s = .next (s.dspSimple k bad 2 5 1 (fun w => { regs := [aSrc1 w] }) fun d w =>
        (d.arith ((d.greg (aSrc1 w)).toInt + signedOf 16 w)).1.setG (aDst w) (d.greg (aSrc1 w) + BitVec.ofInt 32 (signedOf 16 w)))
      ∧ exec (.cmp k bad) s = .next (s.dspSimple k bad 2 10 1 (fun w => { regs := [aSrc1 w, aSrc2 w] }) fun d w =>
        (d.arith ((d.greg (aSrc1 w)).toInt - (d.greg (aSrc2 w)).toInt)).1))
  ∧ (∀ (d : Dsp) (r : Int), (d.arith r).2 = BitVec.ofInt 32 r
      ∧ (d.arith r).1 = { d with z := BitVec.ofInt 32 r == 0, n := (BitVec.ofInt 32 r).msb, v := decide (satInt 32 r ≠ r) })
  ∧ (∀ (k : Fin 16) (bad : BitVec 3) (s : State),
      exec (.dspAnd k bad) s = .next (s.dspLogic k bad 2 fun a b => a &&& b)
      ∧ exec (.dspOr k bad) s = .next (s.dspLogic k bad 3 fun a b => a ||| b)
      ∧ exec (.dspXor k bad) s = .next (s.dspLogic k bad 4 fun a b => a ^^^ b)
      ∧ exec (.shl k bad) s = .next (s.dspSimple k bad 2 8 1 (fun w => { regs := [aSrc1 w] }) fun d w =>
        (d.setG (aDst w) (d.greg (aSrc1 w) <<< bitsOf w 4 0)).setZN (d.greg (aSrc1 w) <<< bitsOf w 4 0))
      ∧ exec (.asr k bad) s = .next (s.dspSimple k bad 2 9 1 (fun w => { regs := [aSrc1 w] }) fun d w =>
        (d.setG (aDst w) ((d.greg (aSrc1 w)).sshiftRight (bitsOf w 4 0))).setZN ((d.greg (aSrc1 w)).sshiftRight (bitsOf w 4 0))))
  ∧ (∀ (k : Fin 16) (bad : BitVec 3) (s : State),
      exec (.ldi k bad) s = .next (s.dspSimple k bad 2 6 1 (fun _ => {}) fun d w => d.setG (aDst w) (BitVec.ofInt 32 (signedOf 16 w)))
      ∧ exec (.ldih k bad) s = .next (s.dspSimple k bad 2 7 1 (fun w => { regs := [aDst w] }) fun d w =>
        d.setG (aDst w) (BitVec.ofNat 32 ((d.greg (aDst w)).toNat % 65536 + bitsOf w 15 0 * 65536)))
      ∧ exec (.geta k bad) s = .next (s.dspSimple k bad 2 11 1 (fun _ => { acc := true }) fun d w =>
        let x := asrInt d.a0.toInt d.ash.toNat
        let y := asrInt d.a1.toInt d.ash.toNat
        let r := BitVec.ofNat 32 (pairWord (satInt 16 x) (satInt 16 y))
        { (d.setG (aDst w) r).detect r with
          sat := d.sat || decide (satInt 16 x ≠ x ∨ satInt 16 y ≠ y)
          busy := { reg := some (aDst w), sat := true, blk := true } })
      ∧ exec (.lda k bad) s = .next (s.dspSimple k bad 2 12 1 (fun w => { regs := [aSrc1 w] }) fun d w =>
        { d.setAcc (half0 (d.greg (aSrc1 w)) * 2 ^ bitsOf w 4 0) (half1 (d.greg (aSrc1 w)) * 2 ^ bitsOf w 4 0) with busy := {} })
      ∧ exec (.clra k bad) s = .next (s.dspSimple k bad 2 13 1 (fun _ => {}) fun d _ => { d with a0 := 0, a1 := 0 })
      ∧ exec (.mag2 k bad) s = .next (s.dspSimple k bad 2 16 1 (fun w => { regs := [aSrc1 w] }) fun d w =>
        let v := d.greg (aSrc1 w)
        let m := half0 v * half0 v + half1 v * half1 v
        { d.setG (aDst w) (BitVec.ofInt 32 (satInt 32 m)) with
          z := BitVec.ofInt 32 (satInt 32 m) == 0
          sat := d.sat || decide (satInt 32 m ≠ m)
          busy := { reg := some (aDst w), z := true, sat := true } }))
  ∧ (∀ (k : Fin 16) (bad : BitVec 3) (s : State),
      exec (.movs k bad) s = .next (s.dspSimple k bad 2 14 1 (fun w => readUse (bitsOf w 3 0)) fun d w =>
        d.setG (aDst w) (d.readSpecial (bitsOf w 3 0)))
      ∧ exec (.movt k bad) s = .next (s.dspSimple k bad 2 15 1 (fun w => { writeUse (bitsOf w 3 0) with regs := [aSrc1 w] }) fun d w =>
        d.writeSpecial (bitsOf w 3 0) (d.greg (aSrc1 w)))
      ∧ exec (.umov k bad) s = .next (s.dspSimple k bad 2 17 1 (fun w => { regs := [aSrc1 w] }) fun d w =>
        d.setU (aDst w) (d.greg (aSrc1 w)))
      ∧ exec (.gmov k bad) s = .next (s.dspSimple k bad 2 18 1 (fun _ => {}) fun d w => d.setG (aDst w) (d.ureg (aSrc1 w))))
  ∧ (∀ (d : Dsp) (w : Word), (d.detect w).blk.toNat = min d.blk.toNat (min (redundant (half0 w)) (redundant (half1 w))))
  ∧ (∀ (k : Fin 16) (bad : BitVec 3) (s : State), s.dspIssues k bad 2 0 → exec (.dspAdd k bad) s = .next
      (let w := s.dspNow k
       let e := (s.dsp k).count { regs := [aSrc1 w, aSrc2 w] } 1
       s.updDsp k fun _ => Dsp.complete { e with
         g := e.g.set! (aDst w) (BitVec.ofInt 32 ((e.greg (aSrc1 w)).toInt + (e.greg (aSrc2 w)).toInt))
         z := BitVec.ofInt 32 ((e.greg (aSrc1 w)).toInt + (e.greg (aSrc2 w)).toInt) == 0, n := (BitVec.ofInt 32 ((e.greg (aSrc1 w)).toInt + (e.greg (aSrc2 w)).toInt)).msb
         v := decide (satInt 32 ((e.greg (aSrc1 w)).toInt + (e.greg (aSrc2 w)).toInt) ≠ (e.greg (aSrc1 w)).toInt + (e.greg (aSrc2 w)).toInt) }))
  ∧ (∀ (k : Fin 16) (bad : BitVec 3) (s : State), s.dspIssues k bad 2 1 → exec (.dspSub k bad) s = .next
      (let w := s.dspNow k
       let e := (s.dsp k).count { regs := [aSrc1 w, aSrc2 w] } 1
       s.updDsp k fun _ => Dsp.complete { e with
         g := e.g.set! (aDst w) (BitVec.ofInt 32 ((e.greg (aSrc1 w)).toInt - (e.greg (aSrc2 w)).toInt))
         z := BitVec.ofInt 32 ((e.greg (aSrc1 w)).toInt - (e.greg (aSrc2 w)).toInt) == 0, n := (BitVec.ofInt 32 ((e.greg (aSrc1 w)).toInt - (e.greg (aSrc2 w)).toInt)).msb
         v := decide (satInt 32 ((e.greg (aSrc1 w)).toInt - (e.greg (aSrc2 w)).toInt) ≠ (e.greg (aSrc1 w)).toInt - (e.greg (aSrc2 w)).toInt) }))
  ∧ (∀ (k : Fin 16) (bad : BitVec 3) (s : State), s.dspIssues k bad 2 2 → exec (.dspAnd k bad) s = .next
      (let w := s.dspNow k
       let e := (s.dsp k).count { regs := [aSrc1 w, aSrc2 w] } 1
       s.updDsp k fun _ => Dsp.complete { e with g := e.g.set! (aDst w) (e.greg (aSrc1 w) &&& e.greg (aSrc2 w)), z := (e.greg (aSrc1 w) &&& e.greg (aSrc2 w)) == 0, n := (e.greg (aSrc1 w) &&& e.greg (aSrc2 w)).msb }))
  ∧ (∀ (k : Fin 16) (bad : BitVec 3) (s : State), s.dspIssues k bad 2 3 → exec (.dspOr k bad) s = .next
      (let w := s.dspNow k
       let e := (s.dsp k).count { regs := [aSrc1 w, aSrc2 w] } 1
       s.updDsp k fun _ => Dsp.complete { e with g := e.g.set! (aDst w) (e.greg (aSrc1 w) ||| e.greg (aSrc2 w)), z := (e.greg (aSrc1 w) ||| e.greg (aSrc2 w)) == 0, n := (e.greg (aSrc1 w) ||| e.greg (aSrc2 w)).msb }))
  ∧ (∀ (k : Fin 16) (bad : BitVec 3) (s : State), s.dspIssues k bad 2 4 → exec (.dspXor k bad) s = .next
      (let w := s.dspNow k
       let e := (s.dsp k).count { regs := [aSrc1 w, aSrc2 w] } 1
       s.updDsp k fun _ => Dsp.complete { e with g := e.g.set! (aDst w) (e.greg (aSrc1 w) ^^^ e.greg (aSrc2 w)), z := (e.greg (aSrc1 w) ^^^ e.greg (aSrc2 w)) == 0, n := (e.greg (aSrc1 w) ^^^ e.greg (aSrc2 w)).msb }))
  ∧ (∀ (k : Fin 16) (bad : BitVec 3) (s : State), s.dspIssues k bad 2 5 → exec (.addi k bad) s = .next
      (let w := s.dspNow k
       let e := (s.dsp k).count { regs := [aSrc1 w] } 1
       s.updDsp k fun _ => Dsp.complete { e with
         g := e.g.set! (aDst w) (BitVec.ofInt 32 ((e.greg (aSrc1 w)).toInt + signedOf 16 w))
         z := BitVec.ofInt 32 ((e.greg (aSrc1 w)).toInt + signedOf 16 w) == 0, n := (BitVec.ofInt 32 ((e.greg (aSrc1 w)).toInt + signedOf 16 w)).msb
         v := decide (satInt 32 ((e.greg (aSrc1 w)).toInt + signedOf 16 w) ≠ (e.greg (aSrc1 w)).toInt + signedOf 16 w) }))
  ∧ (∀ (k : Fin 16) (bad : BitVec 3) (s : State), s.dspIssues k bad 2 6 → exec (.ldi k bad) s = .next
      (let w := s.dspNow k
       let e := (s.dsp k).count {} 1
       s.updDsp k fun _ => Dsp.complete { e with g := e.g.set! (aDst w) (BitVec.ofInt 32 (signedOf 16 w)) }))
  ∧ (∀ (k : Fin 16) (bad : BitVec 3) (s : State), s.dspIssues k bad 2 7 → exec (.ldih k bad) s = .next
      (let w := s.dspNow k
       let e := (s.dsp k).count { regs := [aDst w] } 1
       s.updDsp k fun _ => Dsp.complete { e with g := e.g.set! (aDst w) (BitVec.ofNat 32 ((e.greg (aDst w)).toNat % 65536 + bitsOf w 15 0 * 65536)) }))
  ∧ (∀ (k : Fin 16) (bad : BitVec 3) (s : State), s.dspIssues k bad 2 8 → exec (.shl k bad) s = .next
      (let w := s.dspNow k
       let e := (s.dsp k).count { regs := [aSrc1 w] } 1
       s.updDsp k fun _ => Dsp.complete { e with g := e.g.set! (aDst w) (e.greg (aSrc1 w) <<< bitsOf w 4 0), z := (e.greg (aSrc1 w) <<< bitsOf w 4 0) == 0, n := (e.greg (aSrc1 w) <<< bitsOf w 4 0).msb }))
  ∧ (∀ (k : Fin 16) (bad : BitVec 3) (s : State), s.dspIssues k bad 2 9 → exec (.asr k bad) s = .next
      (let w := s.dspNow k
       let e := (s.dsp k).count { regs := [aSrc1 w] } 1
       s.updDsp k fun _ => Dsp.complete { e with g := e.g.set! (aDst w) ((e.greg (aSrc1 w)).sshiftRight (bitsOf w 4 0)), z := ((e.greg (aSrc1 w)).sshiftRight (bitsOf w 4 0)) == 0, n := ((e.greg (aSrc1 w)).sshiftRight (bitsOf w 4 0)).msb }))
  ∧ (∀ (k : Fin 16) (bad : BitVec 3) (s : State), s.dspIssues k bad 2 10 → exec (.cmp k bad) s = .next
      (let w := s.dspNow k
       let e := (s.dsp k).count { regs := [aSrc1 w, aSrc2 w] } 1
       s.updDsp k fun _ => Dsp.complete { e with z := BitVec.ofInt 32 ((e.greg (aSrc1 w)).toInt - (e.greg (aSrc2 w)).toInt) == 0, n := (BitVec.ofInt 32 ((e.greg (aSrc1 w)).toInt - (e.greg (aSrc2 w)).toInt)).msb, v := decide (satInt 32 ((e.greg (aSrc1 w)).toInt - (e.greg (aSrc2 w)).toInt) ≠ (e.greg (aSrc1 w)).toInt - (e.greg (aSrc2 w)).toInt) }))
  ∧ (∀ (k : Fin 16) (bad : BitVec 3) (s : State), s.dspIssues k bad 2 11 → ∃ t : State, exec (.geta k bad) s = .next t
      ∧ (t.dsp k).g = (s.dsp k).g.set! (aDst (s.dspNow k)) (BitVec.ofNat 32 (pairWord
          (satInt 16 (asrInt (s.dsp k).a0.toInt (s.dsp k).ash.toNat)) (satInt 16 (asrInt (s.dsp k).a1.toInt (s.dsp k).ash.toNat))))
      ∧ (t.dsp k).sat = ((s.dsp k).sat || decide (satInt 16 (asrInt (s.dsp k).a0.toInt (s.dsp k).ash.toNat) ≠ asrInt (s.dsp k).a0.toInt (s.dsp k).ash.toNat
          ∨ satInt 16 (asrInt (s.dsp k).a1.toInt (s.dsp k).ash.toNat) ≠ asrInt (s.dsp k).a1.toInt (s.dsp k).ash.toNat))
      ∧ (t.dsp k).a0 = (s.dsp k).a0 ∧ (t.dsp k).a1 = (s.dsp k).a1 ∧ (t.dsp k).u = (s.dsp k).u ∧ (t.dsp k).z = (s.dsp k).z
      ∧ (t.dsp k).n = (s.dsp k).n ∧ (t.dsp k).v = (s.dsp k).v ∧ (t.dsp k).ov = (s.dsp k).ov ∧ t.ram = s.ram
      ∧ ∀ m : Nat, m ≠ k.val → t.dsp m = s.dsp m)
  ∧ (∀ (k : Fin 16) (bad : BitVec 3) (s : State), s.dspIssues k bad 2 12 → ∃ t : State, exec (.lda k bad) s = .next t
      ∧ (t.dsp k).a0.toInt = satInt 40 (half0 ((s.dsp k).greg (aSrc1 (s.dspNow k))) * 2 ^ bitsOf (s.dspNow k) 4 0)
      ∧ (t.dsp k).a1.toInt = satInt 40 (half1 ((s.dsp k).greg (aSrc1 (s.dspNow k))) * 2 ^ bitsOf (s.dspNow k) 4 0)
      ∧ (t.dsp k).g = (s.dsp k).g ∧ (t.dsp k).u = (s.dsp k).u ∧ (t.dsp k).sat = (s.dsp k).sat ∧ t.ram = s.ram
      ∧ ∀ m : Nat, m ≠ k.val → t.dsp m = s.dsp m)
  ∧ (∀ (k : Fin 16) (bad : BitVec 3) (s : State), s.dspIssues k bad 2 13 → exec (.clra k bad) s = .next
      (let w := s.dspNow k
       let e := (s.dsp k).count {} 1
       s.updDsp k fun _ => Dsp.complete { e with a0 := 0, a1 := 0 }))
  ∧ (∀ (k : Fin 16) (bad : BitVec 3) (s : State), s.dspIssues k bad 2 14 → exec (.movs k bad) s = .next
      (let w := s.dspNow k
       let e := (s.dsp k).count (readUse (bitsOf w 3 0)) 1
       s.updDsp k fun _ => Dsp.complete { e with g := e.g.set! (aDst w) (e.readSpecial (bitsOf w 3 0)) }))
  ∧ (∀ (k : Fin 16) (bad : BitVec 3) (s : State), s.dspIssues k bad 2 15 → exec (.movt k bad) s = .next
      (let w := s.dspNow k
       let e := (s.dsp k).count { writeUse (bitsOf w 3 0) with regs := [aSrc1 w] } 1
       s.updDsp k fun _ => Dsp.complete (e.writeSpecial (bitsOf w 3 0) (e.greg (aSrc1 w)))))
  ∧ (∀ (k : Fin 16) (bad : BitVec 3) (s : State), s.dspIssues k bad 2 16 → exec (.mag2 k bad) s = .next
      (let w := s.dspNow k
       let e := (s.dsp k).count { regs := [aSrc1 w] } 1
       s.updDsp k fun _ => Dsp.complete { e with
         g := e.g.set! (aDst w) (BitVec.ofInt 32 (satInt 32 (half0 (e.greg (aSrc1 w)) * half0 (e.greg (aSrc1 w)) + half1 (e.greg (aSrc1 w)) * half1 (e.greg (aSrc1 w))))), z := BitVec.ofInt 32 (satInt 32 (half0 (e.greg (aSrc1 w)) * half0 (e.greg (aSrc1 w)) + half1 (e.greg (aSrc1 w)) * half1 (e.greg (aSrc1 w)))) == 0
         sat := e.sat || decide (satInt 32 (half0 (e.greg (aSrc1 w)) * half0 (e.greg (aSrc1 w)) + half1 (e.greg (aSrc1 w)) * half1 (e.greg (aSrc1 w))) ≠ half0 (e.greg (aSrc1 w)) * half0 (e.greg (aSrc1 w)) + half1 (e.greg (aSrc1 w)) * half1 (e.greg (aSrc1 w)))
         busy := { reg := some (aDst w), z := true, sat := true } }))
  ∧ (∀ (k : Fin 16) (bad : BitVec 3) (s : State), s.dspIssues k bad 2 17 → exec (.umov k bad) s = .next
      (let w := s.dspNow k
       let e := (s.dsp k).count { regs := [aSrc1 w] } 1
       s.updDsp k fun _ => Dsp.complete { e with u := e.u.set! (aDst w) (e.greg (aSrc1 w)) }))
  ∧ (∀ (k : Fin 16) (bad : BitVec 3) (s : State), s.dspIssues k bad 2 18 → exec (.gmov k bad) s = .next
      (let w := s.dspNow k
       let e := (s.dsp k).count {} 1
       s.updDsp k fun _ => Dsp.complete { e with g := e.g.set! (aDst w) (e.ureg (aSrc1 w)) }))
  ∧ (∀ (k : Fin 16) (bad : BitVec 3) (s : State),
      let d := s.dsp k
      let a := d.ureg (bitsOf (s.dspNow k) 26 24)
      let b := d.ureg (bitsOf (s.dspNow k) 23 21)
      let frame : State → Prop := fun t => (t.dsp k).g = d.g ∧ (t.dsp k).z = d.z ∧ (t.dsp k).n = d.n ∧ (t.dsp k).v = d.v
        ∧ (t.dsp k).sat = d.sat ∧ (t.dsp k).blk = d.blk ∧ (t.dsp k).ash = d.ash ∧ t.ram = s.ram ∧ ∀ m : Nat, m ≠ k.val → t.dsp m = s.dsp m
      (s.dspIssues k bad 3 0 → ∃ t : State, exec (.dspMove k bad) s = .next t ∧ (t.dsp k).a0 = d.a0 ∧ (t.dsp k).a1 = d.a1 ∧ (t.dsp k).ov = d.ov ∧ frame t)
      ∧ (s.dspIssues k bad 3 1 → ∃ t : State, exec (.cmul k bad) s = .next t ∧ (t.dsp k).a0.toInt = satInt 40 (cmulRe a b)
        ∧ (t.dsp k).a1.toInt = satInt 40 (cmulIm a b) ∧ frame t)
      ∧ (s.dspIssues k bad 3 2 → ∃ t : State, exec (.cmac k bad) s = .next t ∧ (t.dsp k).a0.toInt = satInt 40 (d.a0.toInt + cmulRe a b)
        ∧ (t.dsp k).a1.toInt = satInt 40 (d.a1.toInt + cmulIm a b) ∧ frame t)
      ∧ (s.dspIssues k bad 3 3 → ∃ t : State, exec (.cmacj k bad) s = .next t ∧ (t.dsp k).a0.toInt = satInt 40 (d.a0.toInt + cmuljRe a b)
        ∧ (t.dsp k).a1.toInt = satInt 40 (d.a1.toInt + cmuljIm a b) ∧ frame t)
      ∧ (s.dspIssues k bad 3 4 → ∃ t : State, exec (.cmsu k bad) s = .next t ∧ (t.dsp k).a0.toInt = satInt 40 (d.a0.toInt - cmulRe a b)
        ∧ (t.dsp k).a1.toInt = satInt 40 (d.a1.toInt - cmulIm a b) ∧ frame t)
      ∧ (s.dspIssues k bad 3 5 → ∃ t : State, exec (.dmac k bad) s = .next t ∧ (t.dsp k).a0.toInt = satInt 40 (d.a0.toInt + half0 a * half0 b)
        ∧ (t.dsp k).a1.toInt = satInt 40 (d.a1.toInt + half1 a * half1 b) ∧ frame t)
      ∧ (s.dspIssues k bad 3 6 → ∃ t : State, exec (.dmul k bad) s = .next t ∧ (t.dsp k).a0.toInt = satInt 40 (half0 a * half0 b)
        ∧ (t.dsp k).a1.toInt = satInt 40 (half1 a * half1 b) ∧ frame t))
  ∧ (∀ (k : Fin 16) (bad : BitVec 3) (s : State) (op : Nat) (f : Dsp → Word → Word → Dsp), s.dspIssues k bad 3 op →
      bad.getLsbD 1 = false → bad.getLsbD 2 = false → (∀ (d : Dsp) (a b : Word), (f d a b).u = d.u ∧ (f d a b).p = d.p ∧ (f d a b).act = d.act) →
      let w := s.dspNow k
      let d := s.dsp k
      let x := bitsOf w 19 18
      let y := 4 + bitsOf w 11 10
      let ux := if bitOf w 20 = true then d.u.set! (bitsOf w 15 13) (BitVec.ofNat 32 (s.load (xBase k + (d.ptr x).val.toNat * 4) 4)) else d.u
      let px := if bitOf w 20 = true then d.updPtr x fun p => p.modify (bitsOf w 17 16) else d
      ((s.dspM k bad op f).dsp k).u =
        (if bitOf w 12 = true then ux.set! (bitsOf w 7 5) (BitVec.ofNat 32 (s.load (yBase k + (d.ptr y).val.toNat * 4) 4)) else ux)
      ∧ (d.act = [] → ((s.dspM k bad op f).dsp k).p = (if bitOf w 12 = true then px.updPtr y (fun p => p.modify (bitsOf w 9 8)) else px).p))

/-- Class L: LD and ST move a word between a general register and X or Y memory at a pointer, which is then
modified; the SET instructions and MOVP write a pointer's fields, a ring length taking effect at once
outside a repeat (R292 to R294). Class C: REP and REPG start a repeat level, a count of 0 skipping past its
END; a level that does not nest stops the processor with code 4; JMP and JCC jump, ending the levels they
leave (R295, R296). WAITIN releases the packet held, with its void token when one is owed, and takes the
next or waits; WAITIN_WAKE takes it when it comes (R288, R289). TOKEN sends a token of the packet held once,
without one it is error 5 (R304, R307); RECORD posts a window or a processor record (R305); END stops the
processor until the job ends. DSP_BUDGET_OVERRUN voids the token of a packet that has passed BOUND, once,
with record 0x34 (R290).
Completes: dspLd, dspSt, setp, sets, setrb, setrl, movp, dspNop, rep, repg, jmp, jcc, waitin, waitinWake,
dspToken, dspRecord, dspEnd, dspBudgetOverrun. (R288, R289, R290, R292, R293, R294, R295, R296, R299, R304, R305, R307) -/
def Obligations.ProcessorControl : Prop :=
  (∀ (k : Fin 16) (bad : BitVec 3) (s : State), exec (.dspLd k bad) s = .next (s.dspIssue k bad 1 0 fun s d w =>
    let p := lPtr w
    let r := s.dspRead k p (d.ptr p).val (if p < 4 then bad.getLsbD 1 else bad.getLsbD 2)
    let e := ((d.count {} 1).setG (lG w) r.2).updPtr p fun q => q.modify (lMod w)
    let f := if bitOf w 18 = true then e.detect r.2 else e
    r.1.updDsp k fun _ => { f with busy := { reg := some (lG w), blk := bitOf w 18 } }.complete))
  ∧ (∀ (k : Fin 16) (bad : BitVec 3) (s : State), exec (.dspSt k bad) s = .next (s.dspIssue k bad 1 1 fun s d w =>
      let p := lPtr w
      (s.store ((if p < 4 then xBase k else yBase k) + (d.ptr p).val.toNat * 4) (leBytes 4 (d.greg (lG w)).toNat)).updDsp k
        fun _ => ((d.count { regs := [lG w] } 1).updPtr p fun q => q.modify (lMod w)).complete))
  ∧ (∀ (k : Fin 16) (bad : BitVec 3) (s : State),
      exec (.setp k bad) s = .next (s.dspSimple k bad 1 2 1 (fun _ => {}) fun d w => d.updPtr (lPtr w) fun p => { p with val := lImm w })
      ∧ exec (.sets k bad) s = .next (s.dspSimple k bad 1 3 1 (fun _ => {}) fun d w =>
        d.updPtr (lPtr w) fun p => { p with step := lImm w })
      ∧ exec (.setrb k bad) s = .next (s.dspSimple k bad 1 4 1 (fun _ => {}) fun d w =>
        d.updPtr (lPtr w) fun p => { p with base := lImm w })
      ∧ exec (.setrl k bad) s = .next (s.dspSimple k bad 1 5 1 (fun _ => {}) fun d w =>
        let e := d.updPtr (lPtr w) fun p => { p with pend := some (lImm w) }
        if d.act = [] then e.applyRings else e)
      ∧ exec (.movp k bad) s = .next (s.dspSimple k bad 1 6 1 (fun w => { regs := [lG w] }) fun d w =>
        d.updPtr (lPtr w) fun p => { p with val := (d.greg (lG w)).setWidth 14 })
      ∧ exec (.dspNop k bad) s = .next (s.dspSimple k bad 0 0 1 (fun _ => {}) fun d _ => d))
  ∧ (∀ (k : Fin 16) (bad : BitVec 3) (s : State),
      exec (.rep k bad) s = .next (s.dspIssue k bad 0 1 fun s d w => s.dspRepeat k (d.count {} 2) w (bitsOf w 11 0))
      ∧ exec (.repg k bad) s = .next (s.dspIssue k bad 0 2 fun s d w =>
        s.dspRepeat k (d.count { regs := [bitsOf w 2 0] } 2) w (bitsOf (d.greg (bitsOf w 2 0)).toNat 15 0))
      ∧ exec (.jmp k bad) s = .next (s.dspIssue k bad 0 3 fun s d w => s.updDsp k fun _ => (d.count {} 2).jump (bitsOf w 23 12))
      ∧ exec (.jcc k bad) s = .next (s.dspIssue k bad 0 4 fun s d w =>
        if d.cond (bitsOf w 3 0) = true then
          s.updDsp k fun _ => (d.count { z := decide (bitsOf w 3 0 < 2) } 2).jump (bitsOf w 23 12)
        else s.updDsp k fun _ => (d.count { z := decide (bitsOf w 3 0 < 2) } 1).complete))
  ∧ (∀ (s : State) (k w n : Nat) (d : Dsp), ((d.act.filter (· ≠ bitsOf w 25 24)).any fun m => decide ((d.rep m).stop < bitsOf w 23 12)) = true →
      s.dspRepeat k d w n = (s.dspError k 4).stopDsp k)
  ∧ (∀ (s : State) (k w : Nat) (d : Dsp), ((d.act.filter (· ≠ bitsOf w 25 24)).any fun m => decide ((d.rep m).stop < bitsOf w 23 12)) = false →
      s.dspRepeat k d w 0 = s.updDsp k fun _ => d.jump (bitsOf w 23 12 + 1))
  ∧ (∀ (s : State) (k w n : Nat) (d : Dsp), d.act = [] → n ≠ 0 → s.dspRepeat k d w n = s.updDsp k fun _ => { d with
      reps := d.reps.set! (bitsOf w 25 24) { cnt := n, start := d.pc.toNat + 1, stop := bitsOf w 23 12 }
      act := [bitsOf w 25 24]
      pc := d.pc + 1 })
  ∧ (∀ (s : State) (k w n : Nat) (d : Dsp), n ≠ 0 →
      ((d.act.filter (· ≠ bitsOf w 25 24)).any fun m => decide ((d.rep m).stop < bitsOf w 23 12)) = false →
      (d.act.any fun m => (d.rep m).stop == d.pc.toNat) = true → s.dspRepeat k d w n = s.updDsp k fun _ => { d.applyRings with
      reps := d.reps.set! (bitsOf w 25 24) { cnt := n, start := d.pc.toNat + 1, stop := bitsOf w 23 12 }
      act := bitsOf w 25 24 :: d.act.filter (· ≠ bitsOf w 25 24)
      pc := d.pc + 1 })
  ∧ (∀ (k : Fin 16) (bad : BitVec 3) (s : State), exec (.waitin k bad) s = .next (s.dspIssue k bad 0 5 fun s d _ =>
      ((match d.cur with
        | some p => s.voidPacket p
        | none => s).updDsp k fun d => { d with cur := none, busy := {} }).takePacket k))
  ∧ (∀ (k : Fin 16) (s : State), exec (.waitinWake k) s = .next
      (if (s.dsp k).st = .wait ∧ (s.dsp k).queue ≠ [] then s.takePacket k else s))
  ∧ (∀ (s : State) (k : Nat), (s.dsp k).queue = [] →
      s.takePacket k = s.updDsp k fun d => { d with st := .wait, cur := none, hs := 0, ovf := false })
  ∧ (∀ (k : Fin 16) (bad : BitVec 3) (s : State), exec (.dspToken k bad) s = .next (s.dspIssue k bad 0 6 fun s d w =>
      let up := (d.count (tokenUse w) 1).complete
      match d.cur with
      | none => (s.dspError k 5).updDsp k fun _ => up
      | some p =>
        if p.voided = true then s.updDsp k fun _ => up
        else
          let v := (d.greg (bitsOf w 2 0)).toNat
          let tgt := if bitOf w 3 = true then bitsOf (d.greg (bitsOf w 6 4)).toNat 11 0 else p.tgt
          (s.makeToken p.syn false tgt (tokenPayload p.toneId (bitsOf v 1 0) (bitsOf v 6 2) p.ns) p.last).updDsp k
            fun _ => { up with cur := some { p with sent := true } }))
  ∧ (∀ (k : Fin 16) (bad : BitVec 3) (s : State), bad.getLsbD 0 = false → (s.dsp k).st = .run →
      dspClass (s.dspWord k (s.dsp k).pc.toNat) = 0 → dspOp (s.dspWord k (s.dsp k).pc.toNat) = 7 →
      ∃ t : State, exec (.dspRecord k bad) s = .next t
        ∧ t.dsp k = ((s.dsp k).count { regs := [bitsOf (s.dspWord k (s.dsp k).pc.toNat) 6 4, bitsOf (s.dspWord k (s.dsp k).pc.toNat) 10 8] } 1).complete
        ∧ (s.sys.boot = false → ∃ h : Held, t.recs.held = s.recs.held ++ [h] ∧ h.ring = .result ∧ h.src = 576 + k.val
            ∧ h.ctx = s.jobCtx ∧ h.kind = (if bitOf (s.dspWord k (s.dsp k).pc.toNat) 0 = true then 0x12 else 0x10))
        ∧ t.ram = s.ram ∧ t.planes = s.planes ∧ t.sq = s.sq)
  ∧ (∀ (k : Fin 16) (bad : BitVec 3) (s : State), exec (.dspEnd k bad) s = .next
      (s.dspIssue k bad 0 8 fun s d _ => (s.updDsp k fun _ => d.count {} 1).stopDsp k))
  ∧ (∀ (s : State) (k : Nat), ((s.stopDsp k).dsp k).st = .stopped ∧ ((s.stopDsp k).dsp k).cur = none
      ∧ ((s.stopDsp k).dsp k).queue = [] ∧ ((s.stopDsp k).dsp k).pc = (s.dsp k).pc)
  ∧ (∀ (s : State) (k cls op n : Nat) (bad : BitVec 3) (use : Nat → DspUse) (f : Dsp → Nat → Dsp),
      s.dspSimple k bad cls op n use f = s.dspIssue k bad cls op fun s d w => s.updDsp k fun _ => (f (d.count (use w) n) w).complete)
  ∧ (∀ (s : State) (k cls op : Nat) (bad : BitVec 3) (act : State → Dsp → Nat → State), s.dspIssue k bad cls op act =
      (if (s.dsp k).st ≠ .run then s
       else if bad.getLsbD 0 = true then ((s.eccError 2 k 0 (s.dsp k).pc.toNat true).dspError k 1).stopDsp k
       else if dspClass (s.dspWord k (s.dsp k).pc.toNat) = cls ∧ dspOp (s.dspWord k (s.dsp k).pc.toNat) = op then
         act s (s.dsp k) (s.dspWord k (s.dsp k).pc.toNat)
       else s))
  ∧ (∀ (k : Fin 16) (s : State), ((s.dsp k).cur = none ∨ (s.dsp k).ovf = true
        ∨ (s.dsp k).hs ≤ s.rd Reg.DSP_BOUND.BOUND [k / 4, k % 4]) → exec (.dspBudgetOverrun k) s = .next s)
  ∧ (∀ (k : Fin 16) (s : State) (p : Packet), (s.dsp k).cur = some p → (s.dsp k).ovf = false →
      s.rd Reg.DSP_BOUND.BOUND [k / 4, k % 4] < (s.dsp k).hs → ∃ t : State, exec (.dspBudgetOverrun k) s = .next t
        ∧ t.dsp k = { s.dsp k with
            ovf := true
            cur := some (if p.tok = true ∧ p.sent = false then { p with sent := true, voided := true } else p) }
        ∧ t.ram = s.ram ∧ (∀ n : Nat, n ≠ k.val → t.dsp n = s.dsp n))
  ∧ (∀ (k : Fin 16) (bad : BitVec 3) (s : State), s.dspIssues k bad 1 0 → bad.getLsbD 1 = false → bad.getLsbD 2 = false →
      ∃ t : State, exec (.dspLd k bad) s = .next t
        ∧ (t.dsp k).g = (s.dsp k).g.set! (lG (s.dspNow k)) (BitVec.ofNat 32 (s.load
            ((if lPtr (s.dspNow k) < 4 then xBase k else yBase k) + ((s.dsp k).ptr (lPtr (s.dspNow k))).val.toNat * 4) 4))
        ∧ ((s.dsp k).act = [] → (t.dsp k).p = ((s.dsp k).updPtr (lPtr (s.dspNow k)) fun q => q.modify (lMod (s.dspNow k))).p
            ∧ (t.dsp k).pc = (s.dsp k).pc + 1)
        ∧ (t.dsp k).u = (s.dsp k).u ∧ (t.dsp k).a0 = (s.dsp k).a0 ∧ (t.dsp k).a1 = (s.dsp k).a1 ∧ t.ram = s.ram
        ∧ ∀ m : Nat, m ≠ k.val → t.dsp m = s.dsp m)
  ∧ (∀ (k : Fin 16) (bad : BitVec 3) (s : State), s.dspIssues k bad 1 1 → ∃ t : State, exec (.dspSt k bad) s = .next t
        ∧ t.ram = (s.store ((if lPtr (s.dspNow k) < 4 then xBase k else yBase k) + ((s.dsp k).ptr (lPtr (s.dspNow k))).val.toNat * 4)
            (leBytes 4 ((s.dsp k).greg (lG (s.dspNow k))).toNat)).ram
        ∧ ((s.dsp k).act = [] → (t.dsp k).p = ((s.dsp k).updPtr (lPtr (s.dspNow k)) fun q => q.modify (lMod (s.dspNow k))).p
            ∧ (t.dsp k).pc = (s.dsp k).pc + 1)
        ∧ (t.dsp k).g = (s.dsp k).g ∧ (t.dsp k).u = (s.dsp k).u ∧ (t.dsp k).a0 = (s.dsp k).a0 ∧ (t.dsp k).a1 = (s.dsp k).a1
        ∧ ∀ m : Nat, m ≠ k.val → t.dsp m = s.dsp m)
  ∧ (∀ (k : Fin 16) (bad : BitVec 3) (s : State), s.dspIssues k bad 1 2 → exec (.setp k bad) s = .next
      (let w := s.dspNow k
       let e := (s.dsp k).count {} 1
       s.updDsp k fun _ => Dsp.complete (e.updPtr (lPtr w) fun p => { p with val := lImm w })))
  ∧ (∀ (k : Fin 16) (bad : BitVec 3) (s : State), s.dspIssues k bad 1 3 → exec (.sets k bad) s = .next
      (let w := s.dspNow k
       let e := (s.dsp k).count {} 1
       s.updDsp k fun _ => Dsp.complete (e.updPtr (lPtr w) fun p => { p with step := lImm w })))
  ∧ (∀ (k : Fin 16) (bad : BitVec 3) (s : State), s.dspIssues k bad 1 4 → exec (.setrb k bad) s = .next
      (let w := s.dspNow k
       let e := (s.dsp k).count {} 1
       s.updDsp k fun _ => Dsp.complete (e.updPtr (lPtr w) fun p => { p with base := lImm w })))
  ∧ (∀ (k : Fin 16) (bad : BitVec 3) (s : State), s.dspIssues k bad 1 5 → (s.dsp k).act ≠ [] → exec (.setrl k bad) s = .next
      (let w := s.dspNow k
       let e := (s.dsp k).count {} 1
       s.updDsp k fun _ => Dsp.complete (e.updPtr (lPtr w) fun p => { p with pend := some (lImm w) })))
  ∧ (∀ (k : Fin 16) (bad : BitVec 3) (s : State), s.dspIssues k bad 1 5 → (s.dsp k).act = [] → exec (.setrl k bad) s = .next
      (let w := s.dspNow k
       let e := (s.dsp k).count {} 1
       s.updDsp k fun _ => Dsp.complete (e.updPtr (lPtr w) fun p => { p with pend := some (lImm w) }).applyRings))
  ∧ (∀ (k : Fin 16) (bad : BitVec 3) (s : State), s.dspIssues k bad 1 6 → exec (.movp k bad) s = .next
      (let w := s.dspNow k
       let e := (s.dsp k).count { regs := [lG w] } 1
       s.updDsp k fun _ => Dsp.complete (e.updPtr (lPtr w) fun p => { p with val := (e.greg (lG w)).setWidth 14 })))
  ∧ (∀ (k : Fin 16) (bad : BitVec 3) (s : State), s.dspIssues k bad 0 0 → exec (.dspNop k bad) s = .next
      (let w := s.dspNow k
       let e := (s.dsp k).count {} 1
       s.updDsp k fun _ => Dsp.complete e))
  ∧ (∀ (k : Fin 16) (bad : BitVec 3) (s : State), s.dspIssues k bad 0 1 →
      exec (.rep k bad) s = .next (s.dspRepeat k ((s.dsp k).count {} 2) (s.dspNow k) (bitsOf (s.dspNow k) 11 0)))
  ∧ (∀ (k : Fin 16) (bad : BitVec 3) (s : State), s.dspIssues k bad 0 2 →
      exec (.repg k bad) s = .next (s.dspRepeat k ((s.dsp k).count { regs := [bitsOf (s.dspNow k) 2 0] } 2) (s.dspNow k)
        (bitsOf ((s.dsp k).greg (bitsOf (s.dspNow k) 2 0)).toNat 15 0)))
  ∧ (∀ (k : Fin 16) (bad : BitVec 3) (s : State), s.dspIssues k bad 0 3 → exec (.jmp k bad) s = .next
      (s.updDsp k fun _ => ((s.dsp k).count {} 2).jump (bitsOf (s.dspNow k) 23 12)))
  ∧ (∀ (k : Fin 16) (bad : BitVec 3) (s : State), s.dspIssues k bad 0 4 → (s.dsp k).cond (bitsOf (s.dspNow k) 3 0) = true →
      exec (.jcc k bad) s = .next (s.updDsp k fun _ =>
        ((s.dsp k).count { z := decide (bitsOf (s.dspNow k) 3 0 < 2) } 2).jump (bitsOf (s.dspNow k) 23 12)))
  ∧ (∀ (k : Fin 16) (bad : BitVec 3) (s : State), s.dspIssues k bad 0 4 → (s.dsp k).cond (bitsOf (s.dspNow k) 3 0) = false →
      exec (.jcc k bad) s = .next (s.updDsp k fun _ => ((s.dsp k).count { z := decide (bitsOf (s.dspNow k) 3 0 < 2) } 1).complete))
  ∧ (∀ (d : Dsp) (a : Nat), d.act = [] → (d.jump a).pc = BitVec.ofNat 12 a ∧ (d.jump a).act = [] ∧ (d.jump a).p = d.applyRings.p
      ∧ (d.jump a).g = d.g ∧ (d.jump a).u = d.u)
  ∧ (∀ (d : Dsp), d.act = [] → d.complete = { d with pc := BitVec.ofNat 12 (d.pc.toNat + 1) })
  ∧ (∀ (k : Fin 16) (bad : BitVec 3) (p : Packet) (s : State), s.dspIssues k bad 0 5 → (s.dsp k).cur = some p →
      exec (.waitin k bad) s = .next (((s.voidPacket p).updDsp k fun d => { d with cur := none, busy := {} }).takePacket k))
  ∧ (∀ (k : Fin 16) (bad : BitVec 3) (s : State), s.dspIssues k bad 0 5 → (s.dsp k).cur = none →
      exec (.waitin k bad) s = .next ((s.updDsp k fun d => { d with cur := none, busy := {} }).takePacket k))
  ∧ (∀ (k : Fin 16) (s : State), (s.dsp k).st = .wait → (s.dsp k).queue ≠ [] → exec (.waitinWake k) s = .next (s.takePacket k))
  ∧ (∀ (s : State) (k : Nat) (p : Packet) (ps : List Packet), (s.dsp k).queue = p :: ps →
      s.takePacket k = s.updDsp k fun d => Dsp.complete { d with
        st := .run, cur := some p, queue := ps, took := true, hs := 0, ovf := false
        special := ((((d.special.set! 0 (BitVec.ofNat 32 p.tag)).set! 1 (BitVec.ofNat 32 p.ns)).set! 2 (BitVec.ofNat 32 p.shot)).set! 3
          (BitVec.ofNat 32 p.addr)).set! 4 (BitVec.ofNat 32 p.cnt) })
  ∧ (∀ (k : Fin 16) (bad : BitVec 3) (p : Packet) (s : State), s.dspIssues k bad 0 6 → (s.dsp k).cur = some p → p.voided = false →
      exec (.dspToken k bad) s = .next
        (let w := s.dspNow k
         let v := ((s.dsp k).greg (bitsOf w 2 0)).toNat
         let tgt := if bitOf w 3 = true then bitsOf ((s.dsp k).greg (bitsOf w 6 4)).toNat 11 0 else p.tgt
         (s.makeToken p.syn false tgt (tokenPayload p.toneId (bitsOf v 1 0) (bitsOf v 6 2) p.ns) p.last).updDsp k
           fun _ => { ((s.dsp k).count (tokenUse w) 1).complete with cur := some { p with sent := true } }))
  ∧ (∀ (k : Fin 16) (bad : BitVec 3) (s : State), s.dspIssues k bad 0 8 →
      ∃ t : State, exec (.dspEnd k bad) s = .next t ∧ (t.dsp k).st = .stopped ∧ (t.dsp k).cur = none ∧ (t.dsp k).queue = []
        ∧ (t.dsp k).pc = (s.dsp k).pc ∧ (t.dsp k).g = (s.dsp k).g ∧ t.ram = s.ram)

/-- PLANE_TOKEN takes the oldest token of a TARGET from those on their way to the plane: one with an
uncorrectable error is logged and dropped; an error in the plane's own state quarantines the plane; a plane
in resync buffers it, a working one routes it by MODE: no route is counted, a direct route fires at once,
the others fill a LUT or parity slot (R313, R320 to R324, R340, R352, R703). DECISION_RECEIVE takes the
oldest copy of a plane for a sequencer: a sequence number up to 1,023 behind the highest accepted is a
duplicate, compared with its first copy; any other is accepted, a gap posting record 0x37 (R333 to R335). A
unit's firing increments its firing count by one and leaves the other plane's as it is (R318).
Completes: planeToken, decisionReceive, syndromeToken. (R313, R318, R320, R321, R333, R334, R335, R340, R352, R703) -/
def Obligations.PlanesRouteAndReceive : Prop :=
  (∀ (p : Fin 2) (g : BitVec 12) (bad : Fin 3) (addr : Word) (s : State), takeToken g.toNat s.planes.dp[p].toks = none →
    exec (.planeToken p g bad addr) s = .next s.modeSync)
  ∧ (∀ (p : Fin 2) (g : BitVec 12) (bad : Fin 3) (addr : Word) (s : State) (t : Token) (rest : List Token),
      takeToken g.toNat s.planes.dp[p].toks = some (t, rest) → exec (.planeToken p g bad addr) s = .next
        (let u := s.updPlane p fun x => { x with toks := rest }
         if bad = 1 then u.eccError 9 p.val 0 addr.toNat false
         else if bad = 2 then (u.eccError 4 p.val 0 addr.toNat false).planeQuarantine p 1
         else match u.planes.dp[p].mode with
           | .quarantined => u
           | .resync => u.updPlane p fun x => { x with buffer := x.buffer ++ [t] }
           | .up => u.routeToken p t).modeSync)
  ∧ (∀ (s : State) (p : Fin 2) (t : Token), s.routeToken p t =
      (let g := t.target.toNat
       if s.rd Reg.DP_RT0.MODE [g] = 0 then (if s.counts p = true then s.count Reg.DP_CNT.NOROUTE [] else s)
       else if s.rd Reg.DP_RT0.MODE [g] = 1 then
         s.fireUnit p [0, g] g (s.rd Reg.DP_RT1.OUT_TGT [g]) (s.rd Reg.DP_RT0.DSTSET [g])
           (decisionPayload (2 ^ t.state) t.state t.conf t.tickLo) t.smp t.isVoid
       else s.slotInput p (decide (s.rd Reg.DP_RT0.MODE [g] ≠ 2)) (s.rd Reg.DP_RT0.UNIT [g]) (s.rd Reg.DP_RT0.SLOT [g])
         (s.rd Reg.DP_RT0.VAL [g]) t))
  ∧ (∀ (s : State) (p : Fin 2) (par : Bool) (u j v : Nat) (t : Token),
      4 ≤ (Table.get [] s.planes.dp[p].slots (slotKey par u j)).length → s.slotInput p par u j v t =
        s.planeRecord p 0x41 8 [(0x14, 1, 0), (0x15, 1, if par = true then 2 else 1), (0x16, 1, u), (0x17, 1, j)] s.jobCtx)
  ∧ (∀ (s : State) (p : Fin 2) (unit : List Nat) (fk tgt d payload smp : Nat) (void : Bool), ∃ t : Token,
      t.kind = (if void then 0xB else 3) ∧ t.origin = (p.val == 1) ∧ t.target = BitVec.ofNat 12 tgt ∧ t.smp = smp
      ∧ t.seq = BitVec.ofNat 15 (Table.get 0 s.planes.dp[p].fires fk)
      ∧ t.payload = BitVec.ofNat 32 (if void then payload % 65536 else payload)
      ∧ s.fireUnit p unit fk tgt d payload smp void = ((s.updPlane p fun x => { x with
          fires := Table.set 0 x.fires fk (Table.get 0 s.planes.dp[p].fires fk + 1) }).sendCopies d t).decisionActs p unit d t)
  ∧ (∀ (q : Fin 64) (o bad : Bool) (s : State), takeCopy q o s.planes.copies = none → exec (.decisionReceive q o bad) s = .next s)
  ∧ (∀ (q : Fin 64) (o bad : Bool) (s : State) (t : Token) (rest : List (Nat × Token)), takeCopy q o s.planes.copies = some (t, rest) →
      exec (.decisionReceive q o bad) s = .next
        (let u : State := { s with planes.copies := rest }
         if bad = true then u.eccError 9 0 0 0 false else u.receive q t))
  ∧ (∀ (s : State) (k : Nat) (t : Token),
      ((Table.get 0 (s.seq k).recv t.target.toNat + 32767) % 32768 + 32768 - t.seq.toNat) % 32768 ≤ 1023 →
      s.receive k t = (match (s.seq k).recvCopy.find? fun u => u.target == t.target && u.seq == t.seq with
        | some u => if u.kind = t.kind ∧ u.payload = t.payload then s else s.disagree k u t
        | none => s))
  ∧ (∀ (s : State) (k : Nat) (t : Token), Table.get 0 (s.seq k).recv t.target.toNat = t.seq.toNat →
      s.receive k t = (s.updSeq k fun x => { x with
        recv := Table.set 0 x.recv t.target.toNat ((t.seq.toNat + 1) % 32768)
        recvCopy := (t :: x.recvCopy).take 1024 }).storeToken k t)
  ∧ (∀ (p : Fin 2) (g : BitVec 12) (bad : Fin 3) (addr : Word) (s : State), takeToken g.toNat s.planes.dp[p].syns = none →
      exec (.syndromeToken p g bad addr) s = .next s.modeSync)
  ∧ (∀ (p : Fin 2) (g : BitVec 12) (addr : Word) (s : State) (t : Token) (rest : List Token),
      takeToken g.toNat s.planes.dp[p].syns = some (t, rest) → s.planes.dp[p].mode = .up →
      exec (.syndromeToken p g 0 addr) s = .next
        (if s.flag Reg.DEC_CFG.EN [] = true then (s.updPlane p fun x => { x with syns := rest }).syndrome p t
         else s.updPlane p fun x => { x with syns := rest }).modeSync)
  ∧ (∀ (p : Fin 2) (g : BitVec 12) (addr : Word) (s : State) (t : Token) (rest : List Token),
      takeToken g.toNat s.planes.dp[p].toks = some (t, rest) → s.planes.dp[p].mode = .up →
      exec (.planeToken p g 0 addr) s = .next ((s.updPlane p fun x => { x with toks := rest }).routeToken p t).modeSync)
  ∧ (∀ (q : Fin 64) (o : Bool) (s : State) (t : Token) (rest : List (Nat × Token)), takeCopy q o s.planes.copies = some (t, rest) →
      exec (.decisionReceive q o false) s = .next (State.receive { s with planes.copies := rest } q t))

/-- EMUTE_SW asserts groups and mutes their outputs with cause 3; EMUTE_RELEASE clears groups, the outputs
recovering at idle (R122, R331). INTERLOCK_COMMAND performs the oldest command of the owner once: a key
performed before is dropped (R341 to R343). OWNER_REFRESH notes the time; TAKE grants a released line, or a
failed owner's line, or is refused while the owner refreshes and is declared (R347, R348, R350); HANDOVER
asks and HANDOVER_EXECUTE grants at a job boundary (R349). SELFCHK and SELFCHECK_END check the planes: a
lone failing plane is quarantined, with both failing the standby is and all is suspect (R337 to R340).
At their scheduled ticks pulses and messages clear their path's fault; an interval's end counts misses, 4 on path 1 or 2 on path 2
being a fault (R344 to R346). The plane link goes and comes (R351). DP_REPAIR asks, PLANE_REPAIR starts at a
boundary, RESYNC_POINT copies the active plane's state (R352, R353).
Completes: emuteSw, emuteRelease, interlockCommand, ownerRefresh, take, handover, handoverExecute, selfchk,
selfcheckEnd, heartbeatPulse, beatMessage, heartbeatIntervalEnd, planeLinkLoss, planeLinkRetrain, dpRepair,
planeRepair, resyncPoint. (R122, R331, R338, R339, R342, R343, R346, R347, R349, R351, R352, R353) -/
def Obligations.InterlockMutesAndRepair : Prop :=
  (∀ (m : BitVec 16) (s : State), exec (.emuteSw m) s = .next (s.gate (s.emuteAssert m.toNat 1)))
  ∧ (∀ (s : State) (m w : Nat), (∀ g : Nat, g < 16 → bitOf m g = true → s.planes.emute.getLsbD g = true) → s.emuteAssert m w = s)
  ∧ (∀ (m : BitVec 16) (s : State), s.sys.ready = true → s.planes.emute &&& m = 0 → exec (.emuteRelease m) s = .next s)
  ∧ (∀ (m : BitVec 16) (s : State), s.sys.ready = true → s.planes.emute &&& m ≠ 0 → exec (.emuteRelease m) s = .next
      (let t := State.emuteRecord (State.emuteOver { s with planes.emute := s.planes.emute &&& ~~~m } (s.planes.emute &&& m).toNat) (s.planes.emute &&& m).toNat 2
       if t.job.phase = .idle then t.emuteRecover else t))
  ∧ (∀ s : State, s.planes.cmds = [] → exec .interlockCommand s = .next s.modeSync)
  ∧ (∀ (s : State) (c : SideCmd) (rest : List SideCmd), s.planes.cmds = c :: rest →
      c.key ∈ s.planes.keys[c.cls]?.getD [] → ∃ t : State, exec .interlockCommand s = .next t.modeSync
        ∧ t.planes.cmds = rest ∧ t.planes.keys = s.planes.keys ∧ t.recs = s.recs ∧ t.ctxs = s.ctxs ∧ t.outs = s.outs ∧ t.sq = s.sq)
  ∧ (∀ (s : State) (c : SideCmd) (rest : List SideCmd), s.planes.cmds = c :: rest → c.replay = false →
      c.key ∉ s.planes.keys[c.cls]?.getD [] → ∃ t : State, exec .interlockCommand s = .next (t.performSide c).modeSync
        ∧ t.planes.cmds = rest ∧ t.planes.keys = s.planes.keys.set! c.cls ((c.key :: s.planes.keys[c.cls]?.getD []).take 4096)
        ∧ t.regs = s.regs ∧ t.recs = s.recs ∧ t.ctxs = s.ctxs ∧ t.outs = s.outs ∧ t.sq = s.sq)
  ∧ (∀ (p : Fin 2) (s : State), exec (.ownerRefresh) s = .next
      (if s.planes.owner = 0 then s else { s with planes.refresh := s.time.now })
      ∧ (s.planes.owner = 0 → s.requests 0 = true → exec (.take p) s = .next (s.grant 0 0))
      ∧ (s.planes.owner = 0 → s.requests 0 = false → s.requests 1 = true → exec (.take p) s = .next (s.grant 1 0))
      ∧ (s.planes.owner ≠ 0 → s.planes.dp[p].take = false → exec (.take p) s = .next s))
  ∧ (∀ (p : Fin 2) (s : State), s.planes.owner ≠ 0 → s.planes.owner ≠ p.val + 1 → s.planes.dp[p].take = true → s.planeUp p = true →
      exec (.take p) s = .next
        (let t := s.updPlane p fun x => { x with take := false }
         if s.time.now ≤ s.planes.refresh + 400 ∧ s.planes.dp[1 - p].beat.declared = true then t.ownerRecord 4 else t.grant p 1))
  ∧ (∀ (s : State) (p : Fin 2) (c : Nat), (s.grant p c).planes.owner = p.val + 1 ∧ (s.grant p c).planes.refresh = s.time.now
      ∧ (s.grant p c).planes.dp[p].pend = [] ∧ (s.grant p c).planes.dp[1 - p] = s.planes.dp[1 - p]
      ∧ (s.grant p c).planes.cmds = s.planes.cmds ++ s.planes.dp[p].pend.map fun x => { x with replay := true })
  ∧ (∀ s : State, exec .handover s = .next
      (s.gate (if s.standbyUp.isSome = true then { s with planes.handover := true } else s)))
  ∧ (∀ s : State, exec .handoverExecute s = .next
      (if s.planes.handover = true ∧ s.jobBoundary = true then
         match s.standbyUp with
         | some p => State.grant { s with planes.handover := false } p 3
         | none => { s with planes.handover := false }
       else s))
  ∧ (∀ s : State, exec .selfchk s = .next (s.gate (if s.planes.selfchk.isSome = true then s else { s with planes.selfchk := some 3 })))
  ∧ (∀ (f0 f1 : BitVec 2) (s : State), s.planes.selfchk = none → exec (.selfcheckEnd 0 f0 f1) s = .next s.modeSync)
  ∧ (∀ (f0 f1 : BitVec 2) (s : State) (c : Nat), s.planes.selfchk = some c → exec (.selfcheckEnd 0 f0 f1) s = .next
      (let a : State := { s with planes.selfchk := none }
       let b := if s.planeUp 0 = true then a.checkRecord 0 (s.checkParts f0.toNat) c else a
       let d := if s.planeUp 1 = true then b.checkRecord 1 (s.checkParts f1.toNat) c else b
       (d.checkOutcome (decide (s.checkParts f0.toNat ≠ 0)) (decide (s.checkParts f1.toNat ≠ 0))).modeSync))
  ∧ (∀ (s : State) (p : Fin 2) (c : Nat), s.planes.dp[p].mode ≠ .quarantined → s.planes.dp[1 - p].mode ≠ .quarantined →
      (s.planeQuarantine p c).planes.dp[p].mode = .quarantined ∧ (s.planeQuarantine p c).planes.dp[1 - p] = s.planes.dp[1 - p]
      ∧ (s.planeQuarantine p c).planes.dp[p].toks = []
      ∧ (s.planeQuarantine p c).planes.owner = (if s.planes.owner = p.val + 1 then 0 else s.planes.owner))
  ∧ (∀ (q : Fin 2) (s : State), s.onBeat q false = false → exec (.heartbeatPulse q) s = .next s)
  ∧ (∀ (q : Fin 2) (s : State), s.onBeat q false = true → (s.intervalEnd (1 - q) false).planes.dp[1 - q].beat.fault1 = false →
      (s.intervalEnd (1 - q) false).planes.dp[1 - q].beat.declared = false →
      exec (.heartbeatPulse q) s = .next ((s.intervalEnd (1 - q) false).updBeat (1 - q) fun b => { b with got1 := true, back1 := false }))
  ∧ (∀ (q : Fin 2) (s : State), s.onBeat q true = false → exec (.beatMessage q) s = .next s)
  ∧ (∀ (q : Fin 2) (s : State), s.onBeat q true = true → (s.intervalEnd (1 - q) true).planes.dp[1 - q].beat.fault2 = false →
      (s.intervalEnd (1 - q) true).planes.dp[1 - q].beat.declared = false →
      (s.intervalEnd (1 - q) true).planes.dp[1 - q].beat.miss1 < 4 →
      ∃ t : State, exec (.beatMessage q) s = .next t
        ∧ t.planes.dp[q].beats = (s.intervalEnd (1 - q) true).planes.dp[q].beats + 1
        ∧ t.planes.dp[1 - q].beat = { (s.intervalEnd (1 - q) true).planes.dp[1 - q].beat with
            got2 := true, back2 := false, cnt := (s.intervalEnd (1 - q) true).planes.dp[q].beats + 1, peerState := t.planeState q }
        ∧ t.recs = (s.intervalEnd (1 - q) true).recs ∧ t.regs = (s.intervalEnd (1 - q) true).regs)
  ∧ (∀ (p : Fin 2) (path : Bool) (s : State), s.onBeat (1 - p) path = false → exec (.heartbeatIntervalEnd p path) s = .next s)
  ∧ (∀ (p : Fin 2) (s : State), s.onBeat (1 - p) false = true → s.planes.dp[p].beat.from1 = 0 →
      exec (.heartbeatIntervalEnd p false) s = .next (s.updBeat p fun b => { b with from1 := s.time.now + 1 }))
  ∧ (∀ (p : Fin 2) (s : State), s.onBeat (1 - p) false = true → s.planes.dp[p].beat.from1 ≠ 0 →
      s.planes.dp[p].beat.from1 ≠ s.time.now + 1 → s.planes.dp[p].beat.miss1 < 3 → exec (.heartbeatIntervalEnd p false) s = .next
      (s.updBeat p fun b => { b with from1 := s.time.now + 1, miss1 := if b.got1 = true then 0 else b.miss1 + 1, got1 := false }))
  ∧ (∀ (p : Fin 2) (s : State), s.onBeat (1 - p) true = true → s.planes.dp[p].beat.from2 ≠ 0 →
      s.planes.dp[p].beat.from2 ≠ s.time.now + 1 → s.planes.dp[p].beat.miss2 < 1 → exec (.heartbeatIntervalEnd p true) s = .next
      (s.updBeat p fun b => { b with from2 := s.time.now + 1, miss2 := if b.got2 = true then 0 else b.miss2 + 1, got2 := false }))
  ∧ (∀ (p : Fin 2) (s : State), s.onBeat (1 - p) true = true → s.planes.dp[p].beat.from2 ≠ 0 →
      s.planes.dp[p].beat.from2 ≠ s.time.now + 1 → s.planes.dp[p].beat.got2 = false → s.planes.dp[p].beat.miss2 = 1 →
      4 ≤ s.planes.dp[p].beat.miss1 → exec (.heartbeatIntervalEnd p true) s = .next
      (State.declare (s.updBeat p fun b => { b with from2 := s.time.now + 1, miss2 := 2, got2 := false }) p))
  ∧ (∀ s : State, exec .planeLinkLoss s = .next (if s.planes.link = true then s.setPlaneLink false else s)
      ∧ (s.planes.link = true → exec .planeLinkRetrain s = .next s.modeSync)
      ∧ (s.planes.link = false → s.retrainDue = false → exec .planeLinkRetrain s = .next s.modeSync)
      ∧ (s.planes.link = false → s.retrainDue = true → s.planes.dp[0].repair ≠ .checked → s.planes.dp[1].repair ≠ .checked →
          exec .planeLinkRetrain s = .next (s.setPlaneLink true).modeSync))
  ∧ (∀ s : State, exec .dpRepair s = .next (s.gate { s with
      planes.dp := s.planes.dp.map fun x => if x.mode = .quarantined then { x with repairReq := true } else x }))
  ∧ (∀ (p : Fin 2) (s : State), exec (.planeRepair p) s = .next
      (if s.planes.dp[p].mode = .quarantined ∧ s.planes.dp[p].repair = .none ∧ s.jobBoundary = true
          ∧ (s.flag Reg.DP_CTL.AUTO_REPAIR [] = true ∨ s.planes.dp[p].repairReq = true) then
         s.updPlane p fun x => { x with repair := .started, repairReq := false }
       else s))
  ∧ (∀ (p : Fin 2) (s : State), (s.planes.dp[p].mode ≠ .resync ∨ s.resyncHere p = false ∨ s.planes.link = false
        ∨ s.planes.dp[1 - p].mode ≠ .up) →
      exec (.resyncPoint p) s = .next s.modeSync)
  ∧ (∀ (p : Fin 2) (s : State), s.planes.dp[p].mode = .resync → s.planes.dp[p].repair = .copying → s.planes.dp[1 - p].mode = .up →
      s.resyncHere p = true →
      s.planes.link = true → s.planes.dp[p].buffer.length ≤ 16384 → ∃ t : State, exec (.resyncPoint p) s = .next (t.planeStateRecord p 3).modeSync
        ∧ t.planes.dp[p] = { s.planes.dp[p] with
            mode := .up
            repair := .none
            buffer := []
            toks := s.planes.dp[1 - p].toks
            syns := s.planes.dp[1 - p].syns
            slots := s.planes.dp[1 - p].slots
            fires := s.planes.dp[1 - p].fires }
        ∧ t.planes.dp[1 - p] = s.planes.dp[1 - p] ∧ t.dec.dyn[p] = s.dec.dyn[1 - p] ∧ t.regs = s.regs ∧ t.ram = s.ram)
  ∧ (∀ (m : BitVec 16) (s : State), s.sys.ready = true → ∃ t : State, exec (.emuteSw m) s = .next t
      ∧ t.planes.emute = s.planes.emute ||| m
      ∧ ∀ g k : Nat, g < 16 → m.getLsbD g = true → s.planes.emute.getLsbD g = false → k ∈ s.emuteOutputs g → g ∈ (t.chan k).groups)
  ∧ (∀ s : State, s.planes.owner ≠ 0 → exec .ownerRefresh s = .next { s with planes.refresh := s.time.now })
  ∧ (∀ s : State, s.sys.ready = true → s.standbyUp.isSome = true → exec .handover s = .next { s with planes.handover := true })
  ∧ (∀ (p : Fin 2) (s : State), s.planes.handover = true → s.jobBoundary = true → s.standbyUp = some p →
      exec .handoverExecute s = .next (State.grant { s with planes.handover := false } p 3))
  ∧ (∀ s : State, s.sys.ready = true → s.planes.selfchk = none → exec .selfchk s = .next { s with planes.selfchk := some 3 })
  ∧ (∀ s : State, s.planes.link = true → exec .planeLinkLoss s = .next
      ({ s with planes.link := false, planes.lostAt := some s.time.now }.postCoarse s.home 595 0x3E 0 [(0x14, 1, 0)]))
  ∧ (∀ (s : State), s.sys.ready = true → exec .dpRepair s = .next { s with
      planes.dp := s.planes.dp.map fun x => if x.mode = .quarantined then { x with repairReq := true } else x })
  ∧ (∀ (p : Fin 2) (s : State), s.planes.dp[p].mode = .quarantined → s.planes.dp[p].repair = .none → s.jobBoundary = true →
      (s.flag Reg.DP_CTL.AUTO_REPAIR [] = true ∨ s.planes.dp[p].repairReq = true) →
      exec (.planeRepair p) s = .next (s.updPlane p fun x => { x with repair := .started, repairReq := false }))
  ∧ (∀ (f0 f1 : BitVec 2) (s : State), s.planes.dp[0].repair = .started → s.planes.link = true → f0 = 0 →
      exec (.selfcheckEnd 1 f0 f1) s = .next (((s.checkRecord 0 0 1).updPlane 0 fun x => { x with
        mode := .resync, repair := .copying, buffer := [] }).planeStateRecord 0 2).modeSync)

/-- ROUND_CLOSE closes the lowest open round of a running decoder once every LOCAL node has its token or
ROUND_WAIT has passed since the round's first; a missing or void bit repeats the previous round's; the
boundary frames go out (R365, R367, R368, R372). REMOTE_WAIT_EXPIRY marks a peer's missing frame of the
oldest round past REMOTE_WAIT, with record 0x44 (R373). DECODE decodes the next closed round whose remote
nodes are known or missed, one output at a time (R369 to R371). DECODE_OUTPUT sends the output as a
correction token with the next sequence number, with its records and actions (R376, R378). With no decoder
running, no round due or no output nothing happens. Every tile that holds more than 2,048 events of a
decode's window has its record 0x43 (R370).
Completes: roundClose, remoteWaitExpiry, decode, decodeOutput. (R365, R367, R368, R369, R370, R371, R372, R373, R376, R378) -/
def Obligations.DecoderRounds : Prop :=
  (∀ (p : Fin 2) (s : State), s.decoding p = none → exec (.roundClose p) s = .next s ∧ exec (.decode p) s = .next s
    ∧ (∀ peer : Fin 8, exec (.remoteWaitExpiry p peer) s = .next s))
  ∧ (∀ (p : Fin 2) (s : State) (g : DecGraph), s.decoding p = some g → exec (.roundClose p) s = .next
      (let r := (s.dyn p).closed
       if g.rounds ≤ r ∨ s.mayClose p g r = false then s
       else
         let t := s.updDyn p fun x => g.locals.foldl (fun x e => x.closeNode r e) { x with
           closed := r + 1
           closedAt := Table.set 0 x.closedAt r (s.time.now + 1) }
         (List.range g.peers.length).foldl (fun s i => s.sendBoundary p g r i) (t.erasureRecord p g r)))
  ∧ (∀ (x : DecDyn) (r n : Nat) (bit : Bool) (code : Nat), (x.setBit r n bit code).synd =
        Table.set false x.synd (nodeKey r n) (if code = 0 then bit else x.prev r n)
      ∧ (x.setBit r n bit code).det =
        Table.set false x.det (nodeKey r n) ((if code = 0 then bit else x.prev r n) != x.prev r n)
      ∧ x.prev 0 n = false)
  ∧ (∀ (p : Fin 2) (peer : Fin 8) (s : State) (g : DecGraph) (r : Nat), s.decoding p = some g → peer.val < g.peers.length →
      r < (s.dyn p).closed → (s.dyn p).decoded = r → s.peerFrame p peer r = none → (s.dyn p).isMissed peer r = false →
      Table.get 0 (s.dyn p).closedAt r + s.rd Reg.DEC_WAIT.REMOTE_WAIT [] ≤ s.time.now + 1 →
      ∃ t : State, exec (.remoteWaitExpiry p peer) s = .next t ∧ (t.dyn p).isMissed peer r = true
        ∧ (t.dyn p).closed = (s.dyn p).closed ∧ t.dyn (1 - p) = s.dyn (1 - p) ∧ t.ram = s.ram)
  ∧ (∀ (p : Fin 2) (s : State) (g : DecGraph), s.decoding p = some g → ((s.dyn p).closed ≤ (s.dyn p).decoded
        ∨ (s.dyn p).out.isSome = true ∨ ∃ i : Nat, i < g.peers.length ∧ g.remotes i ≠ []
          ∧ s.peerFrame p i (s.dyn p).decoded = none ∧ (s.dyn p).isMissed i (s.dyn p).decoded = false) →
      exec (.decode p) s = .next s)
  ∧ (∀ (p : Fin 2) (s : State) (g : DecGraph), s.decoding p = some g → (s.dyn p).decoded < (s.dyn p).closed →
      (s.dyn p).out = none → g.peers = [] → exec (.decode p) s = .next (s.decodeRound p g (s.dyn p).decoded))
  ∧ (∀ (s : State) (p : Fin 2) (g : DecGraph) (r : Nat), ((s.decodeRound p g r).dyn p).decoded = r + 1
      ∧ (s.decodeRound p g r).dyn (1 - p) = s.dyn (1 - p) ∧ (s.decodeRound p g r).ram = s.ram)
  ∧ (∀ (p : Fin 2) (s : State), (s.dyn p).out = none → exec (.decodeOutput p) s = .next s)
  ∧ (∀ (p : Fin 2) (s : State) (o : DecOut), (s.dyn p).out = some o → s.planeUp p = true →
      exec (.decodeOutput p) s = .next
        (let a := s.updDyn p fun x => { x with out := none }
         let b : State := { a with dec.outs := a.dec.outs.set p (s.dec.outs[p] + 1) }
         let t : Token := { kind := if o.void = true then 0xC else 4, origin := p.val == 1, seq := BitVec.ofNat 15 s.dec.outs[p], target := BitVec.ofNat 12 (s.rd Reg.DEC_OUT.OUT_TGT []), payload := o.payload, smp := o.smp }
         ((b.outRecords p o).sendCopies (s.rd Reg.DEC_OUT.DSTSET []) t).decisionActs p [3, 0] (s.rd Reg.DEC_OUT.DSTSET []) t))
  ∧ (∀ (g : DecGraph) (c r : Nat), commitRounds g c r = (if r + 1 = g.rounds then some (c, r)
      else if g.window ≤ r + 1 then some (r + 1 - g.window, r + 1 - g.window) else none))
  ∧ (∀ (p : Fin 2) (s : State) (g : DecGraph), s.decoding p = some g → (s.dyn p).closed < g.rounds →
      s.mayClose p g (s.dyn p).closed = true → ∃ t : State, exec (.roundClose p) s = .next t
        ∧ (t.dyn p).closed = (s.dyn p).closed + 1
        ∧ Table.get 0 (t.dyn p).closedAt (s.dyn p).closed = s.time.now + 1
        ∧ t.dyn (1 - p) = s.dyn (1 - p) ∧ t.dec.outs = s.dec.outs ∧ t.ram = s.ram)
  ∧ (∀ (p : Fin 2) (s : State) (g : DecGraph), s.decoding p = some g → (s.dyn p).decoded < (s.dyn p).closed →
      (s.dyn p).out = none → (∀ i : Nat, i < g.peers.length → g.remotes i = []
        ∨ (s.peerFrame p i (s.dyn p).decoded).isSome = true ∨ (s.dyn p).isMissed i (s.dyn p).decoded = true) →
      exec (.decode p) s = .next (State.decodeRound (s.updDyn p fun x => (List.range g.peers.length).foldl (fun x i =>
        (g.remotes i).foldl (fun x e => x.remoteNode (s.dyn p).decoded (s.peerFrame p i (s.dyn p).decoded) e) x) x) p g (s.dyn p).decoded))
  ∧ (∀ (s : State) (p : Fin 2) (g : DecGraph) (r t : Nat), t < 16 → s.planes.dp[p].mode = .up → s.planes.owner = p.val + 1 →
      2048 < s.tileEvents g (((s.dyn p).det.filter fun e =>
        decide (nodeKey (r + 1 - min (r + 1) g.window) 0 ≤ e.1 ∧ e.1 < nodeKey (r + 1) 0)).map (·.1)) t →
      ∃ c : SideCmd, c ∈ (s.decodeRound p g r).planes.cmds ∧ c.cls = 3 ∧ c.key = [0x43, s.shotIdx, r, t])

/-- PLACE: a descriptor that may start begins a build, with s of this moment, and reads its image (R382, R388,
R392); with the image come, a wrong length, a bad place or code, else the build takes it and asks for the
routes and summaries it lacks (R388, R400, R535). PROBE_WAIT_EXPIRY keeps the routes found and sends the
summaries held back (R399, R535). PEER_WAIT_EXPIRY gives an awaited peer up once
PEER_WAIT has passed (R400; counted from the build's start, log 35: the model's reading). BUILD_DONE ends a build
whose image is there and that waits for nothing: with no refusal the last becomes the new one with the next
version, else it keeps its content; either way it carries the new report (R383, R385, R407). SLOWNESS_SAMPLE,
1 ms after the sample before it, takes the monitors' counts, sets s to the largest of the ratios REF/count and makes
lasts built for less stale (R391, R392, R403; the rounding of a ratio, the value for a count of 0 and the saturation at
16 bits are the model's choices, log 63). REPROOF starts an asked re-proof; REPROOF_DONE
records its outcome and answers the throttle (R404, R665).
Completes: place, probeWaitExpiry, peerWaitExpiry, buildDone, slownessSample, reproof, reproofDone. (R382, R383, R385, R388, R391, R399, R400, R403, R404, R407, R535, R665) -/
def Obligations.BuildsRefuseOrMakeALast : Prop :=
  (∀ (c : Fin 1024) (i : BitVec 16) (n : SpeedCounts) (s : State), s.desc c i.toNat = none → exec (.place c i n) s = .next s.modeSync)
  ∧ (∀ (c : Fin 1024) (i : BitVec 16) (n : SpeedCounts) (s : State) (d : Desc), s.desc c i.toNat = some d → (d.op ≠ 4 ∨ d.phase ≠ .loaded) →
      exec (.place c i n) s = .next (s.startDesc c i.toNat 4 fun t d =>
        if t.place.build.isSome = true then t
        else State.readData { t with
          place.counts := n
          place.slow := slownessOf n
          place.build := some { ctx := c, index := d.index, startAt := t.time.now, slow := slownessOf n, plc := t.word .PLC_CFG [], on := t.enabledPorts } } c d).modeSync)
  ∧ (∀ (c : Fin 1024) (i : BitVec 16) (n : SpeedCounts) (s : State) (d : Desc), s.desc c i.toNat = some d → d.op = 4 → d.phase = .loaded →
      exec (.place c i n) s = .next (State.modeSync
        (match s.place.build with
         | some b => if s.cobblerUp = true ∧ b.ctx = c.val ∧ b.index = i.toNat ∧ b.image = [] then s.takeImage c d b else s
         | none => s)))
  ∧ (∀ (s : State) (c : Nat) (d : Desc) (b : Build), d.at_ 0x10 4 ≠ placeLen d.payload →
      s.takeImage c d b = { s.refuseDesc c d 6 0 0x10 with place.build := none })
  ∧ (∀ (s : State) (c off : Nat) (d : Desc) (b : Build), d.at_ 0x10 4 = placeLen d.payload →
      imageFault s.deviceId d.payload = some off → s.takeImage c d b = { s.refuseDesc c d 3 3 off with place.build := none })
  ∧ (∀ s : State, (s.place.build = none ∨ ∃ b : Build, s.place.build = some b ∧ b.probes = []) →
      exec .probeWaitExpiry s = .next s)
  ∧ (∀ (s : State) (b : Build), s.place.build = some b → b.probes ≠ [] → ∃ t : State, exec .probeWaitExpiry s = .next t
      ∧ t.place.build = some { b with probes := [] } ∧ t.ram = s.ram ∧ t.ctxs = s.ctxs ∧ t.place.lasts = s.place.lasts)
  ∧ (∀ (p : BitVec 18) (s : State), exec (.peerWaitExpiry p) s = .next
      (match s.place.build with
       | none => s
       | some b =>
         if b.image ≠ [] ∧ s.peerWaitOver b = true ∧ p.toNat ∈ s.awaited b then { s with place.build := some { b with peerFail := p.toNat :: b.peerFail } } else s))
  ∧ (∀ (r : List RemoteDecision) (s : State), s.place.build = none → exec (.buildDone r) s = .next s.modeSync)
  ∧ (∀ (r : List RemoteDecision) (s : State) (b : Build), s.place.build = some b → (b.image = [] ∨ b.probes ≠ [] ∨ s.awaited b ≠ [] ∨ s.pwr.cut = true) →
      exec (.buildDone r) s = .next s.modeSync)
  ∧ (∀ (r : List RemoteDecision) (s : State) (b : Build), s.place.build = some b → b.image ≠ [] → b.probes = [] → s.awaited b = [] → s.pwr.cut = false →
      ∃ t : State, exec (.buildDone r) s = .next t.modeSync
        ∧ (∃ u : State, u = s.endBuild b (s.found b r) (if s.incremental b (placeInput b.image) = true then 1 else 0)
          ∧ t.place.lasts = u.place.lasts ∧ t.ctxs = u.ctxs ∧ t.recs = u.recs ∧ t.regs = u.regs)
        ∧ t.place.build = none ∧ t.ram = s.ram)
  ∧ (∀ (s : State) (b : Build) (x : Found) (kind : Nat), x.refusals ≠ [] → (placeInput b.image).lastId < 16 →
      (s.endBuild b x kind).last (placeInput b.image).lastId = { s.last (placeInput b.image).lastId with
        report := x.report (placeInput b.image).lastId kind b.slow ((s.time.now - b.startAt) / 1000) (64 + 16 * x.entries.length) s.coarseStamp })
  ∧ (∀ (s : State) (b : Build) (x : Found) (kind : Nat), x.refusals = [] → (placeInput b.image).lastId < 16 →
      (s.endBuild b x kind).last (placeInput b.image).lastId = { x.last with
        version := (s.last (placeInput b.image).lastId).version + 1
        report := x.report (placeInput b.image).lastId kind b.slow ((s.time.now - b.startAt) / 1000) (64 + 16 * x.entries.length) s.coarseStamp })
  ∧ (∀ (n : SpeedCounts) (s : State), s.time.now < s.place.sampledAt + 1000000 → exec (.slownessSample n) s = .next s)
  ∧ (∀ (n : SpeedCounts) (s : State), s.place.sampledAt + 1000000 ≤ s.time.now → exec (.slownessSample n) s = .next
      (State.staleWhere { s with place.counts := n, place.slow := slownessOf n, place.sampledAt := s.time.now } 3
        fun m => decide (max 4096 m.slow < slownessOf n)))
  ∧ (∀ (n : SpeedCounts) (i : Fin 32), n[i] ≠ 0 → slownessOf n ≤ 0xFFFF
      ∧ min 0xFFFF ((Config.speedRef i).toNat * 4096 / (n[i] : Word).toNat) ≤ slownessOf n)
  ∧ (∀ s : State, exec .reproof s = .next (if s.place.reproof = some 0 then { s with place.reproof := some 1 } else s))
  ∧ (∀ (v : BitVec 16) (s : State), s.place.reproof ≠ some 1 → exec (.reproofDone v) s = .next s.modeSync)
  ∧ (∀ (v : BitVec 16) (s : State), s.place.reproof = some 1 → exec (.reproofDone v) s = .next
      (((State.postCoarse { s with place.reproof := none } s.place.inEffect.ctx 982 0x4A 0
        [(0x14, 1, if (s.reprove v.toNat).2 = true then 0 else 1), (0x18, 4, v.toNat),
         (0x1C, 4, wrapInt 32 ((s.reprove v.toNat).1 / 16))]).reproofAnswer (s.reprove v.toNat).2).modeSync))
  ∧ (∀ (c : Fin 1024) (i : BitVec 16) (n : SpeedCounts) (s : State) (d : Desc), s.starts c i.toNat 4 d → s.place.build = none →
      exec (.place c i n) s = .next (State.modeSync (State.readData { s with
        place.counts := n
        place.slow := slownessOf n
        place.build := some { ctx := c, index := d.index, startAt := s.time.now, slow := slownessOf n, plc := s.word .PLC_CFG [], on := s.enabledPorts } } c d)))
  ∧ (∀ (c : Fin 1024) (i : BitVec 16) (n : SpeedCounts) (s : State) (d : Desc) (b : Build), s.hasData c i.toNat 4 d → s.place.build = some b →
      b.ctx = c.val → b.index = i.toNat → b.image = [] → exec (.place c i n) s = .next (s.takeImage c d b).modeSync)
  ∧ (∀ (p : BitVec 18) (s : State) (b : Build), s.place.build = some b → b.image ≠ [] →
      b.startAt + bitsOf b.plc.toNat 31 24 * 1000000 ≤ s.time.now → p.toNat ∈ s.awaited b →
      exec (.peerWaitExpiry p) s = .next { s with place.build := some { b with peerFail := p.toNat :: b.peerFail } })
  ∧ (∀ s : State, s.place.reproof = some 0 → exec .reproof s = .next { s with place.reproof := some 1 })

/-- RAMP_DONE: a ramp whose length has passed stands at its target; a range sequence at zero begins its hold;
one at its new code is over (R427, R428). RANGE_SEQUENCE starts a waiting sequence, clamping the rescaled
code to 20 bits with a log entry; RANGE_HOLD_END goes up in the new range after 20 us (R427).
BIAS_WAVE_POINT applies the next point of a running waveform when its period has passed; a point that cannot
be read ends it with cause 7 (R424, R426). BIAS_COMPLIANCE and BIAS_OPEN_LOAD take the configured action
once per condition: report, HELD or SAFE (R430, R431); an open load needs 1/64 of full scale.
HOLD and SAFE mark the shot that runs as invalid (R431). BIAS_COMPLIANCE_CLEAR ends the condition with cause 2;
BIAS_REARM returns an output with no cause left but open load to RUN, and clears open load (R430, R433). FF_CLR presets
the flux chain at once outside a shot with no commit due, else at the next boundary
(R417; that a commit which is due comes first is the model's reading). Other outputs are left as they are.
Completes: rampDone, rangeSequence, rangeHoldEnd, biasWavePoint, biasCompliance, biasComplianceClear,
biasOpenLoad, biasRearm, ffClr. (R417, R423, R424, R426, R427, R428, R430, R431, R433, R434) -/
def Obligations.BiasOutputs : Prop :=
  (∀ (k : Fin 256) (s : State) (t : Int) (from_ : Nat), (s.biasOut k).move = .ramp t from_ → exec (.rampDone k) s = .next
    (if from_ + s.rampLen k (t - (s.biasOut k).code) ≤ s.time.now then s.updBias k fun b => { b with code := t, move := .steady } else s))
  ∧ (∀ (k : Fin 256) (s : State) (from_ r : Nat) (c : Int), (s.biasOut k).move = .toZero from_ r c → exec (.rampDone k) s = .next
      (if from_ + s.rampLen k (s.biasOut k).code ≤ s.time.now then
         s.updBias k fun b => { b with code := 0, move := .hold s.time.now r c } else s))
  ∧ (∀ (k : Fin 256) (s : State) (t : Int) (from_ : Nat), (s.biasOut k).move = .up t from_ → exec (.rampDone k) s = .next
      (if from_ + s.rampLen k (t - (s.biasOut k).code) ≤ s.time.now then s.rangeDone k t else s))
  ∧ (∀ (k : Fin 256) (s : State), (s.biasOut k).move = .steady → exec (.rampDone k) s = .next s)
  ∧ (∀ (s : State) (k : Nat) (c : Int), s.rampLen k c = (c.natAbs * (10000 * 10 ^ s.rd Reg.BIA_CFG.RAMP [k]) + 524287) / 524288)
  ∧ (∀ (k : Fin 256) (s : State), exec (.rangeSequence k) s = .next
      (if (s.biasOut k).rangeWait = true ∧ (s.biasOut k).st = 0 ∧ s.job.work = false
           ∧ (s.betweenJobs = true ∨ s.job.phase = .armed ∨ s.biasUsed k = false)
       then s.rangeStart k else s))
  ∧ (∀ (s : State) (k : Nat),
      let old := (s.biasOut k).range
      let c := rndNearest (s.biasCode k * (4 ^ old : Nat)) (4 ^ s.rd Reg.BIA_CFG.RANGE [k])
      ∃ t : State, s.rangeStart k = (if c = satInt 20 c then t else t.runtimeClamp (256 + k) (wrapInt 32 c) (wrapInt 32 (satInt 20 c)))
        ∧ (t.biasOut k).move = .toZero s.time.now (s.rd Reg.BIA_CFG.RANGE [k]) (satInt 20 c) ∧ (t.biasOut k).rangeWait = false
        ∧ (t.biasOut k).seqFrom = s.time.now ∧ (t.biasOut k).oldRange = old ∧ (∀ n : Nat, n ≠ k → t.biasOut n = s.biasOut n)
        ∧ t.regs = s.regs ∧ t.recs = s.recs)
  ∧ (∀ (k : Fin 256) (s : State) (from_ r : Nat) (c : Int), (s.biasOut k).move = .hold from_ r c → exec (.rangeHoldEnd k) s = .next
      (if from_ + 20000 ≤ s.time.now then s.updBias k fun b => { b with range := r, code := 0, move := .up c s.time.now } else s))
  ∧ (∀ (k : Fin 256) (s : State), (s.biasOut k).move = .steady → exec (.rangeHoldEnd k) s = .next s)
  ∧ (∀ (k : Fin 256) (bad : Bool) (s : State), (s.biasOut k).wave = none → exec (.biasWavePoint k bad) s = .next s)
  ∧ (∀ (k : Fin 256) (bad : Bool) (s : State) (w : BiasWave), (s.biasOut k).wave = some w → exec (.biasWavePoint k bad) s = .next
      (if s.time.now < w.due then s
       else if bad = true then ((s.eccError 5 (k / 64) 0 (w.start + w.next) true).updBias k fun b => { b with wave := none }).biasRecord k 7 0 true
       else s.updBias k fun b => { b with
         code := s.wavePoint (k / 64) (w.start + w.next)
         move := .steady
         wave := if w.next + 1 = w.len ∧ w.loop = false then none
           else some { w with next := if w.next + 1 = w.len then 0 else w.next + 1, due := w.due + w.period * 1000 } }))
  ∧ (∀ (k : Fin 256) (s : State), exec (.biasCompliance k) s = .next
      (if (s.biasOut k).st = 3 ∨ (s.biasOut k).compl = true then s
       else (s.updBias k fun b => { b with compl := true }).biasAct k 1
         (if (s.biasOut k).openLoad = true then 0 else s.rd Reg.BIA_CFG.CACT [k])))
  ∧ (∀ (k : Fin 256) (s : State), exec (.biasComplianceClear k) s = .next
      (if (s.biasOut k).compl = true then
         (s.updBias k fun b => { b with compl := false, causes := b.causes.filter (· ≠ 1) }).biasRecord k 2 0 false
       else s))
  ∧ (∀ (k : Fin 256) (s : State), exec (.biasOpenLoad k) s = .next
      (if (s.biasOut k).st = 3 ∨ (s.biasOut k).openLoad = true ∨ (s.biasCode k).natAbs < 8192 then s
       else (s.updBias k fun b => { b with openLoad := true }).biasAct k 3 (s.rd Reg.BIA_CFG.OACT [k])))
  ∧ (∀ (s : State) (k c : Nat), s.biasAct k c 0 = s.biasRecord k c 0 false
      ∧ (s.biasAct k c 1).biasOut k = { s.biasOut k with code := s.biasCode k, move := .steady, st := 2, wave := none }
      ∧ ((s.biasAct k c 2).biasOut k).st = 3 ∧ ((s.biasAct k c 2).biasOut k).wave = none
      ∧ c ∈ ((s.biasAct k c 2).biasOut k).causes
      ∧ (∀ n : Nat, n ≠ k → (s.biasAct k c 1).biasOut n = s.biasOut n ∧ (s.biasAct k c 2).biasOut n = s.biasOut n))
  ∧ (∀ (k : Fin 256) (s : State), exec (.biasRearm k) s = .next
      (s.gate (if (s.biasOut k).st = 2 ∨ ((s.biasOut k).st = 3 ∧ (s.biasOut k).causes.filter (· ≠ 3) = []) then
         (s.biasFreeze k).updBias k fun b => { b with st := 0, causes := [], openLoad := false }
       else if (s.biasOut k).st = 0 then s.updBias k fun b => { b with openLoad := false } else s)))
  ∧ (∀ (k : Fin 64) (s : State), exec (.ffClr k) s = .next
      (s.gate (if s.job.phase ≠ .inShot ∧ s.job.work = false ∧ s.cfg.pending = false then s.presetFlux k
        else { s with outs.flux := Table.upd {} s.outs.flux k fun c => { c with clr := true } })))
  ∧ (∀ (k : Fin 256) (s : State) (t : Int) (f : Nat), (s.biasOut k).move = .ramp t f →
      f + s.rampLen k (t - (s.biasOut k).code) ≤ s.time.now →
      exec (.rampDone k) s = .next (s.updBias k fun b => { b with code := t, move := .steady }))
  ∧ (∀ (k : Fin 256) (s : State), (s.biasOut k).rangeWait = true → (s.biasOut k).st = 0 → s.job.work = false →
      (s.betweenJobs = true ∨ s.job.phase = .armed ∨ s.biasUsed k = false) → exec (.rangeSequence k) s = .next (s.rangeStart k))
  ∧ (∀ (k : Fin 256) (s : State) (f r : Nat) (c : Int), (s.biasOut k).move = .hold f r c → f + 20000 ≤ s.time.now →
      exec (.rangeHoldEnd k) s = .next (s.updBias k fun b => { b with range := r, code := 0, move := .up c s.time.now }))
  ∧ (∀ (k : Fin 256) (s : State) (w : BiasWave), (s.biasOut k).wave = some w → w.due ≤ s.time.now → w.next + 1 ≠ w.len →
      exec (.biasWavePoint k false) s = .next (s.updBias k fun b => { b with
        code := s.wavePoint (k / 64) (w.start + w.next)
        move := .steady
        wave := some { w with next := w.next + 1, due := w.due + w.period * 1000 } }))
  ∧ (∀ (k : Fin 256) (s : State), (s.biasOut k).st ≠ 3 → (s.biasOut k).compl = false → (s.biasOut k).openLoad = false →
      exec (.biasCompliance k) s = .next ((s.updBias k fun b => { b with compl := true }).biasAct k 1 (s.rd Reg.BIA_CFG.CACT [k])))
  ∧ (∀ (k : Fin 256) (s : State), (s.biasOut k).compl = true → exec (.biasComplianceClear k) s = .next
      ((s.updBias k fun b => { b with compl := false, causes := b.causes.filter (· ≠ 1) }).biasRecord k 2 0 false))
  ∧ (∀ (k : Fin 256) (s : State), (s.biasOut k).st ≠ 3 → (s.biasOut k).openLoad = false → 8192 ≤ (s.biasCode k).natAbs →
      exec (.biasOpenLoad k) s = .next ((s.updBias k fun b => { b with openLoad := true }).biasAct k 3 (s.rd Reg.BIA_CFG.OACT [k])))
  ∧ (∀ (k : Fin 256) (s : State), s.sys.ready = true → (s.biasOut k).st = 2 → exec (.biasRearm k) s = .next
      ((s.biasFreeze k).updBias k fun b => { b with st := 0, causes := [], openLoad := false }))
  ∧ (∀ (k : Fin 256) (s : State), s.sys.ready = true → (s.biasOut k).st = 0 →
      exec (.biasRearm k) s = .next (s.updBias k fun b => { b with openLoad := false }))
  ∧ (∀ (k : Fin 64) (s : State), s.sys.ready = true → s.job.phase ≠ .inShot → s.job.work = false → s.cfg.pending = false →
      exec (.ffClr k) s = .next { s with outs.flux := Table.set {} s.outs.flux k { s := List.replicate 4 ⟨signedOf 16 (s.rd Reg.FF_LEVEL.OFFSET [k]), 0⟩, h := List.replicate 32 ⟨signedOf 16 (s.rd Reg.FF_LEVEL.OFFSET [k]), 0⟩ } })
  ∧ (∀ (s : State) (k c a : Nat), a ≠ 0 → s.job.phase = .inShot → ∀ j : Job, (s.biasAct k c a).job.job = some j → j.shotInvalid = true)

/-- A doorbell write on a quarantined context is only counted (R501); a disabled context, an absent ring, a
value not below the ring's size, or a head past its producer is a violation with its cause; else the pointer
is moved and the status block written (R476, R497, R498). An access that is no listed aligned 32-bit write
is a violation with cause 9. SUBMISSION_FETCH reads the next entry where R479 allows it and moves the head.
A completion gives an outstanding entry or data read its bytes; an unknown opcode is refused with cause 1
(R482, R494); a failure is counted and recorded or, an error of the inbound buffer, logged and read again
once (R495, R703). STREAM_DATA_ARRIVE takes samples of a bound stream with room for them (R166). CTX_PAUSE
discards what has not started (R475), CTX_ABORT aborts the context's job with cause 2 (R489), CTX_RELEASE
ends a quarantine (R502).
Completes: doorbellSubTail, doorbellCplHead, doorbellResHead, doorbellEvtHead, doorbellCapHead,
doorbellUnlistedWrite, submissionFetch, hostReadCompletion, hostReadFailure, streamDataArrive, ctxPause,
ctxAbort, ctxRelease. (R166, R475, R476, R479, R482, R489, R494, R495, R497, R498, R501, R502) -/
def Obligations.DoorbellsAndHostReads : Prop :=
  (∀ (c : Fin 1024) (v : Word) (s : State),
    exec (.doorbellSubTail c v) s = .next (s.doorbell c 0 Reg.CTX_SIZE.SUB none v.toNat fun x => { x with subTail := v.toNat }).modeSync
    ∧ exec (.doorbellCplHead c v) s = .next (s.doorbell c 4 Reg.CTX_SIZE.CPL (some ((s.ctx c).cplTail, (s.ctx c).cplHead)) v.toNat
        fun x => { x with cplHead := v.toNat }).modeSync
    ∧ exec (.doorbellResHead c v) s = .next (s.doorbell c 8 Reg.CTX_SIZE.RES (some ((s.ctx c).resTail, (s.ctx c).resHead)) v.toNat
        fun x => { x with resHead := v.toNat }).modeSync
    ∧ exec (.doorbellEvtHead c v) s = .next (s.doorbell c 12 Reg.CTX_SIZE.EVT (some ((s.ctx c).evtTail, (s.ctx c).evtHead)) v.toNat
        fun x => { x with evtHead := v.toNat }).modeSync
    ∧ exec (.doorbellCapHead c v) s = .next (s.doorbell c 16 Reg.CTX_SIZE.CAP (some ((s.ctx c).capTail, (s.ctx c).capHead)) v.toNat
        fun x => { x with capHead := v.toNat }).modeSync)
  ∧ (∀ (s : State) (c off v : Nat) (f : Fld) (head : Option (Nat × Nat)) (put : Ctx → Ctx), (s.ctx c).quar = true →
      s.doorbell c off f head v put = s.count Reg.PCIE_CNT.VIO_CNT [])
  ∧ (∀ (s : State) (c off v : Nat) (f : Fld) (head : Option (Nat × Nat)) (put : Ctx → Ctx), (s.ctx c).quar = false →
      s.doorbell c off f head v put =
        (if s.flag Reg.CTX_CFG.ENABLE [c] = false then s.violate 737 (some c) 10 8 off v
         else if s.ringSize c f = 0 then s.violate 737 (some c) 12 8 off v
         else if s.ringSize c f ≤ v then s.violate 737 (some c) 7 8 off v
         else match head with
           | none => (s.updCtx c put).writeStatus c
           | some (prod, old) =>
             if (prod + s.ringSize c f - old) % s.ringSize c f < (v + s.ringSize c f - old) % s.ringSize c f then
               s.violate 737 (some c) 8 8 off v
             else (s.updCtx c put).writeStatus c))
  ∧ (∀ (off : BitVec 22) (n : Fin 9) (v : BitVec 64) (s : State), exec (.doorbellUnlistedWrite off n v) s = .next (State.modeSync
      (if n = 4 ∧ off.toNat % 4 = 0 ∧ off.toNat % 4096 ≤ 16 then s
       else if (s.ctx (off.toNat / 4096)).quar = true then s.count Reg.PCIE_CNT.VIO_CNT []
       else s.violate 737 (some (off.toNat / 4096)) 9 8 (off.toNat % 4096) v.toNat)))
  ∧ (∀ (c : Fin 1024) (e : Fin 3) (at_ : BitVec 16) (s : State), s.cobblerUp = true → e = 0 → s.mayFetch c = true → exec (.submissionFetch c ⟨e, at_⟩) s = .next
      ((((({ s with host.reads := s.host.reads ++ [ReadFor.entry c (s.ctx c).subHead false] } : State).emit
        (.read (s.baseOf .SUB_BASE_LO .SUB_BASE_HI c + (s.ctx c).subHead * 64) 64)).updCtx c fun y =>
          { y with subHead := ((s.ctx c).subHead + 1) % s.ringSize c Reg.CTX_SIZE.SUB })).writeStatus c))
  ∧ (∀ (c : Fin 1024) (e : Fin 3) (at_ : BitVec 16) (s : State), (s.cobblerUp = false ∨ (e = 0 ∧ s.mayFetch c = false)) → exec (.submissionFetch c ⟨e, at_⟩) s = .next s)
  ∧ (∀ (c : Fin 1024) (e : Fin 3) (at_ : BitVec 16) (s : State), s.cobblerUp = true → e ≠ 0 → exec (.submissionFetch c ⟨e, at_⟩) s = .next (s.workError e at_.toNat).modeSync)
  ∧ (∀ (c i : Nat) (retry : Bool) (data : List Byte) (s : State), ReadFor.entry c i retry ∈ s.host.reads →
      fieldAt data 0 1 ≤ 0x0B → fieldAt data 0 1 ≠ 7 → exec (.hostReadCompletion (.entry c i retry) data) s = .next
        (State.modeSync (State.holdEntry { s with host.reads := s.host.reads.erase (.entry c i retry) } c { index := i, bytes := data })))
  ∧ (∀ (s : State) (c : Nat) (d : Desc), (s.ctx c).fetched = [] → ((s.holdEntry c d).ctx c).fetched = [d]
      ∧ (s.holdEntry c d).regs = s.regs ∧ (s.holdEntry c d).host = s.host ∧ (s.holdEntry c d).recs = s.recs
      ∧ ∀ n : Nat, n ≠ c → (s.holdEntry c d).ctx n = s.ctx n)
  ∧ (∀ (s : State) (c : Nat) (d : Desc), (∀ e ∈ (s.ctx c).fetched, s.ringAge c d.index ≤ s.ringAge c e.index) →
      ((s.holdEntry c d).ctx c).fetched = (s.ctx c).fetched ++ [d])
  ∧ (∀ (c i : Nat) (retry : Bool) (data : List Byte) (s : State), ReadFor.entry c i retry ∈ s.host.reads →
      0x0B < fieldAt data 0 1 → exec (.hostReadCompletion (.entry c i retry) data) s = .next
        (State.modeSync ((State.holdEntry { s with host.reads := s.host.reads.erase (.entry c i retry) } c
          { index := i, bytes := data }).refuseDesc c { index := i, bytes := data } 1 0 0)))
  ∧ (∀ (c i : Nat) (retry : Bool) (data : List Byte) (s : State) (d : Desc), ReadFor.data c i retry ∈ s.host.reads →
      s.desc c i = some d → d.phase = .reading → exec (.hostReadCompletion (.data c i retry) data) s = .next
        (State.modeSync (State.setDesc { s with host.reads := s.host.reads.erase (.data c i retry) } c { d with phase := .loaded, data := data })))
  ∧ (∀ (c i : Nat) (retry : Bool) (data : List Byte) (x : Fin 5) (a : BitVec 64) (s : State),
      (ReadFor.entry c i retry ∉ s.host.reads → exec (.hostReadCompletion (.entry c i retry) data) s = .next s.modeSync
        ∧ exec (.hostReadFailure (.entry c i retry) x a) s = .next s.modeSync)
      ∧ (ReadFor.data c i retry ∉ s.host.reads → exec (.hostReadCompletion (.data c i retry) data) s = .next s.modeSync
        ∧ exec (.hostReadFailure (.data c i retry) x a) s = .next s.modeSync)
      ∧ exec (.hostReadCompletion .other data) s = .next s)
  ∧ (∀ (c i : Nat) (x : Fin 5) (a : BitVec 64) (s : State), ReadFor.entry c i false ∈ s.host.reads →
      ∃ t : State, exec (.hostReadFailure (.entry c i false) x a) s = .next t.modeSync
        ∧ t.host.reads = s.host.reads.erase (.entry c i false) ++ [.entry c i true] ∧ t.ram = s.ram ∧ t.job = s.job)
  ∧ (∀ (c i : Nat) (x : Fin 5) (a : BitVec 64) (s : State), ReadFor.entry c i true ∈ s.host.reads → x ≠ 0 →
      exec (.hostReadFailure (.entry c i true) x a) s = .next
        (State.modeSync (((State.hostError { s with host.reads := s.host.reads.erase (.entry c i true) } (.entry c i true) x a.toNat).holdEntry c
          { index := i, bytes := [] }).completeNow c { index := i, bytes := [] } 5 0 0)))
  ∧ (∀ (q : Fin 4) (n : Fin 16) (data : List Byte) (s : State), (Table.get {} s.sq.streams (q.val * 16 + n.val)).bound = false →
      exec (.streamDataArrive q n data) s = .next s)
  ∧ (∀ (q : Fin 4) (n : Fin 16) (data : List Byte) (s : State), (Table.get {} s.sq.streams (q.val * 16 + n.val)).bound = true →
      (Table.get {} s.sq.streams (q.val * 16 + n.val)).under = false → data.length / 4 ≤ s.streamFree q n →
      (Table.get {} s.sq.streams (q.val * 16 + n.val)).arrived + data.length / 4 ≤ s.streamLimit q n →
      ∃ t : State, exec (.streamDataArrive q n data) s = .next t
        ∧ Table.get {} t.sq.streams (q.val * 16 + n.val) = { Table.get {} s.sq.streams (q.val * 16 + n.val) with
            arrived := (Table.get {} s.sq.streams (q.val * 16 + n.val)).arrived + data.length / 4 }
        ∧ t.regs = s.regs ∧ t.ctxs = s.ctxs ∧ t.job = s.job)
  ∧ (∀ (c : Fin 1024) (p : Bool) (s : State), exec (.ctxPause c p) s = .next (State.modeSync (s.gate
      (if p = true then ((s.wr Reg.CTX_CTL.PAUSE [c] 1).pauseDiscard c).writeStatus c
       else (s.wr Reg.CTX_CTL.PAUSE [c] 0).writeStatus c))))
  ∧ (∀ (c : Fin 1024) (s : State), exec (.ctxAbort c) s = .next (s.gate (match s.job.job with
      | some j => if j.ctx = c.val then s.abortJob 2 else s
      | none => s)))
  ∧ (∀ (c : Fin 1024) (s : State), exec (.ctxRelease c) s = .next
      (s.gate ((s.updCtx c fun x => { x with quar := false, vios := [] }).writeStatus c)))
  ∧ (∀ (c : Fin 1024) (v : Word) (s : State), (s.ctx c).quar = false → s.flag Reg.CTX_CFG.ENABLE [c] = true →
      v.toNat < s.ringSize c Reg.CTX_SIZE.SUB →
      exec (.doorbellSubTail c v) s = .next ((s.updCtx c fun x => { x with subTail := v.toNat }).writeStatus c).modeSync)
  ∧ (∀ (c : Fin 1024) (v : Word) (s : State), (s.ctx c).quar = false → s.flag Reg.CTX_CFG.ENABLE [c] = true →
      v.toNat < s.ringSize c Reg.CTX_SIZE.CPL →
      (v.toNat + s.ringSize c Reg.CTX_SIZE.CPL - (s.ctx c).cplHead) % s.ringSize c Reg.CTX_SIZE.CPL
        ≤ ((s.ctx c).cplTail + s.ringSize c Reg.CTX_SIZE.CPL - (s.ctx c).cplHead) % s.ringSize c Reg.CTX_SIZE.CPL →
      exec (.doorbellCplHead c v) s = .next ((s.updCtx c fun x => { x with cplHead := v.toNat }).writeStatus c).modeSync)
  ∧ (∀ (c : Fin 1024) (v : Word) (s : State), (s.ctx c).quar = false → s.flag Reg.CTX_CFG.ENABLE [c] = true →
      v.toNat < s.ringSize c Reg.CTX_SIZE.RES →
      (v.toNat + s.ringSize c Reg.CTX_SIZE.RES - (s.ctx c).resHead) % s.ringSize c Reg.CTX_SIZE.RES
        ≤ ((s.ctx c).resTail + s.ringSize c Reg.CTX_SIZE.RES - (s.ctx c).resHead) % s.ringSize c Reg.CTX_SIZE.RES →
      exec (.doorbellResHead c v) s = .next ((s.updCtx c fun x => { x with resHead := v.toNat }).writeStatus c).modeSync)
  ∧ (∀ (c : Fin 1024) (v : Word) (s : State), (s.ctx c).quar = false → s.flag Reg.CTX_CFG.ENABLE [c] = true →
      v.toNat < s.ringSize c Reg.CTX_SIZE.EVT →
      (v.toNat + s.ringSize c Reg.CTX_SIZE.EVT - (s.ctx c).evtHead) % s.ringSize c Reg.CTX_SIZE.EVT
        ≤ ((s.ctx c).evtTail + s.ringSize c Reg.CTX_SIZE.EVT - (s.ctx c).evtHead) % s.ringSize c Reg.CTX_SIZE.EVT →
      exec (.doorbellEvtHead c v) s = .next ((s.updCtx c fun x => { x with evtHead := v.toNat }).writeStatus c).modeSync)
  ∧ (∀ (c : Fin 1024) (v : Word) (s : State), (s.ctx c).quar = false → s.flag Reg.CTX_CFG.ENABLE [c] = true →
      v.toNat < s.ringSize c Reg.CTX_SIZE.CAP →
      (v.toNat + s.ringSize c Reg.CTX_SIZE.CAP - (s.ctx c).capHead) % s.ringSize c Reg.CTX_SIZE.CAP
        ≤ ((s.ctx c).capTail + s.ringSize c Reg.CTX_SIZE.CAP - (s.ctx c).capHead) % s.ringSize c Reg.CTX_SIZE.CAP →
      exec (.doorbellCapHead c v) s = .next ((s.updCtx c fun x => { x with capHead := v.toNat }).writeStatus c).modeSync)
  ∧ (∀ (off : BitVec 22) (n : Fin 9) (v : BitVec 64) (s : State), (n ≠ 4 ∨ off.toNat % 4 ≠ 0 ∨ 16 < off.toNat % 4096) →
      (s.ctx (off.toNat / 4096)).quar = false → exec (.doorbellUnlistedWrite off n v) s = .next
        (State.modeSync (s.violate 737 (some (off.toNat / 4096)) 9 8 (off.toNat % 4096) v.toNat)))
  ∧ (∀ (c : Fin 1024) (s : State), s.sys.ready = true → exec (.ctxPause c true) s = .next
      (State.modeSync (((s.wr Reg.CTX_CTL.PAUSE [c] 1).pauseDiscard c).writeStatus c))
      ∧ exec (.ctxPause c false) s = .next (State.modeSync ((s.wr Reg.CTX_CTL.PAUSE [c] 0).writeStatus c)))
  ∧ (∀ (c : Fin 1024) (s : State) (j : Job), s.sys.ready = true → s.job.job = some j → j.ctx = c.val →
      exec (.ctxAbort c) s = .next (s.abortJob 2))
  ∧ (∀ (c : Fin 1024) (s : State), s.sys.ready = true →
      exec (.ctxRelease c) s = .next ((s.updCtx c fun x => { x with quar := false, vios := [] }).writeStatus c))

/-- COMMIT makes a commit pending, and while the work of one runs requests another; DISCARD cancels a pending
commit whose boundary work has not started and makes every shadow the live value (R453, R455); while the
device is not ready both are ignored. D3HOT_ENTRY aborts the job with cause 3 and holds completions;
D0_RETURN posts those held, oldest first (R445). LINK_STATE_CHANGE, by the host, or by the device where R444 lets it
lower the link, is what GLB_LINK reads from then on (R444). A host-interface reset, a function-level reset and PERST return the blocks CTX, EVT with the MSI-X
table, and PCIE to their reset values, in the shadow too, drop the contexts with their rings, the reads but
those of streams, the held completions, the records of the job, the pending messages and the calibration,
cancel a commit whose work has not started, and abort a job with cause 2, silently (R446, R450, R647, R731).
Registers outside those blocks keep their values, and so do the loaded memories.
Completes: commit, discard, d3hotEntry, d0Return, linkStateChange, hostInterfaceReset, functionLevelReset,
perst. (R444, R445, R453, R455, R446, R450, R647, R731) -/
def Obligations.CommitsFunctionStatesAndInterfaceResets : Prop :=
  (∀ s : State, exec .d3hotEntry s = .next { s.abortJob 3 with host.d3hot := true })
  ∧ (∀ s : State, exec .d0Return s = .next
      (State.postHeld s.host.heldCpl { s with host.d3hot := false, host.heldCpl := [] }).modeSync)
  ∧ (∀ (s : State) (c : Nat) (e : List Byte) (irq : Bool) (rest : List (Nat × List Byte × Bool)),
      State.postHeld ((c, e, irq) :: rest) s = State.postHeld rest (s.postCpl c e irq))
  ∧ (∀ (host flit : Bool) (low : Fin 3) (rate : Fin 7) (w l : Fin 17) (s : State), (host = true ∨ s.mayLower low w l = true) →
      exec (.linkStateChange ⟨host, low⟩ flit rate w l) s =
      .next { s with host.linkLow := low, host.flit := flit, host.rate := rate, host.width := w, host.l0p := l })
  ∧ (∀ (flit : Bool) (low : Fin 3) (rate : Fin 7) (w l : Fin 17) (s : State), s.mayLower low w l = false →
      exec (.linkStateChange ⟨false, low⟩ flit rate w l) s = .next s)
  ∧ (∀ (s : State) (low w l : Nat), s.mayLower low w l = (if low = 2 then decide (2 ≤ s.pwr.rung)
      else if low = 1 ∨ l < w then !s.inJob || decide (1 ≤ s.pwr.rung) else true))
  ∧ (∀ s : State, exec .hostInterfaceReset s = .next s.hostIfReset.modeSync)
  ∧ (∀ s : State, exec .functionLevelReset s = .next (State.modeSync { s.hostIfReset with host.d3hot := false }))
  ∧ (∀ s : State, ∃ t : State, exec .perst s = .next t.modeSync ∧ t.host.d3hot = false ∧ t.host.flit = false ∧ t.host.rate = 0
      ∧ t.host.width = 0 ∧ t.host.l0p = 0 ∧ t.recs.funcMask = false ∧ t.ctxs = s.hostIfReset.ctxs ∧ t.regs = s.hostIfReset.regs
      ∧ t.job = s.hostIfReset.job ∧ t.ram = s.ram)
  ∧ (∀ s : State, s.job.job = none → s.hostIfReset.ctxs = [] ∧ s.hostIfReset.recs.lastMsg = [] ∧ s.hostIfReset.recs.heldVec = []
      ∧ s.hostIfReset.recs.pba = [] ∧ s.hostIfReset.host.heldCpl = [] ∧ s.hostIfReset.cal.run = none
      ∧ s.hostIfReset.cal.waiting = [] ∧ s.hostIfReset.ram = s.ram ∧ s.hostIfReset.time = s.time ∧ s.hostIfReset.sq = s.sq
      ∧ (∀ r : ReadFor, r ∈ s.hostIfReset.host.reads ↔ r ∈ s.host.reads ∧ ∃ q n : Nat, r = .stream q n)
      ∧ (∀ a : Nat, (0x20000 ≤ a ∧ a < 0x50000) ∨ (0x120000 ≤ a ∧ a < 0x130000) → ∀ v : Word, (a, v) ∉ s.hostIfReset.regs.live)
      ∧ (∀ a : Nat, ¬ ((0x20000 ≤ a ∧ a < 0x50000) ∨ (0x120000 ≤ a ∧ a < 0x130000)) → ∀ v : Word,
          ((a, v) ∈ s.hostIfReset.regs.live ↔ (a, v) ∈ s.regs.live)))
  ∧ (∀ s : State, s.sys.ready = false → exec .commit s = .next s ∧ exec .discard s = .next s)
  ∧ (∀ s : State, s.sys.ready = true → (s.job.work && s.job.workCommit) = false →
      exec .commit s = .next { s with cfg.pending := true })
  ∧ (∀ s : State, s.sys.ready = true → s.job.work = true → s.job.workCommit = true →
      exec .commit s = .next { s with cfg.pending := true, cfg.again := true })
  ∧ (∀ s : State, s.sys.ready = true → s.cfg.pending = true → (s.job.work && s.job.workCommit) = false →
      exec .discard s = .next { s with cfg.pending := false, cfg.again := false, regs.shadow := s.regs.live, job.atEnd := false })
  ∧ (∀ s : State, s.cfg.pending = false → exec .discard s = .next s)
  ∧ (∀ s : State, s.job.work = true → s.job.workCommit = true → exec .discard s = .next s)
  ∧ (∀ s : State, s.job.job = none → s.job.closing = none → s.sys.shown = s.hostIfReset.mode →
      exec .hostInterfaceReset s = .next s.hostIfReset)

/-- A fetched descriptor of the command's opcode starts once its turn has come (R480) on a running cobbler after
boot; its first violation in order of offset refuses it with its cause (R497, R498), a mode that forbids it
completes it DEVICE_FAULT (R699, R702), else it is carried out. NOP and FENCE complete DONE; a FENCE waits
for every earlier descriptor and its posted completion. A load reads its data and, when that is there, is
applied, or completes DEVICE_FAULT on an uncorrectable error (R487); one into a region of the running job is
deferred and applied at the job boundary (R21, R740). STREAM_BIND binds or unbinds its stream (R484). QUERY
writes what it reads of the memory and completes with its length. RUN and CAPTURE become ready (R18).
CALIBRATE starts in the order of fetching (R641).
Completes: nop, fence, loadProgram, loadEnvelope, loadDecoder, biasSet, loadDeferredApply, streamBind, query,
calibrate, run, capture. (R18, R480, R483, R484, R487, R497, R498, R641, R699, R702, R740) -/
def Obligations.DescriptorsStartAndComplete : Prop :=
  (∀ (s : State) (c i op : Nat) (go : State → Desc → State), s.startDesc c i op go =
    (match s.desc c i with
     | none => s
     | some d =>
       if d.op ≠ op ∨ d.phase ≠ .fetched ∨ s.cobblerUp = false ∨ s.sys.boot = true ∨ s.mayStart c d = false then s
       else match s.descFault c d with
         | some (place, cause) => s.refuseDesc c d cause 0 place
         | none => if s.forbids d = true then s.completeNow c d 6 0 0 else go s d))
  ∧ (∀ (c : Fin 1024) (i : BitVec 16) (s : State),
      exec (.nop c i) s = .next (s.startDesc c i.toNat 0 fun s d => s.completeNow c d 0 0 0)
      ∧ exec (.fence c i) s = .next (s.startDesc c i.toNat 11 fun s d => s.completeNow c d 0 0 0))
  ∧ (∀ (s : State) (c : Nat) (d : Desc), (d.op = 11 → (s.mayStart c d = true ↔ s.earlier c d.index = [] ∧ s.cplPosted c = true))
      ∧ (d.op = 5 → (s.mayStart c d = true ↔ s.earlier c d.index = []))
      ∧ (d.op = 1 → (s.mayStart c d = true ↔ ∀ e ∈ s.earlier c d.index, e.started = true)))
  ∧ (∀ (c : Fin 1024) (i : BitVec 16) (bad : Bool) (s : State),
      exec (.loadProgram c i bad) s = .next (s.load_ c i.toNat 1 bad).modeSync
      ∧ exec (.loadEnvelope c i bad) s = .next (s.load_ c i.toNat 2 bad).modeSync
      ∧ exec (.loadDecoder c i bad) s = .next (s.load_ c i.toNat 3 bad).modeSync
      ∧ exec (.biasSet c i bad) s = .next (s.load_ c i.toNat 8 bad).modeSync)
  ∧ (∀ (s : State) (c i op : Nat) (bad : Bool) (d : Desc), s.desc c i = some d → d.op = op → d.phase = .loaded →
      s.cobblerUp = true → s.load_ c i op bad =
        ((if bad = true then s.completeNow c d 6 d.source.2 0
          else match d.op with
            | 1 => s.applyProgram c d
            | 2 => s.applyEnvelope c d
            | 3 => s.applyDecoder c d
            | _ => s.applyBias c d).loadEnd d.regions))
  ∧ (∀ (s : State) (c i op : Nat) (bad : Bool) (d : Desc), s.desc c i = some d → d.phase = .fetched →
      s.load_ c i op bad = s.startDesc c i op fun t e =>
        if t.regionHeld e.regions = true then t.setDesc c { e with phase := .deferred } else t.beginLoad c e bad)
  ∧ (∀ (s : State) (c : Nat) (d : Desc), s.applyEnvelope c d =
      ((s.logDesc c d).writeEnvelope (d.at_ 0x14 1) (d.at_ 0x16 2) ((d.bytes.drop 0x18).take 16) d.payload).completeNow c d 0 d.source.2 0)
  ∧ (∀ (s : State) (c : Nat) (d : Desc) (o e : Nat), biasDataFault d = some (o, e) →
      s.applyBias c d = s.refuseDesc c d e (if (biasCount d).2 = 4 then 4 else 5) o)
  ∧ (∀ (c : Fin 1024) (i : BitVec 16) (s : State), exec (.loadDeferredApply c i) s = .next (State.modeSync
      (match s.desc c i.toNat with
       | some d =>
         if d.phase = .deferred ∧ (s.job.phase = .idle ∨ s.job.phase = .armed) ∧ s.cobblerUp = true then
           (if d.op = 9 then s.bindStream c d else s.beginLoad c d false)
         else s
       | none => s)))
  ∧ (∀ (c : Fin 1024) (i : BitVec 16) (s : State), exec (.streamBind c i) s = .next (State.modeSync (s.startDesc c i.toNat 9 fun s d =>
      if s.streamHeld d = true then s.setDesc c { d with phase := .deferred }
      else State.completeNow { s with sq.streams := Table.set {} s.sq.streams (d.at_ 0x18 1 * 16 + d.at_ 0x19 1) (if d.at_ 0x1A 1 = 1 then ({} : Stream) else { bound := true, ctx := c, base := d.at_ 8 8, stride := d.at_ 0x10 8 }) } c d 0 0 0)))
  ∧ (∀ (c : Fin 1024) (i : BitVec 16) (s : State), exec (.query c i) s = .next (State.modeSync (s.startDesc c i.toNat 10 fun s d =>
      let out := s.queryBytes d
      let t := s.logDesc c d
      (if out = [] then t else t.emit (.write (d.at_ 8 8) out)).completeNow c d 0 out.length 0)))
  ∧ (∀ (s : State) (d : Desc), d.at_ 0x14 1 = 7 → s.queryBytes d = reportPart (s.last (d.at_ 0x15 1)).report (d.at_ 0x18 4) (queryLen d))
  ∧ (∀ (x : List Byte) (f n : Nat), x.length ≤ f + n → reportPart x f n = x.drop f)
  ∧ (∀ (c : Fin 1024) (i : BitVec 16) (s : State), exec (.calibrate c i) s = .next
      (if s.calFirst c i.toNat = true then (s.startDesc c i.toNat 7 fun s d =>
         ((s.logDesc c d).setDesc c { d with phase := .working, clamped := d.clamped || !(descClamps d).isEmpty }).calBegin c d).modeSync
       else s))
  ∧ (∀ (c : Fin 1024) (i : BitVec 16) (s : State),
      exec (.run c i) s = .next (s.jobReady c i.toNat 5).modeSync ∧ exec (.capture c i) s = .next (s.jobReady c i.toNat 6).modeSync)
  ∧ (∀ (s : State) (c i op : Nat), s.jobReady c i op = s.startDesc c i op fun s d =>
      ((if s.anyReady = true ∨ s.job.ending.isSome = true then s else { s with job.bridge := 0 }).logDesc c d).setDesc c
        { d with phase := .ready, clamped := d.clamped || !(descClamps d).isEmpty })
  ∧ (∀ (c : Fin 1024) (i : BitVec 16) (s : State) (d : Desc), s.starts c i.toNat 0 d →
      exec (.nop c i) s = .next (s.completeNow c d 0 0 0))
  ∧ (∀ (c : Fin 1024) (i : BitVec 16) (s : State) (d : Desc), s.starts c i.toNat 11 d →
      exec (.fence c i) s = .next (s.completeNow c d 0 0 0))
  ∧ (∀ (c : Fin 1024) (i : BitVec 16) (bad : Bool) (s : State) (d : Desc), s.starts c i.toNat 1 d → s.regionHeld d.regions = false →
      d.source.2 ≠ 0 → exec (.loadProgram c i bad) s = .next (State.modeSync (s.readData c d)))
  ∧ (∀ (c : Fin 1024) (i : BitVec 16) (s : State) (d : Desc), s.hasData c i.toNat 1 d →
      exec (.loadProgram c i false) s = .next (State.modeSync ((s.applyProgram c d).loadEnd d.regions)))
  ∧ (∀ (c : Fin 1024) (i : BitVec 16) (bad : Bool) (s : State) (d : Desc), s.starts c i.toNat 2 d → s.regionHeld d.regions = false →
      d.source.2 ≠ 0 → exec (.loadEnvelope c i bad) s = .next (State.modeSync (s.readData c d)))
  ∧ (∀ (c : Fin 1024) (i : BitVec 16) (s : State) (d : Desc), s.hasData c i.toNat 2 d →
      exec (.loadEnvelope c i false) s = .next (State.modeSync ((s.applyEnvelope c d).loadEnd d.regions)))
  ∧ (∀ (c : Fin 1024) (i : BitVec 16) (bad : Bool) (s : State) (d : Desc), s.starts c i.toNat 3 d → s.regionHeld d.regions = false →
      d.source.2 ≠ 0 → exec (.loadDecoder c i bad) s = .next (State.modeSync (s.readData c d)))
  ∧ (∀ (c : Fin 1024) (i : BitVec 16) (s : State) (d : Desc), s.hasData c i.toNat 3 d →
      exec (.loadDecoder c i false) s = .next (State.modeSync ((s.applyDecoder c d).loadEnd d.regions)))
  ∧ (∀ (c : Fin 1024) (i : BitVec 16) (bad : Bool) (s : State) (d : Desc), s.starts c i.toNat 8 d → s.regionHeld d.regions = false →
      d.source.2 ≠ 0 → exec (.biasSet c i bad) s = .next (State.modeSync (s.readData c d)))
  ∧ (∀ (c : Fin 1024) (i : BitVec 16) (s : State) (d : Desc), s.hasData c i.toNat 8 d →
      exec (.biasSet c i false) s = .next (State.modeSync ((s.applyBias c d).loadEnd d.regions)))
  ∧ (∀ (s : State) (c : Nat) (d : Desc), (s.readData c d).host.reads = s.host.reads ++ [.data c d.index false]
      ∧ (s.readData c d).ram = s.ram ∧ (s.readData c d).regs = s.regs)
  ∧ (∀ (s : State) (c : Nat) (d : Desc) (at_ cause : Nat), d.at_ 0x14 1 = 0 →
      firstRefused (d.at_ 0x18 4) ((items (progUnit d).1 d.payload).map checkStitch) = some (at_, cause) →
      s.applyProgram c d = s.refuseDesc c d cause 6 at_)
  ∧ (∀ (s : State) (c : Nat) (d : Desc), d.at_ 0x14 1 = 0 →
      firstRefused (d.at_ 0x18 4) ((items (progUnit d).1 d.payload).map checkStitch) = none →
      s.applyProgram c d = ((s.logDesc c d).writeProgram c d ((items (progUnit d).1 d.payload).map checkStitch)).completeNow c d 0 d.source.2 0)
  ∧ (∀ (s : State) (c : Nat) (d : Desc) (o : Nat), (graphHead d.payload).len = d.at_ 0x10 4 → graphFault d.payload (graphHead d.payload) = some o →
      s.applyDecoder c d = s.refuseDesc c d 3 2 o)
  ∧ (∀ (s : State) (c : Nat) (d : Desc), (graphHead d.payload).len = d.at_ 0x10 4 → graphFault d.payload (graphHead d.payload) = none →
      graphOver d.payload (graphHead d.payload) = false → graphClamps d.payload (graphHead d.payload) = [] →
      ∃ t : State, s.applyDecoder c d = t.completeNow c d 0 d.source.2 0 ∧ t.dec.graph = some (graphOf d.payload (graphHead d.payload))
        ∧ t.dec.loads = s.dec.loads + 1 ∧ t.ram = s.ram)
  ∧ (∀ (c : Fin 1024) (i : BitVec 16) (s : State) (d : Desc), s.desc c i.toNat = some d → d.phase = .deferred →
      (s.job.phase = .idle ∨ s.job.phase = .armed) → s.cobblerUp = true → d.op ≠ 9 → d.source.2 ≠ 0 →
      exec (.loadDeferredApply c i) s = .next (State.modeSync (s.readData c d)))
  ∧ (∀ (c : Fin 1024) (i : BitVec 16) (s : State) (d : Desc), s.starts c i.toNat 9 d → s.streamHeld d = false →
      exec (.streamBind c i) s = .next (State.modeSync (s.bindStream c d)))
  ∧ (∀ (c : Fin 1024) (i : BitVec 16) (s : State) (d : Desc), s.starts c i.toNat 10 d →
      exec (.query c i) s = .next (State.modeSync
        ((if s.queryBytes d = [] then s.logDesc c d else (s.logDesc c d).emit (.write (d.at_ 8 8) (s.queryBytes d))).completeNow c d 0 (s.queryBytes d).length 0)))
  ∧ (∀ (c : Fin 1024) (i : BitVec 16) (s : State) (d : Desc), s.starts c i.toNat 7 d → s.calFirst c i.toNat = true →
      exec (.calibrate c i) s = .next (State.modeSync (State.calBegin
        ((s.logDesc c d).setDesc c { d with phase := .working, clamped := d.clamped || !(descClamps d).isEmpty }) c d)))
  ∧ (∀ (c : Fin 1024) (i : BitVec 16) (s : State) (d : Desc), s.starts c i.toNat 5 d → (s.anyReady = true ∨ s.job.ending.isSome = true) →
      exec (.run c i) s = .next (State.modeSync
        ((s.logDesc c d).setDesc c { d with phase := .ready, clamped := d.clamped || !(descClamps d).isEmpty })))
  ∧ (∀ (c : Fin 1024) (i : BitVec 16) (s : State) (d : Desc), s.starts c i.toNat 5 d → s.anyReady = false → s.job.ending.isSome = false →
      exec (.run c i) s = .next (State.modeSync
        ((State.logDesc { s with job.bridge := 0 } c d).setDesc c { d with phase := .ready, clamped := d.clamped || !(descClamps d).isEmpty })))
  ∧ (∀ (c : Fin 1024) (i : BitVec 16) (s : State) (d : Desc), s.starts c i.toNat 6 d → (s.anyReady = true ∨ s.job.ending.isSome = true) →
      exec (.capture c i) s = .next (State.modeSync
        ((s.logDesc c d).setDesc c { d with phase := .ready, clamped := d.clamped || !(descClamps d).isEmpty })))
  ∧ (∀ (c : Fin 1024) (i : BitVec 16) (s : State) (d : Desc), s.starts c i.toNat 6 d → s.anyReady = false → s.job.ending.isSome = false →
      exec (.capture c i) s = .next (State.modeSync
        ((State.logDesc { s with job.bridge := 0 } c d).setDesc c { d with phase := .ready, clamped := d.clamped || !(descClamps d).isEmpty })))

/-- TRAINING_ATTEMPT starts attempt 1 of a link that is down and may train (R509); LANE_SIGNAL_GAIN likewise
while it waits or has failed (R513). TRAIN_BLOCKs with 16 READY on every locked lane bring the link up with
full credits (R509, R524). TRAINING_TIMEOUT fails an attempt after 10 ms, waiting 10 ms x 2^(attempt - 1),
or for good after the eighth; TRAINING_BACKOFF_END starts the next (R511, R512). LANE_LOCK_LOSS narrows a
link, or takes it down when no lane is left (R516, R517); WIDTH_BLOCK answers or adopts a mask; LANE_RETRAIN
trains an unlocked lane of an up link (R518). IDLE_ENTRY idles a quiet direction, EIDLE_BLOCK notes the
partner's, IDLE_EXIT leaves it for a queued frame, IDLE_EXIT_TIMEOUT takes the link down (R520 to R522).
LC_RETRAIN starts over, LC_RELEASE and LACE_QUARANTINE_END end a quarantine (R539). Other links stay as they
are.
Completes: trainingAttempt, laneSignalGain, laneLock, laneLockLoss, trainBlock, alignBlock, trainingTimeout,
trainingBackoffEnd, laneRetrain, widthBlock, lcRetrain, lcRelease, laceQuarantineEnd, idleEntry, eidleBlock,
idleExit, idleExitTimeout. (R509, R511, R512, R513, R516, R517, R518, R520, R521, R522, R524, R539) -/
def Obligations.LaceTrainingWidthAndIdle : Prop :=
  (∀ (l : Fin 8) (sig : BitVec 4) (s : State), exec (.trainingAttempt l sig) s = .next
    (if (s.lnk l).st = 1 ∧ (s.lnk l).waiting = false ∧ s.mayTrain l = true ∧ s.sys.ready = true then
       (s.updLink l fun x => { x with signal := sig.toNat }).startAttempt l 1 else s))
  ∧ (∀ (s : State) (l k : Nat), ∃ t : State, s.startAttempt l k = t.linkRecord l 0 ∧ (t.lnk l).st = 2 ∧ (t.lnk l).attempt = k
      ∧ (t.lnk l).attemptFrom = s.time.now ∧ (t.lnk l).waiting = false ∧ (t.lnk l).ready = false
      ∧ t.lace.out = (l, (lanesOf 15).map fun i => (i, trainBlockOf i l 0 s.lace.idValid s.deviceId 0)) :: s.lace.out ∧ (∀ n : Nat, n ≠ l → t.lnk n = s.lnk n) ∧ t.regs = s.regs ∧ t.ctxs = s.ctxs)
  ∧ (∀ (l : Fin 8) (lane : Fin 4) (s : State), (s.lnk l).waiting = false → (s.lnk l).st ≠ 5 → exec (.laneSignalGain l lane) s = .next
      (s.updLink l fun x => { x with signal := setBits x.signal lane lane 1, sigSeen := setBits x.sigSeen lane lane 1 }))
  ∧ (∀ (l : Fin 8) (lane : Fin 4) (s : State), (s.lnk l).waiting = true → bitOf (s.lnk l).sigEnd lane = false → s.mayTrain l = true →
      exec (.laneSignalGain l lane) s = .next
        ((s.updLink l fun x => { x with signal := setBits x.signal lane lane 1, sigSeen := setBits x.sigSeen lane lane 1 }).startAttempt l 1))
  ∧ (∀ (l : Fin 8) (lane : Fin 4) (s : State), (s.lnk l).up = false → ((s.lnk l).st ≠ 2 ∨ (s.lnk l).ready = true) →
      exec (.laneLock l lane) s = .next (s.updLink l fun x => { x with lanes := setBits x.lanes lane lane 1 }))
  ∧ (∀ (l : Fin 8) (lane : Fin 4) (s : State), (s.lnk l).st = 2 → (s.lnk l).ready = false → exec (.laneLock l lane) s = .next
      ((s.updLink l fun x => { x with lanes := setBits x.lanes lane lane 1 }).laceOut l (.train 15 1 (s.lnk l).deskew)))
  ∧ (∀ (l : Fin 8) (lane : Fin 4) (s : State), (s.lnk l).up = true → (s.lnk l).idleRx = false → bitOf (s.lnk l).lanes lane = false →
      exec (.laneLock l lane) s = .next
        (let t := s.updLink l fun x => { x with lanes := setBits x.lanes lane lane 1 }
         let m := widthMask (t.lnk l).lanes
         (if m = (s.lnk l).rxMask then t else t.askWidth l m).laneRecord l lane 0))
  ∧ (∀ (l : Fin 8) (lane : Fin 4) (s : State), exec (.laneLockLoss l lane) s = .next
      (if bitOf (s.lnk l).lanes lane = false then s
       else
         let t := (s.updLink l fun x => { x with lanes := setBits x.lanes lane lane 0, lostAt := x.lostAt.set! lane s.time.now }).count Reg.LC_CNT.LOCKLOSS [l]
         let m := widthMask (t.lnk l).lanes
         if (s.lnk l).up = false then t
         else if m = 0 then t.linkDown l 1 8
         else (if m = (s.lnk l).rxMask then t else (t.updLink l fun x => { x with rxMask := m }).askWidth l m).laneRecord l lane 1))
  ∧ (∀ (l : Fin 8) (lane : Fin 4) (b : LaceBlock) (drift : BitVec 16) (s : State), trainOf b = none → exec (.trainBlock l lane b drift) s = .next s)
  ∧ (∀ b : LaceBlock, (ctrlType b = some 0x2D → trainOf b = some (false, b))
      ∧ (ctrlType b ≠ some 0x2D → ctrlType (~~~ b) = some 0x2D → trainOf b = some (true, ~~~ b)))
  ∧ (∀ (l : Fin 8) (lane : Fin 4) (b c : LaceBlock) (inv : Bool) (drift : BitVec 16) (s : State), trainOf b = some (inv, c) → (s.lnk l).idleRx = false →
      ((s.lnk l).st ≠ 2 ∨ bitOf (s.lnk l).lanes lane = false) → exec (.trainBlock l lane b drift) s = .next s)
  ∧ (∀ (l : Fin 8) (lane : Fin 4) (b c : LaceBlock) (inv : Bool) (drift : BitVec 16) (s : State), trainOf b = some (inv, c) → (s.lnk l).idleRx = true →
      (s.lnk l).exitFrom = 0 → exec (.trainBlock l lane b drift) s = .next (s.updLink l fun x => { x with exitFrom := s.time.now + 1, relock := 0 }))
  ∧ (∀ (l : Fin 8) (lane : Fin 4) (b c : LaceBlock) (inv : Bool) (drift : BitVec 16) (s : State), trainOf b = some (inv, c) → (s.lnk l).idleRx = false →
      (s.lnk l).st = 2 → bitOf (s.lnk l).lanes lane = true → ∃ t : State, (exec (.trainBlock l lane b drift) s = .next t
          ∨ exec (.trainBlock l lane b drift) s = .next (t.linkUpNow l (blockField c 37 34)))
        ∧ t.lnk l = ((s.lnk l).trainStep lane (s.trainCheck c drift.toNat) inv c).checkReady
        ∧ (∀ n : Nat, n ≠ l.val → t.lnk n = s.lnk n) ∧ t.recs = s.recs)
  ∧ (∀ (l : Fin 8) (lane : Fin 4) (b c : LaceBlock) (inv : Bool) (drift : BitVec 16) (s : State), trainOf b = some (inv, c) → (s.lnk l).idleRx = false →
      (s.lnk l).st = 2 → bitOf (s.lnk l).lanes lane = true → (s.lnk l).ready = true →
      (((s.lnk l).trainStep lane (s.trainCheck c drift.toNat) inv c).checkReady).ready = true →
      (∀ i : Nat, i < 4 → bitOf (s.lnk l).lanes i = true → 16 ≤ (((s.lnk l).trainStep lane (s.trainCheck c drift.toNat) inv c).readyCnt[i]?.getD 0)) →
      exec (.trainBlock l lane b drift) s = .next
        ((s.updLink l fun x => (x.trainStep lane (s.trainCheck c drift.toNat) inv c).checkReady).linkUpNow l (blockField c 37 34)))
  ∧ (∀ (s : State) (b : LaceBlock) (drift : Nat), s.trainCheck b drift =
      (if 1000 < drift then 3 else if blockField b 15 15 = 0 then 5 else if blockField b 33 16 = s.deviceId then 4 else 0))
  ∧ (∀ (x : LaceLink) (lane check : Nat) (inv : Bool) (b : LaceBlock), (x.trainStep lane check inv b).check = check
      ∧ (x.trainStep lane check inv b).plink = blockField b 12 10 ∧ (x.trainStep lane check inv b).map = x.map.set! lane (some (blockField b 9 8, inv)))
  ∧ (∀ (s : State) (l m : Nat), ((s.linkUpNow l m).lnk l).st = 3 ∧ ((s.linkUpNow l m).lnk l).rxMask = widthMask (s.lnk l).lanes
      ∧ ((s.linkUpNow l m).lnk l).txMask = widthMask m ∧ (((s.linkUpNow l m).lnk l).tx.map LaceTx.credits).toList = [256, 1024, 256]
      ∧ (((s.linkUpNow l m).lnk l).rx.map LaceRx.free).toList = [256, 1024, 256])
  ∧ (∀ (l : Fin 8) (b : LaceBlock) (skew : BitVec 16) (s : State), exec (.alignBlock l ⟨b, skew⟩) s = .next
      (if (s.lnk l).st = 2 ∧ ctrlType b = some 0x33 ∧ skew.toNat ≤ 16000 then
         (s.updLink l fun x => ({ x with deskew := x.lanes } : LaceLink).checkReady).laceOut l
           (.train 15 (if ({ s.lnk l with deskew := (s.lnk l).lanes } : LaceLink).checkReady.ready = true then 2 else if (s.lnk l).lanes = 0 then 0 else 1) (s.lnk l).lanes)
       else s))
  ∧ (∀ (l : Fin 8) (sig : BitVec 4) (s : State), exec (.trainingTimeout l sig) s = .next
      (let x := s.lnk l
       if x.st = 2 ∧ (x.attemptFrom + 10000000 ≤ s.time.now ∨ (sig.toNat = 0 ∧ x.sigSeen ≠ 0)) then
         (s.updLink l fun _ => { x with
           signal := sig.toNat
           sigEnd := sig.toNat
           ready := false
           waiting := decide (x.attempt < 8)
           waitTo := s.time.now + 10000000 * 2 ^ (x.attempt - 1)
           st := if x.attempt < 8 then 1 else 5 }).linkRecord l (x.failCause sig.toNat)
       else s))
  ∧ (∀ (l : Fin 8) (s : State), exec (.trainingBackoffEnd l) s = .next
      (if (s.lnk l).waiting = true ∧ (s.lnk l).waitTo ≤ s.time.now ∧ s.mayTrain l = true then s.startAttempt l ((s.lnk l).attempt + 1) else s))
  ∧ (∀ (l : Fin 8) (lane : Fin 4) (s : State), exec (.laneRetrain l lane) s = .next
      (if (s.lnk l).up = true ∧ bitOf (s.lnk l).lanes lane = false ∧ ((s.lnk l).lostAt[lane.val]?.getD 0) + 10000000 ≤ s.time.now then
         (s.updLink l fun x => { x with lostAt := x.lostAt.set! lane s.time.now }).laceOut l (.train (2 ^ lane.val) 0 (s.lnk l).lanes) else s))
  ∧ (∀ (l : Fin 8) (b : LaceBlock) (s : State), (ctrlType b ≠ some 0x99 ∨ (s.lnk l).up = false ∨ blockField b 11 8 = 0) →
      exec (.widthBlock l b) s = .next s)
  ∧ (∀ (l : Fin 8) (b : LaceBlock) (s : State), ctrlType b = some 0x99 → (s.lnk l).up = true → blockField b 11 8 ≠ 0 →
      (s.lnk l).reqMask = some (blockField b 11 8) →
      exec (.widthBlock l b) s = .next (s.updLink l fun x => { x with reqMask := none, rxMask := blockField b 11 8 }))
  ∧ (∀ (l : Fin 8) (b : LaceBlock) (s : State), ctrlType b = some 0x99 → (s.lnk l).up = true → blockField b 11 8 ≠ 0 →
      (s.lnk l).reqMask ≠ some (blockField b 11 8) → exec (.widthBlock l b) s = .next
        (let t := (s.updLink l fun x => { x with txMask := blockField b 11 8 }).laceOut l (.width (blockField b 11 8))
         let left := (lanesOf (s.lnk l).txMask).filter fun i => !bitOf (blockField b 11 8) i
         if left = [] then t else t.laceOut l (.train (left.foldl (fun m i => m + 2 ^ i) 0) 0 (s.lnk l).lanes)))
  ∧ (∀ (l : Fin 8) (s : State), exec (.lcRetrain l) s = .next (s.gate
      (if s.mayTrain l = false ∨ (s.lnk l).st = 6 then s
       else (if (s.lnk l).up = true then s.linkDown l 1 10 else s).startAttempt l 1)))
  ∧ (∀ (l : Fin 8) (s : State), exec (.lcRelease l) s = .next (s.gate (if (s.lnk l).st = 6 then s.endLaceQuar l else s))
      ∧ exec (.laceQuarantineEnd l) s = .next (if (s.lnk l).st = 6 ∧ (s.lnk l).holdTo ≤ s.time.now then s.endLaceQuar l else s))
  ∧ (∀ (s : State) (l : Nat), s.endLaceQuar l =
      (let t := s.updLink l fun x => { x with st := 1, vios := [] }
       if s.mayTrain l = true then t.startAttempt l 1 else t))
  ∧ (∀ (l : Fin 8) (s : State), exec (.idleEntry l) s = .next
      (if (s.lnk l).up = true ∧ (s.lnk l).idleTx = false ∧ s.flag Reg.LC_CFG.IDLE_EN [l] = true
          ∧ (s.lnk l).quietFrom + s.rd Reg.LC_CFG.IDLE_AFTER [l] * 1000 ≤ s.time.now
          ∧ s.lace.follow ≠ some l.val ∧ s.linkInJob l = false then
         ((s.updLink l fun x => { x with idleTx := true }).laceOut l .eidle).setLinkState l 4 0
       else s))
  ∧ (∀ (l : Fin 8) (b : LaceBlock) (s : State), exec (.eidleBlock ⟨l, b⟩) s = .next
      (if ctrlType b = some 0x66 ∧ (s.lnk l).up = true then
         (s.updLink l fun x => { x with idleRx := true, exitFrom := 0, relock := 0 }).setLinkState l 4 0 else s))
  ∧ (∀ (l : Fin 8) (s : State), ((s.lnk l).up = false ∨ (s.lnk l).idleTx = false) → exec (.idleExit l) s = .next s)
  ∧ (∀ (l : Fin 8) (s : State), (s.lnk l).up = true → (s.lnk l).idleTx = true →
      ((s.lnk l).tx.toList.any (fun t => !t.queue.isEmpty) = true ∨ (s.lnk l).txWait ≠ []) → exec (.idleExit l) s = .next
        (((((((s.updLink l fun x => { x with idleTx := false, quietFrom := s.time.now, txRow := (s.time.now + 70) * 16 }).laceOut l
          (.train (s.lnk l).txMask 2 (s.lnk l).lanes)).setLinkState l
          (if (s.lnk l).idleRx = true then 4 else 3) 0).lacePump l 0).lacePump l 1).lacePump l 2)))
  ∧ (∀ (l : Fin 8) (s : State), exec (.idleExitTimeout l) s = .next
      (if (s.lnk l).idleRx = true ∧ (s.lnk l).exitFrom ≠ 0 ∧ (s.lnk l).exitFrom + 199 ≤ s.time.now then s.linkDown l 1 14 else s))
  ∧ (∀ (l : Fin 8) (sig : BitVec 4) (s : State), (s.lnk l).st = 1 → (s.lnk l).waiting = false → s.mayTrain l = true → s.sys.ready = true →
      exec (.trainingAttempt l sig) s = .next ((s.updLink l fun x => { x with signal := sig.toNat }).startAttempt l 1))
  ∧ (∀ (l : Fin 8) (lane : Fin 4) (s : State), bitOf (s.lnk l).lanes lane = true → (s.lnk l).up = false → exec (.laneLockLoss l lane) s = .next
      ((s.updLink l fun x => { x with lanes := setBits x.lanes lane lane 0, lostAt := x.lostAt.set! lane s.time.now }).count Reg.LC_CNT.LOCKLOSS [l]))
  ∧ (∀ (l : Fin 8) (b : LaceBlock) (skew : BitVec 16) (s : State), (s.lnk l).st = 2 → ctrlType b = some 0x33 → skew.toNat ≤ 16000 →
      ∃ t : State, exec (.alignBlock l ⟨b, skew⟩) s = .next t ∧ (t.lnk l).deskew = (s.lnk l).lanes ∧ (∀ n : Nat, n ≠ l.val → t.lnk n = s.lnk n)
        ∧ t.regs = s.regs ∧ t.recs = s.recs)
  ∧ (∀ (l : Fin 8) (sig : BitVec 4) (s : State), (s.lnk l).st = 2 → (s.lnk l).attemptFrom + 10000000 ≤ s.time.now → (s.lnk l).attempt < 8 →
      ∃ t : State, exec (.trainingTimeout l sig) s = .next t ∧ (t.lnk l).st = 1 ∧ (t.lnk l).waiting = true
        ∧ (t.lnk l).waitTo = s.time.now + 10000000 * 2 ^ ((s.lnk l).attempt - 1) ∧ (∀ n : Nat, n ≠ l.val → t.lnk n = s.lnk n))
  ∧ (∀ (l : Fin 8) (sig : BitVec 4) (s : State), (s.lnk l).st = 2 → (s.lnk l).attemptFrom + 10000000 ≤ s.time.now → 8 ≤ (s.lnk l).attempt →
      ∃ t : State, exec (.trainingTimeout l sig) s = .next t ∧ (t.lnk l).st = 5 ∧ (t.lnk l).waiting = false ∧ (∀ n : Nat, n ≠ l.val → t.lnk n = s.lnk n))
  ∧ (∀ (l : Fin 8) (s : State), (s.lnk l).waiting = true → (s.lnk l).waitTo ≤ s.time.now → s.mayTrain l = true →
      exec (.trainingBackoffEnd l) s = .next (s.startAttempt l ((s.lnk l).attempt + 1)))
  ∧ (∀ (l : Fin 8) (lane : Fin 4) (s : State), (s.lnk l).up = true → bitOf (s.lnk l).lanes lane = false →
      ((s.lnk l).lostAt[lane.val]?.getD 0) + 10000000 ≤ s.time.now → exec (.laneRetrain l lane) s = .next
        ((s.updLink l fun x => { x with lostAt := x.lostAt.set! lane s.time.now }).laceOut l (.train (2 ^ lane.val) 0 (s.lnk l).lanes)))
  ∧ (∀ (l : Fin 8) (s : State), s.sys.ready = true → s.mayTrain l = true → (s.lnk l).st ≠ 6 → (s.lnk l).up = false →
      exec (.lcRetrain l) s = .next (s.startAttempt l 1))
  ∧ (∀ (l : Fin 8) (s : State), s.sys.ready = true → s.mayTrain l = true → (s.lnk l).up = true →
      exec (.lcRetrain l) s = .next ((s.linkDown l 1 10).startAttempt l 1))
  ∧ (∀ (l : Fin 8) (s : State), s.sys.ready = true → (s.lnk l).st = 6 → exec (.lcRelease l) s = .next (s.endLaceQuar l))
  ∧ (∀ (l : Fin 8) (s : State), (s.lnk l).st = 6 → (s.lnk l).holdTo ≤ s.time.now → exec (.laceQuarantineEnd l) s = .next (s.endLaceQuar l))
  ∧ (∀ (l : Fin 8) (s : State), (s.lnk l).up = true → (s.lnk l).idleTx = false → s.flag Reg.LC_CFG.IDLE_EN [l] = true →
      (s.lnk l).quietFrom + s.rd Reg.LC_CFG.IDLE_AFTER [l] * 1000 ≤ s.time.now → s.lace.follow ≠ some l.val → s.linkInJob l = false →
      exec (.idleEntry l) s = .next (((s.updLink l fun x => { x with idleTx := true }).laceOut l .eidle).setLinkState l 4 0))
  ∧ (∀ (l : Fin 8) (b : LaceBlock) (s : State), ctrlType b = some 0x66 → (s.lnk l).up = true → exec (.eidleBlock ⟨l, b⟩) s = .next
      ((s.updLink l fun x => { x with idleRx := true, exitFrom := 0, relock := 0 }).setLinkState l 4 0))
  ∧ (∀ (l : Fin 8) (s : State), (s.lnk l).idleRx = true → (s.lnk l).exitFrom ≠ 0 → (s.lnk l).exitFrom + 199 ≤ s.time.now →
      exec (.idleExitTimeout l) s = .next (s.linkDown l 1 14))

/-- ACK frees what it covers and returns credits; NAK and RESEND_TIMEOUT resend from a frame, unless it has been sent
eight times (R529, R530). A frame's blocks are its START, its data and its END with the CRC-32 of the frame (R503, R527,
R528); they come from the lanes of a row in ascending order (R505). A
frame of an up link is checked in order: framing, CRC, a repeat is acknowledged, a gap or missing space is
refused; an accepted one is acknowledged, its type's content checked, and it goes on by its route or is
taken (R529 to R532, R537). Taken: a DECISION's copies go to its sequencers, a TRIGGER's edges to those that
listen, a BARRIER is held, a BOUNDARY kept by both planes, a PROBE answered or passed on, a REPLY and a
SUMMARY kept for the build, TIME noted, a REJECT ignored, a TEST mismatch recorded in Diagnostic mode (R162,
R373, R400, R533 to R536, R702). TIME_FRAME_SEND sends the time once a millisecond; BEACON_SEND sends BCN0 and BCN1 at
whole microseconds; BCN0 notes times,
BCN1 makes the estimates (R540, R541). LACE_TIME_ALIGN aligns at a job boundary to the link followed (R542,
R543).
Completes: ack, nak, resendTimeout, decisionFrame, triggerFrame, barrierFrame, boundaryFrame, probe, reply,
summary, reject, timeFrame, testFrame, timeFrameSend, beaconSend, bcn0, bcn1, laceTimeAlign. (R400, R503, R505, R528, R529, R530, R531, R532, R534, R540, R541, R543) -/
def Obligations.LaceFramesAndBeacons : Prop :=
  (∀ (l : Fin 8) (h : BitVec 2) (ty : BitVec 8) (v : BitVec 56) (bad : Bool) (s : State),
    (linkctlOf 0 (blockParts h ty v) = none → exec (.ack l h ty v) s = .next s)
    ∧ (linkctlOf 1 (blockParts h ty v) = none → exec (.nak l h ty v bad) s = .next s))
  ∧ (∀ (nak : Nat) (b : LaceBlock), ctrlType b = some 0x4B → blockField b 10 10 = nak → blockField b 9 8 < 3 →
      linkctlOf nak b = some (blockField b 9 8, BitVec.ofNat 12 (blockField b 22 11), blockField b 33 23, blockField b 37 34))
  ∧ (∀ (l : Fin 8) (h : BitVec 2) (ty : BitVec 8) (v : BitVec 56) (vc cr c : Nat) (q : BitVec 12) (s : State),
    linkctlOf 0 (blockParts h ty v) = some (vc, q, cr, c) → exec (.ack l h ty v) s = .next
    (if (s.lnk l).up = true then
       (s.updTx l vc fun t => { t with sent := ackUpTo q t.sent, credits := t.credits + cr }).lacePump l vc else s))
  ∧ (∀ (l : Fin 8) (h : BitVec 2) (ty : BitVec 8) (v : BitVec 56) (bad : Bool) (vc cr c : Nat) (q : BitVec 12) (s : State),
      linkctlOf 1 (blockParts h ty v) = some (vc, q, cr, c) → exec (.nak l h ty v bad) s = .next
      (if (s.lnk l).up = true then
         ((s.updTx l vc fun t => { t with credits := if c = 3 then cr else t.credits + cr }).resendFrom l vc
           (fun f => f.seq == q) bad).lacePump l vc
       else s))
  ∧ (∀ (l : Fin 8) (vc : Fin 3) (bad : Bool) (s : State), ((s.lnk l).tx[vc]).sent = [] → exec (.resendTimeout ⟨l, vc⟩ bad) s = .next s)
  ∧ (∀ (l : Fin 8) (vc : Fin 3) (bad : Bool) (s : State) (e : LaceFrame × Nat × Nat) (rest : List (LaceFrame × Nat × Nat)),
      ((s.lnk l).tx[vc]).sent = e :: rest → exec (.resendTimeout ⟨l, vc⟩ bad) s = .next
        (if (s.lnk l).up = true ∧ e.2.1 + 2000 ≤ s.time.now then s.resendFrom l vc (fun _ => true) bad else s))
  ∧ (∀ (s : State) (l : Nat) (vc : Fin 3) (e : LaceFrame × Nat × Nat), ((s.lnk l).tx[vc]).sent = [e] → e.2.2 < 8 →
      s.resendFrom l vc (fun _ => true) false =
        ((s.updTx l vc fun t => { t with sent := [(e.1, s.time.now, e.2.2 + 1)] }).laceOut l (.frame e.1)).count Reg.LC_CNT.REPLAY [l])
  ∧ (∀ (s : State) (l ft : Nat) (w : LaceBlocks) (k : LaceFrame → State → State), (s.lnk l).up = false → s.rxRow l ft w k = s)
  ∧ (∀ (s : State) (l : Nat) (f : LaceFrame) (k : State → State), f.vc.toNat < 3 →
      f.seq = (((s.lnk l).rx[f.vc.toNat]?).getD {}).expect → f.data.length + 2 ≤ (((s.lnk l).rx[f.vc.toNat]?).getD {}).free →
      s.rxFrame l f 0 k =
        (let a := s.updLink l fun x => { x with quietFrom := s.time.now }
         let b := a.updRx l f.vc.toNat fun r => { r with expect := r.expect + 1, dropped := false }
         match contentFault f 0 with
         | some c => ((b.sendAck l f.vc.toNat f.seq.toNat (f.data.length + 2)).sendReject l c f).laceVio l c f
         | none =>
           if b.spaceHeld l f = true then ((b.updRx l f.vc.toNat fun r => { r with free := r.free - (f.data.length + 2) }).sendAck l f.vc.toNat
             f.seq.toNat 0).laceRoute l f k
           else (b.sendAck l f.vc.toNat f.seq.toNat (f.data.length + 2)).laceRoute l f k))
  ∧ (∀ (s : State) (l : Nat) (f : LaceFrame) (k : State → State), f.ftype ≠ 0x10 → f.hops.toNat ≤ f.hop.toNat → f.dest = s.deviceId →
      s.laceRoute l f k = k s)
  ∧ (∀ f : LaceFrame, (frameOf f.start f.data) = f)
  ∧ (∀ (f : LaceFrame) (w : LaceBlocks) (lane l : Nat) (s : State) (k : LaceFrame → State → State), (s.lnk l).opens = [] →
      s.rxBlock l lane w (ctrlBlock f.start) k = s.setOpens l [{ start := f.start }])
  ∧ (∀ (o : LaceOpen) (os : List LaceOpen) (v : BitVec 64) (w : LaceBlocks) (lane l : Nat) (s : State) (k : LaceFrame → State → State),
      (s.lnk l).opens = o :: os → s.rxBlock l lane w (dataBlock v) k = s.setOpens l ({ o with data := o.data ++ [v] } :: os))
  ∧ (∀ (o : LaceOpen) (os : List LaceOpen) (f : LaceFrame) (w : LaceBlocks) (lane l : Nat) (s : State) (k : LaceFrame → State → State),
      (s.lnk l).opens = o :: os → o.start = f.start → o.data = f.data → o.bad = 0 → w.mem = false →
      s.rxBlock l lane w (ctrlBlock f.fin) k =
        State.rxFrame (s.setOpens l os) l f (if f.ftype = 1 ∧ f.tokenBits = none then 9 else 0) (k f))
  ∧ (∀ (o : LaceOpen) (os : List LaceOpen) (b : LaceBlock) (w : LaceBlocks) (lane l : Nat) (s : State) (k : LaceFrame → State → State),
      (s.lnk l).opens = o :: os → b.extractLsb' 0 2 ≠ 1#2 → b.extractLsb' 0 2 ≠ 2#2 → o.data.length < (frameOf o.start []).len.toNat →
      s.rxBlock l lane w b k = s.setOpens l ({ o with data := o.data ++ [0], bad := if o.bad = 0 then (if w.lost.getLsbD lane = true then 11 else 1) else o.bad } :: os))
  ∧ (∀ (o : LaceOpen) (fin : BitVec 64), o.bad = 0 → fin.extractLsb' 8 32 ≠ (frameOf o.start o.data).crc → o.err fin = 2)
  ∧ (∀ (l : Fin 8) (w : LaceBlocks) (s : State),
      exec (.decisionFrame l w.blocks w.toLaceArrival) s = .next (s.rxRow l 1 w State.decisionIn)
      ∧ exec (.triggerFrame l w.blocks w.toLaceArrival) s = .next (s.rxRow l 2 w State.triggerIn)
      ∧ exec (.barrierFrame l w.blocks w.toLaceArrival) s = .next (s.rxRow l 3 w (fun f s => s.holdBarrier f))
      ∧ exec (.boundaryFrame l w.blocks w.toLaceArrival) s = .next (s.rxRow l 4 w (fun f s => s.boundaryFrame f))
      ∧ exec (.probe l w.blocks w.toLaceArrival) s = .next (s.rxRow l 0x10 w (fun f s => s.rxProbe l f))
      ∧ exec (.reply l w.blocks w.toLaceArrival) s = .next (s.rxRow l 0x11 w (fun f s => s.rxReply f))
      ∧ exec (.summary l w.blocks w.toLaceArrival) s = .next (s.rxRow l 0x20 w (fun f s => s.rxSummary f))
      ∧ exec (.reject l w.blocks w.toLaceArrival) s = .next (s.rxRow l 0x21 w (fun _ s => s))
      ∧ exec (.timeFrame l w.blocks w.toLaceArrival) s = .next (s.rxRow l 0x22 w (fun f s => s.timeIn l f)))
  ∧ (∀ (l : Fin 8) (w : LaceBlocks) (e : Word) (s : State), exec (.testFrame l w.blocks w.toLaceArrival e) s = .next (s.rxRow l 0x12 w fun _ s =>
      if s.diagnostic = true ∧ e ≠ 0 then s.postCoarse s.home 1012 0xA3 0 [(0x14, 1, l.val), (0x18, 4, e.toNat)] else s))
  ∧ (∀ (f : LaceFrame) (v : BitVec 64) (s : State), f.tokenBits = some v → tokenKnown (Token.ofNat v.toNat) = true →
      State.decisionIn f s = { s with planes.copies := s.planes.copies ++ (seqsOf (f.d 2)).map fun k =>
        (k, { Token.ofNat v.toNat with smp := s.tickLoSample (bitsOf v.toNat 15 0) }) })
  ∧ (∀ (f : LaceFrame) (s : State), State.triggerIn f s =
      s.sendEdge ((seqsOf (f.d 3)).filter fun k => s.rd Reg.SEQ_CFG.TRIG_SRC [k / 16, k % 16] == 25) 25
        ⟨stampOfWords (f.d 1) (f.d 2), s.tickOf (stampOfWords (f.d 1) (f.d 2)).time.abs + (if (stampOfWords (f.d 1) (f.d 2)).frac = 0 then 0 else 1)⟩)
  ∧ (∀ (f : LaceFrame) (l : Nat) (s : State), s.timeIn l f = s.updLink l fun x => { x with beat := { x.beat with
      whole := some ((stampOfWords (f.d 1) (f.d 2)).time.abs, s.time.now) } })
  ∧ (∀ (l : Fin 8) (s : State), exec (.timeFrameSend l) s = .next
      (if (s.lnk l).up = true ∧ (s.lnk l).timeAt + 1000000 ≤ s.time.now then
         (s.updLink l fun x => { x with timeAt := s.time.now }).laceQueue l
           (s.laceFrame [l.val] ((s.lnk l).partner.getD 0) 2 0x22 0 [s.nowStamp.bits % 2 ^ 64, s.nowStamp.bits / 2 ^ 64])
       else s))
  ∧ (∀ (l : Fin 8) (dep : BitVec 18) (s : State), exec (.beaconSend l dep) s = .next
      (if s.awake = true ∧ (s.lnk l).up = true ∧ (s.lnk l).idleTx = false ∧ s.time.dev.ns.toNat % 1000 = 0 then
         let t := (s.time.dev.ns.toNat * 65536 + dep.toNat) % (1000000000 * 65536)
         (s.laceOut l (.bcn0 (t % 65536) (t / 65536))).laceOut l (.bcn1 (match (s.lnk l).beat.d with
           | some d => wrapInt 32 d
           | none => 0x80000000) s.rank.1 s.rank.2.1 s.rank.2.2)
       else s))
  ∧ (∀ (l : Fin 8) (h : BitVec 2) (p : BitVec 64) (arr : BitVec 16) (s : State), exec (.bcn0 l h p arr) s = .next
      (let b : LaceBlock := p ++ h
       if ctrlType b = some 0x55 ∧ (s.lnk l).up = true then s.updLink l fun x => { x with beat := { x.beat with
         wait := some (blockField b 53 24 * 65536 + blockField b 23 8, s.time.dev.ns.toNat * 65536 + arr.toNat)
         d := some (halfSecond (((s.time.dev.ns.toNat * 65536 + arr.toNat : Nat) : Int) - ((blockField b 53 24 * 65536 + blockField b 23 8 : Nat) : Int))) } }
       else s))
  ∧ (∀ (l : Fin 8) (h : BitVec 2) (ty : BitVec 8) (d : BitVec 32) (r : BitVec 24) (s : State),
      (ctrlType (blockParts h ty (r ++ d)) ≠ some 0x5A ∨ (s.lnk l).beat.wait = none) → exec (.bcn1 l h ty d r) s = .next s)
  ∧ (∀ (l : Fin 8) (h : BitVec 2) (ty : BitVec 8) (d : BitVec 32) (r : BitVec 24) (s : State) (a b : Nat),
      let blk := blockParts h ty (r ++ d)
      ctrlType blk = some 0x5A →
      (s.lnk l).beat.wait = some (a, b) → blockField blk 39 8 ≠ 0x80000000 → ∃ t : State, exec (.bcn1 l h ty d r) s = .next (t.offsetCheck l)
        ∧ (t.lnk l).beat.wait = none ∧ (t.lnk l).beat.root = blockField blk 57 40 ∧ (t.lnk l).beat.rhops = blockField blk 61 58
        ∧ (t.lnk l).beat.ralign = (blockField blk 62 62 == 1)
        ∧ (t.lnk l).beat.thetas = (rndNearest (signedOf 32 (blockField blk 39 8) - halfSecond ((b : Int) - (a : Int)) - s.laceAsym l) 2 :: (s.lnk l).beat.thetas).take 64
        ∧ (t.lnk l).beat.theta = meanInt (t.lnk l).beat.thetas ∧ (∀ n : Nat, n ≠ l.val → t.lnk n = s.lnk n))
  ∧ (∀ s : State, (s.jobBoundary = false ∨ s.time.holding = true) → exec .laceTimeAlign s = .next s)
  ∧ (∀ (s : State) (l : Nat), s.jobBoundary = true → s.time.holding = false → s.followChoice = some l → s.lace.follow = some l →
      s.time.domain ≠ 0 → exec .laceTimeAlign s = .next
        (State.shiftThetas { (s.correctBy (s.laceOffset l)).1 with time.domain := if (s.lnk l).beat.ralign = true then 3 else 0 }
          (s.correctBy (s.laceOffset l)).2))
  ∧ (∀ (l : Fin 8) (h : BitVec 2) (ty : BitVec 8) (v : BitVec 56) (vc cr c : Nat) (q : BitVec 12) (s : State),
      linkctlOf 0 (blockParts h ty v) = some (vc, q, cr, c) → (s.lnk l).up = true → exec (.ack l h ty v) s = .next ((s.updTx l vc fun t => { t with sent := ackUpTo q t.sent, credits := t.credits + cr }).lacePump l vc))
  ∧ (∀ (l : Fin 8) (h : BitVec 2) (ty : BitVec 8) (v : BitVec 56) (vc cr c : Nat) (q : BitVec 12) (s : State),
      linkctlOf 1 (blockParts h ty v) = some (vc, q, cr, c) → (s.lnk l).up = true → exec (.nak l h ty v false) s = .next (((s.updTx l vc fun t => { t with credits := if c = 3 then cr else t.credits + cr }).resendFrom l vc
        (fun f => f.seq == q) false).lacePump l vc))
  ∧ (∀ (l : Fin 8) (vc : Fin 3) (s : State) (e : LaceFrame × Nat × Nat), ((s.lnk l).tx[vc]).sent = [e] → e.2.2 < 8 → (s.lnk l).up = true →
      e.2.1 + 2000 ≤ s.time.now → exec (.resendTimeout ⟨l, vc⟩ false) s = .next
        (((s.updTx l vc fun t => { t with sent := [(e.1, s.time.now, e.2.2 + 1)] }).laceOut l (.frame e.1)).count Reg.LC_CNT.REPLAY [l]))
  ∧ (∀ (l : Fin 8) (w : LaceBlocks) (e : Word) (f : LaceFrame) (s : State), w.blocks = f.blocks → w.mem = false → (s.lnk l).up = true →
      (s.lnk l).opens = [] → f.vc.toNat < 3 → f.seq = (((s.lnk l).rx[f.vc.toNat]?).getD {}).expect →
      f.data.length + 2 ≤ (((s.lnk l).rx[f.vc.toNat]?).getD {}).free → contentFault f 0 = none → f.hops.toNat ≤ f.hop.toNat →
      (f.ftype = 0x10 ∨ f.ftype = 0x12 ∨ f.dest = s.deviceId) → (f.ftype = 1 → f.tokenBits ≠ none) →
      let taken := ((s.setOpens l []).updLink l fun x => { x with quietFrom := s.time.now }).updRx l f.vc.toNat fun r =>
        { r with expect := r.expect + 1, dropped := false }
      let t := taken.sendAck l f.vc.toNat f.seq.toNat (f.data.length + 2)
      (f.ftype = 1 → exec (.decisionFrame l w.blocks w.toLaceArrival) s = .next (State.decisionIn f t))
      ∧ (f.ftype = 2 → exec (.triggerFrame l w.blocks w.toLaceArrival) s = .next (State.triggerIn f t))
      ∧ (f.ftype = 3 → exec (.barrierFrame l w.blocks w.toLaceArrival) s = .next (t.holdBarrier f))
      ∧ (f.ftype = 4 → exec (.boundaryFrame l w.blocks w.toLaceArrival) s = .next (t.boundaryFrame f))
      ∧ (f.ftype = 0x10 → exec (.probe l w.blocks w.toLaceArrival) s = .next (t.rxProbe l f))
      ∧ (f.ftype = 0x11 → exec (.reply l w.blocks w.toLaceArrival) s = .next (t.rxReply f))
      ∧ (f.ftype = 0x20 → exec (.summary l w.blocks w.toLaceArrival) s = .next (t.rxSummary f))
      ∧ (f.ftype = 0x21 → exec (.reject l w.blocks w.toLaceArrival) s = .next t)
      ∧ (f.ftype = 0x22 → exec (.timeFrame l w.blocks w.toLaceArrival) s = .next (t.timeIn l f))
      ∧ (f.ftype = 0x12 → e = 0 → exec (.testFrame l w.blocks w.toLaceArrival e) s = .next t)
      ∧ (f.ftype = 0x12 → e ≠ 0 → t.diagnostic = true → exec (.testFrame l w.blocks w.toLaceArrival e) s = .next
        (t.postCoarse t.home 1012 0xA3 0 [(0x14, 1, l.val), (0x18, 4, e.toNat)])))
  ∧ (∀ (l : Fin 8) (s : State), (s.lnk l).up = true → (s.lnk l).timeAt + 1000000 ≤ s.time.now → exec (.timeFrameSend l) s = .next
      ((s.updLink l fun x => { x with timeAt := s.time.now }).laceQueue l
        (s.laceFrame [l.val] ((s.lnk l).partner.getD 0) 2 0x22 0 [s.nowStamp.bits % 2 ^ 64, s.nowStamp.bits / 2 ^ 64])))
  ∧ (∀ (l : Fin 8) (dep : BitVec 18) (s : State), s.awake = true → (s.lnk l).up = true → (s.lnk l).idleTx = false →
      s.time.dev.ns.toNat % 1000 = 0 → exec (.beaconSend l dep) s = .next
        (let v := (s.time.dev.ns.toNat * 65536 + dep.toNat) % (1000000000 * 65536)
         (s.laceOut l (.bcn0 (v % 65536) (v / 65536))).laceOut l (.bcn1 (match (s.lnk l).beat.d with
           | some d => wrapInt 32 d
           | none => 0x80000000) s.rank.1 s.rank.2.1 s.rank.2.2)))
  ∧ (∀ (l : Fin 8) (h : BitVec 2) (p : BitVec 64) (arr : BitVec 16) (s : State),
      let b : LaceBlock := p ++ h
      ctrlType b = some 0x55 → (s.lnk l).up = true → ∃ t : State, exec (.bcn0 l h p arr) s = .next t ∧ (t.lnk l).beat.wait =
        some (blockField b 53 24 * 65536 + blockField b 23 8, s.time.dev.ns.toNat * 65536 + arr.toNat) ∧ t.regs = s.regs ∧ t.recs = s.recs)
  ∧ (∀ (x : LaceLink), x.txMask = 15 → x.bcnWait = [] → x.txWait ≠ [] → x.takeRow.1.length = 4 ∧ x.takeRow.1.head? = (x.txWait.head?.map (·.2))
      ∧ x.takeRow.2 = { x with txWait := x.txWait.drop 4 })

/-- A message on a port that is enabled, has its link and has not quarantined the sender is checked in order:
version, length, reserved type, configured domain (else ignored and counted), mode OFF, nanoseconds, delay
mechanism; each fault is a violation with its cause (R550, R570). A transparent clock forwards a Sync, its
Follow_Up or a Delay_Req with the residence time added (R555); a slave takes the Sync of its master (R556);
a master answers Delay_Req; Pdelay_Req is answered in every mode but OFF (R551, R554); the answers give the
path delay, taken only from 0 to 1 ms (R556, R570); two consecutive Announces select a master (R551).
SYNC_SEND, ANNOUNCE_SEND and DELAY_REQ_SEND send in their mode with the next sequence number (R551, R553);
MEMBERSHIP_REPORT brings the link up, TIMING_PORT_LINK_DOWN takes it down; an ignored or dropped message of
an enabled port is counted (R550); PTP_QUARANTINE_END frees a peer whose hold is over (R571).
Completes: ptpSync, followUp, delayReq, delayResp, pdelayReq, pdelayResp, pdelayRespFollowUp, announce,
ptpIgnoredMessage, syncSend, announceSend, delayReqSend, membershipReport, timingPortLinkDown, ptpQuarantineEnd. (R550, R551, R553, R554, R555, R556, R570, R571) -/
def Obligations.NetworkTimeMessages : Prop :=
  (∀ (s : State) (n t : Nat) (m : PtpMsg) (frac : BitVec 16) (k : Nat → Nat → State), s.ptpRx n t m frac k =
    (if s.flag Reg.TP_CFG.EN [n] = false ∨ (s.port n).link = false ∨ (s.port n).quarantined m.id = true then s
     else if m.major ≠ 2 then s.ptpVio n 1 m frac
     else if m.badLen = true then s.ptpVio n 2 m frac
     else if (4 ≤ m.mtype.toNat ∧ m.mtype.toNat ≤ 7) ∨ 14 ≤ m.mtype.toNat then s.ptpVio n 3 m frac
     else if m.mtype.toNat ≠ t then s
     else match s.ptpDomain m with
       | none => s.count Reg.TP_CNT.IGN [n]
       | some d =>
         if s.ptpMode n d = 0 then s
         else if 1000000000 ≤ m.ns.toNat then s.ptpVio n 4 m frac
         else if ptpWrongDelay t (s.peerDelay n d) = true then s.ptpVio n 5 m frac
         else k d (s.ptpMode n d)))
  ∧ (∀ (n : Fin 2) (m : PtpMsg) (frac : BitVec 16) (res : Word) (s : State), exec (.ptpSync n m frac res) s = .next
      (s.ptpRx n 0 m frac fun d mode =>
        if mode = 3 then
          (if m.twoStep = true then
            (s.updPortDom n d fun p => { p with resid := some (m.id, m.seq.toNat, res.toNat) }).ptpForward n d m
          else s.ptpForward n d { m with corr := m.corr + res.toNat })
        else if mode = 1 ∧ (s.portDom n d).master = some m.id then
          (if m.twoStep = true then (s.syncHeard d).updPortDom n d fun p => { p with
             sync := some (m.seq.toNat, (s.syncHeard d).tickTime frac, (s.syncHeard d).devTime frac, m.corr) }
           else (s.syncHeard d).syncPair n d ((s.syncHeard d).tickTime frac) ((s.syncHeard d).devTime frac) (m.stamp + m.corr))
        else s))
  ∧ (∀ (n : Fin 2) (m : PtpMsg) (s : State), exec (.followUp n m) s = .next (s.ptpRx n 8 m 0 fun d mode => s.followUp n m d mode))
  ∧ (∀ (s : State) (n d q : Nat) (m : PtpMsg) (t2 dev c : Int), (s.portDom n d).master = some m.id →
      (s.portDom n d).sync = some (q, t2, dev, c) →
      s.followUp n m d 1 = if q = m.seq.toNat then s.syncPair n d t2 dev (m.stamp + c + m.corr) else s)
  ∧ (∀ (s : State) (n d : Nat) (m : PtpMsg), (s.portDom n d).resid = none → s.followUp n m d 3 = s.ptpForward n d m)
  ∧ (∀ (s : State) (n d q : Nat) (r : Int) (m : PtpMsg), (s.portDom n d).resid = some (m.id, q, r) → s.followUp n m d 3 =
      if q = m.seq.toNat then (s.updPortDom n d fun p => { p with resid := none }).ptpForward n d { m with corr := m.corr + r }
      else s.ptpForward n d m)
  ∧ (∀ (s : State) (n d : Nat) (m : PtpMsg), s.ptpForward n d m =
      if s.flag Reg.TP_CFG.EN [1 - n] = true ∧ (s.port (1 - n)).link = true then s.ptpOut (1 - n) d m else s)
  ∧ (∀ (s : State) (n d : Nat) (t2 dev t1 : Int) (x : Int),
      ((s.updPortDom n d fun p => { p with pair := some (t2, t1 + s.ptpAsym n), sync := none }).portDom n d).delay = some x →
      s.syncPair n d t2 dev t1 = (s.updPortDom n d fun p => { p with pair := some (t2, t1 + s.ptpAsym n), sync := none }).addSample n d
        (dev - (t1 + signedOf 32 (s.rd Reg.TP_ASYM.ASYM [n])) - x))
  ∧ (∀ (n : Fin 2) (m : PtpMsg) (frac : BitVec 16) (res : Word) (s : State), exec (.delayReq n m frac res) s = .next
      (s.ptpRx n 1 m frac fun d mode =>
        if mode = 3 then s.ptpForward n d { m with corr := m.corr + res.toNat }
        else if mode = 2 then
          let r := ({ s.ptpMsg n d 9 m.seq.toNat with req := BitVec.ofNat 80 m.id } : PtpMsg).withTime (s.devTime frac + s.estimate d)
          s.ptpOut n d { r with corr := m.corr - r.corr }
        else s))
  ∧ (∀ (n : Fin 2) (m : PtpMsg) (s : State), exec (.delayResp n m) s = .next (s.ptpRx n 9 m 0 fun d mode =>
      if mode = 3 then s.ptpForward n d m
      else if mode = 1 ∧ (s.portDom n d).master = some m.id then
        match s.ours n d m, (s.portDom n d).pair with
        | some t3, some (t2, t1) => s.pathDelay n d m 0 ((t2 - t3) + (m.stamp - t1) - m.corr)
        | _, _ => s
      else s))
  ∧ (∀ (s : State) (n d : Nat) (m : PtpMsg) (frac : BitVec 16) (twice : Int), s.pathDelay n d m frac twice =
      (if 0 ≤ twice ∧ twice ≤ 2 * 1000000 * 65536 then
         s.updPortDom n d fun p => { p with delay := some (rndNearest twice 2), req := none, presp := none }
       else s.ptpVio n 6 m frac))
  ∧ (∀ (n : Fin 2) (m : PtpMsg) (frac : BitVec 16) (turn : Word) (s : State), exec (.pdelayReq n m frac turn) s = .next
      (s.ptpRx n 2 m frac fun d _ =>
        let r : PtpMsg := { s.ptpMsg n d 3 m.seq.toNat with req := BitVec.ofNat 80 m.id }
        if s.flag Reg.TP_CFG.ONE_STEP [n] = true then s.ptpOut n d { r with corr := m.corr + turn.toNat }
        else (s.ptpOut n d { r.withTime (s.devTime frac) with twoStep := true, corr := -(r.withTime (s.devTime frac)).corr }).ptpOut n
          d (({ r with mtype := 10, corr := m.corr } : PtpMsg).withTime (s.devTime frac + turn.toNat))))
  ∧ (∀ (n : Fin 2) (m : PtpMsg) (frac : BitVec 16) (s : State), exec (.pdelayResp n m frac) s = .next (s.ptpRx n 3 m frac fun d _ =>
      match s.ours n d m with
      | none => s
      | some t1 =>
        if m.twoStep = true then s.updPortDom n d fun p => { p with presp := some (s.tickTime frac, m.stamp, m.corr + s.ptpAsym n) }
        else s.pathDelay n d m frac (s.tickTime frac - t1 - (m.corr + s.ptpAsym n))))
  ∧ (∀ (n : Fin 2) (m : PtpMsg) (s : State), exec (.pdelayRespFollowUp n m) s = .next (s.ptpRx n 10 m 0 fun d _ =>
      match s.ours n d m, (s.portDom n d).presp with
      | some t1, some (t4, t2, c) => s.pathDelay n d m 0 ((t4 - t1) - (m.stamp - t2) - c - m.corr)
      | _, _ => s))
  ∧ (∀ (n : Fin 2) (m : PtpMsg) (s : State), exec (.announce n m) s = .next (s.ptpRx n 11 m 0 fun d mode => s.announce n m d mode))
  ∧ (∀ (s : State) (n d : Nat) (m : PtpMsg), (s.portDom n d).master = none → s.announce n m d 1 =
      if (m.id, (m.seq - 1).toNat) ∈ (s.portDom n d).cands then s.updPortDom n d fun p => { p with
        master := some m.id
        cands := []
        lastAnn := s.time.now
        parent := some m
        delay := if s.peerDelay n d = true then p.delay else none
        pair := none
        req := none }
      else s.updPortDom n d fun p => { p with cands := (m.id, m.seq.toNat) :: p.cands.filter fun c => c.1 ≠ m.id })
  ∧ (∀ (n : Fin 2) (drop : Bool) (s : State), exec (.ptpIgnoredMessage n drop) s = .next
      (if s.flag Reg.TP_CFG.EN [n.val] = true then s.count (if drop = true then Reg.TP_CNT.DROP else Reg.TP_CNT.IGN) [n.val] else s))
  ∧ (∀ (n d : Fin 2) (frac : BitVec 16) (s : State), exec (.syncSend n d frac) s = .next
      (if s.sends n d 2 = true ∧ s.intervalOver (s.portDom n d).syncAt (s.rd Reg.DOM_CFG.LOG_SYNC [d]) = true then
         let m := (s.ptpMsg n d 0 (s.portDom n d).nextSeq.toNat).withTime (s.devTime frac + s.estimate d)
         let t := s.updPortDom n d fun p => { p with nextSeq := p.nextSeq + 1, syncAt := some s.time.now }
         if s.flag Reg.TP_CFG.ONE_STEP [n] = true then t.ptpOut n d m
         else (t.ptpOut n d { m with twoStep := true, corr := 0 }).ptpOut n d { m with mtype := 8 }
       else s))
  ∧ (∀ (n d : Fin 2) (s : State), exec (.announceSend n d) s = .next
      (if s.sends n d 2 = true ∧ s.intervalOver (s.portDom n d).annAt (s.rd Reg.DOM_CFG.LOG_ANN [d]) = true then
         (s.ptpOut n d (s.announceMsg n d)).updPortDom n d fun p => { p with annSeq := p.annSeq + 1, annAt := some s.time.now } else s))
  ∧ (∀ (n d : Fin 2) (frac : BitVec 16) (s : State), exec (.delayReqSend n d frac) s = .next
      (if s.sends n d 1 = true ∧ (s.peerDelay n d = true ∨ (s.portDom n d).master.isSome = true)
          ∧ s.intervalOver (s.portDom n d).dreqAt (s.rd Reg.DOM_CFG.LOG_DREQ [d]) = true then
         (s.updPortDom n d fun p => { p with
           nextSeq := (s.portDom n d).nextSeq + 1
           req := some ((s.portDom n d).nextSeq.toNat, s.tickTime frac)
           presp := none
           dreqAt := some s.time.now }).ptpOut n
             d { s.ptpMsg n d (if s.peerDelay n d = true then 2 else 1) (s.portDom n d).nextSeq.toNat with corr := -s.ptpAsym n }
       else s))
  ∧ (∀ (n : Fin 2) (s : State), exec (.membershipReport n) s = .next
      (if s.flag Reg.TP_CFG.EN [n] = true ∧ ((s.port n).link = false ∨ (s.port n).reportAt + 60000000000 ≤ s.time.now) then
         (match s.rd Reg.TP_CFG.TRANS [n] with
          | 1 => (s.updPort n fun p => { p with link := true, reportAt := s.time.now }).netOut n (.report 0)
          | 2 => (s.updPort n fun p => { p with link := true, reportAt := s.time.now }).netOut n (.report 1)
          | _ => s.updPort n fun p => { p with link := true, reportAt := s.time.now })
       else s)
      ∧ exec (.timingPortLinkDown n) s = .next (s.updPort n fun p => { p with link := false }))
  ∧ (∀ (n : Fin 2) (peer : BitVec 80) (s : State), exec (.ptpQuarantineEnd n peer) s = .next
      (s.updPort n fun p => { p with peers := p.peers.map fun x =>
        if x.id = peer.toNat ∧ x.quarTo ≠ 0 ∧ x.quarTo ≤ s.time.now then { x with quarTo := 0, vios := [] } else x }))
  ∧ (∀ (n : Fin 2) (m : PtpMsg) (frac : BitVec 16) (res : Word) (d : Nat) (s : State), s.ptpTakes n 0 m d →
      (s.ptpMode n d = 3 → m.twoStep = false → exec (.ptpSync n m frac res) s = .next (s.ptpForward n d { m with corr := m.corr + res.toNat }))
      ∧ (s.ptpMode n d = 3 → m.twoStep = true → exec (.ptpSync n m frac res) s = .next
        ((s.updPortDom n d fun p => { p with resid := some (m.id, m.seq.toNat, res.toNat) }).ptpForward n d m))
      ∧ (s.ptpMode n d = 1 → (s.portDom n d).master = some m.id → m.twoStep = false → exec (.ptpSync n m frac res) s = .next
        ((s.syncHeard d).syncPair n d ((s.syncHeard d).tickTime frac) ((s.syncHeard d).devTime frac) (m.stamp + m.corr)))
      ∧ (s.ptpMode n d = 1 → (s.portDom n d).master = some m.id → m.twoStep = true → exec (.ptpSync n m frac res) s = .next
        ((s.syncHeard d).updPortDom n d fun p => { p with
          sync := some (m.seq.toNat, (s.syncHeard d).tickTime frac, (s.syncHeard d).devTime frac, m.corr) })))
  ∧ (∀ (n : Fin 2) (m : PtpMsg) (d : Nat) (t2 dev c : Int) (s : State), s.ptpTakes n 8 m d → s.ptpMode n d = 1 →
      (s.portDom n d).master = some m.id → (s.portDom n d).sync = some (m.seq.toNat, t2, dev, c) →
      exec (.followUp n m) s = .next (s.syncPair n d t2 dev (m.stamp + c + m.corr)))
  ∧ (∀ (n : Fin 2) (m : PtpMsg) (d : Nat) (r : Int) (s : State), s.ptpTakes n 8 m d → s.ptpMode n d = 3 →
      (s.portDom n d).resid = some (m.id, m.seq.toNat, r) → exec (.followUp n m) s = .next
        ((s.updPortDom n d fun p => { p with resid := none }).ptpForward n d { m with corr := m.corr + r }))
  ∧ (∀ (n : Fin 2) (m : PtpMsg) (frac : BitVec 16) (res : Word) (d : Nat) (s : State), s.ptpTakes n 1 m d →
      (s.ptpMode n d = 3 → exec (.delayReq n m frac res) s = .next (s.ptpForward n d { m with corr := m.corr + res.toNat }))
      ∧ (s.ptpMode n d = 2 → exec (.delayReq n m frac res) s = .next
        (let r := ({ s.ptpMsg n d 9 m.seq.toNat with req := BitVec.ofNat 80 m.id } : PtpMsg).withTime (s.devTime frac + s.estimate d)
         s.ptpOut n d { r with corr := m.corr - r.corr })))
  ∧ (∀ (n : Fin 2) (m : PtpMsg) (d : Nat) (s : State), s.ptpTakes n 9 m d →
      (s.ptpMode n d = 3 → exec (.delayResp n m) s = .next (s.ptpForward n d m))
      ∧ (∀ t3 t2 t1 : Int, s.ptpMode n d = 1 → (s.portDom n d).master = some m.id → s.ours n d m = some t3 →
        (s.portDom n d).pair = some (t2, t1) → exec (.delayResp n m) s = .next (s.pathDelay n d m 0 ((t2 - t3) + (m.stamp - t1) - m.corr))))
  ∧ (∀ (n : Fin 2) (m : PtpMsg) (frac : BitVec 16) (turn : Word) (d : Nat) (s : State), s.ptpTakes n 2 m d →
      let r : PtpMsg := { s.ptpMsg n d 3 m.seq.toNat with req := BitVec.ofNat 80 m.id }
      (s.flag Reg.TP_CFG.ONE_STEP [n] = true → exec (.pdelayReq n m frac turn) s = .next (s.ptpOut n d { r with corr := m.corr + turn.toNat }))
      ∧ (s.flag Reg.TP_CFG.ONE_STEP [n] = false → exec (.pdelayReq n m frac turn) s = .next
        ((s.ptpOut n d { r.withTime (s.devTime frac) with twoStep := true, corr := -(r.withTime (s.devTime frac)).corr }).ptpOut n
          d (({ r with mtype := 10, corr := m.corr } : PtpMsg).withTime (s.devTime frac + turn.toNat)))))
  ∧ (∀ (n : Fin 2) (m : PtpMsg) (frac : BitVec 16) (d : Nat) (t1 : Int) (s : State), s.ptpTakes n 3 m d → s.ours n d m = some t1 →
      (m.twoStep = true → exec (.pdelayResp n m frac) s = .next
        (s.updPortDom n d fun p => { p with presp := some (s.tickTime frac, m.stamp, m.corr + s.ptpAsym n) }))
      ∧ (m.twoStep = false → exec (.pdelayResp n m frac) s = .next
        (s.pathDelay n d m frac (s.tickTime frac - t1 - (m.corr + s.ptpAsym n)))))
  ∧ (∀ (n : Fin 2) (m : PtpMsg) (d : Nat) (t1 t4 t2 c : Int) (s : State), s.ptpTakes n 10 m d → s.ours n d m = some t1 →
      (s.portDom n d).presp = some (t4, t2, c) →
      exec (.pdelayRespFollowUp n m) s = .next (s.pathDelay n d m 0 ((t4 - t1) - (m.stamp - t2) - c - m.corr)))
  ∧ (∀ (n : Fin 2) (m : PtpMsg) (d : Nat) (s : State), s.ptpTakes n 11 m d →
      (s.ptpMode n d = 3 → exec (.announce n m) s = .next (s.ptpForward n d m))
      ∧ (s.ptpMode n d = 1 → (s.portDom n d).master = some m.id → exec (.announce n m) s = .next
        (s.updPortDom n d fun p => { p with lastAnn := s.time.now, parent := some m }))
      ∧ (s.ptpMode n d = 1 → (s.portDom n d).master = none → (m.id, (m.seq - 1).toNat) ∈ (s.portDom n d).cands →
        exec (.announce n m) s = .next (s.updPortDom n d fun p => { p with
          master := some m.id
          cands := []
          lastAnn := s.time.now
          parent := some m
          delay := if s.peerDelay n d = true then p.delay else none
          pair := none
          req := none })))
  ∧ (∀ (n : Fin 2) (drop : Bool) (s : State), s.flag Reg.TP_CFG.EN [n.val] = true → exec (.ptpIgnoredMessage n drop) s = .next
      (s.count (if drop = true then Reg.TP_CNT.DROP else Reg.TP_CNT.IGN) [n.val]))
  ∧ (∀ (n d : Fin 2) (frac : BitVec 16) (s : State), s.sends n d 2 = true →
      s.intervalOver (s.portDom n d).syncAt (s.rd Reg.DOM_CFG.LOG_SYNC [d]) = true → exec (.syncSend n d frac) s = .next
        (let m := (s.ptpMsg n d 0 (s.portDom n d).nextSeq.toNat).withTime (s.devTime frac + s.estimate d)
         let t := s.updPortDom n d fun p => { p with nextSeq := p.nextSeq + 1, syncAt := some s.time.now }
         if s.flag Reg.TP_CFG.ONE_STEP [n] = true then t.ptpOut n d m
         else (t.ptpOut n d { m with twoStep := true, corr := 0 }).ptpOut n d { m with mtype := 8 }))
  ∧ (∀ (n d : Fin 2) (s : State), s.sends n d 2 = true → s.intervalOver (s.portDom n d).annAt (s.rd Reg.DOM_CFG.LOG_ANN [d]) = true →
      exec (.announceSend n d) s = .next ((s.ptpOut n d (s.announceMsg n d)).updPortDom n d fun p => { p with annSeq := p.annSeq + 1, annAt := some s.time.now }))
  ∧ (∀ (n d : Fin 2) (frac : BitVec 16) (s : State), s.sends n d 1 = true → (s.peerDelay n d = true ∨ (s.portDom n d).master.isSome = true) →
      s.intervalOver (s.portDom n d).dreqAt (s.rd Reg.DOM_CFG.LOG_DREQ [d]) = true → exec (.delayReqSend n d frac) s = .next
        ((s.updPortDom n d fun p => { p with
           nextSeq := (s.portDom n d).nextSeq + 1
           req := some ((s.portDom n d).nextSeq.toNat, s.tickTime frac)
           presp := none
           dreqAt := some s.time.now }).ptpOut n
             d { s.ptpMsg n d (if s.peerDelay n d = true then 2 else 1) (s.portDom n d).nextSeq.toNat with corr := -s.ptpAsym n }))
  ∧ (∀ (n : Fin 2) (s : State), s.flag Reg.TP_CFG.EN [n] = true →
      ((s.port n).link = false ∨ (s.port n).reportAt + 60000000000 ≤ s.time.now) → exec (.membershipReport n) s = .next
        (match s.rd Reg.TP_CFG.TRANS [n] with
          | 1 => (s.updPort n fun p => { p with link := true, reportAt := s.time.now }).netOut n (.report 0)
          | 2 => (s.updPort n fun p => { p with link := true, reportAt := s.time.now }).netOut n (.report 1)
          | _ => s.updPort n fun p => { p with link := true, reportAt := s.time.now }))
  ∧ (∀ (n : Fin 2) (peer : BitVec 80) (s : State), (s.port n).peers ≠ [] → ((s.port n).peers.all fun x => x.id == peer.toNat && x.quarTo != 0
      && decide (x.quarTo ≤ s.time.now)) = true → exec (.ptpQuarantineEnd n peer) s = .next
        (s.updPort n fun p => { p with peers := p.peers.map fun x => { x with quarTo := 0, vios := [] } }))

/-- ANNOUNCE_TIMEOUT loses a master after three intervals, DOMAIN_LOST a domain after three Sync intervals, with
the servo record (R551, R560). TIME_CORRECT corrects device time by the active, locked domain's estimate at
a job boundary when it reaches CMIN (R558); DOMAIN_SWITCH releases or takes a domain at a job boundary
(R559, R561, R562). PPS_EDGE notes the offset, accepts an edge within 1 ms and samples it; PPS_MISSING
declares the input lost after 1.5 s (R564, R565). TIMER_ARM takes the timer's registers, its WID and PIN
clamped (R567, R572, R573), a periodic one skipping past times (R568); TIMER_FIRE at the fire time sends its
edge, drives its pin, counts, and re-arms a periodic timer (R566, R569); TIMER_PULSE_END ends its pulse;
TIMER_DISARM disarms it.
Completes: announceTimeout, domainLost, timeCorrect, domainSwitch, ppsEdge, ppsMissing, timerArm, timerDisarm,
timerFire, timerPulseEnd. (R551, R558, R559, R560, R561, R564, R565, R566, R567, R568, R572, R573) -/
def Obligations.ServoPpsAndTimers : Prop :=
  (∀ (n d : Fin 2) (s : State), exec (.announceTimeout n d) s = .next
    (if (s.portDom n d).master.isSome = true ∧ (s.portDom n d).lastAnn + 3 * logTicks (s.rd Reg.DOM_CFG.LOG_ANN [d]) ≤ s.time.now then
       s.masterLost n d 4 else s))
  ∧ (∀ (d : Fin 2) (s : State), exec (.domainLost d) s = .next
      (if ((s.domSt d).st = 1 ∨ (s.domSt d).st = 2) ∧ (s.domSt d).lastSync + 3 * logTicks (s.rd Reg.DOM_CFG.LOG_SYNC [d]) ≤ s.time.now then
         (s.updDom d fun m => { m with st := 3 }).servoRecord d 2 (s.estimate d)
       else s))
  ∧ (logTicks 0 = 1000000000 ∧ logTicks 1 = 2000000000 ∧ logTicks 0xF = 500000000 ∧ logTicks 0xD = 125000000)
  ∧ (∀ s : State, (s.net.active = 0 ∨ s.time.domain = 0 ∨ (s.domSt (s.net.active - 1)).st ≠ 2 ∨ s.jobBoundary = false
        ∨ s.time.holding = true) → exec .timeCorrect s = .next s)
  ∧ (∀ s : State, s.net.active ≠ 0 → s.time.domain ≠ 0 → (s.domSt (s.net.active - 1)).st = 2 → s.jobBoundary = true →
      s.time.holding = false → exec .timeCorrect s = .next
        (if s.rd Reg.TM_SERVO.CMIN [] * 65536 ≤ (s.estimate (s.net.active - 1)).natAbs * 1000
            ∧ (s.job.phase = .armed ∨ (s.domSt (s.net.active - 1)).fresh = true) then
           (s.updDom (s.net.active - 1) fun m => { m with
             fresh := decide ((splitCorr (-s.estimate (s.net.active - 1))).1 < -1000) }).applyEstimate (s.estimate (s.net.active - 1)) else s))
  ∧ (∀ (s : State) (e : Int), s.applyEstimate e = (s.correctBy (-e)).1.shiftSamples (s.correctBy (-e)).2)
  ∧ (∀ s : State, (s.jobBoundary = false ∨ s.time.holding = true) → exec .domainSwitch s = .next s)
  ∧ (∀ s : State, s.jobBoundary = true → s.time.holding = false → s.net.switchReq = true → s.rd Reg.TM_CFG.SRC [] = 0 →
      ∃ t : State, exec .domainSwitch s = .next t ∧ t.net.active = 0 ∧ t.net.switchReq = false ∧ t.net.ppsPhase = false
        ∧ t.time = s.time ∧ t.net.ports = s.net.ports ∧ t.net.timers = s.net.timers ∧ t.regs = s.regs)
  ∧ (∀ (s : State) (a c : Nat), s.jobBoundary = true → s.time.holding = false → ¬ (s.net.switchReq = true ∧ s.rd Reg.TM_CFG.SRC [] = 0) →
      s.switchDue = some (a, c) → (s.time.domain ≠ 0 ∨ s.idle = true) → exec .domainSwitch s = .next (s.switchTo a c))
  ∧ (∀ (falling : Bool) (frac : BitVec 16) (s : State), (s.flag Reg.TM_PPS.EDGE [] ≠ falling ∨ s.rd Reg.TM_PPS.MODE [] = 0) →
      exec (.ppsEdge ⟨falling, frac⟩) s = .next s)
  ∧ (∀ (falling : Bool) (frac : BitVec 16) (s : State), s.flag Reg.TM_PPS.EDGE [] = falling → s.rd Reg.TM_PPS.MODE [] ≠ 0 →
      65536000 < (s.ppsOffset frac).natAbs → exec (.ppsEdge ⟨falling, frac⟩) s = .next { s with net.ppsOfs := s.ppsOffset frac })
  ∧ (∀ (falling : Bool) (frac : BitVec 16) (s : State), s.flag Reg.TM_PPS.EDGE [] = falling → s.rd Reg.TM_PPS.MODE [] ≠ 0 →
      (s.ppsOffset frac).natAbs ≤ 65536000 → s.net.ppsMiss = false → exec (.ppsEdge ⟨falling, frac⟩) s = .next (State.ppsSample { s with
        net.ppsOfs := s.ppsOffset frac
        net.ppsOk := true
        net.ppsMiss := false
        net.ppsLast := s.time.now } (s.ppsOffset frac)))
  ∧ (∀ (falling : Bool) (frac : BitVec 16) (s : State), s.flag Reg.TM_PPS.EDGE [] = falling → s.rd Reg.TM_PPS.MODE [] ≠ 0 →
      (s.ppsOffset frac).natAbs ≤ 65536000 → s.net.ppsMiss = true → exec (.ppsEdge ⟨falling, frac⟩) s = .next
        ((State.ppsRecord { s with
          net.ppsOfs := s.ppsOffset frac
          net.ppsOk := true
          net.ppsMiss := false
          net.ppsLast := s.time.now } { s.nowStamp with frac := frac } 0 1).ppsSample (s.ppsOffset frac)))
  ∧ (∀ s : State, (s.rd Reg.TM_PPS.MODE [] = 0 ∨ s.net.ppsMiss = true ∨ s.time.now < s.net.ppsLast + 1500000000) →
      exec .ppsMissing s = .next s)
  ∧ (∀ s : State, s.rd Reg.TM_PPS.MODE [] ≠ 0 → s.net.ppsMiss = false → s.net.ppsLast + 1500000000 ≤ s.time.now →
      ∃ t : State, exec .ppsMissing s = .next t ∧ t.net.ppsOk = false ∧ t.net.ppsMiss = true ∧ t.net.ppsPhase = false
        ∧ (∀ d : Nat, (t.domSt d).pps = []) ∧ t.net.active = s.net.active ∧ t.regs = s.regs)
  ∧ (∀ (i : Fin 8) (s : State), s.sys.ready = false → exec (.timerArm i) s = .next s ∧ exec (.timerDisarm i) s = .next s)
  ∧ (∀ (i : Fin 8) (s : State), s.sys.ready = true →
      let a := ((s.timerPin (s.timer i).pin none).timerWid i).timerClash i
      let first := (a.rd Reg.TMR_SEC_LO.SEC [i] + a.rd Reg.TMR_SEC_HI.SEC [i] * 2 ^ 32) * 1000000000 + a.rd Reg.TMR_NS.NS [i]
      exec (.timerArm i) s = .next (((a.updTimer i fun t => { t with
        armed := true
        late := false
        periodic := a.flag Reg.TMR_CFG.MODE [i]
        polLow := a.flag Reg.TMR_CFG.POL [i]
        pin := a.rd Reg.TMR_CFG.PIN [i]
        next := first
        per := max 8 (a.rd Reg.TMR_PER.PER [i])
        wid := max 1 (a.rd Reg.TMR_WID.WID [i])
        pulseTo := 0
        lateAt := if a.flag Reg.TMR_CFG.MODE [i] = false ∧ first < a.time.dev.abs + 8 then some (a.time.now + 8) else none }).timerPin
          (a.rd Reg.TMR_CFG.PIN [i]) (some (a.flag Reg.TMR_CFG.POL [i]))).timerSkip i (a.time.dev.abs + 8)))
  ∧ (∀ (i : Fin 8) (s : State), s.sys.ready = true → exec (.timerDisarm i) s = .next
      ((s.timerPin (s.timer i).pin none).updTimer i fun t => { t with armed := false, lateAt := none, pulseTo := 0 }))
  ∧ (∀ (s : State) (i b : Nat), (s.timer i).armed = true → (s.timer i).periodic = true → (s.timer i).next < b → 0 < (s.timer i).per →
      b ≤ ((s.timerSkip i b).timer i).next ∧ ((s.timerSkip i b).timer i).next < b + (s.timer i).per)
  ∧ (∀ (i : Fin 8) (s : State), (s.timer i).armed = false → exec (.timerFire i) s = .next s)
  ∧ (∀ (i : Fin 8) (s : State), s.timerDue i = true → (s.timer i).periodic = false → ∃ t : State, exec (.timerFire i) s = .next t
      ∧ (t.timer i).cnt = (s.timer i).cnt + 1 ∧ (t.timer i).armed = false ∧ (t.timer i).next = (s.timer i).next
      ∧ (t.timer i).pulseTo = (if (s.timer i).pin = 0 then 0 else s.time.now + (s.timer i).wid)
      ∧ (t.timer i).late = ((s.timer i).late || (s.timer i).lateAt.isSome) ∧ (∀ n : Nat, n ≠ i.val → t.timer n = s.timer n)
      ∧ t.ram = s.ram)
  ∧ (∀ (i : Fin 8) (s : State), exec (.timerPulseEnd i) s = .next
      (if (s.timer i).pulseTo ≠ 0 ∧ (s.timer i).pulseTo ≤ s.time.now then
         (s.timerPin (s.timer i).pin (if (s.timer i).armed = true then some (s.timer i).polLow else none)).updTimer i
           fun t => { t with pulseTo := 0 }
       else s))
  ∧ (∀ (n d : Fin 2) (s : State), (s.portDom n d).master.isSome = true →
      (s.portDom n d).lastAnn + 3 * logTicks (s.rd Reg.DOM_CFG.LOG_ANN [d]) ≤ s.time.now → exec (.announceTimeout n d) s = .next (s.masterLost n d 4))
  ∧ (∀ (d : Fin 2) (s : State), ((s.domSt d).st = 1 ∨ (s.domSt d).st = 2) →
      (s.domSt d).lastSync + 3 * logTicks (s.rd Reg.DOM_CFG.LOG_SYNC [d]) ≤ s.time.now → exec (.domainLost d) s = .next
        ((s.updDom d fun m => { m with st := 3 }).servoRecord d 2 (s.estimate d)))
  ∧ (∀ s : State, s.net.active ≠ 0 → s.time.domain ≠ 0 → (s.domSt (s.net.active - 1)).st = 2 → s.jobBoundary = true →
      s.time.holding = false → s.rd Reg.TM_SERVO.CMIN [] * 65536 ≤ (s.estimate (s.net.active - 1)).natAbs * 1000 →
      (s.job.phase = .armed ∨ (s.domSt (s.net.active - 1)).fresh = true) → exec .timeCorrect s = .next
        ((s.updDom (s.net.active - 1) fun m => { m with
          fresh := decide ((splitCorr (-s.estimate (s.net.active - 1))).1 < -1000) }).applyEstimate (s.estimate (s.net.active - 1))))
  ∧ (∀ s : State, s.switchDue = (if s.net.switchReq = true ∧ s.rd Reg.TM_CFG.SRC [] ≠ 0 ∧ s.rd Reg.TM_CFG.SRC [] ≠ s.net.active
        ∧ (s.domSt (s.rd Reg.TM_CFG.SRC [] - 1)).st = 2 then some (s.rd Reg.TM_CFG.SRC [], 0)
      else if s.flag Reg.TM_CFG.AUTO [] = true ∧ s.net.active ≠ 0 ∧ (s.domSt (s.net.active - 1)).st = 3
        ∧ (s.domSt (2 - s.net.active)).st = 2 then some (3 - s.net.active, 1) else none))
  ∧ (∀ (i : Fin 8) (s : State), s.timerDue i = true → (s.timer i).periodic = true → 0 < (s.timer i).per → ∃ t : State,
      exec (.timerFire i) s = .next t ∧ (t.timer i).cnt = (s.timer i).cnt + 1 ∧ (t.timer i).armed = true
      ∧ s.time.dev.abs ≤ (t.timer i).next ∧ (s.timer i).next + (s.timer i).per ≤ (t.timer i).next
      ∧ (∀ n : Nat, n ≠ i.val → t.timer n = s.timer n) ∧ t.ram = s.ram)
  ∧ (∀ (i : Fin 8) (s : State), (s.timer i).pulseTo ≠ 0 → (s.timer i).pulseTo ≤ s.time.now → exec (.timerPulseEnd i) s = .next
      ((s.timerPin (s.timer i).pin (if (s.timer i).armed = true then some (s.timer i).polLow else none)).updTimer i
        fun t => { t with pulseTo := 0 }))

/-- AWL_EDGE of an enabled input and the configured edge: within the dead time it is counted as ignored;
accepted it advances the interpolator, is counted and goes by the input's mode (R577 to R584). AWL_GATE_END
of a frequency input posts the gate's record and keeps later edges (R584). SCAN_PASS_START begins a pass
that is due at entry 0, a late one with its record (R600); MON_MODULATOR_START begins the modulator once the
channel has settled (R598, R599); MON_CONVERSION_END at the filter time stores and posts the result, an
injected one with its delay, and the converter goes on (R594, R596, R603, R607). MON_INJ_GO checks its
channel and, with GO, triggers an injected conversion: it starts, is queued behind an injected one, or
overruns (R604, R605). MARKER_EDGE sets out to the sequencers of its quarter and may trigger a conversion
(R171, R603).
Completes: awlEdge, awlGateEnd, scanPassStart, monModulatorStart, monConversionEnd, monInjGo, markerEdge. (R171, R577, R584, R594, R596, R598, R599, R600, R603, R604, R605, R607) -/
def Obligations.TagsConversionsAndMarkerEdges : Prop :=
  (∀ (k : Fin 32) (fall : Bool) (ref : Fin 16) (n a b : BitVec 8) (s : State), (s.awake = false ∨ s.flag Reg.AWL_IN_CFG.EN [k] = false
      ∨ (s.rd Reg.AWL_IN_CFG.EDGE [k] = 0 ∧ fall = true) ∨ (s.rd Reg.AWL_IN_CFG.EDGE [k] = 1 ∧ fall = false)) →
    exec (.awlEdge k fall ref n a b) s = .next s)
  ∧ (∀ (k : Fin 32) (fall : Bool) (ref : Fin 16) (n a b : BitVec 8) (s : State), s.awake = true → s.flag Reg.AWL_IN_CFG.EN [k] = true →
      s.rd Reg.AWL_IN_CFG.EDGE [k] = 2 →
      s.awlAccepts k (s.time.now * 256 + ref.val * 16 - (s.awlMeasure (s.awlIn k) n.toNat a.toNat b.toNat).1) = false →
      exec (.awlEdge k fall ref n a b) s = .next (s.count Reg.AWL_IN_CNT.IGN [k]))
  ∧ (∀ (k : Fin 32) (fall : Bool) (ref : Fin 16) (n a b : BitVec 8) (s : State), s.awake = true → s.flag Reg.AWL_IN_CFG.EN [k] = true →
      s.rd Reg.AWL_IN_CFG.EDGE [k] = 2 →
      s.awlAccepts k (s.time.now * 256 + ref.val * 16 - (s.awlMeasure (s.awlIn k) n.toNat a.toNat b.toNat).1) = true →
      ∃ t : State, exec (.awlEdge k fall ref n a b) s = .next t ∧ (t.awlIn k).count = (s.awlIn k).count + 1
        ∧ (t.awlIn k).last = some (s.time.now * 256 + ref.val * 16 - (s.awlMeasure (s.awlIn k) n.toNat a.toNat b.toNat).1)
        ∧ (t.awlIn k).turn = ((s.awlIn k).turn + 1) % 8
        ∧ (t.awlIn k).xs = (if s.rd Reg.AWL_IN_CFG.MODE [k] = 2 then (s.awlIn k).xs
            ++ [s.time.now * 256 + ref.val * 16 - (s.awlMeasure (s.awlIn k) n.toNat a.toNat b.toNat).1] else (s.awlIn k).xs)
        ∧ t.ram = s.ram ∧ t.sq = s.sq)
  ∧ (∀ (s : State) (x : AwlIn) (n a b : Nat), a + 12 ≤ b → b ≤ a + 20 → s.awlMeasure x n a b = ((awlFine n a b).toNat, false))
  ∧ (∀ (k : Fin 32) (s : State), (s.awake = false ∨ s.flag Reg.AWL_IN_CFG.EN [k] = false ∨ s.rd Reg.AWL_IN_CFG.MODE [k] ≠ 2
        ∨ s.time.now ≤ (s.awlIn k).g0 + ((s.awlIn k).gate + 1) * (s.rd Reg.AWL_IN_TIME.GATE [k] * 1000)) →
      exec (.awlGateEnd k) s = .next s)
  ∧ (∀ (k : Fin 32) (s : State), s.awake = true → s.flag Reg.AWL_IN_CFG.EN [k] = true → s.rd Reg.AWL_IN_CFG.MODE [k] = 2 →
      (s.awlIn k).g0 + ((s.awlIn k).gate + 1) * (s.rd Reg.AWL_IN_TIME.GATE [k] * 1000) < s.time.now →
      ∃ t : State, exec (.awlGateEnd k) s = .next t ∧ (t.awlIn k).gate = (s.awlIn k).gate + 1 ∧ (t.awlIn k).g0 = (s.awlIn k).g0
        ∧ (t.awlIn k).xs = (s.awlIn k).xs.filter (fun x => decide (((s.awlIn k).g0
            + ((s.awlIn k).gate + 1) * (s.rd Reg.AWL_IN_TIME.GATE [k] * 1000)) * 256 ≤ x))
        ∧ (∀ n : Nat, n ≠ k.val → t.awlIn n = s.awlIn n) ∧ t.ram = s.ram)
  ∧ (∀ s : State, exec .scanPassStart s = .next
      (let p := s.rd Reg.MON_SCAN.PERIOD []
       if s.awake = true ∧ s.flag Reg.MON_CFG.SCAN_EN [] = true ∧ s.mon.pass = false ∧ (p = 0 ∨ s.mon.due ≤ s.time.now) then
         let t := if 0 < p ∧ s.mon.due < s.mon.passEnd then
             s.post s.monCtx .event 837 0x70 0 s.nowStamp [(0x14, 4, s.mon.passes), (0x18, 4, (s.mon.passEnd - s.mon.due) / 1000)]
           else s
         State.monScan { t with mon.pass := true, mon.entry := 0, mon.due := s.mon.due + p * 1000000 }
       else s))
  ∧ (∀ s : State, s.mon.cur = none → exec .monModulatorStart s = .next s ∧ ∀ v : Int, exec (.monConversionEnd v) s = .next s)
  ∧ (∀ (s : State) (c : MonConv), s.mon.cur = some c → exec .monModulatorStart s = .next
      (if c.runAt = none ∧ c.readyAt ≤ s.time.now then
         { s with mon.cur := some { c with runAt := some s.time.now, code := s.biasCode (c.ch % 256) } } else s))
  ∧ (∀ (s : State) (v : Int) (c : MonConv) (t : Nat), s.mon.cur = some c → c.runAt = some t →
      (c.kind = 3 ∨ (s.time.now - t) * 6 < s.monSamples c.set * 625) → exec (.monConversionEnd v) s = .next s)
  ∧ (∀ (s : State) (v : Int) (c : MonConv) (t : Nat), s.mon.cur = some c → c.runAt = some t → c.kind = 2 →
      s.monSamples c.set * 625 ≤ (s.time.now - t) * 6 → ∃ u : State, exec (.monConversionEnd v) s = .next u.monNext.monPowerDown
        ∧ u.mon.cur = none ∧ u.mon.queued = s.mon.queued ∧ u.mon.res = s.mon.res ∧ u.mon.entry = s.mon.entry ∧ u.mon.passes = s.mon.passes
        ∧ (let r := rndNearest (v * 8388608) c.scale
           u.mon.ires = BitVec.ofNat 32 (monWord (satInt 24 r) (decide (r ≠ satInt 24 r)) (c.moved || decide (c.ch < 256) && s.biasCode c.ch != c.code))))
  ∧ (∀ (s : State) (v : Int) (c : MonConv) (t : Nat), s.mon.cur = some c → c.runAt = some t → c.kind = 1 →
      s.monSamples c.set * 625 ≤ (s.time.now - t) * 6 → ∃ u : State, exec (.monConversionEnd v) s = .next u.monNext.monPowerDown
        ∧ u.mon.cur = none ∧ u.mon.ires = s.mon.ires
        ∧ (let r := rndNearest (v * 8388608) c.scale
           Table.get 0 u.mon.res c.entry = BitVec.ofNat 32
             (monWord (satInt 24 r) (decide (r ≠ satInt 24 r)) (c.moved || decide (c.ch < 256) && s.biasCode c.ch != c.code)))
        ∧ (s.rd Reg.MON_CFG.SCAN_LEN [] ≤ s.mon.entry + 1 → u.mon.pass = false ∧ u.mon.entry = 0 ∧ u.mon.passes = s.mon.passes + 1)
        ∧ (s.mon.entry + 1 < s.rd Reg.MON_CFG.SCAN_LEN [] → u.mon.entry = s.mon.entry + 1 ∧ u.mon.passes = s.mon.passes))
  ∧ (∀ (v : Word) (s : State), exec (.monInjGo v) s = .next (s.gate
      (let ch := bitsOf v.toNat 9 0
       let t := if monChan ch = ch then s else s.logClamp s.home (fieldId 0 Reg.MON_INJ.CH []) 0 ch (monChan ch) s.coarseStamp true
       if bitOf v.toNat 31 = true then
         t.monTrigger { ch := monChan ch, set := bitsOf v.toNat 13 12, tsrc := 0, stamp := t.coarseStamp } true else t)))
  ∧ (∀ (s : State) (t : MonTrig) (co : Bool), s.awake = true → s.mon.cur = none → s.monTrigger t co = s.monStart 2 t.ch t.set 0 t)
  ∧ (∀ (s : State) (t : MonTrig) (co : Bool) (c : MonConv), s.awake = true → s.mon.cur = some c → c.kind = 2 → s.mon.queued = none →
      s.monTrigger t co = { s with mon.queued := some t })
  ∧ (∀ (p : Fin 64) (s : State), exec (.markerEdge p) s = .next
      ((s.sendEdge ((List.range 16).map (p.val / 16 * 16 + ·)) (p.val % 16 + 1) ⟨s.nowStamp, s.time.now⟩).monSource (p.val + 1) s.nowStamp))
  ∧ (∀ (s : State) (k : Nat) (e : AwlTag), (s.awlIn k).starts = [] → (s.awlIn k).stops = [] → s.awlPair k false e =
      (s.countUnpair k 0).updAwl k fun x => { x with starts := [e], stops := [] })
  ∧ (∀ xs : List Nat, xs.length < 8 → awlPeriod xs = 0)
  ∧ (awlPeriod ((List.range 8).map fun i => i * 25600) = 100 * 4294967296 ∧ awlFine 100 100 116 = 16 ∧ awlFine 101 100 116 = 17)
  ∧ (∀ s : State, s.awake = true → s.flag Reg.MON_CFG.SCAN_EN [] = true → s.mon.pass = false → s.rd Reg.MON_SCAN.PERIOD [] = 0 →
      exec .scanPassStart s = .next (State.monScan { s with mon.pass := true, mon.entry := 0 }))
  ∧ (∀ s : State, s.awake = true → s.flag Reg.MON_CFG.SCAN_EN [] = true → s.mon.pass = false → 0 < s.rd Reg.MON_SCAN.PERIOD [] →
      s.mon.due ≤ s.time.now → s.mon.passEnd ≤ s.mon.due → exec .scanPassStart s = .next (State.monScan { s with
        mon.pass := true
        mon.entry := 0
        mon.due := s.mon.due + s.rd Reg.MON_SCAN.PERIOD [] * 1000000 }))
  ∧ (∀ s : State, s.mon.pass = true → s.mon.cur = none → s.mon.queued = none → s.mon.calDue = false → s.bgPaused = false → s.awake = true →
      s.monScan = s.monStart 1 (s.rd Reg.MON_LIST.CH [s.mon.entry]) (s.rd Reg.MON_LIST.SET [s.mon.entry]) s.mon.entry {})
  ∧ (∀ (s : State) (c : MonConv), s.mon.cur = some c → c.runAt = none → c.readyAt ≤ s.time.now → exec .monModulatorStart s = .next
      { s with mon.cur := some { c with runAt := some s.time.now, code := s.biasCode (c.ch % 256) } })
  ∧ (∀ (v : Word) (s : State), s.sys.ready = true → bitOf v.toNat 31 = true → monChan (bitsOf v.toNat 9 0) = bitsOf v.toNat 9 0 →
      exec (.monInjGo v) s = .next (s.monTrigger
        { ch := bitsOf v.toNat 9 0, set := bitsOf v.toNat 13 12, tsrc := 0, stamp := s.coarseStamp } true))

/-- COBBLER_INTERRUPT is counted when the routine was abandoned (R624). COBBLER_WATCHDOG fails the active
cobbler; the standby takes over with the gap of R629, and without one the device stops (R626, R634).
SWITCHOVER_RESUME ends the gap; a cold standby reads again the descriptors since the image (R629).
STATE_SAVE takes the image at a job boundary (R628); WARM_SYNC_DONE makes the standby warm (R631).
ENG_REPAIR asks for a repair, COBBLER_REPAIR restarts a failed cobbler at a boundary, COBBLER_REPAIR_DONE
ends it: failed on another version or a failed test, else standby, or active where none works (R633).
CAL_STEP_START starts or resumes the step of the unit in hand when it may (R642); CAL_STEP_END moves to the
second step, or judges the values: out of range fails, MODE 1 measures, else the taps are staged (R638,
R644, R645). SCRUB_PASS starts a pass that is due and records what it finds, SCRUB_PASS_END ends it (R648);
TELEMETRY holds one record and a replaced one has consumed its number (R650).
Completes: cobblerInterrupt, cobblerWatchdog, switchoverResume, stateSave, warmSyncDone, engRepair,
cobblerRepair, cobblerRepairDone, calStepStart, calStepEnd, scrubPass, scrubPassEnd, telemetry. (R624, R626, R628, R629, R631, R633, R634, R642, R644, R645, R648, R650) -/
def Obligations.EnginesSwitchOverAndBackground : Prop :=
  (∀ (b : Bool) (s : State), exec (.cobblerInterrupt b) s = .next
      (if b = true ∧ s.cobblerUp = true then s.count Reg.ENG_CNT.ABANDON [] else s))
  ∧ (∀ s : State, s.eng.st[s.eng.active]! ≠ 0 → exec .cobblerWatchdog s = .next s.modeSync)
  ∧ (∀ s : State, s.eng.st[s.eng.active]! = 0 → s.eng.st[1 - s.eng.active]! = 1 → ∃ t : State, exec .cobblerWatchdog s = .next t
      ∧ t.eng.active = 1 - s.eng.active ∧ t.eng.st = (s.eng.st.set! s.eng.active 2).set! (1 - s.eng.active) 0
      ∧ t.eng.gap = some { cause := 2, warm := s.eng.warm && s.eng.sync, lastRetired := s.time.now } ∧ t.eng.sync = false
      ∧ t.eng.image = s.eng.image ∧ t.sys.safe = s.sys.safe ∧ t.ctxs = s.ctxs ∧ t.job = s.job ∧ t.ram = s.ram)
  ∧ (∀ s : State, s.eng.st[s.eng.active]! = 0 → s.eng.st[1 - s.eng.active]! = 2 → s.sys.safe = 0 → s.eng.active ≤ 1 →
      ∃ t : State, exec .cobblerWatchdog s = .next t
        ∧ t.eng.active = s.eng.active ∧ t.eng.st = s.eng.st.set! s.eng.active 2 ∧ t.eng.gap = s.eng.gap
        ∧ t.sys.safe = 5 ∧ t.pwr.stop = some { cause := 5, unit := 0, t0 := s.time.now } ∧ t.nv.refuse = true ∧ t.job = s.job)
  ∧ (∀ s : State, s.eng.gap = none → exec .switchoverResume s = .next s.modeSync)
  ∧ (∀ (s : State) (g : EngGap), s.eng.gap = some g → g.warm = true → exec .switchoverResume s = .next (State.modeSync { s with
      eng.gap := none
      job.gapLate := s.job.gapLate || (s.job.prepared && s.job.phase != .inShot && decide (s.job.startTick < s.time.now)) }))
  ∧ (∀ (s : State) (g : EngGap), s.eng.gap = some g → ∃ t : State, exec .switchoverResume s = .next t ∧ t.eng.gap = none
      ∧ t.job = { s.job with
          gapLate := s.job.gapLate || (s.job.prepared && s.job.phase != .inShot && decide (s.job.startTick < s.time.now)) })
  ∧ (∀ (s : State) (c : Nat),
      let again := (s.ctx c).fetched.filter fun d => (s.sinceImage c).contains d.index && d.phase != .running
      (s.refetch c).2.1 = again.length
      ∧ ((s.refetch c).1.ctx c).fetched = (s.ctx c).fetched.filter (fun d => !((again.map Desc.index).contains d.index))
      ∧ (∀ d : Desc, d ∈ again → ReadFor.entry c d.index false ∈ (s.refetch c).1.host.reads)
      ∧ (s.refetch c).1.job = s.job ∧ (s.refetch c).1.ram = s.ram)
  ∧ (∀ s : State, (s.cobblerUp = false ∨ s.jobBoundary = false ∨ s.eng.warm = true ∨ s.saveDue = false) → exec .stateSave s = .next s)
  ∧ (∀ s : State, s.saveDue = (s.job.phase == .armed || decide (s.eng.image.tick + 1000000 ≤ s.time.now) || decide (1024 ≤ s.eng.cpls)))
  ∧ (∀ s : State, s.cobblerUp = true → s.jobBoundary = true → s.eng.warm = false → s.saveDue = true → exec .stateSave s = .next
      { s with
        eng.older := s.eng.image
        eng.area := 1 - s.eng.area
        eng.cpls := 0
        eng.image := { tick := s.time.now
                       heads := s.ctxs.filterMap fun e => if e.2.subHead = 0 then none else some (e.1, e.2.subHead) } })
  ∧ (∀ s : State, exec .warmSyncDone s = .next (if s.eng.syncing = true ∧ s.eng.st[1 - s.eng.active]! = 1 then
      { s with eng.syncing := false, eng.warm := true, eng.sync := true } else s))
  ∧ (∀ s : State, exec .engRepair s = .next
      (s.gate (if s.failedCobbler = none then s else { s with eng.repairReq := true })))
  ∧ (∀ (s : State) (n : Nat), s.failedCobbler = some n → s.jobBoundary = true → s.eng.repairing = false →
      (s.flag Reg.ENG_CFG.AUTO_REPAIR [] = true ∨ s.eng.repairReq = true) → exec .cobblerRepair s = .next (State.modeSync
        { s with eng.st := s.eng.st.set! n 3, eng.repairing := true, eng.repairReq := false }))
  ∧ (∀ s : State, (s.failedCobbler = none ∨ s.jobBoundary = false ∨ s.eng.repairing = true
        ∨ (s.flag Reg.ENG_CFG.AUTO_REPAIR [] = false ∧ s.eng.repairReq = false)) → exec .cobblerRepair s = .next s.modeSync)
  ∧ (∀ (a b p : Bool) (s : State), s.loadingCobbler = none → exec (.cobblerRepairDone a b p) s = .next s)
  ∧ (∀ (a b p : Bool) (s : State) (n : Nat), s.loadingCobbler = some n → ∃ t : State, exec (.cobblerRepairDone a b p) s = .next t
      ∧ t.eng.repairing = false
      ∧ (let version := (s.patchLoad fun k => if k = 0 then a else b).2.2.1
         let fails := version ≠ s.eng.version[1 - n]! ∨ p = false
         t.eng.st = s.eng.st.set! n (if fails then 2 else if s.eng.st[1 - n]! = 0 then 1 else 0)
         ∧ t.eng.version = (if fails then s.eng.version else s.eng.version.set! n version)
         ∧ t.eng.active = (if fails ∨ s.eng.st[1 - n]! = 0 then s.eng.active else n)))
  ∧ (∀ s : State, s.cal.run = none → exec .calStepStart s = .next s ∧ ∀ vs : List Int, exec (.calStepEnd vs) s = .next s.modeSync)
  ∧ (∀ (s : State) (r : CalRun), s.cal.run = some r → exec .calStepStart s = .next
      (let t : State := { s with cal.run := some { r with
         running := true, since := s.time.now, begun := if r.begun = 0 then s.time.now + 1 else r.begun } }
       if s.calMayStart r = false then s
       else if r.curT ≠ 6 then t.calTerminate r.curT r.curU
       else if s.mon.cur = none ∧ s.mon.queued = none then State.monStart { t with mon.calDue := false } 3 0x3FF 0 0 {}
       else { s with mon.calDue := true }))
  ∧ (∀ (s : State) (r : CalRun) (vs : List Int), s.cal.run = some r → exec (.calStepEnd vs) s = .next (State.modeSync
      (if r.mode = 2 then s.calResult r vs
       else if s.calOver r = true then (if s.calActive r = true then s.calDelay.calRelease r else s).calUnit r 2 none
       else if s.calActive r = false ∨ s.calShort r = true then s
       else if r.step = 0 ∧ 0 < calBound r.curT r.curU ∧ vs ≠ [] then
         { s with cal.run := some { r with step := 1, running := false, spent := 0 } }
       else (s.calDelay.calRelease r).calResult r vs)))
  ∧ (∀ (s : State) (r : CalRun) (vs : List Int), calInRange r.curT vs = false → s.calResult r vs = s.calUnit r 2 none)
  ∧ (∀ (s : State) (r : CalRun) (vs : List Int), calInRange r.curT vs = true → s.calResult r vs =
      (if r.mode = 1 then s.calUnit r 1 (calWords r.curT vs).head?
       else
         (s.stageTaps ((calAddrs r.curT r.curU).zip (calWords r.curT vs))).calUnit r (if r.mode = 2 then 3 else 0) (calWords r.curT vs).head?))
  ∧ (∀ (errs : List ScrubErr) (s : State), s.scrubDue = false → exec (.scrubPass errs) s = .next s)
  ∧ (∀ (errs : List ScrubErr) (s : State), s.scrubDue = true → exec (.scrubPass errs) s = .next (State.modeSync
      (errs.foldl State.scrubError { s with
        cal.scrubbing := true, cal.scrubFrom := s.time.now, cal.scrubNext := s.time.now + 10000000000 })))
  ∧ (∀ (ce : List (Fin 11 × Word)) (s : State), (s.cal.scrubbing = false ∨ s.bgPaused = true) → exec (.scrubPassEnd ce) s = .next s)
  ∧ (∀ (ce : List (Fin 11 × Word)) (s : State), s.cal.scrubbing = true → s.bgPaused = false → ∃ t : State,
      exec (.scrubPassEnd ce) s = .next t ∧ t.cal.scrubbing = false ∧ t.cal.scrubNext = s.cal.scrubNext ∧ t.job = s.job
      ∧ t.ram = s.ram ∧ t.regs = (ce.foldl State.countCe s).regs)
  ∧ (∀ s : State, (s.rd Reg.CAL_BG.TEL_PERIOD [] = 0 ∨ s.bgPaused = true ∨ s.time.now < s.cal.telNext) →
      exec .telemetry s = .next s)
  ∧ (∀ s : State, s.rd Reg.CAL_BG.TEL_PERIOD [] ≠ 0 → s.bgPaused = false → s.cal.telNext ≤ s.time.now → s.sys.boot = false →
      ∃ t : State, exec .telemetry s = .next t ∧ t.cal.telNext = s.time.now + s.rd Reg.CAL_BG.TEL_PERIOD [] * 1000000
        ∧ (t.recs.held.filter fun h => h.src == 852).length = 1
        ∧ (t.recs.held.filter fun h => h.src != 852) = s.recs.held.filter fun h => h.src != 852
        ∧ Table.get 0 t.recs.seq 852 = Table.get 0 s.recs.seq 852
            + BitVec.ofNat 32 (s.recs.held.filter fun h => h.src == 852).length)
  ∧ (∀ (s : State) (ws : List (Nat × Word)), s.stageTaps ws =
      { s with cal.staged := ws.foldl (fun t e => Table.set none t e.1 (some (tapWord e.1 e.2))) s.cal.staged })
  ∧ (∀ s : State, s.cobblerUp = true → exec (.cobblerInterrupt true) s = .next (s.count Reg.ENG_CNT.ABANDON []))
  ∧ (∀ s : State, s.eng.syncing = true → s.eng.st[1 - s.eng.active]! = 1 → exec .warmSyncDone s = .next
      { s with eng.syncing := false, eng.warm := true, eng.sync := true })
  ∧ (∀ s : State, s.sys.ready = true → s.failedCobbler ≠ none → exec .engRepair s = .next { s with eng.repairReq := true })
  ∧ (∀ (s : State) (r : CalRun), s.cal.run = some r → s.calMayStart r = true → r.curT ≠ 6 → exec .calStepStart s = .next
      (State.calTerminate { s with cal.run := some { r with
         running := true, since := s.time.now, begun := if r.begun = 0 then s.time.now + 1 else r.begun } } r.curT r.curU))
  ∧ (∀ (s : State) (r : CalRun), s.cal.run = some r → s.calMayStart r = true → r.curT = 6 → s.mon.cur = none → s.mon.queued = none →
      exec .calStepStart s = .next (State.monStart { s with
        cal.run := some { r with running := true, since := s.time.now, begun := if r.begun = 0 then s.time.now + 1 else r.begun }
        mon.calDue := false } 3 0x3FF 0 0 {}))
  ∧ (∀ (s : State) (r : CalRun) (vs : List Int), s.cal.run = some r → r.mode = 2 → exec (.calStepEnd vs) s = .next (s.calResult r vs).modeSync)
  ∧ (∀ (s : State) (r : CalRun) (vs : List Int), s.cal.run = some r → r.mode ≠ 2 → s.calOver r = false → s.calActive r = true →
      s.calShort r = false → r.step = 0 → 0 < calBound r.curT r.curU → vs ≠ [] → exec (.calStepEnd vs) s = .next
        (State.modeSync { s with cal.run := some { r with step := 1, running := false, spent := 0 } }))
  ∧ (∀ (s : State) (r : CalRun) (vs : List Int), s.cal.run = some r → r.mode ≠ 2 → s.calOver r = false → s.calActive r = true →
      s.calShort r = false → (r.step ≠ 0 ∨ calBound r.curT r.curU = 0) → exec (.calStepEnd vs) s = .next
        (((s.calDelay.calRelease r).calResult r vs).modeSync))

/-- SENSOR_SAMPLE stores the reading, breaks the sensor when R659 says so, and sets its effective value and
conditions (R659 to R661). THROTTLE_RISE at its time raises L to at most 12, lowering the cap by 10 W a
step, and acts (R664, R665); THROTTLE_MEASURE_END after 1 ms records the drop; THROTTLE_RELEASE_STEP lowers
L and undoes the latest action when P leaves it room (R667); RELEASE_SUSPENSION_END lets releases go on
(R668). HARDWARE_CUT latches, mutes every output with cause 4, and loses the job, the contexts and the
sequencers (R663). CORE_RAIL_LOW is an orderly stop with cause 3, RF_RAIL_FAULT mutes the outputs of its
quarter with cause 5, VBIAS_FAULT takes every bias output to SAFE (R709). RAIL_RECOVER ends them.
RUNG_REQUEST notes the rung, clamped to 4 (R654); RUNG_CHANGE at a boundary enters a lower rung with its
record, starts the way into Deep or out of it, or begins the boundary work of a higher one (R653 to R656).
Completes: sensorSample, throttleRise, throttleMeasureEnd, throttleReleaseStep, releaseSuspensionEnd,
hardwareCut, coreRailLow, rfRailFault, vbiasFault, railRecover, vbiasInRange, rungRequest, rungChange. (R653, R654, R656, R659, R661, R663, R664, R665, R667, R668, R709, R730) -/
def Obligations.SensorsThrottlingRailsAndRungs : Prop :=
  (∀ (i : Fin 68) (raw : BitVec 12) (s : State), s.sensorDue i = false → exec (.sensorSample i raw) s = .next s.modeSync)
  ∧ (∀ (s : State) (i : Nat), s.sensorDue i = (!(s.sensor i).valid
      || decide ((s.sensor i).at_ + (if nearOnset i (s.sensor i).val = true then 100000 else 1000000) ≤ s.time.now)))
  ∧ (∀ (i : Fin 68) (raw : BitVec 12) (s : State), s.sensorDue i = true → ∃ t : State, exec (.sensorSample i raw) s = .next t
      ∧ (t.sensor i).raw = raw.toInt ∧ (t.sensor i).valid = true ∧ (t.sensor i).at_ = s.time.now
      ∧ (t.sensor i).broken = ((s.sensor i).broken || s.breaks i raw.toInt)
      ∧ ((t.sensor i).broken = false → (t.sensor i).val = raw.toInt)
      ∧ (t.sensor i).warn = overCond (s.sensor i).warn (t.sensor i).val 760 40
      ∧ (t.sensor i).throt = overCond (s.sensor i).throt (t.sensor i).val 800 40
      ∧ (t.sensor i).shut = overCond (s.sensor i).shut (t.sensor i).val 880 80
      ∧ (∀ n : Nat, n ≠ i.val → t.sensor n = s.sensor n) ∧ t.ram = s.ram ∧ t.regs = s.regs ∧ t.ctxs = s.ctxs)
  ∧ (∀ (i : Fin 68) (raw : BitVec 12) (s : State), s.sensorDue i = true → s.sys.safe = 0 → (s.sensor i).shut = false → (s.sensor i).broken = false →
      s.breaks i raw.toInt = false → 880 ≤ raw.toInt → ∃ t : State, exec (.sensorSample i raw) s = .next t
        ∧ t.sys.safe = 1 ∧ t.pwr.stop = some { cause := 1, unit := i, t0 := s.time.now })
  ∧ (∀ (p : BitVec 16) (s : State), (s.pwr.throt = false ∨ s.time.now < s.pwr.riseAt) → exec (.throttleRise p) s = .next s.modeSync)
  ∧ (∀ (p : BitVec 16) (s : State), s.pwr.throt = true → s.pwr.riseAt ≤ s.time.now → exec (.throttleRise p) s = .next (State.modeSync
      (State.throttleAct { s with pwr.level := min 12 (s.pwr.level + 1), pwr.riseAt := s.time.now + 10000000, pwr.power := p.toNat })))
  ∧ (∀ s : State, (s.pwr.throt = false ∨ s.pwr.power + 100 * s.pwr.level ≤ 1200 ∨ s.actionBusy = true) → s.pwr.level ≤ 12 → s.throttleAct = s)
  ∧ (∀ (p : BitVec 16) (s : State), (s.pwr.measFrom = 0 ∨ s.time.now + 1 < s.pwr.measFrom + 1000000) →
      exec (.throttleMeasureEnd p) s = .next s.modeSync)
  ∧ (∀ (p : BitVec 16) (s : State) (a : ThrotAct) (rest : List ThrotAct), s.pwr.measFrom ≠ 0 →
      s.pwr.measFrom + 1000000 ≤ s.time.now + 1 → s.pwr.acts = a :: rest → exec (.throttleMeasureEnd p) s = .next (State.modeSync
        (State.throttleAct (State.throttleRecord { s with
          pwr.measFrom := 0
          pwr.power := p.toNat
          pwr.acts := { a with drop := a.before - p.toNat } :: rest } a.num 1 (a.before - p.toNat)))))
  ∧ (∀ (p : BitVec 16) (s : State), (s.pwr.throt = true ∨ s.pwr.relHold = true ∨ s.time.now < s.pwr.releaseAt
        ∨ (s.pwr.level = 0 ∧ (s.pwr.acts.filter fun x => !x.gone) = [])) → exec (.throttleReleaseStep p) s = .next s)
  ∧ (∀ (p : BitVec 16) (s : State), s.pwr.throt = false → s.pwr.relHold = false → s.pwr.releaseAt ≤ s.time.now → 0 < s.pwr.level →
      (s.pwr.acts.filter fun x => !x.gone) = [] → exec (.throttleReleaseStep p) s = .next (State.unskip { s with
        pwr.level := s.pwr.level - 1
        pwr.releaseAt := s.time.now + 10000000
        pwr.power := p.toNat }))
  ∧ (∀ (p : BitVec 16) (s : State) (a : ThrotAct) (rest : List ThrotAct), s.pwr.throt = false → s.pwr.relHold = false →
      s.pwr.releaseAt ≤ s.time.now → (s.pwr.acts.filter fun x => !x.gone) = a :: rest →
      exec (.throttleReleaseStep p) s = .next
        (let t : State := { s with pwr.level := s.pwr.level - 1, pwr.releaseAt := s.time.now + 10000000, pwr.power := p.toNat }
         if p.toNat + a.drop ≤ 1200 - 100 * (s.pwr.level - 1) then t.undo a else t))
  ∧ (∀ s : State, exec .releaseSuspensionEnd s = .next
      (if s.pwr.relHold = true ∧ s.pwr.relHoldTo ≤ s.time.now then { s with pwr.relHold := false } else s))
  ∧ (∀ (n : Fin 17) (s : State), s.pwr.cut = true → exec (.hardwareCut n) s = .next s.modeSync)
  ∧ (∀ (n : Fin 17) (s : State), s.pwr.cut = false → ∃ t : State, exec (.hardwareCut n) s = .next t
      ∧ t.pwr.cut = true ∧ t.pwr.clocksOff = true ∧ t.job = {} ∧ t.sq = {} ∧ t.ctxs = [] ∧ t.host.reads = [] ∧ t.place.build = none
      ∧ t.place.lasts = s.place.lasts ∧ t.ram = s.ram ∧ t.regs = s.regs
      ∧ (∃ h : Held, t.pwr.cutRec = some h ∧ h.src = 955 ∧ h.kind = 0x86 ∧ h.stamp = s.nowStamp ∧ h.body = BitVec.ofNat 96 n)
      ∧ (∀ ch : Fin 224, (t.chan ch).st = 2 ∧ (t.chan ch).out = 0 ∧ 4 ∈ (t.chan ch).causes)
      ∧ (∀ k : Fin 256, (t.biasOut k).st = 3 ∧ (t.biasOut k).wave = none ∧ 5 ∈ (t.biasOut k).causes))
  ∧ (∀ (r : Fin 3) (mv : BitVec 16) (s : State), s.pwr.rails.contains r.val = true → exec (.coreRailLow r mv) s = .next s.modeSync)
  ∧ (∀ (r : Fin 3) (mv : BitVec 16) (s : State), s.pwr.rails.contains r.val = false → ∃ t : State, exec (.coreRailLow r mv) s = .next t
      ∧ t.pwr.rails = r.val :: s.pwr.rails ∧ t.sys.safe = (if s.sys.safe = 0 then 3 else s.sys.safe)
      ∧ t.pwr.stop = (if s.sys.safe = 0 then some { cause := 3, unit := r, t0 := s.time.now } else s.pwr.stop)
      ∧ t.ram = s.ram ∧ t.job = s.job ∧ t.regs = s.regs)
  ∧ (∀ (q : Fin 4) (s : State), s.pwr.rails.contains (4 + q.val) = true → exec (.rfRailFault q) s = .next s)
  ∧ (∀ (q : Fin 4) (s : State), s.pwr.rails.contains (4 + q.val) = false → ∃ t : State, exec (.rfRailFault q) s = .next t
      ∧ t.pwr.rails = (4 + q.val) :: s.pwr.rails
      ∧ (∀ ch : Fin 224, (ch.val < 160 ∧ ch.val / 40 = q.val ∨ 160 ≤ ch.val ∧ (ch.val - 160) / 16 = q.val) →
          (t.chan ch).st = 2 ∧ (t.chan ch).out = 0 ∧ (t.chan ch).cause = 5 ∧ 5 ∈ (t.chan ch).causes)
      ∧ (∀ ch : Fin 224, ¬ (ch.val < 160 ∧ ch.val / 40 = q.val ∨ 160 ≤ ch.val ∧ (ch.val - 160) / 16 = q.val) → t.chan ch = s.chan ch)
      ∧ t.ram = s.ram ∧ t.sys = { s.sys with bootRecs := t.sys.bootRecs } ∧ t.regs = s.regs)
  ∧ (∀ s : State, exec .vbiasFault s = .next
      (if s.vbiasWatched = true ∧ s.pwr.rails.contains 8 = false then State.allBiasSafe { s with pwr.rails := 8 :: s.pwr.rails } 6
       else s))
  ∧ (∀ (r : Fin 9) (mv : BitVec 16) (s : State), s.pwr.rails.contains r.val = false → exec (.railRecover r mv) s = .next s)
  ∧ (∀ (r : Fin 9) (mv : BitVec 16) (s : State), s.pwr.rails.contains r.val = true → exec (.railRecover r mv) s = .next
      (let t : State := { s with pwr.rails := s.pwr.rails.filter (· ≠ r.val) }
       if r.val < 3 then t.supplyRecord r false mv.toNat
       else if r.val = 8 then t.allBiasClear 6
       else if s.job.phase = .idle then State.recoverRf { t with pwr.recovered := (r.val - 4) :: s.pwr.recovered }
       else { t with pwr.recovered := (r.val - 4) :: s.pwr.recovered }))
  ∧ (∀ (s : State), s.vbiasUp = true → exec .vbiasInRange s = .next s)
  ∧ (∀ (s : State), s.vbiasUp = false → exec .vbiasInRange s = .next
      (let t : State := { s with pwr.vbiasFrom := s.time.now + 1 }
       if s.sys.ready = true ∨ 7 ∈ s.sys.steps then t.biasUp else t))
  ∧ (∀ (v : Word) (s : State), s.ladderUp = true → bitsOf v.toNat 2 0 ≤ 4 → exec (.rungRequest v) s = .next
      { s.wr Reg.PWR_CTL.RUNG [] (bitsOf v.toNat 2 0) with pwr.rungReq := some (bitsOf v.toNat 2 0) })
  ∧ (∀ (v : Word) (s : State), s.ladderUp = true → 4 < bitsOf v.toNat 2 0 → ∃ t : State, exec (.rungRequest v) s = .next t
      ∧ t.pwr.rungReq = some 4 ∧ t.pwr.rung = s.pwr.rung ∧ t.job = s.job ∧ t.ram = s.ram)
  ∧ (∀ (v : Word) (s : State), s.ladderUp = false → exec (.rungRequest v) s = .next s)
  ∧ (∀ s : State, s.pwr.toDeep = false → (s.job.phase ≠ .idle ∨ s.job.work = true ∨ s.pwr.stop ≠ none ∨ s.sys.boot = true
        ∨ (s.rungDue = none ∧ s.wakeDue = none)) → exec .rungChange s = .next s.modeSync)
  ∧ (∀ (s : State) (r : Nat), s.pwr.toDeep = false → s.job.phase = .idle → s.job.work = false → s.pwr.stop = none → s.sys.boot = false →
      s.rungDue = some (r, 0) → exec .rungChange s = .next (State.modeSync
        (let t : State := { s with pwr.rungReq := none }
         if s.pwr.rung = 4 then t.leaveDeep r
         else if r < s.pwr.rung then
           { t with job.work := true, job.workRung := true, pwr.toRung := some (r, 0), pwr.rungFrom := s.time.now }
         else if r = 4 then t.startDeep
         else t.enterRung r 0)))
  ∧ (∀ (s : State) (r c : Nat), (s.enterRung r c).pwr.rung = r)
  ∧ (∀ s : State, s.startDeep.pwr.toDeep = true ∧ s.startDeep.pwr.rung = s.pwr.rung)
  ∧ (∀ s : State, s.pwr.toDeep = true → (s.biasStill = false ∨ s.pwr.stop ≠ none) → exec .rungChange s = .next s.modeSync)
  ∧ (∀ s : State, s.pwr.toDeep = true → s.biasStill = true → s.pwr.stop = none → ∃ t : State, exec .rungChange s = .next t.modeSync
      ∧ t.pwr.rung = 4 ∧ t.pwr.toDeep = false ∧ t.sys.ready = false ∧ t.ram = [] ∧ t.ctxs = [] ∧ t.job = {} ∧ t.time.dev = s.time.dev
      ∧ t.time.now = s.time.now ∧ t.pending = s.pending)
  ∧ (∀ s : State, s.pwr.relHold = true → s.pwr.relHoldTo ≤ s.time.now → exec .releaseSuspensionEnd s = .next { s with pwr.relHold := false })
  ∧ (∀ s : State, s.vbiasWatched = true → s.pwr.rails.contains 8 = false → exec .vbiasFault s = .next
      (State.allBiasSafe { s with pwr.rails := 8 :: s.pwr.rails } 6))
  ∧ (∀ (s : State) (r : Nat), s.pwr.toDeep = false → s.job.phase = .idle → s.job.work = false → s.pwr.stop = none → s.sys.boot = false →
      s.rungDue = some (r, 0) → s.pwr.rung < r → s.pwr.rung ≠ 4 → r ≠ 4 → exec .rungChange s = .next (State.modeSync
        (State.enterRung { s with pwr.rungReq := none } r 0)))
  ∧ (∀ s : State, s.pwr.toDeep = false → s.job.phase = .idle → s.job.work = false → s.pwr.stop = none → s.sys.boot = false →
      s.rungDue = none → s.wakeDue = some (0, 1) → s.pwr.rung ≠ 4 → exec .rungChange s = .next (State.modeSync (s.startRise 0 1)))

/-- BOOT_STEP_END: once, while boot runs outside the power-up reset, a step whose predecessors have ended takes
its effect and is noted (R733, R737): TMODE is sampled, the module's tests end, the cobblers load their
patch with CE0 active and CE1 standby, a failed self-test fails its cobbler and CE1 takes CE0's place, the
taps and the NV records are read, the planes load and check their tables. At any other time nothing happens.
BOOT_END, when every step has ended, no sensor holds boot back and the quarters are locked, or both cobblers
have failed, or 50 ms have passed since the release (R735), ends boot: READY is set, without lock the
reference counts as lost (R701), and with both cobblers failed the device stops with cause 5. POWER_UP_RESET
drops everything outside the always-on domain and PCI Express too, and with VDD_AON out of range the NV
writes; boot waits for POWER_UP_RESET_RELEASE, which waits for the rails (R729, R731). DEVICE_RESET drops everything
outside the always-on domain but keeps PCI Express, and boot begins; it waits for NV writes in progress (R732).
Completes: deviceReset, bootStepEnd, bootEnd, powerUpReset, powerUpResetRelease. (R618, R646, R663, R701, R729, R731, R732, R733, R735, R737, R738) -/
def Obligations.BootStepsAndPowerUpReset : Prop :=
  (∀ (b : BootStep) (s : State), (s.sys.boot = false ∨ s.sys.porHeld = true ∨ bootStepNo b ∈ s.sys.steps ∨ s.stepReady b = false) →
      exec (.bootStepEnd b) s = .next s.modeSync)
  ∧ (∀ (b : BootStep) (s : State), s.sys.boot = true → s.sys.porHeld = false → ¬ bootStepNo b ∈ s.sys.steps → s.stepReady b = true →
      exec (.bootStepEnd b) s = .next (State.modeSync
        { s.stepEffect b with sys.steps := (s.stepEffect b).sys.steps ++ [bootStepNo b] }))
  ∧ (∀ (b : BootStep) (s : State), (s.stepEffect b).sys.steps = s.sys.steps)
  ∧ (∀ (l : Bool) (s : State), s.stepEffect (.tmode l) = { s with sys.tmode := l } ∧ s.stepEffect .sensors = s)
  ∧ (∀ (f : Fin 5) (alg : Fin 7) (s : State), (s.stepEffect (.tests f alg)).sec = { s.sec with testing := false, err := decide (f ≠ 0) })
  ∧ (∀ (a b : Bool) (s : State), (s.stepEffect (.patch a b)).eng.st = #v[0, 1] ∧ (s.stepEffect (.patch a b)).eng.active = 0
      ∧ (s.sec.err = false → (s.stepEffect (.patch a b)).eng.version =
          (s.eng.version.set! 0 (s.patchLoad fun n => if n = 0 then a else b).2.2.1).set! 1
            (s.patchLoad fun n => if n = 0 then a else b).2.2.1)
      ∧ (s.sec.err = true → (s.stepEffect (.patch a b)).eng.result = 2 ∧ (s.stepEffect (.patch a b)).eng.tried = 0))
  ∧ (∀ (n : Fin 2) (s : State), s.stepEffect (.selftest n true) = s)
  ∧ (∀ s : State, s.eng.st = #v[0, 1] → (s.stepEffect (.selftest 0 false)).eng.st = #v[2, 0] ∧ (s.stepEffect (.selftest 0 false)).eng.active = 1
      ∧ (s.stepEffect (.selftest 1 false)).eng.st = #v[0, 2] ∧ (s.stepEffect (.selftest 1 false)).eng.active = s.eng.active)
  ∧ (∀ s : State, s.stepEffect .nvRead = s.readTaps.readBias.readId ∧ (s.stepEffect .nvRead).cal.live =
      (match s.nvNewest 1 with
       | some ⟨_, _, some (.cal t)⟩ => t
       | _ => []))
  ∧ (∀ (f0 f1 : BitVec 2) (s : State), s.stepEffect (.planes f0 f1) =
      ((({ s with planes.link := true } : State).checkRecord 0 f0.toNat 2).checkRecord 1 f1.toNat 2).checkOutcome
        (decide (f0.toNat ≠ 0)) (decide (f1.toNat ≠ 0)))
  ∧ (∀ s : State, s.bootOver = true ↔ s.sys.boot = true ∧ s.sys.porHeld = false ∧ s.stepsEnded = true ∧ s.bootCool = true
      ∧ (s.lockIn = true ∨ s.bothFailed = true ∨ s.sys.release + 50000000 ≤ s.time.now))
  ∧ (∀ s : State, s.bootOver = false → exec .bootEnd s = .next s.modeSync)
  ∧ (∀ s : State, s.bootOver = true → ∃ t : State, exec .bootEnd s = .next t ∧ t.sys.boot = false ∧ t.sys.ready = true ∧ t.pwr.cut = false
      ∧ t.sys.steps = s.sys.steps ∧ t.sys.refLost = (s.sys.refLost || !s.lockIn)
      ∧ t.sys.safe = (if s.bothFailed = true ∧ s.sys.safe = 0 then 5 else s.sys.safe)
      ∧ t.eng = s.eng ∧ t.cal = s.cal ∧ t.ram = s.ram ∧ t.time.dev = s.time.dev)
  ∧ (∀ (aon : Bool) (s : State), ∃ t : State, exec (.powerUpReset aon) s = .next t.modeSync ∧ t.sys.porHeld = true ∧ t.sys.boot = true
      ∧ t.sys.ready = false ∧ t.sys.safe = 0 ∧ t.sys.release = s.time.now ∧ t.time.dev = ⟨0, 0⟩ ∧ t.time.now = s.time.now ∧ t.ram = []
      ∧ t.ctxs = [] ∧ t.job = {} ∧ t.regs = State.reset.regs ∧ t.nv.slots = s.nv.slots
      ∧ t.nv.writes = (if aon = true then [] else s.nv.writes) ∧ t.sec.owned = s.sec.owned ∧ t.sec.opk = s.sec.opk ∧ t.sec.lks = s.sec.lks
      ∧ t.sec.rollback = s.sec.rollback ∧ t.sec.slots = s.sec.slots ∧ t.sec.marks = [] ∧ (aon = true → t.pwr.cut = false)
      ∧ (aon = false → t.pwr.cut = (s.pwr.cut && !s.coolAll)))
  ∧ (∀ s : State, exec .powerUpResetRelease s = .next (State.modeSync
      (if s.sys.porHeld = true ∧ s.railsUp = true then { s with sys.porHeld := false, sys.release := s.time.now } else s)))
  ∧ (∀ s : State, s.railsUp = true ↔ ∀ r ∈ s.pwr.rails, r = 8)
  ∧ (∀ s : State, s.sys.porHeld = true → s.railsUp = true → exec .powerUpResetRelease s = .next (State.modeSync
      { s with sys.porHeld := false, sys.release := s.time.now }))
  ∧ (∀ (n : Fin 2) (p : Bool) (s : State), s.stepReady (.selftest n p) = true ↔ 4 ∈ s.sys.steps ∧ s.sys.fromDeep = false)
  ∧ (∀ s : State, s.nv.writes = [] → ∃ t : State, exec .deviceReset s = .next t.modeSync ∧ t.sys.boot = true ∧ t.sys.ready = false
      ∧ t.sys.safe = 0 ∧ t.sys.release = s.time.now ∧ t.sys.porHeld = s.sys.porHeld ∧ t.time.dev = ⟨0, 0⟩ ∧ t.time.now = s.time.now ∧ t.ram = [] ∧ t.ctxs = []
      ∧ t.job = {} ∧ t.regs = State.reset.regs ∧ t.pending = s.pending ∧ t.nv.slots = s.nv.slots ∧ t.sec.owned = s.sec.owned
      ∧ t.sec.lks = s.sec.lks ∧ t.sec.slots = s.sec.slots ∧ t.sec.marks = [] ∧ t.host.reads = [] ∧ t.pwr.cut = (s.pwr.cut && !s.coolAll))
  ∧ (∀ s : State, s.nv.writes ≠ [] → exec .deviceReset s = .next (State.modeSync { s with sys.resetWait := true }))

/-- GO while a request is in hand or in quarantine is discarded and counted as a violation (R684). Else a
malformed request answers 3, in the error state all but STATUS, SELFTEST and ZEROIZE answer 7 (R694), and a
service with a role answers 6 on a device without an owner, 2 while the role is locked, and 1 on a failed
authentication, which counts towards the lockout of R681: 10 s, doubling to 1,280 s. An accepted
authentication consumes the nonce and resets the failures. Each accepted service of R682 then has its
payload and effect, or its status: 4 for a blob or key that does not verify, 5 for a rollback, 6 for an
empty slot, 8 while NV writes are refused; ZEROIZE first ends a pass of UNSEAL_LOAD (R695). The order of the
refusals, the DETAIL word, and a status that R682 does not state (TAKE_OWNER with an owner, ADVANCE_ROLLBACK
with none left, ATTEST after a full zeroization) are the model's or free (log 20, log 53). DISCARDED_GO with
an unknown CMD answers 3.
Completes: status, nonce, selftest, getCerts, zeroize, takeOwner, setUak, importLk, deleteLk, installPatch,
advanceRollback, releaseOwner, random, unsealLoad, sealCal, importCal, attest, discardedGo. (R680, R681, R682, R684, R685, R686, R688, R689, R692, R693, R694, R695) -/
def Obligations.MailboxRequestsAndServices : Prop :=
  (∀ (s : State) (cmd : Nat) (role : MbRole) (r : MbReq) (work : State → MbRun → State), s.goDiscarded = true →
      s.go cmd role r work = s.mbViolation 0xFF cmd)
  ∧ (∀ (s : State) (cmd : Nat) (role : MbRole) (r : MbReq) (work : State → MbRun → State), s.goDiscarded = false → 2 ≤ s.mbRefusal cmd role r →
      s.go cmd role r work = { s with sec.run := some { cmd := cmd, tag := r.tag, status := s.mbRefusal cmd role r } })
  ∧ (∀ (s : State) (cmd : Nat) (role : MbRole) (r : MbReq) (work : State → MbRun → State), s.goDiscarded = false → s.mbRefusal cmd role r = 1 →
      s.go cmd role r work = { s.authFail role with sec.run := some { cmd := cmd, tag := r.tag, status := 1 } })
  ∧ (∀ (s : State) (cmd : Nat) (role : MbRole) (r : MbReq), s.mbRefusal cmd role r =
      (if r.wellFormed = false then 3
       else if s.sec.err = true ∧ cmd ≠ 1 ∧ cmd ≠ 3 ∧ cmd ≠ 4 then 7
       else if role = 0 then 0
       else if s.sec.owned = false then 6
       else if s.time.now < (s.sec.roles[role - 1]?.getD {}).lockTo then 2
       else if r.authOk = true ∧ s.sec.nonce ≠ none then 0 else 1))
  ∧ (∀ (s : State) (k : Fin 2), ((s.sec.roles[k]).fails < 7 → (s.authFail (k.val + 1)).sec.roles = s.sec.roles.set k { s.sec.roles[k] with fails := (s.sec.roles[k]).fails + 1 })
      ∧ (7 ≤ (s.sec.roles[k]).fails → ∃ n : Nat, n = (if (s.sec.roles[k]).lockS = 0 then 10 else min 1280 (2 * (s.sec.roles[k]).lockS))
          ∧ (s.authFail (k.val + 1)).sec.roles = s.sec.roles.set k { fails := 0, lockS := n, lockTo := s.time.now + n * 1000000000 })
      ∧ s.authPass (k.val + 1) = { s with sec.nonce := none, sec.roles := s.sec.roles.set k {} })
  ∧ (∀ (s : State) (x : MbRun) (pl : List Byte) (e : MbEffect) (n : Nat),
      s.serve x pl e = { s with freeCtr := s.freeCtr + 1, sec.run := some { x with payload := pl, effect := e } }
      ∧ s.decline x n e = { s with freeCtr := s.freeCtr + 1, sec.run := some { x with status := n, ind := false, effect := e } })
  ∧ (∀ (r : MbReq) (s : State), s.goDiscarded = false → s.mbRefusal 1 0 r = 0 → exec (.status r) s = .next
      (s.serve { cmd := 1, tag := r.tag, detail := (Config.freeWord s.freeCtr).toNat } (Config.servicePayload 1 s.freeCtr) .none))
  ∧ (∀ (r : MbReq) (s : State), s.goDiscarded = false → s.mbRefusal 2 0 r = 0 → exec (.nonce r) s = .next
      (s.serve { cmd := 2, tag := r.tag, ind := true, detail := (Config.freeWord s.freeCtr).toNat } [] .none))
  ∧ (∀ (r : MbReq) (f : Fin 5) (alg : Fin 7) (s : State), s.goDiscarded = false → s.mbRefusal 3 0 r = 0 → exec (.selftest r f alg) s = .next
      (State.serve { s with sec.testing := true } { cmd := 3, tag := r.tag, ind := decide (f = 0), detail := (Config.freeWord s.freeCtr).toNat } [] (.selftest f alg)))
  ∧ (∀ (r : MbReq) (s : State), s.goDiscarded = false → s.mbRefusal 6 0 r = 0 → exec (.getCerts r) s = .next
      (s.serve { cmd := 6, tag := r.tag, detail := (Config.freeWord s.freeCtr).toNat } (Config.servicePayload 6 s.freeCtr) .none))
  ∧ (∀ (r : MbReq) (full : Bool) (s : State), (∀ u : MbRun, s.sec.run = some u → u.pass = 0) → s.goDiscarded = false → s.mbRefusal 4 0 r = 0 →
      exec (.zeroize r full) s = .next (s.serve { cmd := 4, tag := r.tag, ind := true, detail := (Config.freeWord s.freeCtr).toNat } [] (.zeroize full (if full = true then 1 else 0))))
  ∧ (∀ (r : MbReq) (full : Bool) (s : State) (u : MbRun), s.sec.run = some u → u.pass ≠ 0 → s.mbQuar = false →
      exec (.zeroize r full) s = exec (.zeroize r full) ((s.unsealFail u).serviceDone false))
  ∧ (∀ (r : MbReq) (opk uak : List Byte) (ok : Bool) (s : State), s.goDiscarded = false → s.mbRefusal 0x10 0 r = 0 → s.sec.owned = false → exec (.takeOwner r opk uak ok) s = .next
      (if ok = true then s.serve { cmd := 0x10, tag := r.tag, ind := true, detail := (Config.freeWord s.freeCtr).toNat } [] (.takeOwner opk uak) else s.decline { cmd := 0x10, tag := r.tag, ind := true, detail := (Config.freeWord s.freeCtr).toNat } 4 .none))
  ∧ (∀ (r : MbReq) (opk uak : List Byte) (ok : Bool) (s : State), s.goDiscarded = false → s.mbRefusal 0x10 0 r = 0 → s.sec.owned = true → exec (.takeOwner r opk uak ok) s = .next
      (s.decline { cmd := 0x10, tag := r.tag, ind := true, detail := (Config.freeWord s.freeCtr).toNat } (Config.freeWord s.freeCtr).toNat .none))
  ∧ (∀ (r : MbReq) (uak : List Byte) (ok : Bool) (s : State), s.goDiscarded = false → s.mbRefusal 0x11 2 r = 0 → exec (.setUak r uak ok) s = .next
      (if ok = true then (s.authPass 2).serve { cmd := 0x11, tag := r.tag, ind := true, detail := (Config.freeWord s.freeCtr).toNat } [] (.setUak uak) else (s.authPass 2).decline { cmd := 0x11, tag := r.tag, ind := true, detail := (Config.freeWord s.freeCtr).toNat } 4 .none))
  ∧ (∀ (r : MbReq) (k : Fin 16) (key : List Byte) (ok : Bool) (s : State), s.goDiscarded = false → s.mbRefusal 0x12 2 r = 0 → exec (.importLk r k key ok) s = .next
      (if ok = true then (s.authPass 2).serve { cmd := 0x12, tag := r.tag, ind := true, detail := (Config.freeWord s.freeCtr).toNat } [] (.importLk k key)
       else (s.authPass 2).decline { cmd := 0x12, tag := r.tag, ind := true, detail := (Config.freeWord s.freeCtr).toNat } 4 .none))
  ∧ (∀ (r : MbReq) (k : Fin 16) (s : State), s.goDiscarded = false → s.mbRefusal 0x13 2 r = 0 → exec (.deleteLk r k) s = .next
      (if Table.get [] s.sec.lks k ≠ [] then (s.authPass 2).serve { cmd := 0x13, tag := r.tag, ind := true, detail := (Config.freeWord s.freeCtr).toNat } [] (.deleteLk k)
       else (s.authPass 2).decline { cmd := 0x13, tag := r.tag, ind := true, detail := (Config.freeWord s.freeCtr).toNat } 6 .none))
  ∧ (∀ (r : MbReq) (v rom : BitVec 16) (im : List Byte) (ok : Bool) (s : State), s.goDiscarded = false → s.mbRefusal 0x14 2 r = 0 → exec (.installPatch r v rom im ok) s = .next
      (let x : MbRun := { cmd := 0x14, tag := r.tag, ind := true, detail := (Config.freeWord s.freeCtr).toNat }
       let t := if s.eng.result = 0 then 1 else 0
       if ok = false ∨ rom.toNat ≠ romVersion ∨ s.sec.otpGone = true then (s.authPass 2).decline x 4 (.patchRefused t v.toNat)
       else if v.toNat < s.sec.rollback then (s.authPass 2).decline x 5 (.patchRefused t v.toNat)
       else if s.nv.refuse = true then (s.authPass 2).decline x 8 (.patchInt t v.toNat)
       else State.serve { s.authPass 2 with sec.slots := s.sec.slots.set! t { s.patchSlot t with valid := false } } x []
         (.patch t v.toNat rom.toNat im)))
  ∧ (∀ (r : MbReq) (s : State), s.goDiscarded = false → s.mbRefusal 0x15 2 r = 0 → exec (.advanceRollback r) s = .next
      (let v := s.eng.version[s.eng.active]!
       if v ≤ s.sec.rollback then (s.authPass 2).decline { cmd := 0x15, tag := r.tag, ind := true, detail := s.sec.rollLeft } 5 .none
       else if s.sec.rollLeft = 0 then (s.authPass 2).decline { cmd := 0x15, tag := r.tag, ind := true, detail := 0 } (Config.freeWord s.freeCtr).toNat .none
       else (s.authPass 2).serve { cmd := 0x15, tag := r.tag, ind := true, detail := s.sec.rollLeft - 1 } [] (.rollback v)))
  ∧ (∀ (r : MbReq) (s : State), s.goDiscarded = false → s.mbRefusal 0x16 2 r = 0 → exec (.releaseOwner r) s = .next
      ((s.authPass 2).serve { cmd := 0x16, tag := r.tag, ind := true, detail := (Config.freeWord s.freeCtr).toNat } [] (.zeroize false 2)))
  ∧ (∀ (r : MbReq) (n : Fin 4097) (s : State), s.goDiscarded = false → s.mbRefusal 5 1 { r with wellFormed := r.wellFormed && n != 0 } = 0 → exec (.random r n) s = .next
      (let t := (s.authPass 1).serve { cmd := 5, tag := r.tag, ind := true, detail := (Config.freeWord s.freeCtr).toNat } (s.drbg n) .none
       { t with freeCtr := t.freeCtr + n }))
  ∧ (∀ (r : MbReq) (c : Fin 1024) (k : Fin 16) (a : BitVec 64) (len : Word) (s : State), s.goDiscarded = false → s.mbRefusal 0x20 1 { r with wellFormed := r.wellFormed && (decide (80 ≤ len.toNat ∧ len.toNat ≤ 33554432) && s.inWindow c a.toNat len.toNat false) } = 0 → exec (.unsealLoad r c k a len) s = .next
      (let x : MbRun := { cmd := 0x20, tag := r.tag, ind := true, detail := (Config.freeWord s.freeCtr).toNat, slot := k, ctx := c, addr := a.toNat, len := len.toNat }
       if Table.get [] s.sec.lks k ≠ [] then
         State.emit { s.authPass 1 with freeCtr := s.freeCtr + 1, sec.run := some { x with pass := 1 } } (.read a.toNat len.toNat)
       else (s.authPass 1).decline x 6 .none))
  ∧ (∀ (r : MbReq) (c : Fin 1024) (k : Fin 16) (a : BitVec 64) (s : State), s.goDiscarded = false → s.mbRefusal 0x21 1 { r with wellFormed := r.wellFormed && s.inWindow c a.toNat (80 + 4 * calBlock.length) true } = 0 → exec (.sealCal r c k a) s = .next
      (let x : MbRun := { cmd := 0x21, tag := r.tag, ind := true, detail := (Config.freeWord s.freeCtr).toNat, slot := k, ctx := c }
       if Table.get [] s.sec.lks k ≠ [] then
         (State.serve (s.authPass 1) x [] (.hostWrite a.toNat ((s.authPass 1).sealedCal k))).drawN 16
       else (s.authPass 1).decline x 6 .none))
  ∧ (∀ (r : MbReq) (k : Fin 16) (ok : Bool) (hdr : List Byte) (taps : List Word) (s : State), s.goDiscarded = false → s.mbRefusal 0x22 1 r = 0 → exec (.importCal r k ok hdr taps) s = .next
      (let x : MbRun := { cmd := 0x22, tag := r.tag, ind := true, detail := (Config.freeWord s.freeCtr).toNat, slot := k }
       if Table.get [] s.sec.lks k = [] then (s.authPass 1).decline x 6 .none
       else if ok = false then ((s.authPass 1).sealRecord { x with status := 4 }).decline x 4 .none
       else if sealHdrBad hdr 1 k 0 (80 + 4 * taps.length) = true ∨ taps.length ≠ calBlock.length then (s.authPass 1).decline x 3 .none
       else if sealDev hdr = 0xFFFFFFFF ∨ sealDev hdr % 2 ^ 18 = s.deviceId then (s.authPass 1).serve x [] (.importCal (calBlock.zip taps))
       else ((s.authPass 1).sealRecord { x with status := 4 }).decline x 4 .none))
  ∧ (∀ (r : MbReq) (nc : List Byte) (s : State), s.goDiscarded = false → s.mbRefusal 0x30 1 r = 0 → exec (.attest r nc) s = .next
      (if s.sec.otpGone = true then (s.authPass 1).decline { cmd := 0x30, tag := r.tag, ind := true, detail := (Config.freeWord s.freeCtr).toNat } (Config.freeWord s.freeCtr).toNat .none
       else ((s.authPass 1).serve { cmd := 0x30, tag := r.tag, ind := true, detail := (Config.freeWord s.freeCtr).toNat } ((s.authPass 1).attestBody nc ++ ((s.authPass 1).drawN 96).crypto 96) .none).drawN 192))
  ∧ (∀ (r : MbReq) (cmd : BitVec 16) (s : State), exec (.discardedGo r cmd) s = .next
      (if s.goDiscarded = true then s.mbViolation 0xFF cmd.toNat
       else if cmd.toNat ∈ mbServices then s
       else { s with sec.run := some { cmd := cmd.toNat, tag := r.tag, status := 3 } }))
  ∧ (∀ (r : MbReq) (cmd : BitVec 16) (s : State), s.goDiscarded = true → exec (.discardedGo r cmd) s = .next (s.mbViolation 0xFF cmd.toNat))
  ∧ (∀ (r : MbReq) (k : Fin 16) (s : State), s.goDiscarded = false → s.mbRefusal 0x13 2 r = 0 → Table.get [] s.sec.lks k ≠ [] →
      exec (.deleteLk r k) s = .next ((s.authPass 2).serve { cmd := 0x13, tag := r.tag, ind := true, detail := (Config.freeWord s.freeCtr).toNat } [] (.deleteLk k)))
  ∧ (∀ (r : MbReq) (k : Fin 16) (hdr : List Byte) (taps : List Word) (s : State), s.goDiscarded = false → s.mbRefusal 0x22 1 r = 0 →
      Table.get [] s.sec.lks k ≠ [] → taps.length = calBlock.length → sealHdrBad hdr 1 k 0 (80 + 4 * calBlock.length) = false →
      sealDev hdr = 0xFFFFFFFF → exec (.importCal r k true hdr taps) s = .next
        ((s.authPass 1).serve { cmd := 0x22, tag := r.tag, ind := true, detail := (Config.freeWord s.freeCtr).toNat, slot := k } []
          (.importCal (calBlock.zip taps))))

/-- SERVICE_DONE, when the service in hand has no pass to run, takes its effect and writes the response: 64
bytes of header with a new nonce of 48 bytes, then the payload; BUSY ends and DONE is set (R683, R684). The
effects: owner and keys are taken, set, imported or deleted, the patch is in its slot, the counter is
advanced by one of its 32 steps, taps are staged, ZEROIZE leaves no owner and no key, and a full one no DUS
and PEK (R685, R686, R695). An error of the module's memory answers 7 and leaves the error state (R694).
UNSEAL_PASS_END: the first pass answers 4 on a tag or DEVID that does not match,
3 on a header, a length or an entry that departs from R688 (after the tag and before the DEVID: log 66), 9 when an entry is in use, and else reads the blob again; the second, once no
running job uses what it writes, loads the entries and answers, with its tag, OK (R689, R690). A response MALFORMED is a mailbox violation, and 16 within 1 ms
quarantine the mailbox for 100 ms (R684). LOCKOUT_END and MAILBOX_QUARANTINE_END act at their time;
ENTROPY_HEALTH_FAILURE puts the module in its error state (R693, R694).
Completes: serviceDone, unsealPassEnd, lockoutEnd, mailboxQuarantineEnd, entropyHealthFailure. (R645, R681, R683, R684, R685, R686, R689, R690, R693, R694, R695) -/
def Obligations.ServicesTakeEffect : Prop :=
  (∀ s : State, (s.sec.run = none ∨ ∃ r : MbRun, s.sec.run = some r ∧ r.pass ≠ 0) → ∀ bad : Bool, exec (.serviceDone bad) s = .next s.modeSync)
  ∧ (∀ (s : State) (r : MbRun), s.sec.run = some r → r.pass = 0 → ∃ t : State, exec (.serviceDone false) s = .next t
      ∧ t.sec.run = none ∧ t.sec.done = true
      ∧ t.sec.nonce = some ((List.range 48).map fun i => Config.drbgByte ((s.mbEffect r.effect).freeCtr + i))
      ∧ t.sec.resp = leBytes 16 (packNat [(0, 2, r.cmd), (2, 1, r.status), (3, 1, if r.ind = true then 1 else 0),
          (4, 4, r.payload.length), (8, 4, r.tag.toNat), (12, 4, r.detail)])
          ++ ((List.range 48).map fun i => Config.drbgByte ((s.mbEffect r.effect).freeCtr + i)) ++ r.payload
      ∧ t.sec.owned = (s.mbEffect r.effect).sec.owned ∧ t.sec.lks = (s.mbEffect r.effect).sec.lks
      ∧ t.sec.slots = (s.mbEffect r.effect).sec.slots ∧ t.ram = (s.mbEffect r.effect).ram
      ∧ (r.status ≠ 3 → t.sec.vios = s.sec.vios ∧ t.sec.quarTo = s.sec.quarTo))
  ∧ (∀ (s : State) (r : MbRun), s.sec.run = some r → r.pass = 0 → ∃ (t : State) (n : Nat), exec (.serviceDone true) s = .next t
      ∧ t.sec.run = none ∧ t.sec.done = true ∧ t.sec.err = true ∧ t.sec.owned = s.sec.owned ∧ t.sec.lks = s.sec.lks ∧ t.sec.slots = s.sec.slots
      ∧ t.sec.nonce = some ((List.range 48).map fun i => Config.drbgByte (n + i))
      ∧ t.sec.resp = leBytes 16 (packNat [(0, 2, r.cmd), (2, 1, 7), (3, 1, 0), (4, 4, 0), (8, 4, r.tag.toNat), (12, 4, r.detail)])
          ++ (List.range 48).map (fun i => Config.drbgByte (n + i)) ∧ t.ram = s.ram)
  ∧ (∀ (s : State) (code cmd : Nat),
      let vs := s.time.now :: s.sec.vios.filter fun t => decide (s.time.now < t + 1000000)
      (s.mbViolation code cmd).sec.vios = (if 16 ≤ vs.length then [] else vs)
      ∧ (s.mbViolation code cmd).sec.quarTo = (if 16 ≤ vs.length then s.time.now + 100000000 else s.sec.quarTo)
      ∧ (s.mbViolation code cmd).sec.run = s.sec.run ∧ (s.mbViolation code cmd).ram = s.ram)
  ∧ (∀ (s : State) (opk uak : List Byte), s.mbEffect .none = s
      ∧ s.mbEffect (.takeOwner opk uak) = { s with sec.owned := true, sec.opk := opk, sec.uak := uak }
      ∧ s.mbEffect (.setUak uak) = { s with sec.uak := uak })
  ∧ (∀ (s : State) (k : Nat) (key : List Byte), Table.get [] (s.mbEffect (.importLk k key)).sec.lks k = key
      ∧ Table.get [] (s.mbEffect (.deleteLk k)).sec.lks k = []
      ∧ (∀ n : Nat, n ≠ k → Table.get [] (s.mbEffect (.importLk k key)).sec.lks n = Table.get [] s.sec.lks n
          ∧ Table.get [] (s.mbEffect (.deleteLk k)).sec.lks n = Table.get [] s.sec.lks n))
  ∧ (∀ (s : State) (k v rom : Nat) (im : List Byte), (s.mbEffect (.patch k v rom im)).sec = { s.sec with
        slots := s.sec.slots.set! k { valid := true, version := v, rom := rom, image := im } }
      ∧ (s.mbEffect (.patchRefused k v)).sec = s.sec ∧ (s.mbEffect (.patchInt k v)).sec = s.sec
      ∧ (s.mbEffect (.rollback v)).sec = { s.sec with rollback := v, rollLeft := s.sec.rollLeft - 1 })
  ∧ (∀ (s : State) (f alg : Nat), (s.mbEffect (.selftest f alg)).sec = { s.sec with testing := false, err := decide (f ≠ 0) })
  ∧ (∀ (s : State) (ws : Table Word), s.mbEffect (.importCal ws) = { s with
      cal.staged := ws.foldl (fun t e => Table.set none t e.1 (some (tapWord e.1 e.2))) s.cal.staged })
  ∧ (∀ (s : State) (a : Nat) (d : List Byte), s.mbEffect (.hostWrite a d) = s.emit (.write a d))
  ∧ (∀ (s : State) (full : Bool) (code : Nat), (s.mbEffect (.zeroize full code)).sec.owned = false
      ∧ (s.mbEffect (.zeroize full code)).sec.opk = [] ∧ (s.mbEffect (.zeroize full code)).sec.uak = []
      ∧ (s.mbEffect (.zeroize full code)).sec.lks = [] ∧ (s.mbEffect (.zeroize full code)).sec.nonce = none
      ∧ (s.mbEffect (.zeroize full code)).sec.otpGone = (s.sec.otpGone || full)
      ∧ (s.mbEffect (.zeroize full code)).sec.slots = s.sec.slots ∧ (s.mbEffect (.zeroize full code)).sec.rollback = s.sec.rollback)
  ∧ (∀ (ok : Bool) (hdr : List Byte) (es : List SealEnt) (s : State),
      (s.sec.run = none ∨ (∃ r : MbRun, s.sec.run = some r
        ∧ (r.pass = 0 ∨ (r.pass = 2 ∧ (s.cobblerUp = false ∨ es.any s.entryInUse = true))))) →
      exec (.unsealPassEnd ok hdr es) s = .next s)
  ∧ (∀ (ok : Bool) (hdr : List Byte) (es : List SealEnt) (s : State) (r : MbRun), s.sec.run = some r → r.pass = 1 →
      exec (.unsealPassEnd ok hdr es) s = .next
        (if ok = false then s.unsealFail r
         else if sealHdrBad hdr 0 r.slot es.length r.len = true ∨ r.len ≠ blobLen es ∨ es.any SealEnt.bad = true then
           { s with sec.run := some { r with pass := 0, ind := false, status := 3 } }
         else if s.blobMine (sealDev hdr) = false then s.unsealFail r
         else if (es.any fun e => e.regions.any s.builtUses) = true then
           { s with sec.run := some { r with pass := 0, ind := false, status := 9 } }
         else State.emit { s with sec.run := some { r with pass := 2 } } (.read r.addr r.len)))
  ∧ (∀ (hdr : List Byte) (es : List SealEnt) (s : State) (r : MbRun), s.sec.run = some r → r.pass = 1 →
      sealHdrBad hdr 0 r.slot es.length r.len = false → r.len = blobLen es → es.any SealEnt.bad = false → s.blobMine (sealDev hdr) = true →
      (es.any fun e => e.regions.any s.builtUses) = false → exec (.unsealPassEnd true hdr es) s = .next
        (State.emit { s with sec.run := some { r with pass := 2 } } (.read r.addr r.len)))
  ∧ (∀ (hdr : List Byte) (es : List SealEnt) (s : State) (r : MbRun), s.sec.run = some r → r.pass = 2 → s.cobblerUp = true →
      es.any s.entryInUse = false → exec (.unsealPassEnd true hdr es) s = .next
        { (es.filter fun e => !e.bad).foldl (fun s e => s.unsealEntry r e) s with sec.run := some { r with pass := 0, status := 0 } })
  ∧ (∀ (hdr : List Byte) (es : List SealEnt) (s : State) (r : MbRun), s.sec.run = some r → r.pass = 2 → s.cobblerUp = true →
      es.any s.entryInUse = false → ∃ (t : State) (u : MbRun), exec (.unsealPassEnd false hdr es) s = .next t ∧ t.sec.run = some u
        ∧ u.status = 4 ∧ u.pass = 0 ∧ u.ind = false)
  ∧ (∀ (hdr : List Byte) (kind slot n len : Nat), sealHdrBad hdr kind slot n len = false ↔ hdr.length = 64 ∧ fieldAt hdr 0 4 = 1
      ∧ fieldAt hdr 4 1 = kind ∧ fieldAt hdr 5 1 = slot ∧ fieldAt hdr 8 4 = len ∧ (kind = 0 → n ≠ 0 ∧ n ≤ 4096 ∧ fieldAt hdr 6 2 = n)
      ∧ (fieldAt hdr 0x18 4 < 2 ^ 18 ∨ fieldAt hdr 0x18 4 = 0xFFFFFFFF) ∧ ∀ i : Nat, i < 36 → fieldAt hdr (0x1C + i) 1 = 0)
  ∧ (∀ (s : State) (r : MbRun), r.wrote = [] → r.wroteGr = [] → ∃ t : State, (s.unsealFail r) = t ∧ t.ram = s.ram
      ∧ t.sec = { s.sec with run := some { r with status := 4, ind := false, pass := 0 } })
  ∧ (∀ (co : Bool) (s : State), exec (.lockoutEnd co) s = .next
      (let k : Fin 2 := if co = true then 1 else 0
       if (s.sec.roles[k]).lockTo = 0 ∨ s.time.now < (s.sec.roles[k]).lockTo then s
       else { s with sec.roles := s.sec.roles.set k { s.sec.roles[k] with lockTo := 0 } }))
  ∧ (∀ s : State, exec .mailboxQuarantineEnd s = .next
      (if s.time.now < s.sec.quarTo then s else { s with sec.quarTo := 0 }))
  ∧ (∀ s : State, ∃ t : State, exec .entropyHealthFailure s = .next t ∧ t.sec = { s.sec with err := true } ∧ t.ram = s.ram
      ∧ t.job = s.job ∧ t.regs = s.regs)
  ∧ (∀ (k : Fin 2) (s : State), (s.sec.roles[k]).lockTo ≠ 0 → (s.sec.roles[k]).lockTo ≤ s.time.now → exec (.lockoutEnd (k == 1)) s = .next
      { s with sec.roles := s.sec.roles.set k { s.sec.roles[k] with lockTo := 0 } })
  ∧ (∀ s : State, s.sec.quarTo ≤ s.time.now → exec .mailboxQuarantineEnd s = .next { s with sec.quarTo := 0 })
end

