-- ==== Sys2Proof/Laws/Memory.lean ====
section
/-! SUPPORT. The laws of tables and of the byte memory: a read after a write, and the canonical form. -/

namespace Sys2Proof

variable {α : Type}

/-! ### Tables -/

theorem Table.get_put_same (d : α) (t : Table α) (n : Nat) (v : α) : Table.get d (Table.put t n v) n = v := by
  induction t with
  | nil => simp [Table.put, Table.get]
  | cons e t ih =>
    obtain ⟨k, w⟩ := e
    by_cases h1 : n = k
    · simp [Table.put, Table.get, h1]
    · by_cases h2 : n < k <;> simp [Table.put, Table.get, h1, h2, ih]

theorem Table.get_put_other (d : α) (t : Table α) (m n : Nat) (v : α) (h : m ≠ n) :
    Table.get d (Table.put t n v) m = Table.get d t m := by
  induction t with
  | nil => simp [Table.put, Table.get, h]
  | cons e t ih =>
    obtain ⟨k, w⟩ := e
    by_cases h1 : n = k
    · subst h1; simp [Table.put, Table.get, h]
    · by_cases h2 : n < k <;> simp [Table.put, Table.get, h1, h2, h, ih]

theorem Table.get_del_same (d : α) (t : Table α) (n : Nat) : Table.get d (Table.del t n) n = d := by
  induction t with
  | nil => rfl
  | cons e t ih =>
    obtain ⟨k, w⟩ := e
    by_cases h1 : n = k
    · simp only [Table.del, h1, if_true]; exact h1 ▸ ih
    · simp [Table.del, Table.get, h1, ih]

theorem Table.get_del_other (d : α) (t : Table α) (m n : Nat) (h : m ≠ n) :
    Table.get d (Table.del t n) m = Table.get d t m := by
  induction t with
  | nil => rfl
  | cons e t ih =>
    obtain ⟨k, w⟩ := e
    by_cases h1 : n = k
    · subst h1; simp [Table.del, Table.get, h, ih]
    · simp [Table.del, Table.get, h1, ih]

theorem Table.sortedFrom_put (t : Table α) (b n : Nat) (v : α) (hs : Table.sortedFrom b t = true) (hb : b ≤ n) :
    Table.sortedFrom b (Table.put t n v) = true := by
  induction t generalizing b with
  | nil => simp [Table.put, Table.sortedFrom, hb]
  | cons e t ih =>
    obtain ⟨k, w⟩ := e
    simp only [Table.sortedFrom, Bool.and_eq_true, decide_eq_true_eq] at hs
    by_cases h1 : n = k
    · subst h1; simp [Table.put, Table.sortedFrom, hs.1, hs.2]
    · by_cases h2 : n < k
      · simp [Table.put, Table.sortedFrom, h1, h2, hb, hs.2]
      · simp [Table.put, Table.sortedFrom, h1, h2, hs.1]
        exact ih (k + 1) hs.2 (by omega)

theorem Table.sortedFrom_mono (t : Table α) (b c : Nat) (hs : Table.sortedFrom c t = true) (hb : b ≤ c) :
    Table.sortedFrom b t = true := by
  cases t with
  | nil => rfl
  | cons e t =>
    simp only [Table.sortedFrom, Bool.and_eq_true, decide_eq_true_eq] at hs ⊢
    exact ⟨by omega, hs.2⟩

theorem Table.sortedFrom_del (t : Table α) (b n : Nat) (hs : Table.sortedFrom b t = true) :
    Table.sortedFrom b (Table.del t n) = true := by
  induction t generalizing b with
  | nil => rfl
  | cons e t ih =>
    obtain ⟨k, w⟩ := e
    simp only [Table.sortedFrom, Bool.and_eq_true, decide_eq_true_eq] at hs
    by_cases h1 : n = k
    · subst h1
      simp only [Table.del, if_true]
      exact Table.sortedFrom_mono _ b (n + 1) (ih _ hs.2) (by omega)
    · simp [Table.del, Table.sortedFrom, h1, hs.1, ih _ hs.2]

theorem Table.all_put (p : Nat × α → Bool) (t : Table α) (n : Nat) (v : α) (h : t.all p = true) (hv : p (n, v) = true) :
    (Table.put t n v).all p = true := by
  induction t with
  | nil => simp [Table.put, hv]
  | cons e t ih =>
    obtain ⟨k, w⟩ := e
    simp only [List.all_cons, Bool.and_eq_true] at h
    by_cases h1 : n = k
    · simp only [Table.put, h1, if_true, List.all_cons, Bool.and_eq_true]; exact ⟨by rw [← h1]; exact hv, h.2⟩
    · by_cases h2 : n < k
      · simp [Table.put, h1, h2, hv, h.1]; simpa using h.2
      · simp only [Table.put, h1, h2, if_false, List.all_cons, Bool.and_eq_true]; exact ⟨h.1, ih h.2⟩

theorem Table.all_del (p : Nat × α → Bool) (t : Table α) (n : Nat) (h : t.all p = true) :
    (Table.del t n).all p = true := by
  induction t with
  | nil => rfl
  | cons e t ih =>
    obtain ⟨k, w⟩ := e
    simp only [List.all_cons, Bool.and_eq_true] at h
    by_cases h1 : n = k
    · simpa only [Table.del, h1, if_true] using h1 ▸ ih h.2
    · simp only [Table.del, h1, if_false, List.all_cons, Bool.and_eq_true]; exact ⟨h.1, ih h.2⟩

variable [DecidableEq α]

/-- A read after a write to the same key. -/
@[simp] theorem Table.get_set_same (d : α) (t : Table α) (n : Nat) (v : α) :
    Table.get d (Table.set d t n v) n = v := by
  unfold Table.set
  split
  · next e => rw [e]; exact Table.get_del_same d t n
  · exact Table.get_put_same d t n v

/-- A write leaves every other key alone. -/
theorem Table.get_set_other (d : α) (t : Table α) (m n : Nat) (v : α) (hn : m ≠ n) :
    Table.get d (Table.set d t n v) m = Table.get d t m := by
  unfold Table.set
  split
  · exact Table.get_del_other d t m n hn
  · exact Table.get_put_other d t m n v hn

/-- A write keeps the canonical form. -/
theorem Table.wf_set (d : α) (t : Table α) (n : Nat) (v : α) (h : Table.wf d t = true) :
    Table.wf d (Table.set d t n v) = true := by
  have h0 := h
  simp only [Table.wf, Bool.and_eq_true] at h0 ⊢
  unfold Table.set
  split
  · exact ⟨Table.sortedFrom_del t 0 n h0.1, Table.all_del _ t n h0.2⟩
  · next e => exact ⟨Table.sortedFrom_put t 0 n v h0.1 (Nat.zero_le n), Table.all_put _ t n v h0.2 (by simpa using e)⟩

namespace Machine

/-! ### The byte memory -/

theorem Memory.wf_writeByte (m : List Host.Cell) (a : Nat) (b : Byte) (h : Memory.wf m = true) :
    Memory.wf (Memory.writeByte m a b) = true := Table.wf_set _ m a b h

theorem Memory.wf_writeBytes (m : List Host.Cell) (a : Nat) (bs : List Byte) (h : Memory.wf m = true) :
    Memory.wf (Memory.writeBytes m a bs) = true := by
  induction bs generalizing m a with
  | nil => exact h
  | cons b bs ih => exact ih _ _ (Memory.wf_writeByte m a b h)

theorem Memory.readByte_writeByte_same (m : List Host.Cell) (a : Nat) (b : Byte) :
    Memory.readByte (Memory.writeByte m a b) a = b := Table.get_set_same _ m a b

theorem Memory.readByte_writeByte_other (m : List Host.Cell) (a c : Nat) (b : Byte) (hc : c ≠ a) :
    Memory.readByte (Memory.writeByte m a b) c = Memory.readByte m c := Table.get_set_other _ m c a b hc

/-- A write of bytes leaves every address outside them alone. -/
theorem Memory.readByte_writeBytes_outside (m : List Host.Cell) (a c : Nat) (bs : List Byte)
    (hc : c < a ∨ a + bs.length ≤ c) : Memory.readByte (Memory.writeBytes m a bs) c = Memory.readByte m c := by
  induction bs generalizing m a with
  | nil => rfl
  | cons b bs ih =>
    simp only [List.length_cons] at hc
    rw [Memory.writeBytes, ih _ _ (by omega), Memory.readByte_writeByte_other m a c b (by omega)]

/-- A read of the bytes that were written gives them. -/
theorem Memory.readBytes_writeBytes (m : List Host.Cell) (a : Nat) (bs : List Byte) :
    Memory.readBytes (Memory.writeBytes m a bs) a bs.length = bs := by
  induction bs generalizing m a with
  | nil => rfl
  | cons b bs ih =>
    rw [List.length_cons, Memory.writeBytes, Memory.readBytes, ih,
      Memory.readByte_writeBytes_outside _ (a + 1) a bs (by omega), Memory.readByte_writeByte_same m a b]

/-- `store` keeps the canonical form. -/
@[simp] theorem State.store_wf (s : State) (a : Nat) (bs : List Byte) (h : Memory.wf s.ram = true) :
    Memory.wf (s.store a bs).ram = true := Memory.wf_writeBytes s.ram a bs h

@[simp] theorem State.clear_wf (s : State) (a n : Nat) (h : Memory.wf s.ram = true) : Memory.wf (s.clear a n).ram = true :=
  State.store_wf s a _ h

/-- `store` leaves every address outside its bytes alone. -/
theorem State.store_outside (s : State) (a c : Nat) (bs : List Byte) (hc : c < a ∨ a + bs.length ≤ c) :
    Memory.readByte (s.store a bs).ram c = Memory.readByte s.ram c :=
  Memory.readByte_writeBytes_outside s.ram a c bs hc

end Machine

end Sys2Proof
end

