-- ==== Sys2Proof/Laws/Kept1.lean ====
section
/-! SUPPORT. What the operations of Ops, OutOps, Bias, Readout, SeqOps leave as it is: the queue of commands, the memory,
the Safe cause and the latch of the hardware cut. One lemma per operation (those of them it keeps). -/

namespace Sys2Proof.Machine

/-! ### Ops -/

@[simp] theorem ite_pending (c : Prop) [Decidable c] (a b : State) : (if c then a else b).pending = if c then a.pending else b.pending := by
  split <;> rfl

@[simp] theorem ite_ram (c : Prop) [Decidable c] (a b : State) : (if c then a else b).ram = if c then a.ram else b.ram := by
  split <;> rfl

@[simp] theorem ite_sys (c : Prop) [Decidable c] (a b : State) : (if c then a else b).sys = if c then a.sys else b.sys := by
  split <;> rfl

@[simp] theorem ite_pwr (c : Prop) [Decidable c] (a b : State) : (if c then a else b).pwr = if c then a.pwr else b.pwr := by
  split <;> rfl

@[simp] theorem ite_safe_SysSt (c : Prop) [Decidable c] (a b : SysSt) : (if c then a else b).safe = if c then a.safe else b.safe := by
  split <;> rfl

@[simp] theorem ite_cut_PwrSt (c : Prop) [Decidable c] (a b : PwrSt) : (if c then a else b).cut = if c then a.cut else b.cut := by
  split <;> rfl

@[simp] theorem foldl_pending {α : Type} (f : State → α → State) (h : ∀ s a, (f s a).pending = s.pending) (l : List α) (s : State) :
    (l.foldl f s).pending = s.pending := by
  induction l generalizing s with
  | nil => rfl
  | cons a l ih => rw [List.foldl_cons, ih, h]

@[simp] theorem foldl_ram {α : Type} (f : State → α → State) (h : ∀ s a, (f s a).ram = s.ram) (l : List α) (s : State) :
    (l.foldl f s).ram = s.ram := by
  induction l generalizing s with
  | nil => rfl
  | cons a l ih => rw [List.foldl_cons, ih, h]

@[simp] theorem foldl_safe {α : Type} (f : State → α → State) (h : ∀ s a, (f s a).sys.safe = s.sys.safe) (l : List α) (s : State) :
    (l.foldl f s).sys.safe = s.sys.safe := by
  induction l generalizing s with
  | nil => rfl
  | cons a l ih => rw [List.foldl_cons, ih, h]

@[simp] theorem foldl_cut {α : Type} (f : State → α → State) (h : ∀ s a, (f s a).pwr.cut = s.pwr.cut) (l : List α) (s : State) :
    (l.foldl f s).pwr.cut = s.pwr.cut := by
  induction l generalizing s with
  | nil => rfl
  | cons a l ih => rw [List.foldl_cons, ih, h]

@[simp] theorem State.store_pending (s : State) (a : Nat) (bs : List Byte) : (s.store a bs).pending = s.pending := rfl

@[simp] theorem State.store_safe (s : State) (a : Nat) (bs : List Byte) : (s.store a bs).sys.safe = s.sys.safe := rfl

@[simp] theorem State.store_cut (s : State) (a : Nat) (bs : List Byte) : (s.store a bs).pwr.cut = s.pwr.cut := rfl

@[simp] theorem State.clear_kept (s : State) (a n : Nat) :
    (State.clear s a n).pending = s.pending ∧ (State.clear s a n).sys.safe = s.sys.safe ∧ (State.clear s a n).pwr.cut = s.pwr.cut := by
  exact ⟨rfl, rfl, rfl⟩

@[simp] theorem State.setDirect_kept (s : State) (r : RegName) (idx : List Nat) (w : Word) :
    (State.setDirect s r idx w).pending = s.pending ∧ (State.setDirect s r idx w).ram = s.ram ∧ (State.setDirect s r idx w).sys.safe = s.sys.safe ∧ (State.setDirect s r idx w).pwr.cut = s.pwr.cut := by
  exact ⟨rfl, rfl, rfl, rfl⟩

@[simp] theorem State.setLive_kept (s : State) (r : RegName) (idx : List Nat) (w : Word) :
    (State.setLive s r idx w).pending = s.pending ∧ (State.setLive s r idx w).ram = s.ram ∧ (State.setLive s r idx w).sys.safe = s.sys.safe ∧ (State.setLive s r idx w).pwr.cut = s.pwr.cut := by
  exact ⟨rfl, rfl, rfl, rfl⟩

@[simp] theorem State.setShadow_kept (s : State) (r : RegName) (idx : List Nat) (w : Word) :
    (State.setShadow s r idx w).pending = s.pending ∧ (State.setShadow s r idx w).ram = s.ram ∧ (State.setShadow s r idx w).sys.safe = s.sys.safe ∧ (State.setShadow s r idx w).pwr.cut = s.pwr.cut := by
  exact ⟨rfl, rfl, rfl, rfl⟩

@[simp] theorem State.wr_kept (s : State) (f : Fld) (idx : List Nat) (v : Nat) :
    (State.wr s f idx v).pending = s.pending ∧ (State.wr s f idx v).ram = s.ram ∧ (State.wr s f idx v).sys.safe = s.sys.safe ∧ (State.wr s f idx v).pwr.cut = s.pwr.cut := by
  exact ⟨rfl, rfl, rfl, rfl⟩

@[simp] theorem State.count_kept (s : State) (f : Fld) (idx : List Nat) :
    (State.count s f idx).pending = s.pending ∧ (State.count s f idx).ram = s.ram ∧ (State.count s f idx).sys.safe = s.sys.safe ∧ (State.count s f idx).pwr.cut = s.pwr.cut := by
  exact ⟨rfl, rfl, rfl, rfl⟩

@[simp] theorem State.gate_pending (s t : State) (h : t.pending = s.pending) : (s.gate t).pending = s.pending := by
  simp [State.gate, h]

@[simp] theorem State.gate_ram (s t : State) (h : t.ram = s.ram) : (s.gate t).ram = s.ram := by
  simp [State.gate, h]

@[simp] theorem State.gate_safe (s t : State) (h : t.sys.safe = s.sys.safe) : (s.gate t).sys.safe = s.sys.safe := by
  simp [State.gate, h]

@[simp] theorem State.gate_cut (s t : State) (h : t.pwr.cut = s.pwr.cut) : (s.gate t).pwr.cut = s.pwr.cut := by
  simp [State.gate, h]

@[simp] theorem State.draw_kept (s : State) :
    (State.draw s).pending = s.pending ∧ (State.draw s).ram = s.ram ∧ (State.draw s).sys.safe = s.sys.safe ∧ (State.draw s).pwr.cut = s.pwr.cut := by
  exact ⟨rfl, rfl, rfl, rfl⟩

@[simp] theorem State.updCtx_kept (s : State) (c : Nat) (f : Ctx → Ctx) :
    (State.updCtx s c f).pending = s.pending ∧ (State.updCtx s c f).ram = s.ram ∧ (State.updCtx s c f).sys.safe = s.sys.safe ∧ (State.updCtx s c f).pwr.cut = s.pwr.cut := by
  exact ⟨rfl, rfl, rfl, rfl⟩

@[simp] theorem State.updJob_kept (s : State) (f : Job → Job) :
    (State.updJob s f).pending = s.pending ∧ (State.updJob s f).ram = s.ram ∧ (State.updJob s f).sys.safe = s.sys.safe ∧ (State.updJob s f).pwr.cut = s.pwr.cut := by
  exact ⟨rfl, rfl, rfl, rfl⟩

@[simp] theorem State.abortJob_kept (s : State) (cause : Nat) :
    (State.abortJob s cause).pending = s.pending ∧ (State.abortJob s cause).ram = s.ram ∧ (State.abortJob s cause).sys.safe = s.sys.safe ∧ (State.abortJob s cause).pwr.cut = s.pwr.cut := by
  exact ⟨rfl, rfl, rfl, rfl⟩

@[simp] theorem State.markInvalid_kept (s : State) :
    (State.markInvalid s).pending = s.pending ∧ (State.markInvalid s).ram = s.ram ∧ (State.markInvalid s).sys.safe = s.sys.safe ∧ (State.markInvalid s).pwr.cut = s.pwr.cut := by
  exact ⟨rfl, rfl, rfl, rfl⟩

@[simp] theorem State.emit_kept (s : State) (o : HostOut) :
    (State.emit s o).pending = s.pending ∧ (State.emit s o).ram = s.ram ∧ (State.emit s o).sys.safe = s.sys.safe ∧ (State.emit s o).pwr.cut = s.pwr.cut := by
  exact ⟨rfl, rfl, rfl, rfl⟩

@[simp] theorem State.writeStatus_kept (s : State) (c : Nat) :
    (State.writeStatus s c).pending = s.pending ∧ (State.writeStatus s c).ram = s.ram ∧ (State.writeStatus s c).sys.safe = s.sys.safe ∧ (State.writeStatus s c).pwr.cut = s.pwr.cut := by
  exact ⟨rfl, rfl, rfl, rfl⟩

@[simp] theorem State.sendMsix_kept (s : State) (v : Nat) :
    (State.sendMsix s v).pending = s.pending ∧ (State.sendMsix s v).ram = s.ram ∧ (State.sendMsix s v).sys.safe = s.sys.safe ∧ (State.sendMsix s v).pwr.cut = s.pwr.cut := by
  exact ⟨rfl, rfl, rfl, rfl⟩

@[simp] theorem State.signal_kept (s : State) (v : Nat) :
    (State.signal s v).pending = s.pending ∧ (State.signal s v).ram = s.ram ∧ (State.signal s v).sys.safe = s.sys.safe ∧ (State.signal s v).pwr.cut = s.pwr.cut := by
  simp [State.signal]

@[simp] theorem State.fire_kept (s : State) (src : Nat) :
    (State.fire s src).pending = s.pending ∧ (State.fire s src).ram = s.ram ∧ (State.fire s src).sys.safe = s.sys.safe ∧ (State.fire s src).pwr.cut = s.pwr.cut := by
  simp [State.fire]

@[simp] theorem State.holdBoot_kept (s : State) (h : Held) :
    (State.holdBoot s h).pending = s.pending ∧ (State.holdBoot s h).ram = s.ram ∧ (State.holdBoot s h).sys.safe = s.sys.safe ∧ (State.holdBoot s h).pwr.cut = s.pwr.cut := by
  simp [State.holdBoot]

@[simp] theorem State.post_kept (s : State) (ctx : Nat) (ring : Ring) (src kind flags : Nat) (st : Stamp) (body : List (Nat × Nat × Nat)) :
    (State.post s ctx ring src kind flags st body).pending = s.pending ∧ (State.post s ctx ring src kind flags st body).ram = s.ram ∧ (State.post s ctx ring src kind flags st body).sys.safe = s.sys.safe ∧ (State.post s ctx ring src kind flags st body).pwr.cut = s.pwr.cut := by
  simp [State.post]

@[simp] theorem State.postCoarse_kept (s : State) (ctx src kind flags : Nat) (body : List (Nat × Nat × Nat)) :
    (State.postCoarse s ctx src kind flags body).pending = s.pending ∧ (State.postCoarse s ctx src kind flags body).ram = s.ram ∧ (State.postCoarse s ctx src kind flags body).sys.safe = s.sys.safe ∧ (State.postCoarse s ctx src kind flags body).pwr.cut = s.pwr.cut := by
  simp [State.postCoarse]

@[simp] theorem State.noteStamp_kept (s : State) (st : Stamp) :
    (State.noteStamp s st).pending = s.pending ∧ (State.noteStamp s st).ram = s.ram ∧ (State.noteStamp s st).sys.safe = s.sys.safe ∧ (State.noteStamp s st).pwr.cut = s.pwr.cut := by
  first
    | exact ⟨rfl, rfl, rfl, rfl⟩
    | (simp [State.noteStamp]; done)
    | (simp only [State.noteStamp]; (repeat' split) <;> simp; done)
    | (unfold State.noteStamp; (repeat' split) <;> simp; done)

@[simp] theorem State.loseRecord_kept (s : State) (h : Held) :
    (State.loseRecord s h).pending = s.pending ∧ (State.loseRecord s h).ram = s.ram ∧ (State.loseRecord s h).sys.safe = s.sys.safe ∧ (State.loseRecord s h).pwr.cut = s.pwr.cut := by
  simp [State.loseRecord]

@[simp] theorem State.numberAndPost_kept (s : State) (h : Held) :
    (State.numberAndPost s h).pending = s.pending ∧ (State.numberAndPost s h).ram = s.ram ∧ (State.numberAndPost s h).sys.safe = s.sys.safe ∧ (State.numberAndPost s h).pwr.cut = s.pwr.cut := by
  simp [State.numberAndPost]

@[simp] theorem State.dropHeld_kept (s : State) (h : Held) :
    (State.dropHeld s h).pending = s.pending ∧ (State.dropHeld s h).ram = s.ram ∧ (State.dropHeld s h).sys.safe = s.sys.safe ∧ (State.dropHeld s h).pwr.cut = s.pwr.cut := by
  exact ⟨rfl, rfl, rfl, rfl⟩

@[simp] theorem State.releaseAll_kept (p : Held → Bool) (n : Nat) (s : State) :
    (State.releaseAll p n s).pending = s.pending ∧ (State.releaseAll p n s).ram = s.ram
      ∧ (State.releaseAll p n s).sys.safe = s.sys.safe ∧ (State.releaseAll p n s).pwr.cut = s.pwr.cut := by
  induction n generalizing s with
  | zero => exact ⟨rfl, rfl, rfl, rfl⟩
  | succ n ih => unfold State.releaseAll; split <;> simp [ih]

@[simp] theorem State.logEntry_kept (s : State) (id aux written used : Nat) (st : Stamp) :
    (State.logEntry s id aux written used st).pending = s.pending ∧ (State.logEntry s id aux written used st).ram = s.ram ∧ (State.logEntry s id aux written used st).sys.safe = s.sys.safe ∧ (State.logEntry s id aux written used st).pwr.cut = s.pwr.cut := by
  exact ⟨rfl, rfl, rfl, rfl⟩

@[simp] theorem State.logClamp_kept (s : State) (ctx id aux written used : Nat) (st : Stamp) (coarse : Bool) :
    (State.logClamp s ctx id aux written used st coarse).pending = s.pending ∧ (State.logClamp s ctx id aux written used st coarse).ram = s.ram ∧ (State.logClamp s ctx id aux written used st coarse).sys.safe = s.sys.safe ∧ (State.logClamp s ctx id aux written used st coarse).pwr.cut = s.pwr.cut := by
  simp [State.logClamp]

@[simp] theorem State.runtimeClamp_kept (s : State) (src written used : Nat) :
    (State.runtimeClamp s src written used).pending = s.pending ∧ (State.runtimeClamp s src written used).ram = s.ram ∧ (State.runtimeClamp s src written used).sys.safe = s.sys.safe ∧ (State.runtimeClamp s src written used).pwr.cut = s.pwr.cut := by
  simp [State.runtimeClamp]

@[simp] theorem State.descClamp_kept (s : State) (c idx struct off written used : Nat) :
    (State.descClamp s c idx struct off written used).pending = s.pending ∧ (State.descClamp s c idx struct off written used).ram = s.ram ∧ (State.descClamp s c idx struct off written used).sys.safe = s.sys.safe ∧ (State.descClamp s c idx struct off written used).pwr.cut = s.pwr.cut := by
  simp [State.descClamp]

@[simp] theorem State.pauseDiscard_kept (s : State) (c : Nat) :
    (State.pauseDiscard s c).pending = s.pending ∧ (State.pauseDiscard s c).ram = s.ram ∧ (State.pauseDiscard s c).sys.safe = s.sys.safe ∧ (State.pauseDiscard s c).pwr.cut = s.pwr.cut := by
  exact ⟨rfl, rfl, rfl, rfl⟩

@[simp] theorem State.countVio_kept (s : State) (c : Nat) :
    (State.countVio s c).pending = s.pending ∧ (State.countVio s c).ram = s.ram ∧ (State.countVio s c).sys.safe = s.sys.safe ∧ (State.countVio s c).pwr.cut = s.pwr.cut := by
  simp [State.countVio]

@[simp] theorem State.violate_kept (s : State) (src : Nat) (c : Option Nat) (cause struct index place : Nat) :
    (State.violate s src c cause struct index place).pending = s.pending ∧ (State.violate s src c cause struct index place).ram = s.ram ∧ (State.violate s src c cause struct index place).sys.safe = s.sys.safe ∧ (State.violate s src c cause struct index place).pwr.cut = s.pwr.cut := by
  simp only [State.violate]; (repeat' split) <;> simp

@[simp] theorem State.eccError_kept (s : State) (cls unit scrub addr : Nat) (invalid : Bool) :
    (State.eccError s cls unit scrub addr invalid).pending = s.pending ∧ (State.eccError s cls unit scrub addr invalid).ram = s.ram ∧ (State.eccError s cls unit scrub addr invalid).sys.safe = s.sys.safe ∧ (State.eccError s cls unit scrub addr invalid).pwr.cut = s.pwr.cut := by
  simp [State.eccError]

@[simp] theorem State.postCpl_kept (s : State) (c : Nat) (entry : List Byte) (irq : Bool) :
    (State.postCpl s c entry irq).pending = s.pending ∧ (State.postCpl s c entry irq).ram = s.ram ∧ (State.postCpl s c entry irq).sys.safe = s.sys.safe ∧ (State.postCpl s c entry irq).pwr.cut = s.pwr.cut := by
  simp [State.postCpl]

@[simp] theorem State.sideFrom_kept (s : State) (p : Fin 2) (c : SideCmd) :
    (State.sideFrom s p c).pending = s.pending ∧ (State.sideFrom s p c).ram = s.ram ∧ (State.sideFrom s p c).sys.safe = s.sys.safe ∧ (State.sideFrom s p c).pwr.cut = s.pwr.cut := by
  simp [State.sideFrom]

@[simp] theorem State.passCpl_kept (s : State) (c idx : Nat) (entry : List Byte) (irq : Bool) (st : Stamp) :
    (State.passCpl s c idx entry irq st).pending = s.pending ∧ (State.passCpl s c idx entry irq st).ram = s.ram ∧ (State.passCpl s c idx entry irq st).sys.safe = s.sys.safe ∧ (State.passCpl s c idx entry irq st).pwr.cut = s.pwr.cut := by
  simp [State.passCpl]

@[simp] theorem State.holdEntry_kept (s : State) (c : Nat) (d : Desc) :
    (State.holdEntry s c d).pending = s.pending ∧ (State.holdEntry s c d).ram = s.ram ∧ (State.holdEntry s c d).sys.safe = s.sys.safe ∧ (State.holdEntry s c d).pwr.cut = s.pwr.cut := by
  first
    | exact ⟨rfl, rfl, rfl, rfl⟩
    | (simp [State.holdEntry]; done)
    | (simp only [State.holdEntry]; (repeat' split) <;> simp; done)
    | (unfold State.holdEntry; (repeat' split) <;> simp; done)

@[simp] theorem State.complete_kept (s : State) (c : Nat) (d : Desc) (status detail aux : Nat) (st : Stamp) (cflags : Nat) :
    (State.complete s c d status detail aux st cflags).pending = s.pending ∧ (State.complete s c d status detail aux st cflags).ram = s.ram ∧ (State.complete s c d status detail aux st cflags).sys.safe = s.sys.safe ∧ (State.complete s c d status detail aux st cflags).pwr.cut = s.pwr.cut := by
  simp [State.complete]

@[simp] theorem State.completeNow_kept (s : State) (c : Nat) (d : Desc) (status detail aux : Nat) :
    (State.completeNow s c d status detail aux).pending = s.pending ∧ (State.completeNow s c d status detail aux).ram = s.ram ∧ (State.completeNow s c d status detail aux).sys.safe = s.sys.safe ∧ (State.completeNow s c d status detail aux).pwr.cut = s.pwr.cut := by
  simp [State.completeNow]

@[simp] theorem State.refuseDesc_kept (s : State) (c : Nat) (d : Desc) (cause struct place : Nat) :
    (State.refuseDesc s c d cause struct place).pending = s.pending ∧ (State.refuseDesc s c d cause struct place).ram = s.ram ∧ (State.refuseDesc s c d cause struct place).sys.safe = s.sys.safe ∧ (State.refuseDesc s c d cause struct place).pwr.cut = s.pwr.cut := by
  simp [State.refuseDesc]

@[simp] theorem State.setDesc_kept (s : State) (c : Nat) (d : Desc) :
    (State.setDesc s c d).pending = s.pending ∧ (State.setDesc s c d).ram = s.ram ∧ (State.setDesc s c d).sys.safe = s.sys.safe ∧ (State.setDesc s c d).pwr.cut = s.pwr.cut := by
  exact ⟨rfl, rfl, rfl, rfl⟩

/-! ### OutOps -/

@[simp] theorem State.updGen_kept (s : State) (q n : Nat) (f : Gen → Gen) :
    (State.updGen s q n f).pending = s.pending ∧ (State.updGen s q n f).ram = s.ram ∧ (State.updGen s q n f).sys.safe = s.sys.safe ∧ (State.updGen s q n f).pwr.cut = s.pwr.cut := by
  exact ⟨rfl, rfl, rfl, rfl⟩

@[simp] theorem State.updTone_kept (s : State) (q t : Nat) (f : Gen → Gen) :
    (State.updTone s q t f).pending = s.pending ∧ (State.updTone s q t f).ram = s.ram ∧ (State.updTone s q t f).sys.safe = s.sys.safe ∧ (State.updTone s q t f).pwr.cut = s.pwr.cut := by
  exact ⟨rfl, rfl, rfl, rfl⟩

@[simp] theorem State.updChan_kept (s : State) (k : Nat) (f : Chan → Chan) :
    (State.updChan s k f).pending = s.pending ∧ (State.updChan s k f).ram = s.ram ∧ (State.updChan s k f).sys.safe = s.sys.safe ∧ (State.updChan s k f).pwr.cut = s.pwr.cut := by
  exact ⟨rfl, rfl, rfl, rfl⟩

@[simp] theorem State.updQueue_kept (s : State) (w : Nat) (f : WQueue → WQueue) :
    (State.updQueue s w f).pending = s.pending ∧ (State.updQueue s w f).ram = s.ram ∧ (State.updQueue s w f).sys.safe = s.sys.safe ∧ (State.updQueue s w f).pwr.cut = s.pwr.cut := by
  exact ⟨rfl, rfl, rfl, rfl⟩

@[simp] theorem State.updPin_kept (s : State) (p : Nat) (f : Pin → Pin) :
    (State.updPin s p f).pending = s.pending ∧ (State.updPin s p f).ram = s.ram ∧ (State.updPin s p f).sys.safe = s.sys.safe ∧ (State.updPin s p f).pwr.cut = s.pwr.cut := by
  exact ⟨rfl, rfl, rfl, rfl⟩

@[simp] theorem State.updSeq_kept (s : State) (k : Nat) (f : Seq → Seq) :
    (State.updSeq s k f).pending = s.pending ∧ (State.updSeq s k f).ram = s.ram ∧ (State.updSeq s k f).sys.safe = s.sys.safe ∧ (State.updSeq s k f).pwr.cut = s.pwr.cut := by
  exact ⟨rfl, rfl, rfl, rfl⟩

@[simp] theorem State.countClip_kept (s : State) (k : Nat) :
    (State.countClip s k).pending = s.pending ∧ (State.countClip s k).ram = s.ram ∧ (State.countClip s k).sys.safe = s.sys.safe ∧ (State.countClip s k).pwr.cut = s.pwr.cut := by
  simp [State.countClip]

@[simp] theorem State.clipRecord_kept (s : State) (k : Nat) (st : Stamp) (mask : Nat) :
    (State.clipRecord s k st mask).pending = s.pending ∧ (State.clipRecord s k st mask).ram = s.ram ∧ (State.clipRecord s k st mask).sys.safe = s.sys.safe ∧ (State.clipRecord s k st mask).pwr.cut = s.pwr.cut := by
  simp [State.clipRecord]

@[simp] theorem State.noteGap_kept (q k : Nat) (s : State) (n : Nat) :
    (State.noteGap q k s n).pending = s.pending ∧ (State.noteGap q k s n).ram = s.ram ∧ (State.noteGap q k s n).sys.safe = s.sys.safe ∧ (State.noteGap q k s n).pwr.cut = s.pwr.cut := by
  first
    | exact ⟨rfl, rfl, rfl, rfl⟩
    | (simp [State.noteGap]; done)
    | (simp only [State.noteGap]; (repeat' split) <;> simp; done)
    | (unfold State.noteGap; (repeat' split) <;> simp; done)

@[simp] theorem State.gapRecord_kept (s : State) (p : Pulse) :
    (State.gapRecord s p).pending = s.pending ∧ (State.gapRecord s p).ram = s.ram ∧ (State.gapRecord s p).sys.safe = s.sys.safe ∧ (State.gapRecord s p).pwr.cut = s.pwr.cut := by
  first
    | exact ⟨rfl, rfl, rfl, rfl⟩
    | (simp [State.gapRecord]; done)
    | (simp only [State.gapRecord]; (repeat' split) <;> simp; done)
    | (unfold State.gapRecord; (repeat' split) <;> simp; done)

@[simp] theorem State.dropPulse_kept (q : Nat) (s : State) (n : Nat) :
    (State.dropPulse q s n).pending = s.pending ∧ (State.dropPulse q s n).ram = s.ram ∧ (State.dropPulse q s n).sys.safe = s.sys.safe ∧ (State.dropPulse q s n).pwr.cut = s.pwr.cut := by
  first
    | exact ⟨rfl, rfl, rfl, rfl⟩
    | (simp [State.dropPulse]; done)
    | (simp only [State.dropPulse]; (repeat' split) <;> simp; done)
    | (unfold State.dropPulse; (repeat' split) <;> simp; done)

@[simp] theorem State.rfSample_kept (s : State) (q c k : Nat) :
    (State.rfSample s q c k).pending = s.pending ∧ (State.rfSample s q c k).ram = s.ram ∧ (State.rfSample s q c k).sys.safe = s.sys.safe ∧ (State.rfSample s q c k).pwr.cut = s.pwr.cut := by
  simp [State.rfSample]

@[simp] theorem State.freeStream_kept (s : State) (q : Nat) (p : Pulse) (k : Nat) :
    (State.freeStream s q p k).pending = s.pending ∧ (State.freeStream s q p k).ram = s.ram ∧ (State.freeStream s q p k).sys.safe = s.sys.safe ∧ (State.freeStream s q p k).pwr.cut = s.pwr.cut := by
  simp only [State.freeStream]; (repeat' split) <;> simp

@[simp] theorem State.endPulse_kept (s : State) (q k n : Nat) :
    (State.endPulse s q k n).pending = s.pending ∧ (State.endPulse s q k n).ram = s.ram ∧ (State.endPulse s q k n).sys.safe = s.sys.safe ∧ (State.endPulse s q k n).pwr.cut = s.pwr.cut := by
  simp only [State.endPulse]; (repeat' split) <;> simp

@[simp] theorem State.endPulses_kept (s : State) (q c k : Nat) :
    (State.endPulses s q c k).pending = s.pending ∧ (State.endPulses s q c k).ram = s.ram ∧ (State.endPulses s q c k).sys.safe = s.sys.safe ∧ (State.endPulses s q c k).pwr.cut = s.pwr.cut := by
  simp [State.endPulses]

@[simp] theorem State.renderRf_kept (s : State) (q c k : Nat) :
    (State.renderRf s q c k).pending = s.pending ∧ (State.renderRf s q c k).ram = s.ram ∧ (State.renderRf s q c k).sys.safe = s.sys.safe ∧ (State.renderRf s q c k).pwr.cut = s.pwr.cut := by
  simp [State.renderRf]

@[simp] theorem State.fluxSample_kept (s : State) (k n : Nat) :
    (State.fluxSample s k n).pending = s.pending ∧ (State.fluxSample s k n).ram = s.ram ∧ (State.fluxSample s k n).sys.safe = s.sys.safe ∧ (State.fluxSample s k n).pwr.cut = s.pwr.cut := by
  simp [State.fluxSample]

@[simp] theorem State.renderFlux_kept (s : State) (k n : Nat) :
    (State.renderFlux s k n).pending = s.pending ∧ (State.renderFlux s k n).ram = s.ram ∧ (State.renderFlux s k n).sys.safe = s.sys.safe ∧ (State.renderFlux s k n).pwr.cut = s.pwr.cut := by
  simp [State.renderFlux]

@[simp] theorem State.presetFlux_kept (s : State) (k : Nat) :
    (State.presetFlux s k).pending = s.pending ∧ (State.presetFlux s k).ram = s.ram ∧ (State.presetFlux s k).sys.safe = s.sys.safe ∧ (State.presetFlux s k).pwr.cut = s.pwr.cut := by
  exact ⟨rfl, rfl, rfl, rfl⟩

@[simp] theorem State.silence_kept (s : State) (k : Nat) :
    (State.silence s k).pending = s.pending ∧ (State.silence s k).ram = s.ram ∧ (State.silence s k).sys.safe = s.sys.safe ∧ (State.silence s k).pwr.cut = s.pwr.cut := by
  simp [State.silence]

@[simp] theorem State.terminate_kept (s : State) (k : Nat) :
    (State.terminate s k).pending = s.pending ∧ (State.terminate s k).ram = s.ram ∧ (State.terminate s k).sys.safe = s.sys.safe ∧ (State.terminate s k).pwr.cut = s.pwr.cut := by
  simp [State.terminate]

@[simp] theorem State.faultMute_kept (s : State) (cause k : Nat) :
    (State.faultMute s cause k).pending = s.pending ∧ (State.faultMute s cause k).ram = s.ram ∧ (State.faultMute s cause k).sys.safe = s.sys.safe ∧ (State.faultMute s cause k).pwr.cut = s.pwr.cut := by
  simp [State.faultMute]

@[simp] theorem State.faultClear_kept (s : State) (cause k : Nat) :
    (State.faultClear s cause k).pending = s.pending ∧ (State.faultClear s cause k).ram = s.ram ∧ (State.faultClear s cause k).sys.safe = s.sys.safe ∧ (State.faultClear s cause k).pwr.cut = s.pwr.cut := by
  simp [State.faultClear]

@[simp] theorem State.endCompare_kept (s : State) (m : MarkCmp) (r : CSlot) :
    (State.endCompare s m r).pending = s.pending ∧ (State.endCompare s m r).ram = s.ram ∧ (State.endCompare s m r).sys.safe = s.sys.safe ∧ (State.endCompare s m r).pwr.cut = s.pwr.cut := by
  first
    | exact ⟨rfl, rfl, rfl, rfl⟩
    | (simp [State.endCompare]; done)
    | (simp only [State.endCompare]; (repeat' split) <;> simp; done)
    | (unfold State.endCompare; (repeat' split) <;> simp; done)

@[simp] theorem State.voidCompare_kept (s : State) (id : Nat) :
    (State.voidCompare s id).pending = s.pending ∧ (State.voidCompare s id).ram = s.ram ∧ (State.voidCompare s id).sys.safe = s.sys.safe ∧ (State.voidCompare s id).pwr.cut = s.pwr.cut := by
  simp only [State.voidCompare]; (repeat' split) <;> simp

@[simp] theorem State.haltBias_kept (s : State) (w : Nat) :
    (State.haltBias s w).pending = s.pending ∧ (State.haltBias s w).ram = s.ram ∧ (State.haltBias s w).sys.safe = s.sys.safe ∧ (State.haltBias s w).pwr.cut = s.pwr.cut := by
  simp [State.haltBias]

@[simp] theorem State.haltQueue_kept (s : State) (w : Nat) :
    (State.haltQueue s w).pending = s.pending ∧ (State.haltQueue s w).ram = s.ram ∧ (State.haltQueue s w).sys.safe = s.sys.safe ∧ (State.haltQueue s w).pwr.cut = s.pwr.cut := by
  unfold State.haltQueue
  by_cases h : 64 ≤ w % 72 ∧ w % 72 < 68 <;> cases queueChan (w / 72) (w % 72) <;> simp [h]

/-! ### Bias -/

@[simp] theorem State.plan_kept (s : State) :
    (State.plan s).pending = s.pending ∧ (State.plan s).ram = s.ram ∧ (State.plan s).sys.safe = s.sys.safe ∧ (State.plan s).pwr.cut = s.pwr.cut := by
  simp only [State.plan]; (repeat' split) <;> simp

@[simp] theorem State.leadNow_kept (s : State) :
    (State.leadNow s).pending = s.pending ∧ (State.leadNow s).ram = s.ram ∧ (State.leadNow s).sys.safe = s.sys.safe ∧ (State.leadNow s).pwr.cut = s.pwr.cut := by
  simp [State.leadNow]

@[simp] theorem State.updBias_kept (s : State) (k : Nat) (f : Bias → Bias) :
    (State.updBias s k f).pending = s.pending ∧ (State.updBias s k f).ram = s.ram ∧ (State.updBias s k f).sys.safe = s.sys.safe ∧ (State.updBias s k f).pwr.cut = s.pwr.cut := by
  exact ⟨rfl, rfl, rfl, rfl⟩

@[simp] theorem State.rampChanged_kept (o s : State) (k : Nat) :
    (State.rampChanged o s k).pending = s.pending ∧ (State.rampChanged o s k).ram = s.ram ∧ (State.rampChanged o s k).sys.safe = s.sys.safe ∧ (State.rampChanged o s k).pwr.cut = s.pwr.cut := by
  first
    | exact ⟨rfl, rfl, rfl, rfl⟩
    | (simp [State.rampChanged]; done)
    | (simp only [State.rampChanged]; (repeat' split) <;> simp; done)
    | (unfold State.rampChanged; (repeat' split) <;> simp; done)

@[simp] theorem State.rangeChanged_kept (o s : State) (k : Nat) :
    (State.rangeChanged o s k).pending = s.pending ∧ (State.rangeChanged o s k).ram = s.ram ∧ (State.rangeChanged o s k).sys.safe = s.sys.safe ∧ (State.rangeChanged o s k).pwr.cut = s.pwr.cut := by
  first
    | exact ⟨rfl, rfl, rfl, rfl⟩
    | (simp [State.rangeChanged]; done)
    | (simp only [State.rangeChanged]; (repeat' split) <;> simp; done)
    | (unfold State.rangeChanged; (repeat' split) <;> simp; done)

@[simp] theorem State.biasFreeze_kept (s : State) (k : Nat) :
    (State.biasFreeze s k).pending = s.pending ∧ (State.biasFreeze s k).ram = s.ram ∧ (State.biasFreeze s k).sys.safe = s.sys.safe ∧ (State.biasFreeze s k).pwr.cut = s.pwr.cut := by
  exact ⟨rfl, rfl, rfl, rfl⟩

@[simp] theorem State.biasRamp_kept (s : State) (k : Nat) (target : Int) :
    (State.biasRamp s k target).pending = s.pending ∧ (State.biasRamp s k target).ram = s.ram ∧ (State.biasRamp s k target).sys.safe = s.sys.safe ∧ (State.biasRamp s k target).pwr.cut = s.pwr.cut := by
  exact ⟨rfl, rfl, rfl, rfl⟩

@[simp] theorem State.biasStep_kept (s : State) (k : Nat) (code : Int) :
    (State.biasStep s k code).pending = s.pending ∧ (State.biasStep s k code).ram = s.ram ∧ (State.biasStep s k code).sys.safe = s.sys.safe ∧ (State.biasStep s k code).pwr.cut = s.pwr.cut := by
  simp only [State.biasStep]; (repeat' split) <;> simp

@[simp] theorem State.biasRecord_kept (s : State) (k cause action : Nat) (inv : Bool) :
    (State.biasRecord s k cause action inv).pending = s.pending ∧ (State.biasRecord s k cause action inv).ram = s.ram ∧ (State.biasRecord s k cause action inv).sys.safe = s.sys.safe ∧ (State.biasRecord s k cause action inv).pwr.cut = s.pwr.cut := by
  simp [State.biasRecord]

@[simp] theorem State.biasSafe_kept (s : State) (k : Nat) :
    (State.biasSafe s k).pending = s.pending ∧ (State.biasSafe s k).ram = s.ram ∧ (State.biasSafe s k).sys.safe = s.sys.safe ∧ (State.biasSafe s k).pwr.cut = s.pwr.cut := by
  simp [State.biasSafe]

@[simp] theorem State.biasAct_kept (s : State) (k cause action : Nat) :
    (State.biasAct s k cause action).pending = s.pending ∧ (State.biasAct s k cause action).ram = s.ram ∧ (State.biasAct s k cause action).sys.safe = s.sys.safe ∧ (State.biasAct s k cause action).pwr.cut = s.pwr.cut := by
  simp only [State.biasAct]; (repeat' split) <;> simp

@[simp] theorem State.allBiasSafe_kept (s : State) (cause : Nat) :
    (State.allBiasSafe s cause).pending = s.pending ∧ (State.allBiasSafe s cause).ram = s.ram ∧ (State.allBiasSafe s cause).sys.safe = s.sys.safe ∧ (State.allBiasSafe s cause).pwr.cut = s.pwr.cut := by
  simp [State.allBiasSafe]

@[simp] theorem State.allBiasClear_kept (s : State) (cause : Nat) :
    (State.allBiasClear s cause).pending = s.pending ∧ (State.allBiasClear s cause).ram = s.ram ∧ (State.allBiasClear s cause).sys.safe = s.sys.safe ∧ (State.allBiasClear s cause).pwr.cut = s.pwr.cut := by
  exact ⟨rfl, rfl, rfl, rfl⟩

@[simp] theorem State.biasCompliance_kept (s : State) (k : Nat) :
    (State.biasCompliance s k).pending = s.pending ∧ (State.biasCompliance s k).ram = s.ram ∧ (State.biasCompliance s k).sys.safe = s.sys.safe ∧ (State.biasCompliance s k).pwr.cut = s.pwr.cut := by
  simp [State.biasCompliance]

@[simp] theorem State.biasComplianceClear_kept (s : State) (k : Nat) :
    (State.biasComplianceClear s k).pending = s.pending ∧ (State.biasComplianceClear s k).ram = s.ram ∧ (State.biasComplianceClear s k).sys.safe = s.sys.safe ∧ (State.biasComplianceClear s k).pwr.cut = s.pwr.cut := by
  simp [State.biasComplianceClear]

@[simp] theorem State.biasOpenLoad_kept (s : State) (k : Nat) :
    (State.biasOpenLoad s k).pending = s.pending ∧ (State.biasOpenLoad s k).ram = s.ram ∧ (State.biasOpenLoad s k).sys.safe = s.sys.safe ∧ (State.biasOpenLoad s k).pwr.cut = s.pwr.cut := by
  simp [State.biasOpenLoad]

@[simp] theorem State.biasRearm_kept (s : State) (k : Nat) :
    (State.biasRearm s k).pending = s.pending ∧ (State.biasRearm s k).ram = s.ram ∧ (State.biasRearm s k).sys.safe = s.sys.safe ∧ (State.biasRearm s k).pwr.cut = s.pwr.cut := by
  simp [State.biasRearm]

@[simp] theorem State.waveError_kept (s : State) (k a : Nat) :
    (State.waveError s k a).pending = s.pending ∧ (State.waveError s k a).ram = s.ram ∧ (State.waveError s k a).sys.safe = s.sys.safe ∧ (State.waveError s k a).pwr.cut = s.pwr.cut := by
  simp [State.waveError]

@[simp] theorem State.waveStep_kept (s : State) (k : Nat) (bad : Bool) :
    (State.waveStep s k bad).pending = s.pending ∧ (State.waveStep s k bad).ram = s.ram ∧ (State.waveStep s k bad).sys.safe = s.sys.safe ∧ (State.waveStep s k bad).pwr.cut = s.pwr.cut := by
  simp only [State.waveStep]; (repeat' split) <;> simp

@[simp] theorem State.startWave_kept (s : State) (k wave : Nat) (bad : Bool) :
    (State.startWave s k wave bad).pending = s.pending ∧ (State.startWave s k wave bad).ram = s.ram ∧ (State.startWave s k wave bad).sys.safe = s.sys.safe ∧ (State.startWave s k wave bad).pwr.cut = s.pwr.cut := by
  simp [State.startWave]

@[simp] theorem State.biasWavePoint_kept (s : State) (k : Nat) (bad : Bool) :
    (State.biasWavePoint s k bad).pending = s.pending ∧ (State.biasWavePoint s k bad).ram = s.ram ∧ (State.biasWavePoint s k bad).sys.safe = s.sys.safe ∧ (State.biasWavePoint s k bad).pwr.cut = s.pwr.cut := by
  simp only [State.biasWavePoint]; (repeat' split) <;> simp

@[simp] theorem State.biasJobEnd_kept (s : State) :
    (s.biasJobEnd).pending = s.pending ∧ (s.biasJobEnd).ram = s.ram ∧ (s.biasJobEnd).sys.safe = s.sys.safe ∧ (s.biasJobEnd).pwr.cut = s.pwr.cut := by
  unfold State.biasJobEnd
  exact ⟨foldl_pending _ (by intros; dsimp only; split <;> simp) _ _,
    foldl_ram _ (by intros; dsimp only; split <;> simp) _ _,
    foldl_safe _ (by intros; dsimp only; split <;> simp) _ _,
    foldl_cut _ (by intros; dsimp only; split <;> simp) _ _⟩

@[simp] theorem State.rangeStart_kept (s : State) (k : Nat) :
    (State.rangeStart s k).pending = s.pending ∧ (State.rangeStart s k).ram = s.ram ∧ (State.rangeStart s k).sys.safe = s.sys.safe ∧ (State.rangeStart s k).pwr.cut = s.pwr.cut := by
  simp [State.rangeStart]

@[simp] theorem State.rangeSequence_kept (s : State) (k : Nat) :
    (State.rangeSequence s k).pending = s.pending ∧ (State.rangeSequence s k).ram = s.ram ∧ (State.rangeSequence s k).sys.safe = s.sys.safe ∧ (State.rangeSequence s k).pwr.cut = s.pwr.cut := by
  simp [State.rangeSequence]

@[simp] theorem State.rangeHoldEnd_kept (s : State) (k : Nat) :
    (State.rangeHoldEnd s k).pending = s.pending ∧ (State.rangeHoldEnd s k).ram = s.ram ∧ (State.rangeHoldEnd s k).sys.safe = s.sys.safe ∧ (State.rangeHoldEnd s k).pwr.cut = s.pwr.cut := by
  simp only [State.rangeHoldEnd]; (repeat' split) <;> simp

@[simp] theorem State.rangeDone_kept (s : State) (k : Nat) (c : Int) :
    (State.rangeDone s k c).pending = s.pending ∧ (State.rangeDone s k c).ram = s.ram ∧ (State.rangeDone s k c).sys.safe = s.sys.safe ∧ (State.rangeDone s k c).pwr.cut = s.pwr.cut := by
  simp [State.rangeDone]

@[simp] theorem State.rampDone_kept (s : State) (k : Nat) :
    (State.rampDone s k).pending = s.pending ∧ (State.rampDone s k).ram = s.ram ∧ (State.rampDone s k).sys.safe = s.sys.safe ∧ (State.rampDone s k).pwr.cut = s.pwr.cut := by
  simp only [State.rampDone]; (repeat' split) <;> simp

@[simp] theorem State.ffClr_kept (s : State) (k : Nat) :
    (State.ffClr s k).pending = s.pending ∧ (State.ffClr s k).ram = s.ram ∧ (State.ffClr s k).sys.safe = s.sys.safe ∧ (State.ffClr s k).pwr.cut = s.pwr.cut := by
  simp [State.ffClr]

/-! ### Readout -/

@[simp] theorem State.makeToken_kept (s : State) (syn void : Bool) (tgt payload smp : Nat) :
    (State.makeToken s syn void tgt payload smp).pending = s.pending ∧ (State.makeToken s syn void tgt payload smp).ram = s.ram ∧ (State.makeToken s syn void tgt payload smp).sys.safe = s.sys.safe ∧ (State.makeToken s syn void tgt payload smp).pwr.cut = s.pwr.cut := by
  exact ⟨rfl, rfl, rfl, rfl⟩

@[simp] theorem State.setTrack_kept (s : State) (q ks : Nat) (k : KTrack) :
    (State.setTrack s q ks k).pending = s.pending ∧ (State.setTrack s q ks k).ram = s.ram ∧ (State.setTrack s q ks k).sys.safe = s.sys.safe ∧ (State.setTrack s q ks k).pwr.cut = s.pwr.cut := by
  exact ⟨rfl, rfl, rfl, rfl⟩

@[simp] theorem State.trackPoint_kept (s : State) (q ks st conf : Nat) (pi pq : Int) :
    (State.trackPoint s q ks st conf pi pq).pending = s.pending ∧ (State.trackPoint s q ks st conf pi pq).ram = s.ram ∧ (State.trackPoint s q ks st conf pi pq).sys.safe = s.sys.safe ∧ (State.trackPoint s q ks st conf pi pq).pwr.cut = s.pwr.cut := by
  simp [State.trackPoint]

@[simp] theorem State.driftSet_kept (s : State) (key : Nat) :
    (State.driftSet s key).pending = s.pending ∧ (State.driftSet s key).ram = s.ram ∧ (State.driftSet s key).sys.safe = s.sys.safe ∧ (State.driftSet s key).pwr.cut = s.pwr.cut := by
  simp only [State.driftSet]; (repeat' split) <;> simp

@[simp] theorem State.driftUpdate_kept (s : State) :
    (State.driftUpdate s).pending = s.pending ∧ (State.driftUpdate s).ram = s.ram ∧ (State.driftUpdate s).sys.safe = s.sys.safe ∧ (State.driftUpdate s).pwr.cut = s.pwr.cut := by
  simp [State.driftUpdate]

@[simp] theorem State.resetTrack_kept (s : State) (q ks : Nat) :
    (State.resetTrack s q ks).pending = s.pending ∧ (State.resetTrack s q ks).ram = s.ram ∧ (State.resetTrack s q ks).sys.safe = s.sys.safe ∧ (State.resetTrack s q ks).pwr.cut = s.pwr.cut := by
  exact ⟨rfl, rfl, rfl, rfl⟩

@[simp] theorem State.updDsp_kept (s : State) (k : Nat) (f : Dsp → Dsp) :
    (State.updDsp s k f).pending = s.pending ∧ (State.updDsp s k f).ram = s.ram ∧ (State.updDsp s k f).sys.safe = s.sys.safe ∧ (State.updDsp s k f).pwr.cut = s.pwr.cut := by
  exact ⟨rfl, rfl, rfl, rfl⟩

@[simp] theorem State.putWords_kept (s : State) (k n : Nat) (w : Win) (xs : List Nat) :
    (State.putWords s k n w xs).1.pending = s.pending ∧ (State.putWords s k n w xs).1.sys.safe = s.sys.safe ∧ (State.putWords s k n w xs).1.pwr.cut = s.pwr.cut := by
  induction xs generalizing s w with
  | nil => exact ⟨rfl, rfl, rfl⟩
  | cons x xs ih => simp only [State.putWords]; split <;> simp [ih, State.store]

@[simp] theorem State.voidWindow_kept (s : State) (w : Win) :
    (State.voidWindow s w).pending = s.pending ∧ (State.voidWindow s w).ram = s.ram ∧ (State.voidWindow s w).sys.safe = s.sys.safe ∧ (State.voidWindow s w).pwr.cut = s.pwr.cut := by
  simp [State.voidWindow]

@[simp] theorem State.abandon_kept (s : State) (k : Nat) (w : Win) :
    (State.abandon s k w).pending = s.pending ∧ (State.abandon s k w).ram = s.ram ∧ (State.abandon s k w).sys.safe = s.sys.safe ∧ (State.abandon s k w).pwr.cut = s.pwr.cut := by
  first
    | exact ⟨rfl, rfl, rfl, rfl⟩
    | (simp [State.abandon]; done)
    | (simp only [State.abandon]; (repeat' split) <;> simp; done)
    | (unfold State.abandon; (repeat' split) <;> simp; done)

@[simp] theorem State.dropWindow_kept (s : State) (k : Nat) (w : Win) (cause : Nat) :
    (State.dropWindow s k w cause).pending = s.pending ∧ (State.dropWindow s k w cause).ram = s.ram ∧ (State.dropWindow s k w cause).sys.safe = s.sys.safe ∧ (State.dropWindow s k w cause).pwr.cut = s.pwr.cut := by
  simp [State.dropWindow]

@[simp] theorem State.packetEnter_kept (s : State) (k : Nat) (w : Win) (groups psat : Bool) :
    (State.packetEnter s k w groups psat).pending = s.pending ∧ (State.packetEnter s k w groups psat).ram = s.ram ∧ (State.packetEnter s k w groups psat).sys.safe = s.sys.safe ∧ (State.packetEnter s k w groups psat).pwr.cut = s.pwr.cut := by
  first
    | exact ⟨rfl, rfl, rfl, rfl⟩
    | (simp [State.packetEnter]; done)
    | (simp only [State.packetEnter]; (repeat' split) <;> simp; done)
    | (unfold State.packetEnter; (repeat' split) <;> simp; done)

@[simp] theorem State.windowRecord_kept (s : State) (w : Win) (pi pq : Int) (st conf rflags : Nat) :
    (State.windowRecord s w pi pq st conf rflags).pending = s.pending ∧ (State.windowRecord s w pi pq st conf rflags).ram = s.ram ∧ (State.windowRecord s w pi pq st conf rflags).sys.safe = s.sys.safe ∧ (State.windowRecord s w pi pq st conf rflags).pwr.cut = s.pwr.cut := by
  simp [State.windowRecord]

@[simp] theorem State.kernelError_kept (s : State) (w : Win) (addr : Nat) :
    (State.kernelError s w addr).pending = s.pending ∧ (State.kernelError s w addr).ram = s.ram ∧ (State.kernelError s w addr).sys.safe = s.sys.safe ∧ (State.kernelError s w addr).pwr.cut = s.pwr.cut := by
  simp [State.kernelError]

@[simp] theorem State.takeGroups_kept (s : State) (k : Nat) (w : Win) (codes : List (BitVec 12)) (fin : Bool) :
    (State.takeGroups s k w codes fin).1.pending = s.pending ∧ (State.takeGroups s k w codes fin).1.sys.safe = s.sys.safe ∧ (State.takeGroups s k w codes fin).1.pwr.cut = s.pwr.cut := by
  first
    | exact ⟨rfl, rfl, rfl⟩
    | (simp [State.takeGroups]; done)
    | (simp only [State.takeGroups]; (repeat' split) <;> simp; done)
    | (unfold State.takeGroups; (repeat' split) <;> simp; done)

@[simp] theorem State.closeWindow_kept (s : State) (w : Win) (codes : List (BitVec 12)) (kerr : Option Word) :
    (State.closeWindow s w codes kerr).pending = s.pending ∧ (State.closeWindow s w codes kerr).sys.safe = s.sys.safe ∧ (State.closeWindow s w codes kerr).pwr.cut = s.pwr.cut := by
  simp only [State.closeWindow]; (repeat' split) <;> simp

@[simp] theorem State.windowGroups_kept (s : State) (w : Win) (codes : List (BitVec 12)) :
    (State.windowGroups s w codes).pending = s.pending ∧ (State.windowGroups s w codes).sys.safe = s.sys.safe ∧ (State.windowGroups s w codes).pwr.cut = s.pwr.cut := by
  first
    | exact ⟨rfl, rfl, rfl⟩
    | (simp [State.windowGroups]; done)
    | (simp only [State.windowGroups]; (repeat' split) <;> simp; done)
    | (unfold State.windowGroups; (repeat' split) <;> simp; done)

@[simp] theorem State.windowEnd_kept (s : State) (q t : Nat) (codes : List (BitVec 12)) (kerr : Option Word) :
    (State.windowEnd s q t codes kerr).pending = s.pending ∧ (State.windowEnd s q t codes kerr).sys.safe = s.sys.safe ∧ (State.windowEnd s q t codes kerr).pwr.cut = s.pwr.cut := by
  simp only [State.windowEnd]; (repeat' split) <;> simp

@[simp] theorem State.gateOpen_kept (s : State) (inp start : Nat) (stop : Option Nat) :
    (State.gateOpen s inp start stop).pending = s.pending ∧ (State.gateOpen s inp start stop).ram = s.ram ∧ (State.gateOpen s inp start stop).sys.safe = s.sys.safe ∧ (State.gateOpen s inp start stop).pwr.cut = s.pwr.cut := by
  first
    | exact ⟨rfl, rfl, rfl, rfl⟩
    | (simp [State.gateOpen]; done)
    | (simp only [State.gateOpen]; (repeat' split) <;> simp; done)
    | (unfold State.gateOpen; (repeat' split) <;> simp; done)

@[simp] theorem State.captureWindow_kept (s : State) (q : Nat) (w : WinCfg) (first : Nat) :
    (State.captureWindow s q w first).pending = s.pending ∧ (State.captureWindow s q w first).ram = s.ram ∧ (State.captureWindow s q w first).sys.safe = s.sys.safe ∧ (State.captureWindow s q w first).pwr.cut = s.pwr.cut := by
  first
    | exact ⟨rfl, rfl, rfl, rfl⟩
    | (simp [State.captureWindow]; done)
    | (simp only [State.captureWindow]; (repeat' split) <;> simp; done)
    | (unfold State.captureWindow; (repeat' split) <;> simp; done)

@[simp] theorem State.captureShot_kept (s : State) :
    (State.captureShot s).pending = s.pending ∧ (State.captureShot s).ram = s.ram ∧ (State.captureShot s).sys.safe = s.sys.safe ∧ (State.captureShot s).pwr.cut = s.pwr.cut := by
  first
    | exact ⟨rfl, rfl, rfl, rfl⟩
    | (simp [State.captureShot]; done)
    | (simp only [State.captureShot]; (repeat' split) <;> simp; done)
    | (unfold State.captureShot; (repeat' split) <;> simp; done)

@[simp] theorem State.captureShotEnd_kept (s : State) :
    (State.captureShotEnd s).pending = s.pending ∧ (State.captureShotEnd s).ram = s.ram ∧ (State.captureShotEnd s).sys.safe = s.sys.safe ∧ (State.captureShotEnd s).pwr.cut = s.pwr.cut := by
  first
    | exact ⟨rfl, rfl, rfl, rfl⟩
    | (simp [State.captureShotEnd]; done)
    | (simp only [State.captureShotEnd]; (repeat' split) <;> simp; done)
    | (unfold State.captureShotEnd; (repeat' split) <;> simp; done)

@[simp] theorem State.openWindow_kept (s : State) (q : Nat) (w : WinCfg) (first : Nat) (slip void : Bool) :
    (State.openWindow s q w first slip void).pending = s.pending ∧ (State.openWindow s q w first slip void).ram = s.ram ∧ (State.openWindow s q w first slip void).sys.safe = s.sys.safe ∧ (State.openWindow s q w first slip void).pwr.cut = s.pwr.cut := by
  simp only [State.openWindow]; (repeat' split) <;> simp

@[simp] theorem State.adcOverrange_kept (s : State) (inp k : Nat) :
    (State.adcOverrange s inp k).pending = s.pending ∧ (State.adcOverrange s inp k).ram = s.ram ∧ (State.adcOverrange s inp k).sys.safe = s.sys.safe ∧ (State.adcOverrange s inp k).pwr.cut = s.pwr.cut := by
  simp [State.adcOverrange]

@[simp] theorem State.updCap_kept (s : State) (inp : Nat) (f : CapSlot → CapSlot) :
    (State.updCap s inp f).pending = s.pending ∧ (State.updCap s inp f).ram = s.ram ∧ (State.updCap s inp f).sys.safe = s.sys.safe ∧ (State.updCap s inp f).pwr.cut = s.pwr.cut := by
  first
    | exact ⟨rfl, rfl, rfl, rfl⟩
    | (simp [State.updCap]; done)
    | (simp only [State.updCap]; (repeat' split) <;> simp; done)
    | (unfold State.updCap; (repeat' split) <;> simp; done)

@[simp] theorem State.releaseUpTo_kept (s : State) (src : Nat) (st : Stamp) :
    (State.releaseUpTo s src st).pending = s.pending ∧ (State.releaseUpTo s src st).ram = s.ram ∧ (State.releaseUpTo s src st).sys.safe = s.sys.safe ∧ (State.releaseUpTo s src st).pwr.cut = s.pwr.cut := by
  first
    | exact ⟨rfl, rfl, rfl, rfl⟩
    | (simp [State.releaseUpTo]; done)
    | (simp only [State.releaseUpTo]; (repeat' split) <;> simp; done)
    | (unfold State.releaseUpTo; (repeat' split) <;> simp; done)

@[simp] theorem State.postGap_kept (s : State) (inp : Nat) :
    (State.postGap s inp).pending = s.pending ∧ (State.postGap s inp).ram = s.ram ∧ (State.postGap s inp).sys.safe = s.sys.safe ∧ (State.postGap s inp).pwr.cut = s.pwr.cut := by
  simp only [State.postGap]; (repeat' split) <;> simp

@[simp] theorem State.finishJob_kept (s : State) :
    (State.finishJob s).pending = s.pending ∧ (State.finishJob s).ram = s.ram ∧ (State.finishJob s).sys.safe = s.sys.safe ∧ (State.finishJob s).pwr.cut = s.pwr.cut := by
  first
    | exact ⟨rfl, rfl, rfl, rfl⟩
    | (simp [State.finishJob]; done)
    | (simp only [State.finishJob]; (repeat' split) <;> simp; done)
    | (unfold State.finishJob; (repeat' split) <;> simp; done)

@[simp] theorem State.takeNumber_kept (s : State) (src : Nat) :
    (State.takeNumber s src).pending = s.pending ∧ (State.takeNumber s src).ram = s.ram ∧ (State.takeNumber s src).sys.safe = s.sys.safe ∧ (State.takeNumber s src).pwr.cut = s.pwr.cut := by
  first
    | exact ⟨rfl, rfl, rfl, rfl⟩
    | (simp [State.takeNumber]; done)
    | (simp only [State.takeNumber]; (repeat' split) <;> simp; done)
    | (unfold State.takeNumber; (repeat' split) <;> simp; done)

@[simp] theorem State.dropCapture_kept (s : State) (inp : Nat) (st : Stamp) :
    (State.dropCapture s inp st).pending = s.pending ∧ (State.dropCapture s inp st).ram = s.ram ∧ (State.dropCapture s inp st).sys.safe = s.sys.safe ∧ (State.dropCapture s inp st).pwr.cut = s.pwr.cut := by
  first
    | exact ⟨rfl, rfl, rfl, rfl⟩
    | (simp [State.dropCapture]; done)
    | (simp only [State.dropCapture]; (repeat' split) <;> simp; done)
    | (unfold State.dropCapture; (repeat' split) <;> simp; done)

@[simp] theorem State.keepCapture_kept (s : State) (inp : Nat) (v : CapIval) (codes : List (BitVec 12)) (st : Stamp) :
    (State.keepCapture s inp v codes st).pending = s.pending ∧ (State.keepCapture s inp v codes st).ram = s.ram ∧ (State.keepCapture s inp v codes st).sys.safe = s.sys.safe ∧ (State.keepCapture s inp v codes st).pwr.cut = s.pwr.cut := by
  first
    | exact ⟨rfl, rfl, rfl, rfl⟩
    | (simp [State.keepCapture]; done)
    | (simp only [State.keepCapture]; (repeat' split) <;> simp; done)
    | (unfold State.keepCapture; (repeat' split) <;> simp; done)

@[simp] theorem State.captureComplete_kept (s : State) (inp : Nat) (codes : List (BitVec 12)) :
    (State.captureComplete s inp codes).pending = s.pending ∧ (State.captureComplete s inp codes).ram = s.ram ∧ (State.captureComplete s inp codes).sys.safe = s.sys.safe ∧ (State.captureComplete s inp codes).pwr.cut = s.pwr.cut := by
  first
    | exact ⟨rfl, rfl, rfl, rfl⟩
    | (simp [State.captureComplete]; done)
    | (simp only [State.captureComplete]; (repeat' split) <;> simp; done)
    | (unfold State.captureComplete; (repeat' split) <;> simp; done)

@[simp] theorem State.captureOut_kept (s : State) (inp free : Nat) (bad : Bool) :
    (State.captureOut s inp free bad).pending = s.pending ∧ (State.captureOut s inp free bad).ram = s.ram ∧ (State.captureOut s inp free bad).sys.safe = s.sys.safe ∧ (State.captureOut s inp free bad).pwr.cut = s.pwr.cut := by
  first
    | exact ⟨rfl, rfl, rfl, rfl⟩
    | (simp [State.captureOut]; done)
    | (simp only [State.captureOut]; (repeat' split) <;> simp; done)
    | (unfold State.captureOut; (repeat' split) <;> simp; done)

/-! ### SeqOps -/

@[simp] theorem State.seqRecord_kept (s : State) (k kind flags : Nat) (st : Stamp) (a : Nat) (more : List (Nat × Nat × Nat)) :
    (State.seqRecord s k kind flags st a more).pending = s.pending ∧ (State.seqRecord s k kind flags st a more).ram = s.ram ∧ (State.seqRecord s k kind flags st a more).sys.safe = s.sys.safe ∧ (State.seqRecord s k kind flags st a more).pwr.cut = s.pwr.cut := by
  simp [State.seqRecord]

@[simp] theorem State.releaseHolds_kept (s : State) (k : Nat) :
    (s.releaseHolds k).pending = s.pending ∧ (s.releaseHolds k).ram = s.ram ∧ (s.releaseHolds k).sys.safe = s.sys.safe ∧ (s.releaseHolds k).pwr.cut = s.pwr.cut := by
  unfold State.releaseHolds; refine ⟨?_, ?_, ?_, ?_⟩ <;> (first | apply foldl_pending | apply foldl_ram | apply foldl_safe | apply foldl_cut) <;> intro s a <;> split <;> rfl

@[simp] theorem State.stopSeq_kept (s : State) (k : Nat) :
    (State.stopSeq s k).pending = s.pending ∧ (State.stopSeq s k).ram = s.ram ∧ (State.stopSeq s k).sys.safe = s.sys.safe ∧ (State.stopSeq s k).pwr.cut = s.pwr.cut := by
  simp [State.stopSeq]

@[simp] theorem State.progError_kept (s : State) (k cause : Nat) :
    (State.progError s k cause).pending = s.pending ∧ (State.progError s k cause).ram = s.ram ∧ (State.progError s k cause).sys.safe = s.sys.safe ∧ (State.progError s k cause).pwr.cut = s.pwr.cut := by
  simp [State.progError]

@[simp] theorem State.setCursor_kept (s : State) (k c : Nat) :
    (State.setCursor s k c).pending = s.pending ∧ (State.setCursor s k c).ram = s.ram ∧ (State.setCursor s k c).sys.safe = s.sys.safe ∧ (State.setCursor s k c).pwr.cut = s.pwr.cut := by
  simp [State.setCursor]

@[simp] theorem State.nextPc_kept (s : State) (k : Nat) :
    (State.nextPc s k).pending = s.pending ∧ (State.nextPc s k).ram = s.ram ∧ (State.nextPc s k).sys.safe = s.sys.safe ∧ (State.nextPc s k).pwr.cut = s.pwr.cut := by
  exact ⟨rfl, rfl, rfl, rfl⟩

@[simp] theorem State.goto_kept (s : State) (k a : Nat) :
    (State.goto s k a).pending = s.pending ∧ (State.goto s k a).ram = s.ram ∧ (State.goto s k a).sys.safe = s.sys.safe ∧ (State.goto s k a).pwr.cut = s.pwr.cut := by
  exact ⟨rfl, rfl, rfl, rfl⟩

@[simp] theorem State.issue_pending (s : State) (k : Nat) (bad : Bool) (cls sub : Nat) (act : State → Seq → Stitch → State)
    (h : ∀ s x w, (act s x w).pending = s.pending) : (s.issue k bad cls sub act).pending = s.pending := by
  unfold State.issue; (repeat' split) <;> simp [h] <;> (repeat' split) <;> simp [h]

@[simp] theorem State.issue_ram (s : State) (k : Nat) (bad : Bool) (cls sub : Nat) (act : State → Seq → Stitch → State)
    (h : ∀ s x w, (act s x w).ram = s.ram) : (s.issue k bad cls sub act).ram = s.ram := by
  unfold State.issue; (repeat' split) <;> simp [h] <;> (repeat' split) <;> simp [h]

@[simp] theorem State.issue_safe (s : State) (k : Nat) (bad : Bool) (cls sub : Nat) (act : State → Seq → Stitch → State)
    (h : ∀ s x w, (act s x w).sys.safe = s.sys.safe) : (s.issue k bad cls sub act).sys.safe = s.sys.safe := by
  unfold State.issue; (repeat' split) <;> simp [h] <;> (repeat' split) <;> simp [h]

@[simp] theorem State.issue_cut (s : State) (k : Nat) (bad : Bool) (cls sub : Nat) (act : State → Seq → Stitch → State)
    (h : ∀ s x w, (act s x w).pwr.cut = s.pwr.cut) : (s.issue k bad cls sub act).pwr.cut = s.pwr.cut := by
  unfold State.issue; (repeat' split) <;> simp [h] <;> (repeat' split) <;> simp [h]

@[simp] theorem State.sendEvent_kept (s : State) (w : Nat) (e : WEvent) :
    (State.sendEvent s w e).pending = s.pending ∧ (State.sendEvent s w e).ram = s.ram ∧ (State.sendEvent s w e).sys.safe = s.sys.safe ∧ (State.sendEvent s w e).pwr.cut = s.pwr.cut := by
  exact ⟨rfl, rfl, rfl, rfl⟩

@[simp] theorem State.queueWait_kept (s : State) (k : Nat) :
    (State.queueWait s k).pending = s.pending ∧ (State.queueWait s k).ram = s.ram ∧ (State.queueWait s k).sys.safe = s.sys.safe ∧ (State.queueWait s k).pwr.cut = s.pwr.cut := by
  exact ⟨rfl, rfl, rfl, rfl⟩

@[simp] theorem State.takeStream_kept (s : State) (q : Nat) (w : Stitch) :
    (State.takeStream s q w).pending = s.pending ∧ (State.takeStream s q w).ram = s.ram ∧ (State.takeStream s q w).sys.safe = s.sys.safe ∧ (State.takeStream s q w).pwr.cut = s.pwr.cut := by
  exact ⟨rfl, rfl, rfl, rfl⟩

@[simp] theorem State.placePulse_kept (s : State) (k : Nat) (x : Seq) (w : Stitch) (p : Pulse) :
    (State.placePulse s k x w p).pending = s.pending ∧ (State.placePulse s k x w p).ram = s.ram ∧ (State.placePulse s k x w p).sys.safe = s.sys.safe ∧ (State.placePulse s k x w p).pwr.cut = s.pwr.cut := by
  simp [State.placePulse]

@[simp] theorem State.placeEvent_kept (s : State) (k : Nat) (x : Seq) (w : Stitch) (act : WAct) (c : Nat) :
    (State.placeEvent s k x w act c).pending = s.pending ∧ (State.placeEvent s k x w act c).ram = s.ram ∧ (State.placeEvent s k x w act c).sys.safe = s.sys.safe ∧ (State.placeEvent s k x w act c).pwr.cut = s.pwr.cut := by
  simp [State.placeEvent]

@[simp] theorem State.deadlineMiss_kept (s : State) (k a src outcome : Nat) (st : Stamp) :
    (State.deadlineMiss s k a src outcome st).pending = s.pending ∧ (State.deadlineMiss s k a src outcome st).ram = s.ram ∧ (State.deadlineMiss s k a src outcome st).sys.safe = s.sys.safe ∧ (State.deadlineMiss s k a src outcome st).pwr.cut = s.pwr.cut := by
  simp [State.deadlineMiss]

@[simp] theorem State.followFork_kept (s : State) (k first : Nat) (br : Branch) :
    (State.followFork s k first br).pending = s.pending ∧ (State.followFork s k first br).ram = s.ram ∧ (State.followFork s k first br).sys.safe = s.sys.safe ∧ (State.followFork s k first br).pwr.cut = s.pwr.cut := by
  simp [State.followFork]

@[simp] theorem State.takePath_kept (s : State) (k : Nat) (target : Bool) :
    (State.takePath s k target).pending = s.pending ∧ (State.takePath s k target).ram = s.ram ∧ (State.takePath s k target).sys.safe = s.sys.safe ∧ (State.takePath s k target).pwr.cut = s.pwr.cut := by
  simp only [State.takePath]; (repeat' split) <;> simp

@[simp] theorem State.owe_kept (s : State) (k : Nat) (w : Stitch) (br : Branch) :
    (State.owe s k w br).pending = s.pending ∧ (State.owe s k w br).ram = s.ram ∧ (State.owe s k w br).sys.safe = s.sys.safe ∧ (State.owe s k w br).pwr.cut = s.pwr.cut := by
  simp [State.owe]

@[simp] theorem State.defaultPath_kept (s : State) (k outcome : Nat) :
    (State.defaultPath s k outcome).pending = s.pending ∧ (State.defaultPath s k outcome).ram = s.ram ∧ (State.defaultPath s k outcome).sys.safe = s.sys.safe ∧ (State.defaultPath s k outcome).pwr.cut = s.pwr.cut := by
  simp only [State.defaultPath]; (repeat' split) <;> simp

@[simp] theorem State.condKnown_kept (s : State) (k : Nat) (r : Bool) :
    (State.condKnown s k r).pending = s.pending ∧ (State.condKnown s k r).ram = s.ram ∧ (State.condKnown s k r).sys.safe = s.sys.safe ∧ (State.condKnown s k r).pwr.cut = s.pwr.cut := by
  simp only [State.condKnown]; (repeat' split) <;> simp

@[simp] theorem State.condVoid_kept (s : State) (k : Nat) :
    (State.condVoid s k).pending = s.pending ∧ (State.condVoid s k).ram = s.ram ∧ (State.condVoid s k).sys.safe = s.sys.safe ∧ (State.condVoid s k).pwr.cut = s.pwr.cut := by
  simp only [State.condVoid]; (repeat' split) <;> simp

@[simp] theorem State.tryBranch_kept (s : State) (k : Nat) :
    (State.tryBranch s k).pending = s.pending ∧ (State.tryBranch s k).ram = s.ram ∧ (State.tryBranch s k).sys.safe = s.sys.safe ∧ (State.tryBranch s k).pwr.cut = s.pwr.cut := by
  simp only [State.tryBranch]; (repeat' split) <;> simp

@[simp] theorem State.waitCursor_kept (s : State) (k c : Nat) :
    (State.waitCursor s k c).pending = s.pending ∧ (State.waitCursor s k c).ram = s.ram ∧ (State.waitCursor s k c).sys.safe = s.sys.safe ∧ (State.waitCursor s k c).pwr.cut = s.pwr.cut := by
  simp [State.waitCursor]

@[simp] theorem State.resolveTrig_kept (s : State) (k : Nat) (t : Int) :
    (State.resolveTrig s k t).pending = s.pending ∧ (State.resolveTrig s k t).ram = s.ram ∧ (State.resolveTrig s k t).sys.safe = s.sys.safe ∧ (State.resolveTrig s k t).pwr.cut = s.pwr.cut := by
  simp [State.resolveTrig]

@[simp] theorem State.trigger_kept (s : State) (k src : Nat) (t : Trig) :
    (State.trigger s k src t).pending = s.pending ∧ (State.trigger s k src t).ram = s.ram ∧ (State.trigger s k src t).sys.safe = s.sys.safe ∧ (State.trigger s k src t).pwr.cut = s.pwr.cut := by
  simp only [State.trigger]; (repeat' split) <;> simp

@[simp] theorem State.sendEdge_kept (s : State) (ks : List Nat) (src : Nat) (t : Trig) :
    (State.sendEdge s ks src t).pending = s.pending ∧ (State.sendEdge s ks src t).ram = s.ram ∧ (State.sendEdge s ks src t).sys.safe = s.sys.safe ∧ (State.sendEdge s ks src t).pwr.cut = s.pwr.cut := by
  simp [State.sendEdge]

end Sys2Proof.Machine
end

