-- ==== Sys2Proof/Laws/Kept2.lean ====
section
/-! SUPPORT. What the operations of Welt, Awl, SysOps, Contexts, Time, Engines, PlaceOps, LaceOps, Sequencers leave as it is: the queue of commands, the memory,
the Safe cause and the latch of the hardware cut. One lemma per operation (those of them it keeps). -/

namespace Sys2Proof.Machine

/-! ### Welt -/

@[simp] theorem State.lateRecord_kept (s : State) (w : Nat) (e : WEvent) (pol flags target late : Nat) :
    (State.lateRecord s w e pol flags target late).pending = s.pending ∧ (State.lateRecord s w e pol flags target late).ram = s.ram ∧ (State.lateRecord s w e pol flags target late).sys.safe = s.sys.safe ∧ (State.lateRecord s w e pol flags target late).pwr.cut = s.pwr.cut := by
  simp [State.lateRecord]

@[simp] theorem State.discardEvent_kept (s : State) (w : Nat) (e : WEvent) :
    (State.discardEvent s w e).pending = s.pending ∧ (State.discardEvent s w e).ram = s.ram ∧ (State.discardEvent s w e).sys.safe = s.sys.safe ∧ (State.discardEvent s w e).pwr.cut = s.pwr.cut := by
  simp only [State.discardEvent]; (repeat' split) <;> simp

@[simp] theorem State.enqueue_kept (s : State) (w : Nat) (e : WEvent) :
    (State.enqueue s w e).pending = s.pending ∧ (State.enqueue s w e).ram = s.ram ∧ (State.enqueue s w e).sys.safe = s.sys.safe ∧ (State.enqueue s w e).pwr.cut = s.pwr.cut := by
  exact ⟨rfl, rfl, rfl, rfl⟩

@[simp] theorem State.haltFor_kept (s : State) (w : Nat) (e : WEvent) :
    (State.haltFor s w e).pending = s.pending ∧ (State.haltFor s w e).ram = s.ram ∧ (State.haltFor s w e).sys.safe = s.sys.safe ∧ (State.haltFor s w e).pwr.cut = s.pwr.cut := by
  simp [State.haltFor]

@[simp] theorem State.inactive_kept (s : State) (k : Nat) (st : Stamp) :
    (State.inactive s k st).pending = s.pending ∧ (State.inactive s k st).ram = s.ram ∧ (State.inactive s k st).sys.safe = s.sys.safe ∧ (State.inactive s k st).pwr.cut = s.pwr.cut := by
  simp [State.inactive]

@[simp] theorem State.lateInactive_kept (s : State) (w : Nat) (e : WEvent) (target : Nat) :
    (State.lateInactive s w e target).pending = s.pending ∧ (State.lateInactive s w e target).ram = s.ram ∧ (State.lateInactive s w e target).sys.safe = s.sys.safe ∧ (State.lateInactive s w e target).pwr.cut = s.pwr.cut := by
  simp only [State.lateInactive]; (repeat' split) <;> simp

@[simp] theorem State.lateEvent_kept (s : State) (w : Nat) (e : WEvent) :
    (State.lateEvent s w e).pending = s.pending ∧ (State.lateEvent s w e).ram = s.ram ∧ (State.lateEvent s w e).sys.safe = s.sys.safe ∧ (State.lateEvent s w e).pwr.cut = s.pwr.cut := by
  simp [State.lateEvent]

@[simp] theorem State.weltEnter_kept (s : State) (w : Nat) :
    (State.weltEnter s w).pending = s.pending ∧ (State.weltEnter s w).ram = s.ram ∧ (State.weltEnter s w).sys.safe = s.sys.safe ∧ (State.weltEnter s w).pwr.cut = s.pwr.cut := by
  simp only [State.weltEnter]; (repeat' split) <;> simp

@[simp] theorem State.applyState_kept (s : State) (src : Nat) (band : Nat × Nat) (g : Gen) (a : WAct) :
    (State.applyState s src band g a).1.pending = s.pending ∧ (State.applyState s src band g a).1.ram = s.ram ∧ (State.applyState s src band g a).1.sys.safe = s.sys.safe ∧ (State.applyState s src band g a).1.pwr.cut = s.pwr.cut := by
  simp only [State.applyState]; (repeat' split) <;> simp

@[simp] theorem State.stateRf_kept (s : State) (q c : Nat) (a : WAct) (k : Nat) :
    (State.stateRf s q c a k).pending = s.pending ∧ (State.stateRf s q c a k).ram = s.ram ∧ (State.stateRf s q c a k).sys.safe = s.sys.safe ∧ (State.stateRf s q c a k).pwr.cut = s.pwr.cut := by
  simp [State.stateRf]

@[simp] theorem State.stateTone_kept (s : State) (q i : Nat) (a : WAct) (k : Nat) :
    (State.stateTone s q i a k).pending = s.pending ∧ (State.stateTone s q i a k).ram = s.ram ∧ (State.stateTone s q i a k).sys.safe = s.sys.safe ∧ (State.stateTone s q i a k).pwr.cut = s.pwr.cut := by
  simp [State.stateTone]

@[simp] theorem State.renderFollowers_kept (s : State) (q n k : Nat) :
    (State.renderFollowers s q n k).pending = s.pending ∧ (State.renderFollowers s q n k).ram = s.ram ∧ (State.renderFollowers s q n k).sys.safe = s.sys.safe ∧ (State.renderFollowers s q n k).pwr.cut = s.pwr.cut := by
  first
    | exact ⟨rfl, rfl, rfl, rfl⟩
    | (simp [State.renderFollowers]; done)
    | (simp only [State.renderFollowers]; (repeat' split) <;> simp; done)
    | (unfold State.renderFollowers; (repeat' split) <;> simp; done)

@[simp] theorem State.releaseState_kept (s : State) (w : Nat) (e : WEvent) (k : Nat) :
    (State.releaseState s w e k).pending = s.pending ∧ (State.releaseState s w e k).ram = s.ram ∧ (State.releaseState s w e k).sys.safe = s.sys.safe ∧ (State.releaseState s w e k).pwr.cut = s.pwr.cut := by
  simp only [State.releaseState]; (repeat' split) <;> simp

@[simp] theorem State.envError_kept (s : State) (q k env addr : Nat) (st : Stamp) :
    (State.envError s q k env addr st).pending = s.pending ∧ (State.envError s q k env addr st).ram = s.ram ∧ (State.envError s q k env addr st).sys.safe = s.sys.safe ∧ (State.envError s q k env addr st).pwr.cut = s.pwr.cut := by
  simp [State.envError]

@[simp] theorem State.startPulse_kept (s : State) (w gen : Nat) (p : Pulse) (k : Nat) (e : WEvent) (rerr : Option (Nat × Nat)) :
    (State.startPulse s w gen p k e rerr).pending = s.pending ∧ (State.startPulse s w gen p k e rerr).ram = s.ram ∧ (State.startPulse s w gen p k e rerr).sys.safe = s.sys.safe ∧ (State.startPulse s w gen p k e rerr).pwr.cut = s.pwr.cut := by
  simp only [State.startPulse]; (repeat' split) <;> simp

@[simp] theorem State.markPinAct_kept (s : State) (p mode : Nat) (v rel : Bool) :
    (State.markPinAct s p mode v rel).pending = s.pending ∧ (State.markPinAct s p mode v rel).ram = s.ram ∧ (State.markPinAct s p mode v rel).sys.safe = s.sys.safe ∧ (State.markPinAct s p mode v rel).pwr.cut = s.pwr.cut := by
  simp [State.markPinAct]

@[simp] theorem State.makeCompare_kept (s : State) (id t : Nat) (levels : BitVec 16) :
    (State.makeCompare s id t levels).pending = s.pending ∧ (State.makeCompare s id t levels).ram = s.ram ∧ (State.makeCompare s id t levels).sys.safe = s.sys.safe ∧ (State.makeCompare s id t levels).pwr.cut = s.pwr.cut := by
  first
    | exact ⟨rfl, rfl, rfl, rfl⟩
    | (simp [State.makeCompare]; done)
    | (simp only [State.makeCompare]; (repeat' split) <;> simp; done)
    | (unfold State.makeCompare; (repeat' split) <;> simp; done)

@[simp] theorem State.releaseMark_kept (s : State) (q g mode value rel id t : Nat) (levels : BitVec 16) :
    (State.releaseMark s q g mode value rel id t levels).pending = s.pending ∧ (State.releaseMark s q g mode value rel id t levels).ram = s.ram ∧ (State.releaseMark s q g mode value rel id t levels).sys.safe = s.sys.safe ∧ (State.releaseMark s q g mode value rel id t levels).pwr.cut = s.pwr.cut := by
  first
    | exact ⟨rfl, rfl, rfl, rfl⟩
    | (simp [State.releaseMark]; done)
    | (simp only [State.releaseMark]; (repeat' split) <;> simp; done)
    | (unfold State.releaseMark; (repeat' split) <;> simp; done)

@[simp] theorem State.renderTo_kept (s : State) (w k : Nat) :
    (State.renderTo s w k).pending = s.pending ∧ (State.renderTo s w k).ram = s.ram ∧ (State.renderTo s w k).sys.safe = s.sys.safe ∧ (State.renderTo s w k).pwr.cut = s.pwr.cut := by
  simp only [State.renderTo]; (repeat' split) <;> simp

@[simp] theorem State.applyEvent_kept (s : State) (w : Nat) (e : WEvent) (k : Nat) (levels : BitVec 16) (rerr : Option (Nat × Nat)) :
    (State.applyEvent s w e k levels rerr).pending = s.pending ∧ (State.applyEvent s w e k levels rerr).ram = s.ram ∧ (State.applyEvent s w e k levels rerr).sys.safe = s.sys.safe ∧ (State.applyEvent s w e k levels rerr).pwr.cut = s.pwr.cut := by
  simp only [State.applyEvent]; (repeat' split) <;> simp

@[simp] theorem State.weltRelease_kept (s : State) (w : Nat) (levels : BitVec 16) (bad addr off : Nat) :
    (State.weltRelease s w levels bad addr off).pending = s.pending ∧ (State.weltRelease s w levels bad addr off).ram = s.ram ∧ (State.weltRelease s w levels bad addr off).sys.safe = s.sys.safe ∧ (State.weltRelease s w levels bad addr off).pwr.cut = s.pwr.cut := by
  simp only [State.weltRelease]; (repeat' split) <;> simp

@[simp] theorem State.switchStart_kept (s : State) (ch : Nat) :
    (State.switchStart s ch).pending = s.pending ∧ (State.switchStart s ch).ram = s.ram ∧ (State.switchStart s ch).sys.safe = s.sys.safe ∧ (State.switchStart s ch).pwr.cut = s.pwr.cut := by
  simp [State.switchStart]

@[simp] theorem State.switchEnd_kept (s : State) (ch : Nat) :
    (State.switchEnd s ch).pending = s.pending ∧ (State.switchEnd s ch).ram = s.ram ∧ (State.switchEnd s ch).sys.safe = s.sys.safe ∧ (State.switchEnd s ch).pwr.cut = s.pwr.cut := by
  simp [State.switchEnd]

@[simp] theorem State.overcurrent_kept (s : State) (ch : Nat) :
    (State.overcurrent s ch).pending = s.pending ∧ (State.overcurrent s ch).ram = s.ram ∧ (State.overcurrent s ch).sys.safe = s.sys.safe ∧ (State.overcurrent s ch).pwr.cut = s.pwr.cut := by
  simp [State.overcurrent]

@[simp] theorem State.faultRetest_kept (s : State) (ch : Nat) (passes : Bool) :
    (State.faultRetest s ch passes).pending = s.pending ∧ (State.faultRetest s ch passes).ram = s.ram ∧ (State.faultRetest s ch passes).sys.safe = s.sys.safe ∧ (State.faultRetest s ch passes).pwr.cut = s.pwr.cut := by
  simp [State.faultRetest]

/-! ### Awl -/

@[simp] theorem State.updAwl_kept (s : State) (k : Nat) (f : AwlIn → AwlIn) :
    (State.updAwl s k f).pending = s.pending ∧ (State.updAwl s k f).ram = s.ram ∧ (State.updAwl s k f).sys.safe = s.sys.safe ∧ (State.updAwl s k f).pwr.cut = s.pwr.cut := by
  exact ⟨rfl, rfl, rfl, rfl⟩

@[simp] theorem State.awlDrop_kept (s : State) (k : Nat) (st : Stamp) :
    (State.awlDrop s k st).pending = s.pending ∧ (State.awlDrop s k st).ram = s.ram ∧ (State.awlDrop s k st).sys.safe = s.sys.safe ∧ (State.awlDrop s k st).pwr.cut = s.pwr.cut := by
  exact ⟨rfl, rfl, rfl, rfl⟩

@[simp] theorem State.awlRecord_kept (s : State) (k kind flags : Nat) (st : Stamp) (body : List (Nat × Nat × Nat)) :
    (State.awlRecord s k kind flags st body).pending = s.pending ∧ (State.awlRecord s k kind flags st body).ram = s.ram ∧ (State.awlRecord s k kind flags st body).sys.safe = s.sys.safe ∧ (State.awlRecord s k kind flags st body).pwr.cut = s.pwr.cut := by
  simp [State.awlRecord]

@[simp] theorem State.countUnpair_kept (s : State) (k n : Nat) :
    (State.countUnpair s k n).pending = s.pending ∧ (State.countUnpair s k n).ram = s.ram ∧ (State.countUnpair s k n).sys.safe = s.sys.safe ∧ (State.countUnpair s k n).pwr.cut = s.pwr.cut := by
  simp [State.countUnpair]

@[simp] theorem State.awlInterval_kept (s : State) (k : Nat) (start stop : AwlTag) :
    (State.awlInterval s k start stop).pending = s.pending ∧ (State.awlInterval s k start stop).ram = s.ram ∧ (State.awlInterval s k start stop).sys.safe = s.sys.safe ∧ (State.awlInterval s k start stop).pwr.cut = s.pwr.cut := by
  simp [State.awlInterval]

@[simp] theorem State.awlPair_kept (s : State) (k : Nat) (isStop : Bool) (e : AwlTag) :
    (State.awlPair s k isStop e).pending = s.pending ∧ (State.awlPair s k isStop e).ram = s.ram ∧ (State.awlPair s k isStop e).sys.safe = s.sys.safe ∧ (State.awlPair s k isStop e).pwr.cut = s.pwr.cut := by
  simp only [State.awlPair]; (repeat' split) <;> simp

@[simp] theorem State.awlWait_kept (s : State) (k : Nat) (isStop : Bool) (e : AwlTag) :
    (State.awlWait s k isStop e).pending = s.pending ∧ (State.awlWait s k isStop e).ram = s.ram ∧ (State.awlWait s k isStop e).sys.safe = s.sys.safe ∧ (State.awlWait s k isStop e).pwr.cut = s.pwr.cut := by
  first
    | exact ⟨rfl, rfl, rfl, rfl⟩
    | (simp [State.awlWait]; done)
    | (simp only [State.awlWait]; (repeat' split) <;> simp; done)
    | (unfold State.awlWait; (repeat' split) <;> simp; done)

@[simp] theorem State.awlTake_kept (s : State) (k : Nat) :
    (State.awlTake s k).pending = s.pending ∧ (State.awlTake s k).ram = s.ram ∧ (State.awlTake s k).sys.safe = s.sys.safe ∧ (State.awlTake s k).pwr.cut = s.pwr.cut := by
  first
    | exact ⟨rfl, rfl, rfl, rfl⟩
    | (simp [State.awlTake]; done)
    | (simp only [State.awlTake]; (repeat' split) <;> simp; done)
    | (unfold State.awlTake; (repeat' split) <;> simp; done)

@[simp] theorem State.awlToPair_kept (s : State) (j : Nat) (e : AwlTag) (k : Nat) :
    (State.awlToPair s j e k).pending = s.pending ∧ (State.awlToPair s j e k).ram = s.ram ∧ (State.awlToPair s j e k).sys.safe = s.sys.safe ∧ (State.awlToPair s j e k).pwr.cut = s.pwr.cut := by
  simp only [State.awlToPair]; (repeat' split) <;> simp

@[simp] theorem State.awlEdge_kept (s : State) (k : Nat) (falling : Bool) (ref n n1 n2 : Nat) :
    (State.awlEdge s k falling ref n n1 n2).pending = s.pending ∧ (State.awlEdge s k falling ref n n1 n2).ram = s.ram ∧ (State.awlEdge s k falling ref n n1 n2).sys.safe = s.sys.safe ∧ (State.awlEdge s k falling ref n n1 n2).pwr.cut = s.pwr.cut := by
  simp [State.awlEdge]

@[simp] theorem State.awlGate_kept (s : State) (k : Nat) :
    (State.awlGate s k).pending = s.pending ∧ (State.awlGate s k).ram = s.ram ∧ (State.awlGate s k).sys.safe = s.sys.safe ∧ (State.awlGate s k).pwr.cut = s.pwr.cut := by
  simp [State.awlGate]

@[simp] theorem State.awlRestart_kept (s : State) (k : Nat) :
    (State.awlRestart s k).pending = s.pending ∧ (State.awlRestart s k).ram = s.ram ∧ (State.awlRestart s k).sys.safe = s.sys.safe ∧ (State.awlRestart s k).pwr.cut = s.pwr.cut := by
  simp [State.awlRestart]

/-! ### SysOps -/

@[simp] theorem State.mergeMode_kept (s : State) (h : Held) (now : Nat) :
    (State.mergeMode s h now).pending = s.pending ∧ (State.mergeMode s h now).ram = s.ram ∧ (State.mergeMode s h now).sys.safe = s.sys.safe ∧ (State.mergeMode s h now).pwr.cut = s.pwr.cut := by
  exact ⟨rfl, rfl, rfl, rfl⟩

@[simp] theorem State.modeSync_kept (s : State) :
    (State.modeSync s).pending = s.pending ∧ (State.modeSync s).ram = s.ram ∧ (State.modeSync s).sys.safe = s.sys.safe ∧ (State.modeSync s).pwr.cut = s.pwr.cut := by
  simp only [State.modeSync]; (repeat' split) <;> simp

@[simp] theorem State.orderlyStop_kept (s : State) (cause unit : Nat) :
    (State.orderlyStop s cause unit).pending = s.pending ∧ (State.orderlyStop s cause unit).ram = s.ram ∧ (State.orderlyStop s cause unit).pwr.cut = s.pwr.cut := by
  simp [State.orderlyStop]

@[simp] theorem State.cobblerRecord_kept (s : State) (n state cause : Nat) :
    (State.cobblerRecord s n state cause).pending = s.pending ∧ (State.cobblerRecord s n state cause).ram = s.ram ∧ (State.cobblerRecord s n state cause).sys.safe = s.sys.safe ∧ (State.cobblerRecord s n state cause).pwr.cut = s.pwr.cut := by
  simp [State.cobblerRecord]

@[simp] theorem State.setCobbler_kept (s : State) (n state : Nat) :
    (State.setCobbler s n state).pending = s.pending ∧ (State.setCobbler s n state).ram = s.ram ∧ (State.setCobbler s n state).sys.safe = s.sys.safe ∧ (State.setCobbler s n state).pwr.cut = s.pwr.cut := by
  exact ⟨rfl, rfl, rfl, rfl⟩

@[simp] theorem State.cobblerFail_kept (s : State) (cause : Nat) :
    (State.cobblerFail s cause).pending = s.pending ∧ (State.cobblerFail s cause).ram = s.ram ∧ (State.cobblerFail s cause).pwr.cut = s.pwr.cut := by
  simp [State.cobblerFail]

@[simp] theorem State.standbyFail_kept (s : State) :
    (State.standbyFail s).pending = s.pending ∧ (State.standbyFail s).ram = s.ram ∧ (State.standbyFail s).sys.safe = s.sys.safe ∧ (State.standbyFail s).pwr.cut = s.pwr.cut := by
  simp [State.standbyFail]

@[simp] theorem State.microwordError_kept (s : State) (a : Nat) :
    (State.microwordError s a).pending = s.pending ∧ (State.microwordError s a).ram = s.ram ∧ (State.microwordError s a).pwr.cut = s.pwr.cut := by
  first
    | exact ⟨rfl, rfl, rfl⟩
    | (simp [State.microwordError]; done)
    | (simp only [State.microwordError]; (repeat' split) <;> simp; done)
    | (unfold State.microwordError; (repeat' split) <;> simp; done)

@[simp] theorem State.nvRecord_kept (s : State) (what slot result : Nat) (seq : Nat) :
    (State.nvRecord s what slot result seq).pending = s.pending ∧ (State.nvRecord s what slot result seq).ram = s.ram ∧ (State.nvRecord s what slot result seq).sys.safe = s.sys.safe ∧ (State.nvRecord s what slot result seq).pwr.cut = s.pwr.cut := by
  simp [State.nvRecord]

@[simp] theorem State.nvRequest_kept (s : State) (what : Nat) (body : NvRec) :
    (State.nvRequest s what body).pending = s.pending ∧ (State.nvRequest s what body).ram = s.ram ∧ (State.nvRequest s what body).sys.safe = s.sys.safe ∧ (State.nvRequest s what body).pwr.cut = s.pwr.cut := by
  simp [State.nvRequest]

@[simp] theorem State.biasNvSave_kept (s : State) :
    (State.biasNvSave s).pending = s.pending ∧ (State.biasNvSave s).ram = s.ram ∧ (State.biasNvSave s).sys.safe = s.sys.safe ∧ (State.biasNvSave s).pwr.cut = s.pwr.cut := by
  simp [State.biasNvSave]

@[simp] theorem State.calSave_kept (s : State) :
    (State.calSave s).pending = s.pending ∧ (State.calSave s).ram = s.ram ∧ (State.calSave s).sys.safe = s.sys.safe ∧ (State.calSave s).pwr.cut = s.pwr.cut := by
  simp [State.calSave]

@[simp] theorem State.idNvSave_kept (s : State) :
    (State.idNvSave s).pending = s.pending ∧ (State.idNvSave s).ram = s.ram ∧ (State.idNvSave s).sys.safe = s.sys.safe ∧ (State.idNvSave s).pwr.cut = s.pwr.cut := by
  simp [State.idNvSave]

@[simp] theorem State.nvFinish_kept (s : State) (w : NvWrite) :
    (State.nvFinish s w).pending = s.pending ∧ (State.nvFinish s w).ram = s.ram ∧ (State.nvFinish s w).sys.safe = s.sys.safe ∧ (State.nvFinish s w).pwr.cut = s.pwr.cut := by
  simp [State.nvFinish]

/-! ### Contexts -/

@[simp] theorem State.doorbell_kept (s : State) (c off : Nat) (f : Fld) (head : Option (Nat × Nat)) (v : Nat) (put : Ctx → Ctx) :
    (State.doorbell s c off f head v put).pending = s.pending ∧ (State.doorbell s c off f head v put).ram = s.ram ∧ (State.doorbell s c off f head v put).sys.safe = s.sys.safe ∧ (State.doorbell s c off f head v put).pwr.cut = s.pwr.cut := by
  simp only [State.doorbell]; (repeat' split) <;> simp

@[simp] theorem State.doorbellAt_kept (s : State) (c off v : Nat) :
    (State.doorbellAt s c off v).pending = s.pending ∧ (State.doorbellAt s c off v).ram = s.ram ∧ (State.doorbellAt s c off v).sys.safe = s.sys.safe ∧ (State.doorbellAt s c off v).pwr.cut = s.pwr.cut := by
  first
    | exact ⟨rfl, rfl, rfl, rfl⟩
    | (simp [State.doorbellAt]; done)
    | (simp only [State.doorbellAt]; (repeat' split) <;> simp; done)
    | (unfold State.doorbellAt; (repeat' split) <;> simp; done)

@[simp] theorem State.doorbellUnlisted_kept (s : State) (off v : Nat) :
    (State.doorbellUnlisted s off v).pending = s.pending ∧ (State.doorbellUnlisted s off v).ram = s.ram ∧ (State.doorbellUnlisted s off v).sys.safe = s.sys.safe ∧ (State.doorbellUnlisted s off v).pwr.cut = s.pwr.cut := by
  first
    | exact ⟨rfl, rfl, rfl, rfl⟩
    | (simp [State.doorbellUnlisted]; done)
    | (simp only [State.doorbellUnlisted]; (repeat' split) <;> simp; done)
    | (unfold State.doorbellUnlisted; (repeat' split) <;> simp; done)

@[simp] theorem State.doorbellWrite_kept (s : State) (off size v : Nat) :
    (State.doorbellWrite s off size v).pending = s.pending ∧ (State.doorbellWrite s off size v).ram = s.ram ∧ (State.doorbellWrite s off size v).sys.safe = s.sys.safe ∧ (State.doorbellWrite s off size v).pwr.cut = s.pwr.cut := by
  first
    | exact ⟨rfl, rfl, rfl, rfl⟩
    | (simp [State.doorbellWrite]; done)
    | (simp only [State.doorbellWrite]; (repeat' split) <;> simp; done)
    | (unfold State.doorbellWrite; (repeat' split) <;> simp; done)

@[simp] theorem State.fetch_kept (s : State) (c : Nat) :
    (State.fetch s c).pending = s.pending ∧ (State.fetch s c).ram = s.ram ∧ (State.fetch s c).sys.safe = s.sys.safe ∧ (State.fetch s c).pwr.cut = s.pwr.cut := by
  simp [State.fetch]

@[simp] theorem State.dropRead_kept (s : State) (r : ReadFor) :
    (State.dropRead s r).pending = s.pending ∧ (State.dropRead s r).ram = s.ram ∧ (State.dropRead s r).sys.safe = s.sys.safe ∧ (State.dropRead s r).pwr.cut = s.pwr.cut := by
  exact ⟨rfl, rfl, rfl, rfl⟩

@[simp] theorem State.entryArrives_kept (s : State) (c idx : Nat) (bytes : List Byte) :
    (State.entryArrives s c idx bytes).pending = s.pending ∧ (State.entryArrives s c idx bytes).ram = s.ram ∧ (State.entryArrives s c idx bytes).sys.safe = s.sys.safe ∧ (State.entryArrives s c idx bytes).pwr.cut = s.pwr.cut := by
  simp [State.entryArrives]

@[simp] theorem State.dataArrives_kept (s : State) (c idx : Nat) (bytes : List Byte) :
    (State.dataArrives s c idx bytes).pending = s.pending ∧ (State.dataArrives s c idx bytes).ram = s.ram ∧ (State.dataArrives s c idx bytes).sys.safe = s.sys.safe ∧ (State.dataArrives s c idx bytes).pwr.cut = s.pwr.cut := by
  simp only [State.dataArrives]; (repeat' split) <;> simp

@[simp] theorem State.putSamples_pending (s : State) (q first len pos : Nat) (l : List Byte) (i : Nat) : (s.putSamples q first len pos l i).pending = s.pending := by
  induction l generalizing s i with
  | nil => rfl
  | cons e l ih => simp [State.putSamples, ih, State.store]

@[simp] theorem State.putSamples_safe (s : State) (q first len pos : Nat) (l : List Byte) (i : Nat) : (s.putSamples q first len pos l i).sys.safe = s.sys.safe := by
  induction l generalizing s i with
  | nil => rfl
  | cons e l ih => simp [State.putSamples, ih, State.store]

@[simp] theorem State.putSamples_cut (s : State) (q first len pos : Nat) (l : List Byte) (i : Nat) : (s.putSamples q first len pos l i).pwr.cut = s.pwr.cut := by
  induction l generalizing s i with
  | nil => rfl
  | cons e l ih => simp [State.putSamples, ih, State.store]

@[simp] theorem State.streamReads_pending (s : State) (t : Stream) (shot per fuel pos n : Nat) :
    (s.streamReads t shot per fuel pos n).pending = s.pending := by
  induction fuel generalizing s pos n with
  | zero => rfl
  | succ k ih => simp only [State.streamReads]; split <;> simp [ih]

@[simp] theorem State.streamReads_ram (s : State) (t : Stream) (shot per fuel pos n : Nat) :
    (s.streamReads t shot per fuel pos n).ram = s.ram := by
  induction fuel generalizing s pos n with
  | zero => rfl
  | succ k ih => simp only [State.streamReads]; split <;> simp [ih]

@[simp] theorem State.streamReads_safe (s : State) (t : Stream) (shot per fuel pos n : Nat) :
    (s.streamReads t shot per fuel pos n).sys.safe = s.sys.safe := by
  induction fuel generalizing s pos n with
  | zero => rfl
  | succ k ih => simp only [State.streamReads]; split <;> simp [ih]

@[simp] theorem State.streamReads_cut (s : State) (t : Stream) (shot per fuel pos n : Nat) :
    (s.streamReads t shot per fuel pos n).pwr.cut = s.pwr.cut := by
  induction fuel generalizing s pos n with
  | zero => rfl
  | succ k ih => simp only [State.streamReads]; split <;> simp [ih]

@[simp] theorem State.streamArrives_kept (s : State) (q strm : Nat) (bytes : List Byte) :
    (s.streamArrives q strm bytes).pending = s.pending ∧ (s.streamArrives q strm bytes).sys.safe = s.sys.safe ∧ (s.streamArrives q strm bytes).pwr.cut = s.pwr.cut := by
  unfold State.streamArrives; dsimp only; (repeat' split) <;> simp

@[simp] theorem State.hostError_kept (s : State) (r : ReadFor) (cause addr : Nat) :
    (State.hostError s r cause addr).pending = s.pending ∧ (State.hostError s r cause addr).ram = s.ram ∧ (State.hostError s r cause addr).sys.safe = s.sys.safe ∧ (State.hostError s r cause addr).pwr.cut = s.pwr.cut := by
  simp [State.hostError]

@[simp] theorem State.dropBuild_kept (s : State) (c i : Nat) :
    (State.dropBuild s c i).pending = s.pending ∧ (State.dropBuild s c i).ram = s.ram ∧ (State.dropBuild s c i).sys.safe = s.sys.safe ∧ (State.dropBuild s c i).pwr.cut = s.pwr.cut := by
  first
    | exact ⟨rfl, rfl, rfl, rfl⟩
    | (simp [State.dropBuild]; done)
    | (simp only [State.dropBuild]; (repeat' split) <;> simp; done)
    | (unfold State.dropBuild; (repeat' split) <;> simp; done)

@[simp] theorem State.readFails_kept (s : State) (r : ReadFor) (cause addr : Nat) :
    (State.readFails s r cause addr).pending = s.pending ∧ (State.readFails s r cause addr).ram = s.ram ∧ (State.readFails s r cause addr).sys.safe = s.sys.safe ∧ (State.readFails s r cause addr).pwr.cut = s.pwr.cut := by
  simp only [State.readFails]; (repeat' split) <;> simp

@[simp] theorem State.pause_kept (s : State) (c : Nat) (p : Bool) :
    (State.pause s c p).pending = s.pending ∧ (State.pause s c p).ram = s.ram ∧ (State.pause s c p).sys.safe = s.sys.safe ∧ (State.pause s c p).pwr.cut = s.pwr.cut := by
  simp [State.pause]

@[simp] theorem State.ctxAbort_kept (s : State) (c : Nat) :
    (State.ctxAbort s c).pending = s.pending ∧ (State.ctxAbort s c).ram = s.ram ∧ (State.ctxAbort s c).sys.safe = s.sys.safe ∧ (State.ctxAbort s c).pwr.cut = s.pwr.cut := by
  simp only [State.ctxAbort]; (repeat' split) <;> simp

@[simp] theorem State.ctxRelease_kept (s : State) (c : Nat) :
    (State.ctxRelease s c).pending = s.pending ∧ (State.ctxRelease s c).ram = s.ram ∧ (State.ctxRelease s c).sys.safe = s.sys.safe ∧ (State.ctxRelease s c).pwr.cut = s.pwr.cut := by
  exact ⟨rfl, rfl, rfl, rfl⟩

@[simp] theorem State.postHeld_pending (l : List (Nat × List Byte × Bool)) (s : State) :
    (State.postHeld l s).pending = s.pending := by
  induction l generalizing s with
  | nil => rfl
  | cons e l ih => obtain ⟨c, e, i⟩ := e; simp [State.postHeld, ih]

@[simp] theorem State.postHeld_ram (l : List (Nat × List Byte × Bool)) (s : State) :
    (State.postHeld l s).ram = s.ram := by
  induction l generalizing s with
  | nil => rfl
  | cons e l ih => obtain ⟨c, e, i⟩ := e; simp [State.postHeld, ih]

@[simp] theorem State.postHeld_safe (l : List (Nat × List Byte × Bool)) (s : State) :
    (State.postHeld l s).sys.safe = s.sys.safe := by
  induction l generalizing s with
  | nil => rfl
  | cons e l ih => obtain ⟨c, e, i⟩ := e; simp [State.postHeld, ih]

@[simp] theorem State.postHeld_cut (l : List (Nat × List Byte × Bool)) (s : State) :
    (State.postHeld l s).pwr.cut = s.pwr.cut := by
  induction l generalizing s with
  | nil => rfl
  | cons e l ih => obtain ⟨c, e, i⟩ := e; simp [State.postHeld, ih]

@[simp] theorem State.discard_kept (s : State) :
    (State.discard s).pending = s.pending ∧ (State.discard s).ram = s.ram ∧ (State.discard s).sys.safe = s.sys.safe ∧ (State.discard s).pwr.cut = s.pwr.cut := by
  simp [State.discard]

@[simp] theorem State.hostIfReset_kept (s : State) :
    (State.hostIfReset s).pending = s.pending ∧ (State.hostIfReset s).ram = s.ram ∧ (State.hostIfReset s).sys.safe = s.sys.safe ∧ (State.hostIfReset s).pwr.cut = s.pwr.cut := by
  simp [State.hostIfReset]

@[simp] theorem State.perst_kept (s : State) :
    (State.perst s).pending = s.pending ∧ (State.perst s).ram = s.ram ∧ (State.perst s).sys.safe = s.sys.safe ∧ (State.perst s).pwr.cut = s.pwr.cut := by
  simp [State.perst]

@[simp] theorem State.commit_kept (s : State) :
    (State.commit s).pending = s.pending ∧ (State.commit s).ram = s.ram ∧ (State.commit s).sys.safe = s.sys.safe ∧ (State.commit s).pwr.cut = s.pwr.cut := by
  simp [State.commit]

/-! ### Time -/

@[simp] theorem State.corrRecord_kept (s : State) (v : Nat) :
    (State.corrRecord s v).pending = s.pending ∧ (State.corrRecord s v).ram = s.ram ∧ (State.corrRecord s v).sys.safe = s.sys.safe ∧ (State.corrRecord s v).pwr.cut = s.pwr.cut := by
  simp [State.corrRecord]

@[simp] theorem State.timerRecord_kept (s : State) (i : Nat) (st : Stamp) (what v : Nat) :
    (State.timerRecord s i st what v).pending = s.pending ∧ (State.timerRecord s i st what v).ram = s.ram ∧ (State.timerRecord s i st what v).sys.safe = s.sys.safe ∧ (State.timerRecord s i st what v).pwr.cut = s.pwr.cut := by
  simp [State.timerRecord]

@[simp] theorem State.updTimer_kept (s : State) (i : Nat) (f : Timer → Timer) :
    (State.updTimer s i f).pending = s.pending ∧ (State.updTimer s i f).ram = s.ram ∧ (State.updTimer s i f).sys.safe = s.sys.safe ∧ (State.updTimer s i f).pwr.cut = s.pwr.cut := by
  exact ⟨rfl, rfl, rfl, rfl⟩

@[simp] theorem State.timerSkip_kept (s : State) (i bound : Nat) :
    (State.timerSkip s i bound).pending = s.pending ∧ (State.timerSkip s i bound).ram = s.ram ∧ (State.timerSkip s i bound).sys.safe = s.sys.safe ∧ (State.timerSkip s i bound).pwr.cut = s.pwr.cut := by
  simp [State.timerSkip]

@[simp] theorem State.timersSkip_kept (s : State) :
    (State.timersSkip s).pending = s.pending ∧ (State.timersSkip s).ram = s.ram ∧ (State.timersSkip s).sys.safe = s.sys.safe ∧ (State.timersSkip s).pwr.cut = s.pwr.cut := by
  simp [State.timersSkip]

@[simp] theorem State.relead_kept (s : State) :
    (State.relead s).pending = s.pending ∧ (State.relead s).ram = s.ram ∧ (State.relead s).sys.safe = s.sys.safe ∧ (State.relead s).pwr.cut = s.pwr.cut := by
  simp [State.relead]

@[simp] theorem State.stepForward_kept (s : State) (n : Nat) :
    (State.stepForward s n).pending = s.pending ∧ (State.stepForward s n).ram = s.ram ∧ (State.stepForward s n).sys.safe = s.sys.safe ∧ (State.stepForward s n).pwr.cut = s.pwr.cut := by
  simp [State.stepForward]

@[simp] theorem State.beginHold_kept (s : State) (n : Nat) :
    (State.beginHold s n).pending = s.pending ∧ (State.beginHold s n).ram = s.ram ∧ (State.beginHold s n).sys.safe = s.sys.safe ∧ (State.beginHold s n).pwr.cut = s.pwr.cut := by
  exact ⟨rfl, rfl, rfl, rfl⟩

@[simp] theorem State.correctTicks_kept (s : State) (n : Int) :
    (State.correctTicks s n).pending = s.pending ∧ (State.correctTicks s n).ram = s.ram ∧ (State.correctTicks s n).sys.safe = s.sys.safe ∧ (State.correctTicks s n).pwr.cut = s.pwr.cut := by
  simp [State.correctTicks]

@[simp] theorem State.firstAlign_kept (s : State) (t : DevTime) (dom : BitVec 2) :
    (State.firstAlign s t dom).pending = s.pending ∧ (State.firstAlign s t dom).ram = s.ram ∧ (State.firstAlign s t dom).sys.safe = s.sys.safe ∧ (State.firstAlign s t dom).pwr.cut = s.pwr.cut := by
  simp [State.firstAlign]

@[simp] theorem State.holdEnd_kept (s : State) :
    (State.holdEnd s).pending = s.pending ∧ (State.holdEnd s).ram = s.ram ∧ (State.holdEnd s).sys.safe = s.sys.safe ∧ (State.holdEnd s).pwr.cut = s.pwr.cut := by
  simp [State.holdEnd]

@[simp] theorem State.refRecord_kept (s : State) (lost us : Nat) :
    (State.refRecord s lost us).pending = s.pending ∧ (State.refRecord s lost us).ram = s.ram ∧ (State.refRecord s lost us).sys.safe = s.sys.safe ∧ (State.refRecord s lost us).pwr.cut = s.pwr.cut := by
  simp [State.refRecord]

@[simp] theorem State.muteAll_kept (s : State) (cause : Nat) :
    (State.muteAll s cause).pending = s.pending ∧ (State.muteAll s cause).ram = s.ram ∧ (State.muteAll s cause).sys.safe = s.sys.safe ∧ (State.muteAll s cause).pwr.cut = s.pwr.cut := by
  simp [State.muteAll]

@[simp] theorem State.clearAll_kept (s : State) (cause : Nat) :
    (State.clearAll s cause).pending = s.pending ∧ (State.clearAll s cause).ram = s.ram ∧ (State.clearAll s cause).sys.safe = s.sys.safe ∧ (State.clearAll s cause).pwr.cut = s.pwr.cut := by
  simp [State.clearAll]

@[simp] theorem State.refLoss_kept (s : State) :
    (State.refLoss s).pending = s.pending ∧ (State.refLoss s).ram = s.ram ∧ (State.refLoss s).sys.safe = s.sys.safe ∧ (State.refLoss s).pwr.cut = s.pwr.cut := by
  simp [State.refLoss]

@[simp] theorem State.lockTime_kept (s : State) :
    (State.lockTime s).pending = s.pending ∧ (State.lockTime s).ram = s.ram ∧ (State.lockTime s).sys.safe = s.sys.safe ∧ (State.lockTime s).pwr.cut = s.pwr.cut := by
  exact ⟨rfl, rfl, rfl, rfl⟩

@[simp] theorem State.refReturn_kept (s : State) :
    (State.refReturn s).pending = s.pending ∧ (State.refReturn s).ram = s.ram ∧ (State.refReturn s).sys.safe = s.sys.safe ∧ (State.refReturn s).pwr.cut = s.pwr.cut := by
  simp [State.refReturn]

/-! ### Engines -/

@[simp] theorem State.setPatch_kept (s : State) (n version : Nat) (image : List Byte) :
    (State.setPatch s n version image).pending = s.pending ∧ (State.setPatch s n version image).ram = s.ram ∧ (State.setPatch s n version image).sys.safe = s.sys.safe ∧ (State.setPatch s n version image).pwr.cut = s.pwr.cut := by
  exact ⟨rfl, rfl, rfl, rfl⟩

@[simp] theorem State.patchBoot_kept (s : State) (ok : Nat → Bool) :
    (State.patchBoot s ok).pending = s.pending ∧ (State.patchBoot s ok).ram = s.ram ∧ (State.patchBoot s ok).sys.safe = s.sys.safe ∧ (State.patchBoot s ok).pwr.cut = s.pwr.cut := by
  exact ⟨rfl, rfl, rfl, rfl⟩

@[simp] theorem State.workError_kept (s : State) (werr at_ : Nat) :
    (State.workError s werr at_).pending = s.pending ∧ (State.workError s werr at_).ram = s.ram ∧ (State.workError s werr at_).pwr.cut = s.pwr.cut := by
  first
    | exact ⟨rfl, rfl, rfl⟩
    | (simp [State.workError]; done)
    | (simp only [State.workError]; (repeat' split) <;> simp; done)
    | (unfold State.workError; (repeat' split) <;> simp; done)

@[simp] theorem State.refetch_kept (s : State) (c : Nat) :
    (State.refetch s c).1.pending = s.pending ∧ (State.refetch s c).1.ram = s.ram ∧ (State.refetch s c).1.sys.safe = s.sys.safe ∧ (State.refetch s c).1.pwr.cut = s.pwr.cut := by
  simp [State.refetch]

@[simp] theorem State.resume_kept (s : State) :
    s.resume.pending = s.pending ∧ s.resume.ram = s.ram ∧ s.resume.sys.safe = s.sys.safe ∧ s.resume.pwr.cut = s.pwr.cut := by
  have h (l : List Nat) (s : State) (a k : Nat) :
      let t := (l.foldl (fun (acc : State × Nat × Nat) c =>
        let (s, a, k) := acc.1.refetch c
        (s, acc.2.1 + a, acc.2.2 + k)) (s, a, k)).1
      t.pending = s.pending ∧ t.ram = s.ram ∧ t.sys.safe = s.sys.safe ∧ t.pwr.cut = s.pwr.cut := by
    induction l generalizing s a k with
    | nil => exact ⟨rfl, rfl, rfl, rfl⟩
    | cons c l ih => simp only [List.foldl_cons]; simpa using ih (s.refetch c).1 _ _
  unfold State.resume
  split
  · exact ⟨rfl, rfl, rfl, rfl⟩
  · dsimp only
    split
    · exact ⟨rfl, rfl, rfl, rfl⟩
    · simpa using h (s.ctxs.map (·.1)) _ 0 0

@[simp] theorem State.stateSave_kept (s : State) :
    (State.stateSave s).pending = s.pending ∧ (State.stateSave s).ram = s.ram ∧ (State.stateSave s).sys.safe = s.sys.safe ∧ (State.stateSave s).pwr.cut = s.pwr.cut := by
  simp [State.stateSave]

@[simp] theorem State.standbyMode_kept (s : State) :
    (State.standbyMode s).pending = s.pending ∧ (State.standbyMode s).ram = s.ram ∧ (State.standbyMode s).sys.safe = s.sys.safe ∧ (State.standbyMode s).pwr.cut = s.pwr.cut := by
  simp [State.standbyMode]

@[simp] theorem State.engRepair_kept (s : State) :
    (State.engRepair s).pending = s.pending ∧ (State.engRepair s).ram = s.ram ∧ (State.engRepair s).sys.safe = s.sys.safe ∧ (State.engRepair s).pwr.cut = s.pwr.cut := by
  simp [State.engRepair]

@[simp] theorem State.cobblerRepair_kept (s : State) :
    (State.cobblerRepair s).pending = s.pending ∧ (State.cobblerRepair s).ram = s.ram ∧ (State.cobblerRepair s).sys.safe = s.sys.safe ∧ (State.cobblerRepair s).pwr.cut = s.pwr.cut := by
  simp only [State.cobblerRepair]; (repeat' split) <;> simp

@[simp] theorem State.repairEnd_kept (s : State) (n : Nat) (ok : Nat → Bool) (pass : Bool) :
    (State.repairEnd s n ok pass).pending = s.pending ∧ (State.repairEnd s n ok pass).ram = s.ram ∧ (State.repairEnd s n ok pass).sys.safe = s.sys.safe ∧ (State.repairEnd s n ok pass).pwr.cut = s.pwr.cut := by
  simp [State.repairEnd]

/-! ### PlaceOps -/

@[simp] theorem State.setLast_kept (s : State) (n : Nat) (m : LastMap) :
    (State.setLast s n m).pending = s.pending ∧ (State.setLast s n m).ram = s.ram ∧ (State.setLast s n m).sys.safe = s.sys.safe ∧ (State.setLast s n m).pwr.cut = s.pwr.cut := by
  exact ⟨rfl, rfl, rfl, rfl⟩

@[simp] theorem State.toAllRings_kept (s : State) (src kind : Nat) (body : List (Nat × Nat × Nat)) :
    (State.toAllRings s src kind body).pending = s.pending ∧ (State.toAllRings s src kind body).ram = s.ram ∧ (State.toAllRings s src kind body).sys.safe = s.sys.safe ∧ (State.toAllRings s src kind body).pwr.cut = s.pwr.cut := by
  simp [State.toAllRings]

@[simp] theorem State.staleLast_kept (s : State) (cause n : Nat) :
    (State.staleLast s cause n).pending = s.pending ∧ (State.staleLast s cause n).ram = s.ram ∧ (State.staleLast s cause n).sys.safe = s.sys.safe ∧ (State.staleLast s cause n).pwr.cut = s.pwr.cut := by
  simp [State.staleLast]

@[simp] theorem State.staleWhere_kept (s : State) (cause : Nat) (p : LastMap → Bool) :
    (State.staleWhere s cause p).pending = s.pending ∧ (State.staleWhere s cause p).ram = s.ram ∧ (State.staleWhere s cause p).sys.safe = s.sys.safe ∧ (State.staleWhere s cause p).pwr.cut = s.pwr.cut := by
  simp [State.staleWhere]

/-! ### LaceOps -/

@[simp] theorem State.updLink_kept (s : State) (l : Nat) (f : LaceLink → LaceLink) :
    (State.updLink s l f).pending = s.pending ∧ (State.updLink s l f).ram = s.ram ∧ (State.updLink s l f).sys.safe = s.sys.safe ∧ (State.updLink s l f).pwr.cut = s.pwr.cut := by
  exact ⟨rfl, rfl, rfl, rfl⟩

@[simp] theorem State.laceOut_kept (s : State) (l : Nat) (o : LaceOut) :
    (State.laceOut s l o).pending = s.pending ∧ (State.laceOut s l o).ram = s.ram ∧ (State.laceOut s l o).sys.safe = s.sys.safe ∧ (State.laceOut s l o).pwr.cut = s.pwr.cut := by
  simp only [State.laceOut]; split <;> simp

@[simp] theorem State.linkRecord_kept (s : State) (l cause : Nat) :
    (State.linkRecord s l cause).pending = s.pending ∧ (State.linkRecord s l cause).ram = s.ram ∧ (State.linkRecord s l cause).sys.safe = s.sys.safe ∧ (State.linkRecord s l cause).pwr.cut = s.pwr.cut := by
  simp [State.linkRecord]

@[simp] theorem State.setLinkState_kept (s : State) (l st cause : Nat) :
    (State.setLinkState s l st cause).pending = s.pending ∧ (State.setLinkState s l st cause).ram = s.ram ∧ (State.setLinkState s l st cause).sys.safe = s.sys.safe ∧ (State.setLinkState s l st cause).pwr.cut = s.pwr.cut := by
  simp [State.setLinkState]

@[simp] theorem State.updRx_kept (s : State) (l vc : Nat) (f : LaceRx → LaceRx) :
    (State.updRx s l vc f).pending = s.pending ∧ (State.updRx s l vc f).ram = s.ram ∧ (State.updRx s l vc f).sys.safe = s.sys.safe ∧ (State.updRx s l vc f).pwr.cut = s.pwr.cut := by
  exact ⟨rfl, rfl, rfl, rfl⟩

@[simp] theorem State.returnSpace_kept (s : State) (vc : Nat) (e : LaceFrame × Option Nat) :
    (State.returnSpace s vc e).pending = s.pending ∧ (State.returnSpace s vc e).ram = s.ram ∧ (State.returnSpace s vc e).sys.safe = s.sys.safe ∧ (State.returnSpace s vc e).pwr.cut = s.pwr.cut := by
  first
    | exact ⟨rfl, rfl, rfl, rfl⟩
    | (simp [State.returnSpace]; done)
    | (simp only [State.returnSpace]; (repeat' split) <;> simp; done)
    | (unfold State.returnSpace; (repeat' split) <;> simp; done)

@[simp] theorem State.lacePump_kept (s : State) (l vc : Nat) :
    (State.lacePump s l vc).pending = s.pending ∧ (State.lacePump s l vc).ram = s.ram ∧ (State.lacePump s l vc).sys.safe = s.sys.safe ∧ (State.lacePump s l vc).pwr.cut = s.pwr.cut := by
  simp [State.lacePump]

@[simp] theorem State.laceQueueFrom_kept (s : State) (l : Nat) (f : LaceFrame) (src : Option Nat) :
    (State.laceQueueFrom s l f src).pending = s.pending ∧ (State.laceQueueFrom s l f src).ram = s.ram ∧ (State.laceQueueFrom s l f src).sys.safe = s.sys.safe ∧ (State.laceQueueFrom s l f src).pwr.cut = s.pwr.cut := by
  first
    | exact ⟨rfl, rfl, rfl, rfl⟩
    | (simp [State.laceQueueFrom]; done)
    | (simp only [State.laceQueueFrom]; (repeat' split) <;> simp; done)
    | (unfold State.laceQueueFrom; (repeat' split) <;> simp; done)

@[simp] theorem State.laceQueue_kept (s : State) (l : Nat) (f : LaceFrame) :
    (State.laceQueue s l f).pending = s.pending ∧ (State.laceQueue s l f).ram = s.ram ∧ (State.laceQueue s l f).sys.safe = s.sys.safe ∧ (State.laceQueue s l f).pwr.cut = s.pwr.cut := by
  simp [State.laceQueue]

@[simp] theorem State.laceSend_kept (s : State) (dest vc ftype : Nat) (d0 : Nat) (rest : List Nat) :
    (State.laceSend s dest vc ftype d0 rest).pending = s.pending ∧ (State.laceSend s dest vc ftype d0 rest).ram = s.ram ∧ (State.laceSend s dest vc ftype d0 rest).sys.safe = s.sys.safe ∧ (State.laceSend s dest vc ftype d0 rest).pwr.cut = s.pwr.cut := by
  simp only [State.laceSend]; (repeat' split) <;> simp

@[simp] theorem State.testFill_kept (s : State) (l : Nat) :
    (State.testFill s l).pending = s.pending ∧ (State.testFill s l).ram = s.ram ∧ (State.testFill s l).sys.safe = s.sys.safe ∧ (State.testFill s l).pwr.cut = s.pwr.cut := by
  first
    | exact ⟨rfl, rfl, rfl, rfl⟩
    | (simp [State.testFill]; done)
    | (simp only [State.testFill]; (repeat' split) <;> simp; done)
    | (unfold State.testFill; (repeat' split) <;> simp; done)

@[simp] theorem State.laceRow_kept (s : State) (l : Nat) :
    (State.laceRow s l).pending = s.pending ∧ (State.laceRow s l).ram = s.ram ∧ (State.laceRow s l).sys.safe = s.sys.safe ∧ (State.laceRow s l).pwr.cut = s.pwr.cut := by
  first
    | exact ⟨rfl, rfl, rfl, rfl⟩
    | (simp [State.laceRow]; done)
    | (simp only [State.laceRow]; (repeat' split) <;> simp; done)
    | (unfold State.laceRow; (repeat' split) <;> simp; done)

@[simp] theorem State.followRecord_kept (s : State) (lost : Nat) :
    (State.followRecord s lost).pending = s.pending ∧ (State.followRecord s lost).ram = s.ram ∧ (State.followRecord s lost).sys.safe = s.sys.safe ∧ (State.followRecord s lost).pwr.cut = s.pwr.cut := by
  simp [State.followRecord]

@[simp] theorem State.followLost_kept (s : State) (l : Nat) :
    (State.followLost s l).pending = s.pending ∧ (State.followLost s l).ram = s.ram ∧ (State.followLost s l).sys.safe = s.sys.safe ∧ (State.followLost s l).pwr.cut = s.pwr.cut := by
  simp [State.followLost]

@[simp] theorem State.linkDown_kept (s : State) (l st cause : Nat) :
    (State.linkDown s l st cause).pending = s.pending ∧ (State.linkDown s l st cause).ram = s.ram ∧ (State.linkDown s l st cause).sys.safe = s.sys.safe ∧ (State.linkDown s l st cause).pwr.cut = s.pwr.cut := by
  simp [State.linkDown]

@[simp] theorem State.startAttempt_kept (s : State) (l k : Nat) :
    (State.startAttempt s l k).pending = s.pending ∧ (State.startAttempt s l k).ram = s.ram ∧ (State.startAttempt s l k).sys.safe = s.sys.safe ∧ (State.startAttempt s l k).pwr.cut = s.pwr.cut := by
  simp [State.startAttempt]

/-! ### Sequencers -/

@[simp] theorem State.play_kept (s : State) (k : Nat) (bad : Bool) :
    (State.play s k bad).pending = s.pending ∧ (State.play s k bad).ram = s.ram ∧ (State.play s k bad).sys.safe = s.sys.safe ∧ (State.play s k bad).pwr.cut = s.pwr.cut := by
  simp [State.play]

@[simp] theorem State.streamStitch_kept (s : State) (k : Nat) (bad : Bool) :
    (State.streamStitch s k bad).pending = s.pending ∧ (State.streamStitch s k bad).ram = s.ram ∧ (State.streamStitch s k bad).sys.safe = s.sys.safe ∧ (State.streamStitch s k bad).pwr.cut = s.pwr.cut := by
  simp [State.streamStitch]

@[simp] theorem State.frame_kept (s : State) (k : Nat) (bad : Bool) (sub : Nat) (act : Stitch → WAct) :
    (State.frame s k bad sub act).pending = s.pending ∧ (State.frame s k bad sub act).ram = s.ram ∧ (State.frame s k bad sub act).sys.safe = s.sys.safe ∧ (State.frame s k bad sub act).pwr.cut = s.pwr.cut := by
  simp [State.frame]

@[simp] theorem State.meas_kept (s : State) (k : Nat) (bad : Bool) :
    (State.meas s k bad).pending = s.pending ∧ (State.meas s k bad).ram = s.ram ∧ (State.meas s k bad).sys.safe = s.sys.safe ∧ (State.meas s k bad).pwr.cut = s.pwr.cut := by
  simp [State.meas]

@[simp] theorem State.mark_kept (s : State) (k : Nat) (bad : Bool) :
    (State.mark s k bad).pending = s.pending ∧ (State.mark s k bad).ram = s.ram ∧ (State.mark s k bad).sys.safe = s.sys.safe ∧ (State.mark s k bad).pwr.cut = s.pwr.cut := by
  simp [State.mark]

@[simp] theorem State.biasStitch_kept (s : State) (k : Nat) (bad : Bool) (sub : Nat) (act : Stitch → WAct) :
    (State.biasStitch s k bad sub act).pending = s.pending ∧ (State.biasStitch s k bad sub act).ram = s.ram ∧ (State.biasStitch s k bad sub act).sys.safe = s.sys.safe ∧ (State.biasStitch s k bad sub act).pwr.cut = s.pwr.cut := by
  simp [State.biasStitch]

@[simp] theorem State.waitRel_kept (s : State) (k : Nat) (bad : Bool) :
    (State.waitRel s k bad).pending = s.pending ∧ (State.waitRel s k bad).ram = s.ram ∧ (State.waitRel s k bad).sys.safe = s.sys.safe ∧ (State.waitRel s k bad).pwr.cut = s.pwr.cut := by
  simp [State.waitRel]

@[simp] theorem State.waitAbs_kept (s : State) (k : Nat) (bad : Bool) :
    (State.waitAbs s k bad).pending = s.pending ∧ (State.waitAbs s k bad).ram = s.ram ∧ (State.waitAbs s k bad).sys.safe = s.sys.safe ∧ (State.waitAbs s k bad).pwr.cut = s.pwr.cut := by
  simp [State.waitAbs]

@[simp] theorem State.waitEnd_kept (s : State) (k : Nat) (bad : Bool) :
    (State.waitEnd s k bad).pending = s.pending ∧ (State.waitEnd s k bad).ram = s.ram ∧ (State.waitEnd s k bad).sys.safe = s.sys.safe ∧ (State.waitEnd s k bad).pwr.cut = s.pwr.cut := by
  simp [State.waitEnd]

@[simp] theorem State.loopBegin_kept (s : State) (k : Nat) (bad : Bool) :
    (State.loopBegin s k bad).pending = s.pending ∧ (State.loopBegin s k bad).ram = s.ram ∧ (State.loopBegin s k bad).sys.safe = s.sys.safe ∧ (State.loopBegin s k bad).pwr.cut = s.pwr.cut := by
  simp [State.loopBegin]

@[simp] theorem State.loopEnd_kept (s : State) (k : Nat) (bad : Bool) :
    (State.loopEnd s k bad).pending = s.pending ∧ (State.loopEnd s k bad).ram = s.ram ∧ (State.loopEnd s k bad).sys.safe = s.sys.safe ∧ (State.loopEnd s k bad).pwr.cut = s.pwr.cut := by
  simp [State.loopEnd]

@[simp] theorem State.branch_kept (s : State) (k : Nat) (bad : Bool) :
    (State.branch s k bad).pending = s.pending ∧ (State.branch s k bad).ram = s.ram ∧ (State.branch s k bad).sys.safe = s.sys.safe ∧ (State.branch s k bad).pwr.cut = s.pwr.cut := by
  simp [State.branch]

@[simp] theorem State.branchSegEnd_kept (s : State) (k : Nat) (bad : Bool) :
    (State.branchSegEnd s k bad).pending = s.pending ∧ (State.branchSegEnd s k bad).ram = s.ram ∧ (State.branchSegEnd s k bad).sys.safe = s.sys.safe ∧ (State.branchSegEnd s k bad).pwr.cut = s.pwr.cut := by
  refine ⟨?_, ?_, ?_, ?_⟩ <;> unfold State.branchSegEnd <;> (first | apply State.issue_pending | apply State.issue_ram | apply State.issue_safe | apply State.issue_cut) <;>
    intros <;> (try dsimp only) <;> (repeat' split) <;> simp

@[simp] theorem State.setBarUse_kept (s : State) (u : BarUse) :
    (State.setBarUse s u).pending = s.pending ∧ (State.setBarUse s u).ram = s.ram ∧ (State.setBarUse s u).sys.safe = s.sys.safe ∧ (State.setBarUse s u).pwr.cut = s.pwr.cut := by
  exact ⟨rfl, rfl, rfl, rfl⟩

@[simp] theorem State.sendBarrier_kept (s : State) (u : BarUse) :
    (State.sendBarrier s u).pending = s.pending ∧ (State.sendBarrier s u).ram = s.ram ∧ (State.sendBarrier s u).sys.safe = s.sys.safe ∧ (State.sendBarrier s u).pwr.cut = s.pwr.cut := by
  simp [State.sendBarrier]

@[simp] theorem State.sync_kept (s : State) (k : Nat) (bad : Bool) :
    (State.sync s k bad).pending = s.pending ∧ (State.sync s k bad).ram = s.ram ∧ (State.sync s k bad).sys.safe = s.sys.safe ∧ (State.sync s k bad).pwr.cut = s.pwr.cut := by
  simp [State.sync]

@[simp] theorem State.barResume_kept (s : State) (rel : Int) (k : Nat) :
    (State.barResume s rel k).pending = s.pending ∧ (State.barResume s rel k).ram = s.ram ∧ (State.barResume s rel k).sys.safe = s.sys.safe ∧ (State.barResume s rel k).pwr.cut = s.pwr.cut := by
  simp [State.barResume]

@[simp] theorem State.barRelease_kept (s : State) (b : Nat) :
    (State.barRelease s b).pending = s.pending ∧ (State.barRelease s b).ram = s.ram ∧ (State.barRelease s b).sys.safe = s.sys.safe ∧ (State.barRelease s b).pwr.cut = s.pwr.cut := by
  simp only [State.barRelease]; (repeat' split) <;> simp

@[simp] theorem State.discardFrames_kept (s : State) (u : BarUse) :
    (State.discardFrames s u).pending = s.pending ∧ (State.discardFrames s u).ram = s.ram ∧ (State.discardFrames s u).sys.safe = s.sys.safe ∧ (State.discardFrames s u).pwr.cut = s.pwr.cut := by
  first
    | exact ⟨rfl, rfl, rfl, rfl⟩
    | (simp [State.discardFrames]; done)
    | (simp only [State.discardFrames]; (repeat' split) <;> simp; done)
    | (unfold State.discardFrames; (repeat' split) <;> simp; done)

@[simp] theorem State.syncTimeout_kept (s : State) (k : Nat) :
    (State.syncTimeout s k).pending = s.pending ∧ (State.syncTimeout s k).ram = s.ram ∧ (State.syncTimeout s k).sys.safe = s.sys.safe ∧ (State.syncTimeout s k).pwr.cut = s.pwr.cut := by
  simp [State.syncTimeout]

@[simp] theorem State.trig_kept (s : State) (k : Nat) (bad : Bool) :
    (State.trig s k bad).pending = s.pending ∧ (State.trig s k bad).ram = s.ram ∧ (State.trig s k bad).sys.safe = s.sys.safe ∧ (State.trig s k bad).pwr.cut = s.pwr.cut := by
  refine ⟨?_, ?_, ?_, ?_⟩ <;> unfold State.trig <;> (first | apply State.issue_pending | apply State.issue_ram | apply State.issue_safe | apply State.issue_cut) <;>
    intros <;> (try dsimp only) <;> (repeat' split) <;> simp

@[simp] theorem State.triggerArrive_kept (s : State) (k : Nat) :
    (State.triggerArrive s k).pending = s.pending ∧ (State.triggerArrive s k).ram = s.ram ∧ (State.triggerArrive s k).sys.safe = s.sys.safe ∧ (State.triggerArrive s k).pwr.cut = s.pwr.cut := by
  simp only [State.triggerArrive]; (repeat' split) <;> simp

@[simp] theorem State.externalEvent_kept (s : State) (k : Nat) :
    (State.externalEvent s k).pending = s.pending ∧ (State.externalEvent s k).ram = s.ram ∧ (State.externalEvent s k).sys.safe = s.sys.safe ∧ (State.externalEvent s k).pwr.cut = s.pwr.cut := by
  simp only [State.externalEvent]; (repeat' split) <;> simp

@[simp] theorem State.trigSw_kept (s : State) (k : Nat) :
    (State.trigSw s k).pending = s.pending ∧ (State.trigSw s k).ram = s.ram ∧ (State.trigSw s k).sys.safe = s.sys.safe ∧ (State.trigSw s k).pwr.cut = s.pwr.cut := by
  simp [State.trigSw]

@[simp] theorem State.queueResume_kept (s : State) (k : Nat) :
    (State.queueResume s k).pending = s.pending ∧ (State.queueResume s k).ram = s.ram ∧ (State.queueResume s k).sys.safe = s.sys.safe ∧ (State.queueResume s k).pwr.cut = s.pwr.cut := by
  simp [State.queueResume]

@[simp] theorem State.deadlineSend_kept (s : State) (k : Nat) :
    (State.deadlineSend s k).pending = s.pending ∧ (State.deadlineSend s k).ram = s.ram ∧ (State.deadlineSend s k).sys.safe = s.sys.safe ∧ (State.deadlineSend s k).pwr.cut = s.pwr.cut := by
  simp only [State.deadlineSend]; (repeat' split) <;> simp

@[simp] theorem State.deadlineSignal_kept (s : State) (k : Nat) :
    (State.deadlineSignal s k).pending = s.pending ∧ (State.deadlineSignal s k).ram = s.ram ∧ (State.deadlineSignal s k).sys.safe = s.sys.safe ∧ (State.deadlineSignal s k).pwr.cut = s.pwr.cut := by
  simp only [State.deadlineSignal]; (repeat' split) <;> simp

@[simp] theorem State.timeRequest_kept (s : State) (k : Nat) (frac : Bool) :
    (State.timeRequest s k frac).pending = s.pending ∧ (State.timeRequest s k frac).ram = s.ram ∧ (State.timeRequest s k frac).sys.safe = s.sys.safe ∧ (State.timeRequest s k frac).pwr.cut = s.pwr.cut := by
  simp only [State.timeRequest]; (repeat' split) <;> simp

@[simp] theorem State.reanchor_kept (s : State) (k : Nat) (ta : Int) (br : Branch) (path : Bool) :
    (State.reanchor s k ta br path).pending = s.pending ∧ (State.reanchor s k ta br path).ram = s.ram ∧ (State.reanchor s k ta br path).sys.safe = s.sys.safe ∧ (State.reanchor s k ta br path).pwr.cut = s.pwr.cut := by
  simp [State.reanchor]

@[simp] theorem State.timeAnswer_kept (s : State) (k : Nat) :
    (State.timeAnswer s k).pending = s.pending ∧ (State.timeAnswer s k).ram = s.ram ∧ (State.timeAnswer s k).sys.safe = s.sys.safe ∧ (State.timeAnswer s k).pwr.cut = s.pwr.cut := by
  simp only [State.timeAnswer]; (repeat' split) <;> simp

@[simp] theorem State.reanchorLimit_kept (s : State) (k : Nat) :
    (State.reanchorLimit s k).pending = s.pending ∧ (State.reanchorLimit s k).ram = s.ram ∧ (State.reanchorLimit s k).sys.safe = s.sys.safe ∧ (State.reanchorLimit s k).pwr.cut = s.pwr.cut := by
  simp only [State.reanchorLimit]; (repeat' split) <;> simp

@[simp] theorem State.compareResult_kept (s : State) (k : Nat) :
    (State.compareResult s k).pending = s.pending ∧ (State.compareResult s k).ram = s.ram ∧ (State.compareResult s k).sys.safe = s.sys.safe ∧ (State.compareResult s k).pwr.cut = s.pwr.cut := by
  simp [State.compareResult]

@[simp] theorem State.switchFork_kept (s : State) (k : Nat) (j : JumpReq) :
    (State.switchFork s k j).pending = s.pending ∧ (State.switchFork s k j).ram = s.ram ∧ (State.switchFork s k j).sys.safe = s.sys.safe ∧ (State.switchFork s k j).pwr.cut = s.pwr.cut := by
  first
    | exact ⟨rfl, rfl, rfl, rfl⟩
    | (simp [State.switchFork]; done)
    | (simp only [State.switchFork]; (repeat' split) <;> simp; done)
    | (unfold State.switchFork; (repeat' split) <;> simp; done)

@[simp] theorem State.jumpRequest_kept (s : State) (k smp : Nat) :
    (State.jumpRequest s k smp).pending = s.pending ∧ (State.jumpRequest s k smp).ram = s.ram ∧ (State.jumpRequest s k smp).sys.safe = s.sys.safe ∧ (State.jumpRequest s k smp).pwr.cut = s.pwr.cut := by
  first
    | exact ⟨rfl, rfl, rfl, rfl⟩
    | (simp [State.jumpRequest]; done)
    | (simp only [State.jumpRequest]; (repeat' split) <;> simp; done)
    | (unfold State.jumpRequest; (repeat' split) <;> simp; done)

@[simp] theorem State.jumpReject_kept (s : State) (k : Nat) :
    (State.jumpReject s k).pending = s.pending ∧ (State.jumpReject s k).ram = s.ram ∧ (State.jumpReject s k).sys.safe = s.sys.safe ∧ (State.jumpReject s k).pwr.cut = s.pwr.cut := by
  simp only [State.jumpReject]; (repeat' split) <;> simp

@[simp] theorem State.jumpPoint_kept (s : State) (k : Nat) :
    (State.jumpPoint s k).pending = s.pending ∧ (State.jumpPoint s k).ram = s.ram ∧ (State.jumpPoint s k).sys.safe = s.sys.safe ∧ (State.jumpPoint s k).pwr.cut = s.pwr.cut := by
  simp only [State.jumpPoint]; (repeat' split) <;> simp

@[simp] theorem State.underrun_kept (s : State) (wq : Nat) (e : WEvent) (p : Pulse) (a strm pos : Nat) :
    (State.underrun s wq e p a strm pos).pending = s.pending ∧ (State.underrun s wq e p a strm pos).ram = s.ram ∧ (State.underrun s wq e p a strm pos).sys.safe = s.sys.safe ∧ (State.underrun s wq e p a strm pos).pwr.cut = s.pwr.cut := by
  first
    | exact ⟨rfl, rfl, rfl, rfl⟩
    | (simp [State.underrun]; done)
    | (simp only [State.underrun]; (repeat' split) <;> simp; done)
    | (unfold State.underrun; (repeat' split) <;> simp; done)

@[simp] theorem State.streamUnderrun_kept (s : State) (wq : Nat) :
    (State.streamUnderrun s wq).pending = s.pending ∧ (State.streamUnderrun s wq).ram = s.ram ∧ (State.streamUnderrun s wq).sys.safe = s.sys.safe ∧ (State.streamUnderrun s wq).pwr.cut = s.pwr.cut := by
  simp only [State.streamUnderrun]; (repeat' split) <;> simp

end Sys2Proof.Machine
end

