-- ==== Sys2Proof/Laws/Kept3.lean ====
section
/-! SUPPORT. What the operations of Lace, Monitor, Net, Planes leave as it is: the queue of commands, the memory,
the Safe cause and the latch of the hardware cut. One lemma per operation (those of them it keeps). -/

namespace Sys2Proof.Machine

/-! ### Lace -/

@[simp] theorem State.signalGain_kept (s : State) (l lane : Nat) :
    (State.signalGain s l lane).pending = s.pending ∧ (State.signalGain s l lane).ram = s.ram ∧ (State.signalGain s l lane).sys.safe = s.sys.safe ∧ (State.signalGain s l lane).pwr.cut = s.pwr.cut := by
  simp [State.signalGain]

@[simp] theorem State.trainingAttempt_kept (s : State) (l sig : Nat) :
    (State.trainingAttempt s l sig).pending = s.pending ∧ (State.trainingAttempt s l sig).ram = s.ram ∧ (State.trainingAttempt s l sig).sys.safe = s.sys.safe ∧ (State.trainingAttempt s l sig).pwr.cut = s.pwr.cut := by
  simp [State.trainingAttempt]

@[simp] theorem State.askWidth_kept (s : State) (l mask : Nat) :
    (State.askWidth s l mask).pending = s.pending ∧ (State.askWidth s l mask).ram = s.ram ∧ (State.askWidth s l mask).sys.safe = s.sys.safe ∧ (State.askWidth s l mask).pwr.cut = s.pwr.cut := by
  exact ⟨rfl, rfl, rfl, rfl⟩

@[simp] theorem State.laneRecord_kept (s : State) (l lane lost : Nat) :
    (State.laneRecord s l lane lost).pending = s.pending ∧ (State.laneRecord s l lane lost).ram = s.ram ∧ (State.laneRecord s l lane lost).sys.safe = s.sys.safe ∧ (State.laneRecord s l lane lost).pwr.cut = s.pwr.cut := by
  simp [State.laneRecord]

@[simp] theorem State.laneLock_kept (s : State) (l lane : Nat) :
    (State.laneLock s l lane).pending = s.pending ∧ (State.laneLock s l lane).ram = s.ram ∧ (State.laneLock s l lane).sys.safe = s.sys.safe ∧ (State.laneLock s l lane).pwr.cut = s.pwr.cut := by
  simp [State.laneLock]

@[simp] theorem State.laneLoss_kept (s : State) (l lane : Nat) :
    (State.laneLoss s l lane).pending = s.pending ∧ (State.laneLoss s l lane).ram = s.ram ∧ (State.laneLoss s l lane).sys.safe = s.sys.safe ∧ (State.laneLoss s l lane).pwr.cut = s.pwr.cut := by
  simp [State.laneLoss]

@[simp] theorem State.linkUpNow_kept (s : State) (l lmask : Nat) :
    (State.linkUpNow s l lmask).pending = s.pending ∧ (State.linkUpNow s l lmask).ram = s.ram ∧ (State.linkUpNow s l lmask).sys.safe = s.sys.safe ∧ (State.linkUpNow s l lmask).pwr.cut = s.pwr.cut := by
  simp [State.linkUpNow]

@[simp] theorem State.trainBlock_kept (s : State) (l lane : Nat) (b : LaceBlock) (drift : Nat) :
    (State.trainBlock s l lane b drift).pending = s.pending ∧ (State.trainBlock s l lane b drift).ram = s.ram ∧ (State.trainBlock s l lane b drift).sys.safe = s.sys.safe ∧ (State.trainBlock s l lane b drift).pwr.cut = s.pwr.cut := by
  first
    | exact ⟨rfl, rfl, rfl, rfl⟩
    | (simp [State.trainBlock]; done)
    | (simp only [State.trainBlock]; (repeat' split) <;> simp; done)
    | (unfold State.trainBlock; (repeat' split) <;> simp; done)

@[simp] theorem State.alignBlock_kept (s : State) (l : Nat) (b : LaceBlock) (skew : Nat) :
    (State.alignBlock s l b skew).pending = s.pending ∧ (State.alignBlock s l b skew).ram = s.ram ∧ (State.alignBlock s l b skew).sys.safe = s.sys.safe ∧ (State.alignBlock s l b skew).pwr.cut = s.pwr.cut := by
  first
    | exact ⟨rfl, rfl, rfl, rfl⟩
    | (simp [State.alignBlock]; done)
    | (simp only [State.alignBlock]; (repeat' split) <;> simp; done)
    | (unfold State.alignBlock; (repeat' split) <;> simp; done)

@[simp] theorem State.trainingTimeout_kept (s : State) (l sig : Nat) :
    (State.trainingTimeout s l sig).pending = s.pending ∧ (State.trainingTimeout s l sig).ram = s.ram ∧ (State.trainingTimeout s l sig).sys.safe = s.sys.safe ∧ (State.trainingTimeout s l sig).pwr.cut = s.pwr.cut := by
  simp [State.trainingTimeout]

@[simp] theorem State.backoffEnd_kept (s : State) (l : Nat) :
    (State.backoffEnd s l).pending = s.pending ∧ (State.backoffEnd s l).ram = s.ram ∧ (State.backoffEnd s l).sys.safe = s.sys.safe ∧ (State.backoffEnd s l).pwr.cut = s.pwr.cut := by
  simp [State.backoffEnd]

@[simp] theorem State.laneRetrain_kept (s : State) (l lane : Nat) :
    (State.laneRetrain s l lane).pending = s.pending ∧ (State.laneRetrain s l lane).ram = s.ram ∧ (State.laneRetrain s l lane).sys.safe = s.sys.safe ∧ (State.laneRetrain s l lane).pwr.cut = s.pwr.cut := by
  simp [State.laneRetrain]

@[simp] theorem State.widthBlock_kept (s : State) (l mask : Nat) :
    (State.widthBlock s l mask).pending = s.pending ∧ (State.widthBlock s l mask).ram = s.ram ∧ (State.widthBlock s l mask).sys.safe = s.sys.safe ∧ (State.widthBlock s l mask).pwr.cut = s.pwr.cut := by
  simp [State.widthBlock]

@[simp] theorem State.lcRetrain_kept (s : State) (l : Nat) :
    (State.lcRetrain s l).pending = s.pending ∧ (State.lcRetrain s l).ram = s.ram ∧ (State.lcRetrain s l).sys.safe = s.sys.safe ∧ (State.lcRetrain s l).pwr.cut = s.pwr.cut := by
  simp [State.lcRetrain]

@[simp] theorem State.endLaceQuar_kept (s : State) (l : Nat) :
    (State.endLaceQuar s l).pending = s.pending ∧ (State.endLaceQuar s l).ram = s.ram ∧ (State.endLaceQuar s l).sys.safe = s.sys.safe ∧ (State.endLaceQuar s l).pwr.cut = s.pwr.cut := by
  simp [State.endLaceQuar]

@[simp] theorem State.lcRelease_kept (s : State) (l : Nat) :
    (State.lcRelease s l).pending = s.pending ∧ (State.lcRelease s l).ram = s.ram ∧ (State.lcRelease s l).sys.safe = s.sys.safe ∧ (State.lcRelease s l).pwr.cut = s.pwr.cut := by
  simp [State.lcRelease]

@[simp] theorem State.laceVio_kept (s : State) (l cause : Nat) (f : LaceFrame) :
    (State.laceVio s l cause f).pending = s.pending ∧ (State.laceVio s l cause f).ram = s.ram ∧ (State.laceVio s l cause f).sys.safe = s.sys.safe ∧ (State.laceVio s l cause f).pwr.cut = s.pwr.cut := by
  simp [State.laceVio]

@[simp] theorem State.idleEntry_kept (s : State) (l : Nat) :
    (State.idleEntry s l).pending = s.pending ∧ (State.idleEntry s l).ram = s.ram ∧ (State.idleEntry s l).sys.safe = s.sys.safe ∧ (State.idleEntry s l).pwr.cut = s.pwr.cut := by
  simp [State.idleEntry]

@[simp] theorem State.eidle_kept (s : State) (l : Nat) :
    (State.eidle s l).pending = s.pending ∧ (State.eidle s l).ram = s.ram ∧ (State.eidle s l).sys.safe = s.sys.safe ∧ (State.eidle s l).pwr.cut = s.pwr.cut := by
  simp [State.eidle]

@[simp] theorem State.idleExit_kept (s : State) (l : Nat) :
    (State.idleExit s l).pending = s.pending ∧ (State.idleExit s l).ram = s.ram ∧ (State.idleExit s l).sys.safe = s.sys.safe ∧ (State.idleExit s l).pwr.cut = s.pwr.cut := by
  simp [State.idleExit]

@[simp] theorem State.idleExitTimeout_kept (s : State) (l : Nat) :
    (State.idleExitTimeout s l).pending = s.pending ∧ (State.idleExitTimeout s l).ram = s.ram ∧ (State.idleExitTimeout s l).sys.safe = s.sys.safe ∧ (State.idleExitTimeout s l).pwr.cut = s.pwr.cut := by
  simp [State.idleExitTimeout]

@[simp] theorem State.updTx_kept (s : State) (l vc : Nat) (f : LaceTx → LaceTx) :
    (State.updTx s l vc f).pending = s.pending ∧ (State.updTx s l vc f).ram = s.ram ∧ (State.updTx s l vc f).sys.safe = s.sys.safe ∧ (State.updTx s l vc f).pwr.cut = s.pwr.cut := by
  exact ⟨rfl, rfl, rfl, rfl⟩

@[simp] theorem State.ackBlock_kept (s : State) (l vc : Nat) (seq : BitVec 12) (credit : Nat) :
    (State.ackBlock s l vc seq credit).pending = s.pending ∧ (State.ackBlock s l vc seq credit).ram = s.ram ∧ (State.ackBlock s l vc seq credit).sys.safe = s.sys.safe ∧ (State.ackBlock s l vc seq credit).pwr.cut = s.pwr.cut := by
  simp [State.ackBlock]

@[simp] theorem State.resendFrom_kept (s : State) (l vc : Nat) (p : LaceFrame → Bool) (bad : Bool) :
    (State.resendFrom s l vc p bad).pending = s.pending ∧ (State.resendFrom s l vc p bad).ram = s.ram ∧ (State.resendFrom s l vc p bad).sys.safe = s.sys.safe ∧ (State.resendFrom s l vc p bad).pwr.cut = s.pwr.cut := by
  first
    | exact ⟨rfl, rfl, rfl, rfl⟩
    | (simp [State.resendFrom]; done)
    | (simp only [State.resendFrom]; (repeat' split) <;> simp; done)
    | (unfold State.resendFrom; (repeat' split) <;> simp; done)

@[simp] theorem State.nakBlock_kept (s : State) (l vc : Nat) (seq : BitVec 12) (credit cause : Nat) (bad : Bool) :
    (State.nakBlock s l vc seq credit cause bad).pending = s.pending ∧ (State.nakBlock s l vc seq credit cause bad).ram = s.ram ∧ (State.nakBlock s l vc seq credit cause bad).sys.safe = s.sys.safe ∧ (State.nakBlock s l vc seq credit cause bad).pwr.cut = s.pwr.cut := by
  first
    | exact ⟨rfl, rfl, rfl, rfl⟩
    | (simp [State.nakBlock]; done)
    | (simp only [State.nakBlock]; (repeat' split) <;> simp; done)
    | (unfold State.nakBlock; (repeat' split) <;> simp; done)

@[simp] theorem State.resendTimeout_kept (s : State) (l vc : Nat) (bad : Bool) :
    (State.resendTimeout s l vc bad).pending = s.pending ∧ (State.resendTimeout s l vc bad).ram = s.ram ∧ (State.resendTimeout s l vc bad).sys.safe = s.sys.safe ∧ (State.resendTimeout s l vc bad).pwr.cut = s.pwr.cut := by
  first
    | exact ⟨rfl, rfl, rfl, rfl⟩
    | (simp [State.resendTimeout]; done)
    | (simp only [State.resendTimeout]; (repeat' split) <;> simp; done)
    | (unfold State.resendTimeout; (repeat' split) <;> simp; done)

@[simp] theorem State.sendNak_kept (s : State) (l vc cause : Nat) :
    (State.sendNak s l vc cause).pending = s.pending ∧ (State.sendNak s l vc cause).ram = s.ram ∧ (State.sendNak s l vc cause).sys.safe = s.sys.safe ∧ (State.sendNak s l vc cause).pwr.cut = s.pwr.cut := by
  exact ⟨rfl, rfl, rfl, rfl⟩

@[simp] theorem State.sendAck_kept (s : State) (l vc seq credit : Nat) :
    (State.sendAck s l vc seq credit).pending = s.pending ∧ (State.sendAck s l vc seq credit).ram = s.ram ∧ (State.sendAck s l vc seq credit).sys.safe = s.sys.safe ∧ (State.sendAck s l vc seq credit).pwr.cut = s.pwr.cut := by
  exact ⟨rfl, rfl, rfl, rfl⟩

@[simp] theorem State.sendReject_kept (s : State) (l cause : Nat) (f : LaceFrame) :
    (State.sendReject s l cause f).pending = s.pending ∧ (State.sendReject s l cause f).ram = s.ram ∧ (State.sendReject s l cause f).sys.safe = s.sys.safe ∧ (State.sendReject s l cause f).pwr.cut = s.pwr.cut := by
  simp [State.sendReject]

@[simp] theorem State.laceForward_kept (s : State) (l h : Nat) (f : LaceFrame) :
    (State.laceForward s l h f).pending = s.pending ∧ (State.laceForward s l h f).ram = s.ram ∧ (State.laceForward s l h f).sys.safe = s.sys.safe ∧ (State.laceForward s l h f).pwr.cut = s.pwr.cut := by
  simp [State.laceForward]

@[simp] theorem State.laceRoute_pending (s : State) (l : Nat) (f : LaceFrame) (k : State → State)
    (h : ∀ s, (k s).pending = s.pending) : (s.laceRoute l f k).pending = s.pending := by
  unfold State.laceRoute; dsimp only; (repeat' split) <;> simp [h]

@[simp] theorem State.laceRoute_ram (s : State) (l : Nat) (f : LaceFrame) (k : State → State)
    (h : ∀ s, (k s).ram = s.ram) : (s.laceRoute l f k).ram = s.ram := by
  unfold State.laceRoute; dsimp only; (repeat' split) <;> simp [h]

@[simp] theorem State.laceRoute_safe (s : State) (l : Nat) (f : LaceFrame) (k : State → State)
    (h : ∀ s, (k s).sys.safe = s.sys.safe) : (s.laceRoute l f k).sys.safe = s.sys.safe := by
  unfold State.laceRoute; dsimp only; (repeat' split) <;> simp [h]

@[simp] theorem State.laceRoute_cut (s : State) (l : Nat) (f : LaceFrame) (k : State → State)
    (h : ∀ s, (k s).pwr.cut = s.pwr.cut) : (s.laceRoute l f k).pwr.cut = s.pwr.cut := by
  unfold State.laceRoute; dsimp only; (repeat' split) <;> simp [h]

@[simp] theorem State.rejectOpen_kept (s : State) (l cause : Nat) (f : LaceFrame) :
    (State.rejectOpen s l cause f).pending = s.pending ∧ (State.rejectOpen s l cause f).ram = s.ram ∧ (State.rejectOpen s l cause f).sys.safe = s.sys.safe ∧ (State.rejectOpen s l cause f).pwr.cut = s.pwr.cut := by
  first
    | exact ⟨rfl, rfl, rfl, rfl⟩
    | (simp [State.rejectOpen]; done)
    | (simp only [State.rejectOpen]; (repeat' split) <;> simp; done)
    | (unfold State.rejectOpen; (repeat' split) <;> simp; done)

@[simp] theorem State.rxFrame_pending (s : State) (l : Nat) (f : LaceFrame) (err : Nat) (k : State → State)
    (h : ∀ s, (k s).pending = s.pending) : (s.rxFrame l f err k).pending = s.pending := by
  unfold State.rxFrame; cases contentFault f err <;> dsimp only <;> (repeat' split) <;> simp [h]

@[simp] theorem State.rxFrame_ram (s : State) (l : Nat) (f : LaceFrame) (err : Nat) (k : State → State)
    (h : ∀ s, (k s).ram = s.ram) : (s.rxFrame l f err k).ram = s.ram := by
  unfold State.rxFrame; cases contentFault f err <;> dsimp only <;> (repeat' split) <;> simp [h]

@[simp] theorem State.rxFrame_safe (s : State) (l : Nat) (f : LaceFrame) (err : Nat) (k : State → State)
    (h : ∀ s, (k s).sys.safe = s.sys.safe) : (s.rxFrame l f err k).sys.safe = s.sys.safe := by
  unfold State.rxFrame; cases contentFault f err <;> dsimp only <;> (repeat' split) <;> simp [h]

@[simp] theorem State.rxFrame_cut (s : State) (l : Nat) (f : LaceFrame) (err : Nat) (k : State → State)
    (h : ∀ s, (k s).pwr.cut = s.pwr.cut) : (s.rxFrame l f err k).pwr.cut = s.pwr.cut := by
  unfold State.rxFrame; cases contentFault f err <;> dsimp only <;> (repeat' split) <;> simp [h]

@[simp] theorem State.setOpens_kept (s : State) (l : Nat) (os : List LaceOpen) :
    (State.setOpens s l os).pending = s.pending ∧ (State.setOpens s l os).ram = s.ram ∧ (State.setOpens s l os).sys.safe = s.sys.safe ∧ (State.setOpens s l os).pwr.cut = s.pwr.cut := by
  first
    | exact ⟨rfl, rfl, rfl, rfl⟩
    | (simp [State.setOpens]; done)
    | (simp only [State.setOpens]; (repeat' split) <;> simp; done)
    | (unfold State.setOpens; (repeat' split) <;> simp; done)

@[simp] theorem State.closeFrame_pending (s : State) (l : Nat) (fin : BitVec 64) (mem : Bool) (k : LaceFrame → State → State)
    (h : ∀ f s, (k f s).pending = s.pending) : (s.closeFrame l fin mem k).pending = s.pending := by
  unfold State.closeFrame; dsimp only; (repeat' split) <;> simp [h]

@[simp] theorem State.closeFrame_ram (s : State) (l : Nat) (fin : BitVec 64) (mem : Bool) (k : LaceFrame → State → State)
    (h : ∀ f s, (k f s).ram = s.ram) : (s.closeFrame l fin mem k).ram = s.ram := by
  unfold State.closeFrame; dsimp only; (repeat' split) <;> simp [h]

@[simp] theorem State.closeFrame_safe (s : State) (l : Nat) (fin : BitVec 64) (mem : Bool) (k : LaceFrame → State → State)
    (h : ∀ f s, (k f s).sys.safe = s.sys.safe) : (s.closeFrame l fin mem k).sys.safe = s.sys.safe := by
  unfold State.closeFrame; dsimp only; (repeat' split) <;> simp [h]

@[simp] theorem State.closeFrame_cut (s : State) (l : Nat) (fin : BitVec 64) (mem : Bool) (k : LaceFrame → State → State)
    (h : ∀ f s, (k f s).pwr.cut = s.pwr.cut) : (s.closeFrame l fin mem k).pwr.cut = s.pwr.cut := by
  unfold State.closeFrame; dsimp only; (repeat' split) <;> simp [h]

@[simp] theorem State.openFrame_kept (s : State) (l : Nat) (start : BitVec 64) :
    (State.openFrame s l start).pending = s.pending ∧ (State.openFrame s l start).ram = s.ram ∧ (State.openFrame s l start).sys.safe = s.sys.safe ∧ (State.openFrame s l start).pwr.cut = s.pwr.cut := by
  first
    | exact ⟨rfl, rfl, rfl, rfl⟩
    | (simp [State.openFrame]; done)
    | (simp only [State.openFrame]; (repeat' split) <;> simp; done)
    | (unfold State.openFrame; (repeat' split) <;> simp; done)

@[simp] theorem State.frameData_kept (s : State) (l : Nat) (v : BitVec 64) :
    (State.frameData s l v).pending = s.pending ∧ (State.frameData s l v).ram = s.ram ∧ (State.frameData s l v).sys.safe = s.sys.safe ∧ (State.frameData s l v).pwr.cut = s.pwr.cut := by
  first
    | exact ⟨rfl, rfl, rfl, rfl⟩
    | (simp [State.frameData]; done)
    | (simp only [State.frameData]; (repeat' split) <;> simp; done)
    | (unfold State.frameData; (repeat' split) <;> simp; done)

@[simp] theorem State.badBlock_kept (s : State) (l why : Nat) :
    (State.badBlock s l why).pending = s.pending ∧ (State.badBlock s l why).ram = s.ram ∧ (State.badBlock s l why).sys.safe = s.sys.safe ∧ (State.badBlock s l why).pwr.cut = s.pwr.cut := by
  first
    | exact ⟨rfl, rfl, rfl, rfl⟩
    | (simp [State.badBlock]; done)
    | (simp only [State.badBlock]; (repeat' split) <;> simp; done)
    | (unfold State.badBlock; (repeat' split) <;> simp; done)

@[simp] theorem State.rxBlock_pending (s : State) (l lane : Nat) (w : LaceBlocks) (b : LaceBlock) (k : LaceFrame → State → State)
    (h : ∀ f s, (k f s).pending = s.pending) : (s.rxBlock l lane w b k).pending = s.pending := by
  unfold State.rxBlock; (repeat' split) <;> simp [h]

@[simp] theorem State.rxBlock_ram (s : State) (l lane : Nat) (w : LaceBlocks) (b : LaceBlock) (k : LaceFrame → State → State)
    (h : ∀ f s, (k f s).ram = s.ram) : (s.rxBlock l lane w b k).ram = s.ram := by
  unfold State.rxBlock; (repeat' split) <;> simp [h]

@[simp] theorem State.rxBlock_safe (s : State) (l lane : Nat) (w : LaceBlocks) (b : LaceBlock) (k : LaceFrame → State → State)
    (h : ∀ f s, (k f s).sys.safe = s.sys.safe) : (s.rxBlock l lane w b k).sys.safe = s.sys.safe := by
  unfold State.rxBlock; (repeat' split) <;> simp [h]

@[simp] theorem State.rxBlock_cut (s : State) (l lane : Nat) (w : LaceBlocks) (b : LaceBlock) (k : LaceFrame → State → State)
    (h : ∀ f s, (k f s).pwr.cut = s.pwr.cut) : (s.rxBlock l lane w b k).pwr.cut = s.pwr.cut := by
  unfold State.rxBlock; (repeat' split) <;> simp [h]

@[simp] theorem State.rxBlocks_pending (s : State) (l : Nat) (w : LaceBlocks) (k : LaceFrame → State → State)
    (h : ∀ f s, (k f s).pending = s.pending) : (s.rxBlocks l w k).pending = s.pending := by
  unfold State.rxBlocks; apply foldl_pending; intro s a; simp [h]

@[simp] theorem State.rxBlocks_ram (s : State) (l : Nat) (w : LaceBlocks) (k : LaceFrame → State → State)
    (h : ∀ f s, (k f s).ram = s.ram) : (s.rxBlocks l w k).ram = s.ram := by
  unfold State.rxBlocks; apply foldl_ram; intro s a; simp [h]

@[simp] theorem State.rxBlocks_safe (s : State) (l : Nat) (w : LaceBlocks) (k : LaceFrame → State → State)
    (h : ∀ f s, (k f s).sys.safe = s.sys.safe) : (s.rxBlocks l w k).sys.safe = s.sys.safe := by
  unfold State.rxBlocks; apply foldl_safe; intro s a; simp [h]

@[simp] theorem State.rxBlocks_cut (s : State) (l : Nat) (w : LaceBlocks) (k : LaceFrame → State → State)
    (h : ∀ f s, (k f s).pwr.cut = s.pwr.cut) : (s.rxBlocks l w k).pwr.cut = s.pwr.cut := by
  unfold State.rxBlocks; apply foldl_cut; intro s a; simp [h]

@[simp] theorem State.rxRow_pending (s : State) (l ftype : Nat) (w : LaceBlocks) (k : LaceFrame → State → State)
    (h : ∀ f s, (k f s).pending = s.pending) : (s.rxRow l ftype w k).pending = s.pending := by
  unfold State.rxRow; split <;> simp [h]

@[simp] theorem State.rxRow_ram (s : State) (l ftype : Nat) (w : LaceBlocks) (k : LaceFrame → State → State)
    (h : ∀ f s, (k f s).ram = s.ram) : (s.rxRow l ftype w k).ram = s.ram := by
  unfold State.rxRow; split <;> simp [h]

@[simp] theorem State.rxRow_safe (s : State) (l ftype : Nat) (w : LaceBlocks) (k : LaceFrame → State → State)
    (h : ∀ f s, (k f s).sys.safe = s.sys.safe) : (s.rxRow l ftype w k).sys.safe = s.sys.safe := by
  unfold State.rxRow; split <;> simp [h]

@[simp] theorem State.rxRow_cut (s : State) (l ftype : Nat) (w : LaceBlocks) (k : LaceFrame → State → State)
    (h : ∀ f s, (k f s).pwr.cut = s.pwr.cut) : (s.rxRow l ftype w k).pwr.cut = s.pwr.cut := by
  unfold State.rxRow; split <;> simp [h]

@[simp] theorem State.decisionIn_kept (f : LaceFrame) (s : State) :
    (State.decisionIn f s).pending = s.pending ∧ (State.decisionIn f s).ram = s.ram ∧ (State.decisionIn f s).sys.safe = s.sys.safe ∧ (State.decisionIn f s).pwr.cut = s.pwr.cut := by
  first
    | exact ⟨rfl, rfl, rfl, rfl⟩
    | (simp [State.decisionIn]; done)
    | (simp only [State.decisionIn]; (repeat' split) <;> simp; done)
    | (unfold State.decisionIn; (repeat' split) <;> simp; done)

@[simp] theorem State.triggerIn_kept (f : LaceFrame) (s : State) :
    (State.triggerIn f s).pending = s.pending ∧ (State.triggerIn f s).ram = s.ram ∧ (State.triggerIn f s).sys.safe = s.sys.safe ∧ (State.triggerIn f s).pwr.cut = s.pwr.cut := by
  first
    | exact ⟨rfl, rfl, rfl, rfl⟩
    | (simp [State.triggerIn]; done)
    | (simp only [State.triggerIn]; (repeat' split) <;> simp; done)
    | (unfold State.triggerIn; (repeat' split) <;> simp; done)

@[simp] theorem State.holdBarrier_kept (s : State) (f : LaceFrame) :
    (State.holdBarrier s f).pending = s.pending ∧ (State.holdBarrier s f).ram = s.ram ∧ (State.holdBarrier s f).sys.safe = s.sys.safe ∧ (State.holdBarrier s f).pwr.cut = s.pwr.cut := by
  simp [State.holdBarrier]

@[simp] theorem State.boundaryAt_kept (s : State) (f : LaceFrame) (peer : Nat) (p : Fin 2) :
    (State.boundaryAt s f peer p).pending = s.pending ∧ (State.boundaryAt s f peer p).ram = s.ram ∧ (State.boundaryAt s f peer p).sys.safe = s.sys.safe ∧ (State.boundaryAt s f peer p).pwr.cut = s.pwr.cut := by
  simp [State.boundaryAt]

@[simp] theorem State.boundaryFrame_kept (s : State) (f : LaceFrame) :
    (State.boundaryFrame s f).pending = s.pending ∧ (State.boundaryFrame s f).ram = s.ram ∧ (State.boundaryFrame s f).sys.safe = s.sys.safe ∧ (State.boundaryFrame s f).pwr.cut = s.pwr.cut := by
  simp only [State.boundaryFrame]; (repeat' split) <;> simp

@[simp] theorem State.probe_kept (s : State) (dest : Nat) :
    (State.probe s dest).pending = s.pending ∧ (State.probe s dest).ram = s.ram ∧ (State.probe s dest).sys.safe = s.sys.safe ∧ (State.probe s dest).pwr.cut = s.pwr.cut := by
  simp [State.probe]

@[simp] theorem State.answerProbe_kept (s : State) (f : LaceFrame) (d1 count : Nat) :
    (State.answerProbe s f d1 count).pending = s.pending ∧ (State.answerProbe s f d1 count).ram = s.ram ∧ (State.answerProbe s f d1 count).sys.safe = s.sys.safe ∧ (State.answerProbe s f d1 count).pwr.cut = s.pwr.cut := by
  simp only [State.answerProbe]; (repeat' split) <;> simp

@[simp] theorem State.rxProbe_kept (s : State) (l : Nat) (f : LaceFrame) :
    (State.rxProbe s l f).pending = s.pending ∧ (State.rxProbe s l f).ram = s.ram ∧ (State.rxProbe s l f).sys.safe = s.sys.safe ∧ (State.rxProbe s l f).pwr.cut = s.pwr.cut := by
  simp [State.rxProbe]

@[simp] theorem State.rxReply_kept (s : State) (f : LaceFrame) :
    (State.rxReply s f).pending = s.pending ∧ (State.rxReply s f).ram = s.ram ∧ (State.rxReply s f).sys.safe = s.sys.safe ∧ (State.rxReply s f).pwr.cut = s.pwr.cut := by
  simp only [State.rxReply]; (repeat' split) <;> simp

@[simp] theorem State.rxSummary_kept (s : State) (f : LaceFrame) :
    (State.rxSummary s f).pending = s.pending ∧ (State.rxSummary s f).ram = s.ram ∧ (State.rxSummary s f).sys.safe = s.sys.safe ∧ (State.rxSummary s f).pwr.cut = s.pwr.cut := by
  exact ⟨rfl, rfl, rfl, rfl⟩

@[simp] theorem State.timeIn_kept (s : State) (l : Nat) (f : LaceFrame) :
    (State.timeIn s l f).pending = s.pending ∧ (State.timeIn s l f).ram = s.ram ∧ (State.timeIn s l f).sys.safe = s.sys.safe ∧ (State.timeIn s l f).pwr.cut = s.pwr.cut := by
  first
    | exact ⟨rfl, rfl, rfl, rfl⟩
    | (simp [State.timeIn]; done)
    | (simp only [State.timeIn]; (repeat' split) <;> simp; done)
    | (unfold State.timeIn; (repeat' split) <;> simp; done)

@[simp] theorem State.timeOut_kept (s : State) (l : Nat) :
    (State.timeOut s l).pending = s.pending ∧ (State.timeOut s l).ram = s.ram ∧ (State.timeOut s l).sys.safe = s.sys.safe ∧ (State.timeOut s l).pwr.cut = s.pwr.cut := by
  first
    | exact ⟨rfl, rfl, rfl, rfl⟩
    | (simp [State.timeOut]; done)
    | (simp only [State.timeOut]; (repeat' split) <;> simp; done)
    | (unfold State.timeOut; (repeat' split) <;> simp; done)

@[simp] theorem State.beacon_kept (s : State) (l dep : Nat) :
    (State.beacon s l dep).pending = s.pending ∧ (State.beacon s l dep).ram = s.ram ∧ (State.beacon s l dep).sys.safe = s.sys.safe ∧ (State.beacon s l dep).pwr.cut = s.pwr.cut := by
  simp [State.beacon]

@[simp] theorem State.bcn0_kept (s : State) (l ns frac arr : Nat) :
    (State.bcn0 s l ns frac arr).pending = s.pending ∧ (State.bcn0 s l ns frac arr).ram = s.ram ∧ (State.bcn0 s l ns frac arr).sys.safe = s.sys.safe ∧ (State.bcn0 s l ns frac arr).pwr.cut = s.pwr.cut := by
  simp [State.bcn0]

@[simp] theorem State.offsetCheck_kept (s : State) (l : Nat) :
    (State.offsetCheck s l).pending = s.pending ∧ (State.offsetCheck s l).ram = s.ram ∧ (State.offsetCheck s l).sys.safe = s.sys.safe ∧ (State.offsetCheck s l).pwr.cut = s.pwr.cut := by
  simp [State.offsetCheck]

@[simp] theorem State.bcn1_kept (s : State) (l : Nat) (d root rhops : Nat) (align : Bool) :
    (State.bcn1 s l d root rhops align).pending = s.pending ∧ (State.bcn1 s l d root rhops align).ram = s.ram ∧ (State.bcn1 s l d root rhops align).sys.safe = s.sys.safe ∧ (State.bcn1 s l d root rhops align).pwr.cut = s.pwr.cut := by
  simp only [State.bcn1]; (repeat' split) <;> simp

@[simp] theorem State.correctBy_kept (s : State) (c : Int) :
    (State.correctBy s c).1.pending = s.pending ∧ (State.correctBy s c).1.ram = s.ram ∧ (State.correctBy s c).1.sys.safe = s.sys.safe ∧ (State.correctBy s c).1.pwr.cut = s.pwr.cut := by
  simp only [State.correctBy]; (repeat' split) <;> simp

@[simp] theorem State.shiftThetas_kept (s : State) (c : Int) :
    (State.shiftThetas s c).pending = s.pending ∧ (State.shiftThetas s c).ram = s.ram ∧ (State.shiftThetas s c).sys.safe = s.sys.safe ∧ (State.shiftThetas s c).pwr.cut = s.pwr.cut := by
  simp [State.shiftThetas]

@[simp] theorem State.laceAlign_kept (s : State) :
    (State.laceAlign s).pending = s.pending ∧ (State.laceAlign s).ram = s.ram ∧ (State.laceAlign s).sys.safe = s.sys.safe ∧ (State.laceAlign s).pwr.cut = s.pwr.cut := by
  simp only [State.laceAlign]; (repeat' split) <;> simp

/-! ### Monitor -/

@[simp] theorem State.monStart_kept (s : State) (kind ch set entry : Nat) (trig : MonTrig) :
    (State.monStart s kind ch set entry trig).pending = s.pending ∧ (State.monStart s kind ch set entry trig).ram = s.ram ∧ (State.monStart s kind ch set entry trig).sys.safe = s.sys.safe ∧ (State.monStart s kind ch set entry trig).pwr.cut = s.pwr.cut := by
  exact ⟨rfl, rfl, rfl, rfl⟩

@[simp] theorem State.monScan_kept (s : State) :
    (State.monScan s).pending = s.pending ∧ (State.monScan s).ram = s.ram ∧ (State.monScan s).sys.safe = s.sys.safe ∧ (State.monScan s).pwr.cut = s.pwr.cut := by
  simp [State.monScan]

@[simp] theorem State.monNext_kept (s : State) :
    (State.monNext s).pending = s.pending ∧ (State.monNext s).ram = s.ram ∧ (State.monNext s).sys.safe = s.sys.safe ∧ (State.monNext s).pwr.cut = s.pwr.cut := by
  simp only [State.monNext]; (repeat' split) <;> simp

@[simp] theorem State.monPowerDown_kept (s : State) :
    (State.monPowerDown s).pending = s.pending ∧ (State.monPowerDown s).ram = s.ram ∧ (State.monPowerDown s).sys.safe = s.sys.safe ∧ (State.monPowerDown s).pwr.cut = s.pwr.cut := by
  simp [State.monPowerDown]

@[simp] theorem State.monPass_kept (s : State) :
    (State.monPass s).pending = s.pending ∧ (State.monPass s).ram = s.ram ∧ (State.monPass s).sys.safe = s.sys.safe ∧ (State.monPass s).pwr.cut = s.pwr.cut := by
  simp [State.monPass]

@[simp] theorem State.monModulator_kept (s : State) :
    (State.monModulator s).pending = s.pending ∧ (State.monModulator s).ram = s.ram ∧ (State.monModulator s).sys.safe = s.sys.safe ∧ (State.monModulator s).pwr.cut = s.pwr.cut := by
  simp only [State.monModulator]; (repeat' split) <;> simp

@[simp] theorem State.monWatch_kept (s : State) :
    (State.monWatch s).pending = s.pending ∧ (State.monWatch s).ram = s.ram ∧ (State.monWatch s).sys.safe = s.sys.safe ∧ (State.monWatch s).pwr.cut = s.pwr.cut := by
  first
    | exact ⟨rfl, rfl, rfl, rfl⟩
    | (simp [State.monWatch]; done)
    | (simp only [State.monWatch]; (repeat' split) <;> simp; done)
    | (unfold State.monWatch; (repeat' split) <;> simp; done)

@[simp] theorem State.monCheck_kept (s : State) (c : MonConv) (v : Int) (moving : Bool) (st : Stamp) :
    (State.monCheck s c v moving st).pending = s.pending ∧ (State.monCheck s c v moving st).ram = s.ram ∧ (State.monCheck s c v moving st).sys.safe = s.sys.safe ∧ (State.monCheck s c v moving st).pwr.cut = s.pwr.cut := by
  first
    | exact ⟨rfl, rfl, rfl, rfl⟩
    | (simp [State.monCheck]; done)
    | (simp only [State.monCheck]; (repeat' split) <;> simp; done)
    | (unfold State.monCheck; (repeat' split) <;> simp; done)

@[simp] theorem State.monAdvance_kept (s : State) :
    (State.monAdvance s).pending = s.pending ∧ (State.monAdvance s).ram = s.ram ∧ (State.monAdvance s).sys.safe = s.sys.safe ∧ (State.monAdvance s).pwr.cut = s.pwr.cut := by
  simp [State.monAdvance]

@[simp] theorem State.monEnd_kept (s : State) (v : Int) :
    (State.monEnd s v).pending = s.pending ∧ (State.monEnd s v).ram = s.ram ∧ (State.monEnd s v).sys.safe = s.sys.safe ∧ (State.monEnd s v).pwr.cut = s.pwr.cut := by
  simp only [State.monEnd]; (repeat' split) <;> simp

@[simp] theorem State.monTrigger_kept (s : State) (t : MonTrig) (coarse : Bool) :
    (State.monTrigger s t coarse).pending = s.pending ∧ (State.monTrigger s t coarse).ram = s.ram ∧ (State.monTrigger s t coarse).sys.safe = s.sys.safe ∧ (State.monTrigger s t coarse).pwr.cut = s.pwr.cut := by
  simp only [State.monTrigger]; (repeat' split) <;> simp

@[simp] theorem State.monGo_kept (s : State) (v : Nat) :
    (State.monGo s v).pending = s.pending ∧ (State.monGo s v).ram = s.ram ∧ (State.monGo s v).sys.safe = s.sys.safe ∧ (State.monGo s v).pwr.cut = s.pwr.cut := by
  simp [State.monGo]

@[simp] theorem State.monSource_kept (s : State) (tsrc : Nat) (st : Stamp) :
    (State.monSource s tsrc st).pending = s.pending ∧ (State.monSource s tsrc st).ram = s.ram ∧ (State.monSource s tsrc st).sys.safe = s.sys.safe ∧ (State.monSource s tsrc st).pwr.cut = s.pwr.cut := by
  simp [State.monSource]

@[simp] theorem State.monPause_kept (s : State) :
    (State.monPause s).pending = s.pending ∧ (State.monPause s).ram = s.ram ∧ (State.monPause s).sys.safe = s.sys.safe ∧ (State.monPause s).pwr.cut = s.pwr.cut := by
  simp only [State.monPause]; (repeat' split) <;> simp

@[simp] theorem State.monRestart_kept (s : State) :
    (State.monRestart s).pending = s.pending ∧ (State.monRestart s).ram = s.ram ∧ (State.monRestart s).sys.safe = s.sys.safe ∧ (State.monRestart s).pwr.cut = s.pwr.cut := by
  simp [State.monRestart]

@[simp] theorem State.markerEdge_kept (s : State) (pin : Nat) :
    (State.markerEdge s pin).pending = s.pending ∧ (State.markerEdge s pin).ram = s.ram ∧ (State.markerEdge s pin).sys.safe = s.sys.safe ∧ (State.markerEdge s pin).pwr.cut = s.pwr.cut := by
  simp [State.markerEdge]

/-! ### Net -/

@[simp] theorem State.updPort_kept (s : State) (n : Nat) (f : NetPort → NetPort) :
    (State.updPort s n f).pending = s.pending ∧ (State.updPort s n f).ram = s.ram ∧ (State.updPort s n f).sys.safe = s.sys.safe ∧ (State.updPort s n f).pwr.cut = s.pwr.cut := by
  exact ⟨rfl, rfl, rfl, rfl⟩

@[simp] theorem State.updPortDom_kept (s : State) (n d : Nat) (f : PtpPort → PtpPort) :
    (State.updPortDom s n d f).pending = s.pending ∧ (State.updPortDom s n d f).ram = s.ram ∧ (State.updPortDom s n d f).sys.safe = s.sys.safe ∧ (State.updPortDom s n d f).pwr.cut = s.pwr.cut := by
  exact ⟨rfl, rfl, rfl, rfl⟩

@[simp] theorem State.updDom_kept (s : State) (d : Nat) (f : DomSt → DomSt) :
    (State.updDom s d f).pending = s.pending ∧ (State.updDom s d f).ram = s.ram ∧ (State.updDom s d f).sys.safe = s.sys.safe ∧ (State.updDom s d f).pwr.cut = s.pwr.cut := by
  exact ⟨rfl, rfl, rfl, rfl⟩

@[simp] theorem State.netOut_kept (s : State) (n : Nat) (o : NetOut) :
    (State.netOut s n o).pending = s.pending ∧ (State.netOut s n o).ram = s.ram ∧ (State.netOut s n o).sys.safe = s.sys.safe ∧ (State.netOut s n o).pwr.cut = s.pwr.cut := by
  exact ⟨rfl, rfl, rfl, rfl⟩

@[simp] theorem State.ptpOut_kept (s : State) (n d : Nat) (m : PtpMsg) :
    (State.ptpOut s n d m).pending = s.pending ∧ (State.ptpOut s n d m).ram = s.ram ∧ (State.ptpOut s n d m).sys.safe = s.sys.safe ∧ (State.ptpOut s n d m).pwr.cut = s.pwr.cut := by
  first
    | exact ⟨rfl, rfl, rfl, rfl⟩
    | (simp [State.ptpOut]; done)
    | (simp only [State.ptpOut]; (repeat' split) <;> simp; done)
    | (unfold State.ptpOut; (repeat' split) <;> simp; done)

@[simp] theorem State.servoRecord_kept (s : State) (d cause : Nat) (est : Int) :
    (State.servoRecord s d cause est).pending = s.pending ∧ (State.servoRecord s d cause est).ram = s.ram ∧ (State.servoRecord s d cause est).sys.safe = s.sys.safe ∧ (State.servoRecord s d cause est).pwr.cut = s.pwr.cut := by
  simp [State.servoRecord]

@[simp] theorem State.addSample_kept (s : State) (n d : Nat) (x : Int) :
    (State.addSample s n d x).pending = s.pending ∧ (State.addSample s n d x).ram = s.ram ∧ (State.addSample s n d x).sys.safe = s.sys.safe ∧ (State.addSample s n d x).pwr.cut = s.pwr.cut := by
  simp only [State.addSample]; (repeat' split) <;> simp

@[simp] theorem State.syncHeard_kept (s : State) (d : Nat) :
    (State.syncHeard s d).pending = s.pending ∧ (State.syncHeard s d).ram = s.ram ∧ (State.syncHeard s d).sys.safe = s.sys.safe ∧ (State.syncHeard s d).pwr.cut = s.pwr.cut := by
  simp [State.syncHeard]

@[simp] theorem State.syncPair_kept (s : State) (n d : Nat) (t2 dev t1 : Int) :
    (State.syncPair s n d t2 dev t1).pending = s.pending ∧ (State.syncPair s n d t2 dev t1).ram = s.ram ∧ (State.syncPair s n d t2 dev t1).sys.safe = s.sys.safe ∧ (State.syncPair s n d t2 dev t1).pwr.cut = s.pwr.cut := by
  simp only [State.syncPair]; (repeat' split) <;> simp

@[simp] theorem State.masterLost_kept (s : State) (n d cause : Nat) :
    (State.masterLost s n d cause).pending = s.pending ∧ (State.masterLost s n d cause).ram = s.ram ∧ (State.masterLost s n d cause).sys.safe = s.sys.safe ∧ (State.masterLost s n d cause).pwr.cut = s.pwr.cut := by
  simp [State.masterLost]

@[simp] theorem State.ptpVio_kept (s : State) (n cause : Nat) (m : PtpMsg) (frac : BitVec 16) :
    (State.ptpVio s n cause m frac).pending = s.pending ∧ (State.ptpVio s n cause m frac).ram = s.ram ∧ (State.ptpVio s n cause m frac).sys.safe = s.sys.safe ∧ (State.ptpVio s n cause m frac).pwr.cut = s.pwr.cut := by
  simp [State.ptpVio]

@[simp] theorem State.ptpQuarEnd_kept (s : State) (n id : Nat) :
    (State.ptpQuarEnd s n id).pending = s.pending ∧ (State.ptpQuarEnd s n id).ram = s.ram ∧ (State.ptpQuarEnd s n id).sys.safe = s.sys.safe ∧ (State.ptpQuarEnd s n id).pwr.cut = s.pwr.cut := by
  exact ⟨rfl, rfl, rfl, rfl⟩

@[simp] theorem State.ptpRx_pending (s : State) (n t : Nat) (m : PtpMsg) (frac : BitVec 16) (k : Nat → Nat → State)
    (h : ∀ d e, (k d e).pending = s.pending) : (s.ptpRx n t m frac k).pending = s.pending := by
  unfold State.ptpRx; (repeat' split) <;> simp [h]

@[simp] theorem State.ptpRx_ram (s : State) (n t : Nat) (m : PtpMsg) (frac : BitVec 16) (k : Nat → Nat → State)
    (h : ∀ d e, (k d e).ram = s.ram) : (s.ptpRx n t m frac k).ram = s.ram := by
  unfold State.ptpRx; (repeat' split) <;> simp [h]

@[simp] theorem State.ptpRx_safe (s : State) (n t : Nat) (m : PtpMsg) (frac : BitVec 16) (k : Nat → Nat → State)
    (h : ∀ d e, (k d e).sys.safe = s.sys.safe) : (s.ptpRx n t m frac k).sys.safe = s.sys.safe := by
  unfold State.ptpRx; (repeat' split) <;> simp [h]

@[simp] theorem State.ptpRx_cut (s : State) (n t : Nat) (m : PtpMsg) (frac : BitVec 16) (k : Nat → Nat → State)
    (h : ∀ d e, (k d e).pwr.cut = s.pwr.cut) : (s.ptpRx n t m frac k).pwr.cut = s.pwr.cut := by
  unfold State.ptpRx; (repeat' split) <;> simp [h]

@[simp] theorem State.ptpForward_kept (s : State) (n d : Nat) (m : PtpMsg) :
    (State.ptpForward s n d m).pending = s.pending ∧ (State.ptpForward s n d m).ram = s.ram ∧ (State.ptpForward s n d m).sys.safe = s.sys.safe ∧ (State.ptpForward s n d m).pwr.cut = s.pwr.cut := by
  first
    | (simp [State.ptpForward]; done)
    | (simp only [State.ptpForward]; (repeat' split) <;> simp; done)
    | (unfold State.ptpForward; (repeat' split) <;> simp; done)

@[simp] theorem State.ptpSync_kept (s : State) (n : Nat) (m : PtpMsg) (frac : BitVec 16) (res d mode : Nat) :
    (State.ptpSync s n m frac res d mode).pending = s.pending ∧ (State.ptpSync s n m frac res d mode).ram = s.ram ∧ (State.ptpSync s n m frac res d mode).sys.safe = s.sys.safe ∧ (State.ptpSync s n m frac res d mode).pwr.cut = s.pwr.cut := by
  simp [State.ptpSync]

@[simp] theorem State.followUp_kept (s : State) (n : Nat) (m : PtpMsg) (d mode : Nat) :
    (State.followUp s n m d mode).pending = s.pending ∧ (State.followUp s n m d mode).ram = s.ram ∧ (State.followUp s n m d mode).sys.safe = s.sys.safe ∧ (State.followUp s n m d mode).pwr.cut = s.pwr.cut := by
  simp only [State.followUp]; (repeat' split) <;> simp

@[simp] theorem State.delayReq_kept (s : State) (n : Nat) (m : PtpMsg) (frac : BitVec 16) (res d mode : Nat) :
    (State.delayReq s n m frac res d mode).pending = s.pending ∧ (State.delayReq s n m frac res d mode).ram = s.ram ∧ (State.delayReq s n m frac res d mode).sys.safe = s.sys.safe ∧ (State.delayReq s n m frac res d mode).pwr.cut = s.pwr.cut := by
  simp [State.delayReq]

@[simp] theorem State.pathDelay_kept (s : State) (n d : Nat) (m : PtpMsg) (frac : BitVec 16) (twice : Int) :
    (State.pathDelay s n d m frac twice).pending = s.pending ∧ (State.pathDelay s n d m frac twice).ram = s.ram ∧ (State.pathDelay s n d m frac twice).sys.safe = s.sys.safe ∧ (State.pathDelay s n d m frac twice).pwr.cut = s.pwr.cut := by
  simp [State.pathDelay]

@[simp] theorem State.delayResp_kept (s : State) (n : Nat) (m : PtpMsg) (d mode : Nat) :
    (State.delayResp s n m d mode).pending = s.pending ∧ (State.delayResp s n m d mode).ram = s.ram ∧ (State.delayResp s n m d mode).sys.safe = s.sys.safe ∧ (State.delayResp s n m d mode).pwr.cut = s.pwr.cut := by
  simp only [State.delayResp]; (repeat' split) <;> simp

@[simp] theorem State.pdelayReq_kept (s : State) (n : Nat) (m : PtpMsg) (frac : BitVec 16) (turn d : Nat) :
    (State.pdelayReq s n m frac turn d).pending = s.pending ∧ (State.pdelayReq s n m frac turn d).ram = s.ram ∧ (State.pdelayReq s n m frac turn d).sys.safe = s.sys.safe ∧ (State.pdelayReq s n m frac turn d).pwr.cut = s.pwr.cut := by
  simp [State.pdelayReq]

@[simp] theorem State.pdelayResp_kept (s : State) (n : Nat) (m : PtpMsg) (frac : BitVec 16) (d : Nat) :
    (State.pdelayResp s n m frac d).pending = s.pending ∧ (State.pdelayResp s n m frac d).ram = s.ram ∧ (State.pdelayResp s n m frac d).sys.safe = s.sys.safe ∧ (State.pdelayResp s n m frac d).pwr.cut = s.pwr.cut := by
  simp only [State.pdelayResp]; (repeat' split) <;> simp

@[simp] theorem State.pdelayFollow_kept (s : State) (n : Nat) (m : PtpMsg) (d : Nat) :
    (State.pdelayFollow s n m d).pending = s.pending ∧ (State.pdelayFollow s n m d).ram = s.ram ∧ (State.pdelayFollow s n m d).sys.safe = s.sys.safe ∧ (State.pdelayFollow s n m d).pwr.cut = s.pwr.cut := by
  simp only [State.pdelayFollow]; (repeat' split) <;> simp

@[simp] theorem State.announce_kept (s : State) (n : Nat) (m : PtpMsg) (d mode : Nat) :
    (State.announce s n m d mode).pending = s.pending ∧ (State.announce s n m d mode).ram = s.ram ∧ (State.announce s n m d mode).sys.safe = s.sys.safe ∧ (State.announce s n m d mode).pwr.cut = s.pwr.cut := by
  simp only [State.announce]; (repeat' split) <;> simp

@[simp] theorem State.syncSend_kept (s : State) (n d : Nat) (frac : BitVec 16) :
    (State.syncSend s n d frac).pending = s.pending ∧ (State.syncSend s n d frac).ram = s.ram ∧ (State.syncSend s n d frac).sys.safe = s.sys.safe ∧ (State.syncSend s n d frac).pwr.cut = s.pwr.cut := by
  simp [State.syncSend]

@[simp] theorem State.announceSend_kept (s : State) (n d : Nat) :
    (State.announceSend s n d).pending = s.pending ∧ (State.announceSend s n d).ram = s.ram ∧ (State.announceSend s n d).sys.safe = s.sys.safe ∧ (State.announceSend s n d).pwr.cut = s.pwr.cut := by
  first
    | exact ⟨rfl, rfl, rfl, rfl⟩
    | (simp [State.announceSend]; done)
    | (simp only [State.announceSend]; (repeat' split) <;> simp; done)
    | (unfold State.announceSend; (repeat' split) <;> simp; done)

@[simp] theorem State.delayReqSend_kept (s : State) (n d : Nat) (frac : BitVec 16) :
    (State.delayReqSend s n d frac).pending = s.pending ∧ (State.delayReqSend s n d frac).ram = s.ram ∧ (State.delayReqSend s n d frac).sys.safe = s.sys.safe ∧ (State.delayReqSend s n d frac).pwr.cut = s.pwr.cut := by
  simp [State.delayReqSend]

@[simp] theorem State.membership_kept (s : State) (n : Nat) :
    (State.membership s n).pending = s.pending ∧ (State.membership s n).ram = s.ram ∧ (State.membership s n).sys.safe = s.sys.safe ∧ (State.membership s n).pwr.cut = s.pwr.cut := by
  simp only [State.membership]; (repeat' split) <;> simp

@[simp] theorem State.annTimeout_kept (s : State) (n d : Nat) :
    (State.annTimeout s n d).pending = s.pending ∧ (State.annTimeout s n d).ram = s.ram ∧ (State.annTimeout s n d).sys.safe = s.sys.safe ∧ (State.annTimeout s n d).pwr.cut = s.pwr.cut := by
  simp [State.annTimeout]

@[simp] theorem State.domainLost_kept (s : State) (d : Nat) :
    (State.domainLost s d).pending = s.pending ∧ (State.domainLost s d).ram = s.ram ∧ (State.domainLost s d).sys.safe = s.sys.safe ∧ (State.domainLost s d).pwr.cut = s.pwr.cut := by
  simp [State.domainLost]

@[simp] theorem State.shiftSamples_kept (s : State) (c : Int) :
    (State.shiftSamples s c).pending = s.pending ∧ (State.shiftSamples s c).ram = s.ram ∧ (State.shiftSamples s c).sys.safe = s.sys.safe ∧ (State.shiftSamples s c).pwr.cut = s.pwr.cut := by
  exact ⟨rfl, rfl, rfl, rfl⟩

@[simp] theorem State.applyEstimate_kept (s : State) (e : Int) :
    (State.applyEstimate s e).pending = s.pending ∧ (State.applyEstimate s e).ram = s.ram ∧ (State.applyEstimate s e).sys.safe = s.sys.safe ∧ (State.applyEstimate s e).pwr.cut = s.pwr.cut := by
  simp [State.applyEstimate]

@[simp] theorem State.timeCorrect_kept (s : State) :
    (State.timeCorrect s).pending = s.pending ∧ (State.timeCorrect s).ram = s.ram ∧ (State.timeCorrect s).sys.safe = s.sys.safe ∧ (State.timeCorrect s).pwr.cut = s.pwr.cut := by
  simp [State.timeCorrect]

@[simp] theorem State.switchRecord_kept (s : State) (from_ dst cause : Nat) (ps : Int) :
    (State.switchRecord s from_ dst cause ps).pending = s.pending ∧ (State.switchRecord s from_ dst cause ps).ram = s.ram ∧ (State.switchRecord s from_ dst cause ps).sys.safe = s.sys.safe ∧ (State.switchRecord s from_ dst cause ps).pwr.cut = s.pwr.cut := by
  simp [State.switchRecord]

@[simp] theorem State.switchTo_kept (s : State) (dst cause : Nat) :
    (State.switchTo s dst cause).pending = s.pending ∧ (State.switchTo s dst cause).ram = s.ram ∧ (State.switchTo s dst cause).sys.safe = s.sys.safe ∧ (State.switchTo s dst cause).pwr.cut = s.pwr.cut := by
  simp [State.switchTo]

@[simp] theorem State.domainSwitch_kept (s : State) :
    (State.domainSwitch s).pending = s.pending ∧ (State.domainSwitch s).ram = s.ram ∧ (State.domainSwitch s).sys.safe = s.sys.safe ∧ (State.domainSwitch s).pwr.cut = s.pwr.cut := by
  simp only [State.domainSwitch]; (repeat' split) <;> simp

@[simp] theorem State.ppsRecord_kept (s : State) (st : Stamp) (coarse what : Nat) :
    (State.ppsRecord s st coarse what).pending = s.pending ∧ (State.ppsRecord s st coarse what).ram = s.ram ∧ (State.ppsRecord s st coarse what).sys.safe = s.sys.safe ∧ (State.ppsRecord s st coarse what).pwr.cut = s.pwr.cut := by
  simp [State.ppsRecord]

@[simp] theorem State.ppsSample_kept (s : State) (x : Int) :
    (State.ppsSample s x).pending = s.pending ∧ (State.ppsSample s x).ram = s.ram ∧ (State.ppsSample s x).sys.safe = s.sys.safe ∧ (State.ppsSample s x).pwr.cut = s.pwr.cut := by
  simp [State.ppsSample]

@[simp] theorem State.ppsEdge_kept (s : State) (frac : BitVec 16) :
    (State.ppsEdge s frac).pending = s.pending ∧ (State.ppsEdge s frac).ram = s.ram ∧ (State.ppsEdge s frac).sys.safe = s.sys.safe ∧ (State.ppsEdge s frac).pwr.cut = s.pwr.cut := by
  simp [State.ppsEdge]

@[simp] theorem State.ppsMissing_kept (s : State) :
    (State.ppsMissing s).pending = s.pending ∧ (State.ppsMissing s).ram = s.ram ∧ (State.ppsMissing s).sys.safe = s.sys.safe ∧ (State.ppsMissing s).pwr.cut = s.pwr.cut := by
  simp [State.ppsMissing]

@[simp] theorem State.timerPin_kept (s : State) (pin : Nat) (level : Option Bool) :
    (State.timerPin s pin level).pending = s.pending ∧ (State.timerPin s pin level).ram = s.ram ∧ (State.timerPin s pin level).sys.safe = s.sys.safe ∧ (State.timerPin s pin level).pwr.cut = s.pwr.cut := by
  simp [State.timerPin]

@[simp] theorem State.timerWid_kept (s : State) (i : Nat) :
    (State.timerWid s i).pending = s.pending ∧ (State.timerWid s i).ram = s.ram ∧ (State.timerWid s i).sys.safe = s.sys.safe ∧ (State.timerWid s i).pwr.cut = s.pwr.cut := by
  simp [State.timerWid]

@[simp] theorem State.timerClash_kept (s : State) (i : Nat) :
    (State.timerClash s i).pending = s.pending ∧ (State.timerClash s i).ram = s.ram ∧ (State.timerClash s i).sys.safe = s.sys.safe ∧ (State.timerClash s i).pwr.cut = s.pwr.cut := by
  simp only [State.timerClash]; (repeat' split) <;> simp

@[simp] theorem State.timerArm_kept (s : State) (i : Nat) :
    (State.timerArm s i).pending = s.pending ∧ (State.timerArm s i).ram = s.ram ∧ (State.timerArm s i).sys.safe = s.sys.safe ∧ (State.timerArm s i).pwr.cut = s.pwr.cut := by
  simp [State.timerArm]

@[simp] theorem State.timerDisarm_kept (s : State) (i : Nat) :
    (State.timerDisarm s i).pending = s.pending ∧ (State.timerDisarm s i).ram = s.ram ∧ (State.timerDisarm s i).sys.safe = s.sys.safe ∧ (State.timerDisarm s i).pwr.cut = s.pwr.cut := by
  simp [State.timerDisarm]

@[simp] theorem State.timerLate_kept (s : State) (i : Nat) :
    (State.timerLate s i).pending = s.pending ∧ (State.timerLate s i).ram = s.ram ∧ (State.timerLate s i).sys.safe = s.sys.safe ∧ (State.timerLate s i).pwr.cut = s.pwr.cut := by
  simp [State.timerLate]

@[simp] theorem State.timerFire_kept (s : State) (i : Nat) :
    (State.timerFire s i).pending = s.pending ∧ (State.timerFire s i).ram = s.ram ∧ (State.timerFire s i).sys.safe = s.sys.safe ∧ (State.timerFire s i).pwr.cut = s.pwr.cut := by
  simp [State.timerFire]

@[simp] theorem State.pulseEnd_kept (s : State) (i : Nat) :
    (State.pulseEnd s i).pending = s.pending ∧ (State.pulseEnd s i).ram = s.ram ∧ (State.pulseEnd s i).sys.safe = s.sys.safe ∧ (State.pulseEnd s i).pwr.cut = s.pwr.cut := by
  simp [State.pulseEnd]

/-! ### Planes -/

@[simp] theorem State.updPlane_kept (s : State) (p : Fin 2) (f : Plane → Plane) :
    (State.updPlane s p f).pending = s.pending ∧ (State.updPlane s p f).ram = s.ram ∧ (State.updPlane s p f).sys.safe = s.sys.safe ∧ (State.updPlane s p f).pwr.cut = s.pwr.cut := by
  exact ⟨rfl, rfl, rfl, rfl⟩

@[simp] theorem State.planeRecord_kept (s : State) (p : Fin 2) (kind flags : Nat) (body : List (Nat × Nat × Nat)) (ctx : Nat) :
    (State.planeRecord s p kind flags body ctx).pending = s.pending ∧ (State.planeRecord s p kind flags body ctx).ram = s.ram ∧ (State.planeRecord s p kind flags body ctx).sys.safe = s.sys.safe ∧ (State.planeRecord s p kind flags body ctx).pwr.cut = s.pwr.cut := by
  simp [State.planeRecord]

@[simp] theorem State.planeStateRecord_kept (s : State) (p : Fin 2) (cause : Nat) :
    (State.planeStateRecord s p cause).pending = s.pending ∧ (State.planeStateRecord s p cause).ram = s.ram ∧ (State.planeStateRecord s p cause).sys.safe = s.sys.safe ∧ (State.planeStateRecord s p cause).pwr.cut = s.pwr.cut := by
  simp [State.planeStateRecord]

@[simp] theorem State.ownerRecord_kept (s : State) (cause : Nat) :
    (State.ownerRecord s cause).pending = s.pending ∧ (State.ownerRecord s cause).ram = s.ram ∧ (State.ownerRecord s cause).sys.safe = s.sys.safe ∧ (State.ownerRecord s cause).pwr.cut = s.pwr.cut := by
  simp [State.ownerRecord]

@[simp] theorem State.emuteRecord_kept (s : State) (mask what : Nat) :
    (State.emuteRecord s mask what).pending = s.pending ∧ (State.emuteRecord s mask what).ram = s.ram ∧ (State.emuteRecord s mask what).sys.safe = s.sys.safe ∧ (State.emuteRecord s mask what).pwr.cut = s.pwr.cut := by
  simp [State.emuteRecord]

@[simp] theorem State.emuteAssert_kept (s : State) (mask what : Nat) :
    (State.emuteAssert s mask what).pending = s.pending ∧ (State.emuteAssert s mask what).ram = s.ram ∧ (State.emuteAssert s mask what).sys.safe = s.sys.safe ∧ (State.emuteAssert s mask what).pwr.cut = s.pwr.cut := by
  simp [State.emuteAssert]

@[simp] theorem State.emuteRecover_kept (s : State) :
    (State.emuteRecover s).pending = s.pending ∧ (State.emuteRecover s).ram = s.ram ∧ (State.emuteRecover s).sys.safe = s.sys.safe ∧ (State.emuteRecover s).pwr.cut = s.pwr.cut := by
  simp [State.emuteRecover]

@[simp] theorem State.emuteOver_kept (s : State) (mask : Nat) :
    (State.emuteOver s mask).pending = s.pending ∧ (State.emuteOver s mask).ram = s.ram ∧ (State.emuteOver s mask).sys.safe = s.sys.safe ∧ (State.emuteOver s mask).pwr.cut = s.pwr.cut := by
  first
    | exact ⟨rfl, rfl, rfl, rfl⟩
    | (simp [State.emuteOver]; done)
    | (simp only [State.emuteOver]; (repeat' split) <;> simp; done)
    | (unfold State.emuteOver; (repeat' split) <;> simp; done)

@[simp] theorem State.emuteRelease_kept (s : State) (mask : BitVec 16) :
    (State.emuteRelease s mask).pending = s.pending ∧ (State.emuteRelease s mask).ram = s.ram ∧ (State.emuteRelease s mask).sys.safe = s.sys.safe ∧ (State.emuteRelease s mask).pwr.cut = s.pwr.cut := by
  simp [State.emuteRelease]

@[simp] theorem State.planeQuarantine_kept (s : State) (p : Fin 2) (cause : Nat) :
    (State.planeQuarantine s p cause).pending = s.pending ∧ (State.planeQuarantine s p cause).ram = s.ram ∧ (State.planeQuarantine s p cause).pwr.cut = s.pwr.cut := by
  simp [State.planeQuarantine]

@[simp] theorem State.startCheck_kept (s : State) (cause : Nat) :
    (State.startCheck s cause).pending = s.pending ∧ (State.startCheck s cause).ram = s.ram ∧ (State.startCheck s cause).sys.safe = s.sys.safe ∧ (State.startCheck s cause).pwr.cut = s.pwr.cut := by
  simp [State.startCheck]

@[simp] theorem State.checkRecord_kept (s : State) (p : Fin 2) (f cause : Nat) :
    (State.checkRecord s p f cause).pending = s.pending ∧ (State.checkRecord s p f cause).ram = s.ram ∧ (State.checkRecord s p f cause).sys.safe = s.sys.safe ∧ (State.checkRecord s p f cause).pwr.cut = s.pwr.cut := by
  simp [State.checkRecord]

@[simp] theorem State.checkOutcome_kept (s : State) (f0 f1 : Bool) :
    (State.checkOutcome s f0 f1).pending = s.pending ∧ (State.checkOutcome s f0 f1).ram = s.ram ∧ (State.checkOutcome s f0 f1).pwr.cut = s.pwr.cut := by
  simp only [State.checkOutcome]; (repeat' split) <;> simp

@[simp] theorem State.startCopy_kept (s : State) (p : Fin 2) :
    (State.startCopy s p).pending = s.pending ∧ (State.startCopy s p).ram = s.ram ∧ (State.startCopy s p).sys.safe = s.sys.safe ∧ (State.startCopy s p).pwr.cut = s.pwr.cut := by
  simp [State.startCopy]

@[simp] theorem State.repairCheckEnd_kept (s : State) (p : Fin 2) (f : Nat) :
    (State.repairCheckEnd s p f).pending = s.pending ∧ (State.repairCheckEnd s p f).ram = s.ram ∧ (State.repairCheckEnd s p f).sys.safe = s.sys.safe ∧ (State.repairCheckEnd s p f).pwr.cut = s.pwr.cut := by
  simp [State.repairCheckEnd]

@[simp] theorem State.checkEnd_kept (s : State) (which : Fin 3) (f0 f1 : Nat) :
    (State.checkEnd s which f0 f1).pending = s.pending ∧ (State.checkEnd s which f0 f1).ram = s.ram ∧ (State.checkEnd s which f0 f1).pwr.cut = s.pwr.cut := by
  simp only [State.checkEnd]; (repeat' split) <;> simp

@[simp] theorem State.sendCopies_kept (s : State) (d : Nat) (t : Token) :
    (State.sendCopies s d t).pending = s.pending ∧ (State.sendCopies s d t).ram = s.ram ∧ (State.sendCopies s d t).sys.safe = s.sys.safe ∧ (State.sendCopies s d t).pwr.cut = s.pwr.cut := by
  simp [State.sendCopies]

@[simp] theorem State.decisionActs_kept (s : State) (p : Fin 2) (unit : List Nat) (d : Nat) (t : Token) :
    (State.decisionActs s p unit d t).pending = s.pending ∧ (State.decisionActs s p unit d t).ram = s.ram ∧ (State.decisionActs s p unit d t).sys.safe = s.sys.safe ∧ (State.decisionActs s p unit d t).pwr.cut = s.pwr.cut := by
  simp [State.decisionActs]

@[simp] theorem State.fireUnit_kept (s : State) (p : Fin 2) (unit : List Nat) (fk tgt d payload smp : Nat) (void : Bool) :
    (State.fireUnit s p unit fk tgt d payload smp void).pending = s.pending ∧ (State.fireUnit s p unit fk tgt d payload smp void).ram = s.ram ∧ (State.fireUnit s p unit fk tgt d payload smp void).sys.safe = s.sys.safe ∧ (State.fireUnit s p unit fk tgt d payload smp void).pwr.cut = s.pwr.cut := by
  simp [State.fireUnit]

@[simp] theorem State.tryFire_kept (s : State) (p : Fin 2) (parity : Bool) (u : Nat) :
    (State.tryFire s p parity u).pending = s.pending ∧ (State.tryFire s p parity u).ram = s.ram ∧ (State.tryFire s p parity u).sys.safe = s.sys.safe ∧ (State.tryFire s p parity u).pwr.cut = s.pwr.cut := by
  simp [State.tryFire]

@[simp] theorem State.slotInput_kept (s : State) (p : Fin 2) (parity : Bool) (u j val : Nat) (t : Token) :
    (State.slotInput s p parity u j val t).pending = s.pending ∧ (State.slotInput s p parity u j val t).ram = s.ram ∧ (State.slotInput s p parity u j val t).sys.safe = s.sys.safe ∧ (State.slotInput s p parity u j val t).pwr.cut = s.pwr.cut := by
  simp [State.slotInput]

@[simp] theorem State.routeToken_kept (s : State) (p : Fin 2) (t : Token) :
    (State.routeToken s p t).pending = s.pending ∧ (State.routeToken s p t).ram = s.ram ∧ (State.routeToken s p t).sys.safe = s.sys.safe ∧ (State.routeToken s p t).pwr.cut = s.pwr.cut := by
  simp only [State.routeToken]; (repeat' split) <;> simp

@[simp] theorem State.planeToken_kept (s : State) (p : Fin 2) (tgt bad addr : Nat) :
    (State.planeToken s p tgt bad addr).pending = s.pending ∧ (State.planeToken s p tgt bad addr).ram = s.ram ∧ (State.planeToken s p tgt bad addr).pwr.cut = s.pwr.cut := by
  simp only [State.planeToken]; (repeat' split) <;> simp

@[simp] theorem State.flushPlane_kept (s : State) (p : Fin 2) :
    (State.flushPlane s p).pending = s.pending ∧ (State.flushPlane s p).ram = s.ram ∧ (State.flushPlane s p).sys.safe = s.sys.safe ∧ (State.flushPlane s p).pwr.cut = s.pwr.cut := by
  simp [State.flushPlane]

@[simp] theorem State.slotFlush_kept (s : State) :
    (State.slotFlush s).pending = s.pending ∧ (State.slotFlush s).ram = s.ram ∧ (State.slotFlush s).sys.safe = s.sys.safe ∧ (State.slotFlush s).pwr.cut = s.pwr.cut := by
  simp [State.slotFlush]

@[simp] theorem State.storeToken_kept (s : State) (k : Nat) (t : Token) :
    (State.storeToken s k t).pending = s.pending ∧ (State.storeToken s k t).ram = s.ram ∧ (State.storeToken s k t).sys.safe = s.sys.safe ∧ (State.storeToken s k t).pwr.cut = s.pwr.cut := by
  simp only [State.storeToken]; (repeat' split) <;> simp

@[simp] theorem State.portRecord_kept (s : State) (k kind : Nat) (body : List (Nat × Nat × Nat)) :
    (State.portRecord s k kind body).pending = s.pending ∧ (State.portRecord s k kind body).ram = s.ram ∧ (State.portRecord s k kind body).sys.safe = s.sys.safe ∧ (State.portRecord s k kind body).pwr.cut = s.pwr.cut := by
  simp [State.portRecord]

@[simp] theorem State.disagree_kept (s : State) (k : Nat) (first t : Token) :
    (State.disagree s k first t).pending = s.pending ∧ (State.disagree s k first t).ram = s.ram ∧ (State.disagree s k first t).sys.safe = s.sys.safe ∧ (State.disagree s k first t).pwr.cut = s.pwr.cut := by
  simp [State.disagree]

@[simp] theorem State.receive_kept (s : State) (k : Nat) (t : Token) :
    (State.receive s k t).pending = s.pending ∧ (State.receive s k t).ram = s.ram ∧ (State.receive s k t).sys.safe = s.sys.safe ∧ (State.receive s k t).pwr.cut = s.pwr.cut := by
  simp only [State.receive]; (repeat' split) <;> simp

@[simp] theorem State.decisionReceive_kept (s : State) (k : Nat) (origin bad : Bool) :
    (State.decisionReceive s k origin bad).pending = s.pending ∧ (State.decisionReceive s k origin bad).ram = s.ram ∧ (State.decisionReceive s k origin bad).sys.safe = s.sys.safe ∧ (State.decisionReceive s k origin bad).pwr.cut = s.pwr.cut := by
  simp only [State.decisionReceive]; (repeat' split) <;> simp

@[simp] theorem State.sendTriggers_kept (s : State) (mask : Nat) (here : Bool) (dev : Nat) (st : Stamp) :
    (State.sendTriggers s mask here dev st).pending = s.pending ∧ (State.sendTriggers s mask here dev st).ram = s.ram ∧ (State.sendTriggers s mask here dev st).sys.safe = s.sys.safe ∧ (State.sendTriggers s mask here dev st).pwr.cut = s.pwr.cut := by
  simp [State.sendTriggers]

@[simp] theorem State.performSide_kept (s : State) (c : SideCmd) :
    (State.performSide s c).pending = s.pending ∧ (State.performSide s c).ram = s.ram ∧ (State.performSide s c).sys.safe = s.sys.safe ∧ (State.performSide s c).pwr.cut = s.pwr.cut := by
  simp only [State.performSide]; (repeat' split) <;> simp

@[simp] theorem State.interlock_kept (s : State) :
    (State.interlock s).pending = s.pending ∧ (State.interlock s).ram = s.ram ∧ (State.interlock s).sys.safe = s.sys.safe ∧ (State.interlock s).pwr.cut = s.pwr.cut := by
  simp only [State.interlock]; (repeat' split) <;> simp

@[simp] theorem State.grant_kept (s : State) (p : Fin 2) (cause : Nat) :
    (State.grant s p cause).pending = s.pending ∧ (State.grant s p cause).ram = s.ram ∧ (State.grant s p cause).sys.safe = s.sys.safe ∧ (State.grant s p cause).pwr.cut = s.pwr.cut := by
  simp [State.grant]

@[simp] theorem State.take_kept (s : State) (p : Fin 2) :
    (State.take s p).pending = s.pending ∧ (State.take s p).ram = s.ram ∧ (State.take s p).sys.safe = s.sys.safe ∧ (State.take s p).pwr.cut = s.pwr.cut := by
  simp [State.take]

@[simp] theorem State.askHandover_kept (s : State) :
    (State.askHandover s).pending = s.pending ∧ (State.askHandover s).ram = s.ram ∧ (State.askHandover s).sys.safe = s.sys.safe ∧ (State.askHandover s).pwr.cut = s.pwr.cut := by
  simp [State.askHandover]

@[simp] theorem State.handoverRun_kept (s : State) :
    (State.handoverRun s).pending = s.pending ∧ (State.handoverRun s).ram = s.ram ∧ (State.handoverRun s).sys.safe = s.sys.safe ∧ (State.handoverRun s).pwr.cut = s.pwr.cut := by
  simp only [State.handoverRun]; (repeat' split) <;> simp

@[simp] theorem State.updBeat_kept (s : State) (p : Fin 2) (f : Beat → Beat) :
    (State.updBeat s p f).pending = s.pending ∧ (State.updBeat s p f).ram = s.ram ∧ (State.updBeat s p f).sys.safe = s.sys.safe ∧ (State.updBeat s p f).pwr.cut = s.pwr.cut := by
  exact ⟨rfl, rfl, rfl, rfl⟩

@[simp] theorem State.pathRecord_kept (s : State) (p : Fin 2) (path on : Nat) :
    (State.pathRecord s p path on).pending = s.pending ∧ (State.pathRecord s p path on).ram = s.ram ∧ (State.pathRecord s p path on).sys.safe = s.sys.safe ∧ (State.pathRecord s p path on).pwr.cut = s.pwr.cut := by
  simp [State.pathRecord]

@[simp] theorem State.pathFault_kept (s : State) (p : Fin 2) (path : Nat) :
    (State.pathFault s p path).pending = s.pending ∧ (State.pathFault s p path).ram = s.ram ∧ (State.pathFault s p path).sys.safe = s.sys.safe ∧ (State.pathFault s p path).pwr.cut = s.pwr.cut := by
  simp [State.pathFault]

@[simp] theorem State.declareClear_kept (s : State) (p : Fin 2) :
    (State.declareClear s p).pending = s.pending ∧ (State.declareClear s p).ram = s.ram ∧ (State.declareClear s p).sys.safe = s.sys.safe ∧ (State.declareClear s p).pwr.cut = s.pwr.cut := by
  simp [State.declareClear]

@[simp] theorem State.declare_kept (s : State) (p : Fin 2) :
    (State.declare s p).pending = s.pending ∧ (State.declare s p).ram = s.ram ∧ (State.declare s p).sys.safe = s.sys.safe ∧ (State.declare s p).pwr.cut = s.pwr.cut := by
  simp [State.declare]

@[simp] theorem State.countInterval_kept (s : State) (p : Fin 2) (path2 : Bool) :
    (State.countInterval s p path2).pending = s.pending ∧ (State.countInterval s p path2).ram = s.ram ∧ (State.countInterval s p path2).sys.safe = s.sys.safe ∧ (State.countInterval s p path2).pwr.cut = s.pwr.cut := by
  first
    | exact ⟨rfl, rfl, rfl, rfl⟩
    | (simp [State.countInterval]; done)
    | (simp only [State.countInterval]; (repeat' split) <;> simp; done)
    | (unfold State.countInterval; (repeat' split) <;> simp; done)

@[simp] theorem State.intervalEnd_kept (s : State) (p : Fin 2) (path2 : Bool) :
    (State.intervalEnd s p path2).pending = s.pending ∧ (State.intervalEnd s p path2).ram = s.ram ∧ (State.intervalEnd s p path2).sys.safe = s.sys.safe ∧ (State.intervalEnd s p path2).pwr.cut = s.pwr.cut := by
  simp [State.intervalEnd]

@[simp] theorem State.pulse_kept (s : State) (src : Fin 2) :
    (State.pulse s src).pending = s.pending ∧ (State.pulse s src).ram = s.ram ∧ (State.pulse s src).sys.safe = s.sys.safe ∧ (State.pulse s src).pwr.cut = s.pwr.cut := by
  simp [State.pulse]

@[simp] theorem State.beatMessage_kept (s : State) (src : Fin 2) :
    (State.beatMessage s src).pending = s.pending ∧ (State.beatMessage s src).ram = s.ram ∧ (State.beatMessage s src).sys.safe = s.sys.safe ∧ (State.beatMessage s src).pwr.cut = s.pwr.cut := by
  simp [State.beatMessage]

@[simp] theorem State.setPlaneLink_kept (s : State) (up : Bool) :
    (State.setPlaneLink s up).pending = s.pending ∧ (State.setPlaneLink s up).ram = s.ram ∧ (State.setPlaneLink s up).sys.safe = s.sys.safe ∧ (State.setPlaneLink s up).pwr.cut = s.pwr.cut := by
  simp [State.setPlaneLink]

@[simp] theorem State.linkRetrain_kept (s : State) :
    (State.linkRetrain s).pending = s.pending ∧ (State.linkRetrain s).ram = s.ram ∧ (State.linkRetrain s).sys.safe = s.sys.safe ∧ (State.linkRetrain s).pwr.cut = s.pwr.cut := by
  simp [State.linkRetrain]

@[simp] theorem State.dpRepair_kept (s : State) :
    (State.dpRepair s).pending = s.pending ∧ (State.dpRepair s).ram = s.ram ∧ (State.dpRepair s).sys.safe = s.sys.safe ∧ (State.dpRepair s).pwr.cut = s.pwr.cut := by
  exact ⟨rfl, rfl, rfl, rfl⟩

@[simp] theorem State.planeRepair_kept (s : State) (p : Fin 2) :
    (State.planeRepair s p).pending = s.pending ∧ (State.planeRepair s p).ram = s.ram ∧ (State.planeRepair s p).sys.safe = s.sys.safe ∧ (State.planeRepair s p).pwr.cut = s.pwr.cut := by
  simp [State.planeRepair]

@[simp] theorem State.resync_kept (s : State) (p : Fin 2) :
    (State.resync s p).pending = s.pending ∧ (State.resync s p).ram = s.ram ∧ (State.resync s p).sys.safe = s.sys.safe ∧ (State.resync s p).pwr.cut = s.pwr.cut := by
  simp [State.resync]

end Sys2Proof.Machine
end

