-- ==== Sys2Proof/Laws/Kept4.lean ====
section
/-! SUPPORT. What the operations of Decoder, DspOps, Loads, Calibration, Power, Commit leave as it is: the queue of commands, the memory,
the Safe cause and the latch of the hardware cut. One lemma per operation (those of them it keeps). -/

namespace Sys2Proof.Machine

/-! ### Decoder -/

@[simp] theorem State.updDyn_kept (s : State) (p : Fin 2) (f : DecDyn → DecDyn) :
    (State.updDyn s p f).pending = s.pending ∧ (State.updDyn s p f).ram = s.ram ∧ (State.updDyn s p f).sys.safe = s.sys.safe ∧ (State.updDyn s p f).pwr.cut = s.pwr.cut := by
  exact ⟨rfl, rfl, rfl, rfl⟩

@[simp] theorem State.decRecord_kept (s : State) (p : Fin 2) (key : List Nat) (kind : Nat) (hs : List Held) :
    (State.decRecord s p key kind hs).pending = s.pending ∧ (State.decRecord s p key kind hs).ram = s.ram ∧ (State.decRecord s p key kind hs).sys.safe = s.sys.safe ∧ (State.decRecord s p key kind hs).pwr.cut = s.pwr.cut := by
  simp [State.decRecord]

@[simp] theorem State.syndrome_kept (s : State) (p : Fin 2) (t : Token) :
    (State.syndrome s p t).pending = s.pending ∧ (State.syndrome s p t).ram = s.ram ∧ (State.syndrome s p t).sys.safe = s.sys.safe ∧ (State.syndrome s p t).pwr.cut = s.pwr.cut := by
  simp only [State.syndrome]; (repeat' split) <;> simp

@[simp] theorem State.synToken_kept (s : State) (p : Fin 2) (tgt bad addr : Nat) :
    (State.synToken s p tgt bad addr).pending = s.pending ∧ (State.synToken s p tgt bad addr).ram = s.ram ∧ (State.synToken s p tgt bad addr).pwr.cut = s.pwr.cut := by
  simp only [State.synToken]; (repeat' split) <;> simp

@[simp] theorem State.erasureRecord_kept (s : State) (p : Fin 2) (g : DecGraph) (r : Nat) :
    (State.erasureRecord s p g r).pending = s.pending ∧ (State.erasureRecord s p g r).ram = s.ram ∧ (State.erasureRecord s p g r).sys.safe = s.sys.safe ∧ (State.erasureRecord s p g r).pwr.cut = s.pwr.cut := by
  simp [State.erasureRecord]

@[simp] theorem State.sendBoundary_kept (s : State) (p : Fin 2) (g : DecGraph) (r peer : Nat) :
    (State.sendBoundary s p g r peer).pending = s.pending ∧ (State.sendBoundary s p g r peer).ram = s.ram ∧ (State.sendBoundary s p g r peer).sys.safe = s.sys.safe ∧ (State.sendBoundary s p g r peer).pwr.cut = s.pwr.cut := by
  simp [State.sendBoundary]

@[simp] theorem State.roundClose_kept (s : State) (p : Fin 2) :
    (State.roundClose s p).pending = s.pending ∧ (State.roundClose s p).ram = s.ram ∧ (State.roundClose s p).sys.safe = s.sys.safe ∧ (State.roundClose s p).pwr.cut = s.pwr.cut := by
  simp only [State.roundClose]; (repeat' split) <;> simp

@[simp] theorem State.remoteMiss_kept (s : State) (p : Fin 2) (peer : Nat) :
    (State.remoteMiss s p peer).pending = s.pending ∧ (State.remoteMiss s p peer).ram = s.ram ∧ (State.remoteMiss s p peer).sys.safe = s.sys.safe ∧ (State.remoteMiss s p peer).pwr.cut = s.pwr.cut := by
  simp only [State.remoteMiss]; (repeat' split) <;> simp

@[simp] theorem State.tilePeak_kept (s : State) (p : Fin 2) (t n : Nat) :
    (State.tilePeak s p t n).pending = s.pending ∧ (State.tilePeak s p t n).ram = s.ram ∧ (State.tilePeak s p t n).sys.safe = s.sys.safe ∧ (State.tilePeak s p t n).pwr.cut = s.pwr.cut := by
  simp [State.tilePeak]

@[simp] theorem State.decOutput_kept (s : State) (p : Fin 2) (g : DecGraph) (r a b : Nat) (kept : List WEdge) (ovf : Option (Nat × Nat)) :
    (State.decOutput s p g r a b kept ovf).pending = s.pending ∧ (State.decOutput s p g r a b kept ovf).ram = s.ram ∧ (State.decOutput s p g r a b kept ovf).sys.safe = s.sys.safe ∧ (State.decOutput s p g r a b kept ovf).pwr.cut = s.pwr.cut := by
  exact ⟨rfl, rfl, rfl, rfl⟩

@[simp] theorem State.decOverflow_kept (s : State) (p : Fin 2) (r t n : Nat) :
    (State.decOverflow s p r t n).pending = s.pending ∧ (State.decOverflow s p r t n).ram = s.ram ∧ (State.decOverflow s p r t n).sys.safe = s.sys.safe ∧ (State.decOverflow s p r t n).pwr.cut = s.pwr.cut := by
  simp [State.decOverflow]

@[simp] theorem State.decodeRound_kept (s : State) (p : Fin 2) (g : DecGraph) (r : Nat) :
    (State.decodeRound s p g r).pending = s.pending ∧ (State.decodeRound s p g r).ram = s.ram ∧ (State.decodeRound s p g r).sys.safe = s.sys.safe ∧ (State.decodeRound s p g r).pwr.cut = s.pwr.cut := by
  simp only [State.decodeRound]; (repeat' split) <;> simp

@[simp] theorem State.decode_kept (s : State) (p : Fin 2) :
    (State.decode s p).pending = s.pending ∧ (State.decode s p).ram = s.ram ∧ (State.decode s p).sys.safe = s.sys.safe ∧ (State.decode s p).pwr.cut = s.pwr.cut := by
  simp only [State.decode]; (repeat' split) <;> simp

@[simp] theorem State.outRecords_kept (s : State) (p : Fin 2) (o : DecOut) :
    (s.outRecords p o).pending = s.pending ∧ (s.outRecords p o).ram = s.ram ∧ (s.outRecords p o).sys.safe = s.sys.safe ∧ (s.outRecords p o).pwr.cut = s.pwr.cut := by
  refine ⟨?_, ?_, ?_, ?_⟩ <;> unfold State.outRecords <;> dsimp only <;> split <;> split <;>
    (try simp only [State.decRecord_kept]) <;>
    (first
      | rfl
      | (apply foldl_pending; intros; split <;> simp)
      | (apply foldl_ram; intros; split <;> simp)
      | (apply foldl_safe; intros; split <;> simp)
      | (apply foldl_cut; intros; split <;> simp))

@[simp] theorem State.decodeOut_kept (s : State) (p : Fin 2) :
    (State.decodeOut s p).pending = s.pending ∧ (State.decodeOut s p).ram = s.ram ∧ (State.decodeOut s p).sys.safe = s.sys.safe ∧ (State.decodeOut s p).pwr.cut = s.pwr.cut := by
  simp only [State.decodeOut]; (repeat' split) <;> simp

@[simp] theorem State.decNewShot_kept (s : State) :
    (State.decNewShot s).pending = s.pending ∧ (State.decNewShot s).ram = s.ram ∧ (State.decNewShot s).sys.safe = s.sys.safe ∧ (State.decNewShot s).pwr.cut = s.pwr.cut := by
  exact ⟨rfl, rfl, rfl, rfl⟩

/-! ### DspOps -/

@[simp] theorem State.voidPacket_kept (s : State) (p : Packet) :
    (State.voidPacket s p).pending = s.pending ∧ (State.voidPacket s p).ram = s.ram ∧ (State.voidPacket s p).sys.safe = s.sys.safe ∧ (State.voidPacket s p).pwr.cut = s.pwr.cut := by
  simp [State.voidPacket]

@[simp] theorem State.stopDsp_kept (s : State) (k : Nat) :
    (s.stopDsp k).pending = s.pending ∧ (s.stopDsp k).ram = s.ram ∧ (s.stopDsp k).sys.safe = s.sys.safe ∧ (s.stopDsp k).pwr.cut = s.pwr.cut := by
  refine ⟨?_, ?_, ?_, ?_⟩ <;> unfold State.stopDsp <;> dsimp only
  · exact (State.updDsp_kept _ _ _).1.trans (foldl_pending _ (by simp) _ _)
  · exact (State.updDsp_kept _ _ _).2.1.trans (foldl_ram _ (by simp) _ _)
  · exact (State.updDsp_kept _ _ _).2.2.1.trans (foldl_safe _ (by simp) _ _)
  · exact (State.updDsp_kept _ _ _).2.2.2.trans (foldl_cut _ (by simp) _ _)

@[simp] theorem State.dspError_kept (s : State) (k code : Nat) :
    (State.dspError s k code).pending = s.pending ∧ (State.dspError s k code).ram = s.ram ∧ (State.dspError s k code).sys.safe = s.sys.safe ∧ (State.dspError s k code).pwr.cut = s.pwr.cut := by
  simp [State.dspError]

@[simp] theorem State.dspFail_kept (s : State) (k code : Nat) :
    (State.dspFail s k code).pending = s.pending ∧ (State.dspFail s k code).ram = s.ram ∧ (State.dspFail s k code).sys.safe = s.sys.safe ∧ (State.dspFail s k code).pwr.cut = s.pwr.cut := by
  simp [State.dspFail]

@[simp] theorem State.dspIssue_pending (s : State) (k : Nat) (bad : BitVec 3) (cls op : Nat) (act : State → Dsp → Nat → State)
    (h : ∀ s x w, (act s x w).pending = s.pending) : (s.dspIssue k bad cls op act).pending = s.pending := by
  unfold State.dspIssue; (repeat' split) <;> simp [h] <;> (repeat' split) <;> simp [h]

@[simp] theorem State.dspIssue_ram (s : State) (k : Nat) (bad : BitVec 3) (cls op : Nat) (act : State → Dsp → Nat → State)
    (h : ∀ s x w, (act s x w).ram = s.ram) : (s.dspIssue k bad cls op act).ram = s.ram := by
  unfold State.dspIssue; (repeat' split) <;> simp [h] <;> (repeat' split) <;> simp [h]

@[simp] theorem State.dspIssue_safe (s : State) (k : Nat) (bad : BitVec 3) (cls op : Nat) (act : State → Dsp → Nat → State)
    (h : ∀ s x w, (act s x w).sys.safe = s.sys.safe) : (s.dspIssue k bad cls op act).sys.safe = s.sys.safe := by
  unfold State.dspIssue; (repeat' split) <;> simp [h] <;> (repeat' split) <;> simp [h]

@[simp] theorem State.dspIssue_cut (s : State) (k : Nat) (bad : BitVec 3) (cls op : Nat) (act : State → Dsp → Nat → State)
    (h : ∀ s x w, (act s x w).pwr.cut = s.pwr.cut) : (s.dspIssue k bad cls op act).pwr.cut = s.pwr.cut := by
  unfold State.dspIssue; (repeat' split) <;> simp [h] <;> (repeat' split) <;> simp [h]

@[simp] theorem State.dspSimple_kept (s : State) (k : Nat) (bad : BitVec 3) (cls op n : Nat) (use : Nat → DspUse) (f : Dsp → Nat → Dsp) :
    (State.dspSimple s k bad cls op n use f).pending = s.pending ∧ (State.dspSimple s k bad cls op n use f).ram = s.ram ∧ (State.dspSimple s k bad cls op n use f).sys.safe = s.sys.safe ∧ (State.dspSimple s k bad cls op n use f).pwr.cut = s.pwr.cut := by
  simp [State.dspSimple]

@[simp] theorem State.dspRead_kept (s : State) (k p : Nat) (a : BitVec 14) (bad : Bool) :
    (State.dspRead s k p a bad).1.pending = s.pending ∧ (State.dspRead s k p a bad).1.ram = s.ram ∧ (State.dspRead s k p a bad).1.sys.safe = s.sys.safe ∧ (State.dspRead s k p a bad).1.pwr.cut = s.pwr.cut := by
  simp only [State.dspRead]; (repeat' split) <;> simp

@[simp] theorem State.dspM_kept (s : State) (k : Nat) (bad : BitVec 3) (op : Nat) (f : Dsp → Word → Word → Dsp) :
    (s.dspM k bad op f).pending = s.pending ∧ (s.dspM k bad op f).ram = s.ram ∧ (s.dspM k bad op f).sys.safe = s.sys.safe ∧ (s.dspM k bad op f).pwr.cut = s.pwr.cut := by
  refine ⟨?_, ?_, ?_, ?_⟩ <;> unfold State.dspM <;>
    (first | apply State.dspIssue_pending | apply State.dspIssue_ram | apply State.dspIssue_safe | apply State.dspIssue_cut) <;>
    intros <;> dsimp only <;> (repeat' split) <;> simp

@[simp] theorem State.dspLogic_kept (s : State) (k : Nat) (bad : BitVec 3) (op : Nat) (f : Word → Word → Word) :
    (State.dspLogic s k bad op f).pending = s.pending ∧ (State.dspLogic s k bad op f).ram = s.ram ∧ (State.dspLogic s k bad op f).sys.safe = s.sys.safe ∧ (State.dspLogic s k bad op f).pwr.cut = s.pwr.cut := by
  simp [State.dspLogic]

@[simp] theorem State.takePacket_kept (s : State) (k : Nat) :
    (State.takePacket s k).pending = s.pending ∧ (State.takePacket s k).ram = s.ram ∧ (State.takePacket s k).sys.safe = s.sys.safe ∧ (State.takePacket s k).pwr.cut = s.pwr.cut := by
  exact ⟨rfl, rfl, rfl, rfl⟩

@[simp] theorem State.dspRepeat_kept (s : State) (k : Nat) (d : Dsp) (w n : Nat) :
    (State.dspRepeat s k d w n).pending = s.pending ∧ (State.dspRepeat s k d w n).ram = s.ram ∧ (State.dspRepeat s k d w n).sys.safe = s.sys.safe ∧ (State.dspRepeat s k d w n).pwr.cut = s.pwr.cut := by
  simp [State.dspRepeat]

@[simp] theorem State.startDsp_kept (s : State) (k : Nat) :
    (State.startDsp s k).pending = s.pending ∧ (State.startDsp s k).ram = s.ram ∧ (State.startDsp s k).sys.safe = s.sys.safe ∧ (State.startDsp s k).pwr.cut = s.pwr.cut := by
  exact ⟨rfl, rfl, rfl, rfl⟩

@[simp] theorem State.idleDsp_kept (s : State) (k : Nat) :
    (State.idleDsp s k).pending = s.pending ∧ (State.idleDsp s k).ram = s.ram ∧ (State.idleDsp s k).sys.safe = s.sys.safe ∧ (State.idleDsp s k).pwr.cut = s.pwr.cut := by
  exact ⟨rfl, rfl, rfl, rfl⟩

/-! ### Loads -/

@[simp] theorem State.staleLoad_kept (s : State) (rs : List Region) :
    (State.staleLoad s rs).pending = s.pending ∧ (State.staleLoad s rs).ram = s.ram ∧ (State.staleLoad s rs).sys.safe = s.sys.safe ∧ (State.staleLoad s rs).pwr.cut = s.pwr.cut := by
  simp [State.staleLoad]

@[simp] theorem State.unmarkEntry_kept (s : State) (q id : Nat) :
    (State.unmarkEntry s q id).pending = s.pending ∧ (State.unmarkEntry s q id).ram = s.ram ∧ (State.unmarkEntry s q id).sys.safe = s.sys.safe ∧ (State.unmarkEntry s q id).pwr.cut = s.pwr.cut := by
  exact ⟨rfl, rfl, rfl, rfl⟩

@[simp] theorem State.unmarkRun_kept (s : State) (q b n : Nat) :
    (State.unmarkRun s q b n).pending = s.pending ∧ (State.unmarkRun s q b n).ram = s.ram ∧ (State.unmarkRun s q b n).sys.safe = s.sys.safe ∧ (State.unmarkRun s q b n).pwr.cut = s.pwr.cut := by
  exact ⟨rfl, rfl, rfl, rfl⟩

@[simp] theorem State.clearMark_kept (s : State) (x : SealMark) :
    (State.clearMark s x).pending = s.pending ∧ (State.clearMark s x).sys.safe = s.sys.safe ∧ (State.clearMark s x).pwr.cut = s.pwr.cut := by
  simp [State.clearMark]

@[simp] theorem State.logLoad_pending (s : State) (c : Nat) (ident : Nat → Nat → Nat) (a : Nat) (l : List Checked) :
    (s.logLoad c ident a l).pending = s.pending := by
  induction l generalizing s a with
  | nil => rfl
  | cons e l ih => simp [State.logLoad, ih]

@[simp] theorem State.logLoad_ram (s : State) (c : Nat) (ident : Nat → Nat → Nat) (a : Nat) (l : List Checked) :
    (s.logLoad c ident a l).ram = s.ram := by
  induction l generalizing s a with
  | nil => rfl
  | cons e l ih => simp [State.logLoad, ih]

@[simp] theorem State.logLoad_safe (s : State) (c : Nat) (ident : Nat → Nat → Nat) (a : Nat) (l : List Checked) :
    (s.logLoad c ident a l).sys.safe = s.sys.safe := by
  induction l generalizing s a with
  | nil => rfl
  | cons e l ih => simp [State.logLoad, ih]

@[simp] theorem State.logLoad_cut (s : State) (c : Nat) (ident : Nat → Nat → Nat) (a : Nat) (l : List Checked) :
    (s.logLoad c ident a l).pwr.cut = s.pwr.cut := by
  induction l generalizing s a with
  | nil => rfl
  | cons e l ih => simp [State.logLoad, ih]

@[simp] theorem State.putItems_pending (s : State) (base n a : Nat) (l : List Nat) : (s.putItems base n a l).pending = s.pending := by
  induction l generalizing s a with
  | nil => rfl
  | cons e l ih => simp [State.putItems, ih, State.store]

@[simp] theorem State.putItems_safe (s : State) (base n a : Nat) (l : List Nat) : (s.putItems base n a l).sys.safe = s.sys.safe := by
  induction l generalizing s a with
  | nil => rfl
  | cons e l ih => simp [State.putItems, ih, State.store]

@[simp] theorem State.putItems_cut (s : State) (base n a : Nat) (l : List Nat) : (s.putItems base n a l).pwr.cut = s.pwr.cut := by
  induction l generalizing s a with
  | nil => rfl
  | cons e l ih => simp [State.putItems, ih, State.store]

@[simp] theorem State.noteInstrs_kept (s : State) (k a n : Nat) :
    (State.noteInstrs s k a n).pending = s.pending ∧ (State.noteInstrs s k a n).ram = s.ram ∧ (State.noteInstrs s k a n).sys.safe = s.sys.safe ∧ (State.noteInstrs s k a n).pwr.cut = s.pwr.cut := by
  exact ⟨rfl, rfl, rfl, rfl⟩

/-! ### Calibration -/

@[simp] theorem State.stageTaps_kept (s : State) (ws : List (Nat × Word)) :
    (State.stageTaps s ws).pending = s.pending ∧ (State.stageTaps s ws).ram = s.ram ∧ (State.stageTaps s ws).sys.safe = s.sys.safe ∧ (State.stageTaps s ws).pwr.cut = s.pwr.cut := by
  exact ⟨rfl, rfl, rfl, rfl⟩

@[simp] theorem State.takeStaged_kept (s : State) :
    (State.takeStaged s).pending = s.pending ∧ (State.takeStaged s).ram = s.ram ∧ (State.takeStaged s).sys.safe = s.sys.safe ∧ (State.takeStaged s).pwr.cut = s.pwr.cut := by
  exact ⟨rfl, rfl, rfl, rfl⟩

@[simp] theorem State.applyTaps_kept (s : State) (at_ : Nat) :
    (State.applyTaps s at_).pending = s.pending ∧ (State.applyTaps s at_).ram = s.ram ∧ (State.applyTaps s at_).sys.safe = s.sys.safe ∧ (State.applyTaps s at_).pwr.cut = s.pwr.cut := by
  simp [State.applyTaps]

@[simp] theorem State.calBegin_kept (s : State) (c : Nat) (d : Desc) :
    (State.calBegin s c d).pending = s.pending ∧ (State.calBegin s c d).ram = s.ram ∧ (State.calBegin s c d).sys.safe = s.sys.safe ∧ (State.calBegin s c d).pwr.cut = s.pwr.cut := by
  exact ⟨rfl, rfl, rfl, rfl⟩

@[simp] theorem State.calComplete_kept (s : State) (r : CalRun) :
    (State.calComplete s r).pending = s.pending ∧ (State.calComplete s r).ram = s.ram ∧ (State.calComplete s r).sys.safe = s.sys.safe ∧ (State.calComplete s r).pwr.cut = s.pwr.cut := by
  simp only [State.calComplete]; (repeat' split) <;> simp

@[simp] theorem State.calUnit_kept (s : State) (r : CalRun) (status : Nat) (w : Option Word) :
    (State.calUnit s r status w).pending = s.pending ∧ (State.calUnit s r status w).ram = s.ram ∧ (State.calUnit s r status w).sys.safe = s.sys.safe ∧ (State.calUnit s r status w).pwr.cut = s.pwr.cut := by
  simp only [State.calUnit]; (repeat' split) <;> simp

@[simp] theorem State.calTerminate_kept (s : State) (t u : Nat) :
    (State.calTerminate s t u).pending = s.pending ∧ (State.calTerminate s t u).ram = s.ram ∧ (State.calTerminate s t u).sys.safe = s.sys.safe ∧ (State.calTerminate s t u).pwr.cut = s.pwr.cut := by
  simp only [State.calTerminate]; (repeat' split) <;> simp

@[simp] theorem State.calStepStart_kept (s : State) :
    (State.calStepStart s).pending = s.pending ∧ (State.calStepStart s).ram = s.ram ∧ (State.calStepStart s).sys.safe = s.sys.safe ∧ (State.calStepStart s).pwr.cut = s.pwr.cut := by
  simp only [State.calStepStart]; (repeat' split) <;> simp

@[simp] theorem State.calSuspend_kept (s : State) :
    (State.calSuspend s).pending = s.pending ∧ (State.calSuspend s).ram = s.ram ∧ (State.calSuspend s).sys.safe = s.sys.safe ∧ (State.calSuspend s).pwr.cut = s.pwr.cut := by
  simp only [State.calSuspend]; (repeat' split) <;> simp

@[simp] theorem State.switchFrom_kept (s : State) (k : Nat) :
    (State.switchFrom s k).pending = s.pending ∧ (State.switchFrom s k).ram = s.ram ∧ (State.switchFrom s k).sys.safe = s.sys.safe ∧ (State.switchFrom s k).pwr.cut = s.pwr.cut := by
  simp only [State.switchFrom]; (repeat' split) <;> simp

@[simp] theorem State.calDelay_kept (s : State) :
    (State.calDelay s).pending = s.pending ∧ (State.calDelay s).ram = s.ram ∧ (State.calDelay s).sys.safe = s.sys.safe ∧ (State.calDelay s).pwr.cut = s.pwr.cut := by
  simp [State.calDelay]

@[simp] theorem State.calRelease_kept (s : State) (r : CalRun) :
    (State.calRelease s r).pending = s.pending ∧ (State.calRelease s r).ram = s.ram ∧ (State.calRelease s r).sys.safe = s.sys.safe ∧ (State.calRelease s r).pwr.cut = s.pwr.cut := by
  simp [State.calRelease]

@[simp] theorem State.calResult_kept (s : State) (r : CalRun) (vs : List Int) :
    (State.calResult s r vs).pending = s.pending ∧ (State.calResult s r vs).ram = s.ram ∧ (State.calResult s r vs).sys.safe = s.sys.safe ∧ (State.calResult s r vs).pwr.cut = s.pwr.cut := by
  simp [State.calResult]

@[simp] theorem State.calStepEnd_kept (s : State) (vs : List Int) :
    (State.calStepEnd s vs).pending = s.pending ∧ (State.calStepEnd s vs).ram = s.ram ∧ (State.calStepEnd s vs).sys.safe = s.sys.safe ∧ (State.calStepEnd s vs).pwr.cut = s.pwr.cut := by
  simp only [State.calStepEnd]; (repeat' split) <;> simp

@[simp] theorem State.scrubError_kept (s : State) (e : ScrubErr) :
    (State.scrubError s e).pending = s.pending ∧ (State.scrubError s e).ram = s.ram ∧ (State.scrubError s e).pwr.cut = s.pwr.cut := by
  simp [State.scrubError]

@[simp] theorem State.countCe_kept (s : State) (e : Fin 11 × Word) :
    (State.countCe s e).pending = s.pending ∧ (State.countCe s e).ram = s.ram ∧ (State.countCe s e).sys.safe = s.sys.safe ∧ (State.countCe s e).pwr.cut = s.pwr.cut := by
  exact ⟨rfl, rfl, rfl, rfl⟩

@[simp] theorem State.telemetry_kept (s : State) :
    (State.telemetry s).pending = s.pending ∧ (State.telemetry s).ram = s.ram ∧ (State.telemetry s).sys.safe = s.sys.safe ∧ (State.telemetry s).pwr.cut = s.pwr.cut := by
  simp [State.telemetry]

/-! ### Power -/

@[simp] theorem State.updSensor_kept (s : State) (i : Nat) (f : Sensor → Sensor) :
    (State.updSensor s i f).pending = s.pending ∧ (State.updSensor s i f).ram = s.ram ∧ (State.updSensor s i f).sys.safe = s.sys.safe ∧ (State.updSensor s i f).pwr.cut = s.pwr.cut := by
  exact ⟨rfl, rfl, rfl, rfl⟩

@[simp] theorem State.thresholdRecord_kept (s : State) (i which : Nat) (on : Bool) :
    (State.thresholdRecord s i which on).pending = s.pending ∧ (State.thresholdRecord s i which on).ram = s.ram ∧ (State.thresholdRecord s i which on).sys.safe = s.sys.safe ∧ (State.thresholdRecord s i which on).pwr.cut = s.pwr.cut := by
  simp [State.thresholdRecord]

@[simp] theorem State.breakHold_kept (s : State) (i : Nat) :
    (State.breakHold s i).pending = s.pending ∧ (State.breakHold s i).ram = s.ram ∧ (State.breakHold s i).sys.safe = s.sys.safe ∧ (State.breakHold s i).pwr.cut = s.pwr.cut := by
  simp [State.breakHold]

@[simp] theorem State.breakSensor_kept (s : State) (i : Nat) :
    (State.breakSensor s i).pending = s.pending ∧ (State.breakSensor s i).ram = s.ram ∧ (State.breakSensor s i).sys.safe = s.sys.safe ∧ (State.breakSensor s i).pwr.cut = s.pwr.cut := by
  simp [State.breakSensor]

@[simp] theorem State.quarterLow_kept (s : State) (i : Nat) :
    (State.quarterLow s i).pending = s.pending ∧ (State.quarterLow s i).ram = s.ram ∧ (State.quarterLow s i).sys.safe = s.sys.safe ∧ (State.quarterLow s i).pwr.cut = s.pwr.cut := by
  simp only [State.quarterLow]; (repeat' split) <;> simp

@[simp] theorem State.throttling_kept (s : State) :
    (State.throttling s).pending = s.pending ∧ (State.throttling s).ram = s.ram ∧ (State.throttling s).sys.safe = s.sys.safe ∧ (State.throttling s).pwr.cut = s.pwr.cut := by
  simp [State.throttling]

@[simp] theorem State.thresholds_kept (s : State) (i : Nat) :
    (State.thresholds s i).pending = s.pending ∧ (State.thresholds s i).ram = s.ram ∧ (State.thresholds s i).pwr.cut = s.pwr.cut := by
  simp [State.thresholds]

@[simp] theorem State.takeReading_kept (s : State) (i : Nat) (raw : Int) :
    (State.takeReading s i raw).pending = s.pending ∧ (State.takeReading s i raw).ram = s.ram ∧ (State.takeReading s i raw).pwr.cut = s.pwr.cut := by
  first
    | exact ⟨rfl, rfl, rfl⟩
    | (simp [State.takeReading]; done)
    | (simp only [State.takeReading]; (repeat' split) <;> simp; done)
    | (unfold State.takeReading; (repeat' split) <;> simp; done)

@[simp] theorem State.sensorSample_kept (s : State) (i : Nat) (raw : Int) :
    (State.sensorSample s i raw).pending = s.pending ∧ (State.sensorSample s i raw).ram = s.ram ∧ (State.sensorSample s i raw).pwr.cut = s.pwr.cut := by
  simp [State.sensorSample]

@[simp] theorem State.throttleRecord_kept (s : State) (action what drop : Nat) :
    (State.throttleRecord s action what drop).pending = s.pending ∧ (State.throttleRecord s action what drop).ram = s.ram ∧ (State.throttleRecord s action what drop).sys.safe = s.sys.safe ∧ (State.throttleRecord s action what drop).pwr.cut = s.pwr.cut := by
  simp [State.throttleRecord]

@[simp] theorem State.captureLimit_kept (s : State) :
    (State.captureLimit s).pending = s.pending ∧ (State.captureLimit s).ram = s.ram ∧ (State.captureLimit s).sys.safe = s.sys.safe ∧ (State.captureLimit s).pwr.cut = s.pwr.cut := by
  simp only [State.captureLimit]; (repeat' split) <;> simp

@[simp] theorem State.take__kept (s : State) (n : Nat) :
    (State.take_ s n).pending = s.pending ∧ (State.take_ s n).ram = s.ram ∧ (State.take_ s n).pwr.cut = s.pwr.cut := by
  simp only [State.take_]; (repeat' split) <;> simp

@[simp] theorem State.skipAction3_kept (s : State) :
    (State.skipAction3 s).pending = s.pending ∧ (State.skipAction3 s).ram = s.ram ∧ (State.skipAction3 s).sys.safe = s.sys.safe ∧ (State.skipAction3 s).pwr.cut = s.pwr.cut := by
  simp [State.skipAction3]

@[simp] theorem State.throttleAct_kept (s : State) :
    (State.throttleAct s).pending = s.pending ∧ (State.throttleAct s).ram = s.ram ∧ (State.throttleAct s).pwr.cut = s.pwr.cut := by
  simp only [State.throttleAct]; (repeat' split) <;> simp

@[simp] theorem State.throttleRise_kept (s : State) (p : Nat) :
    (State.throttleRise s p).pending = s.pending ∧ (State.throttleRise s p).ram = s.ram ∧ (State.throttleRise s p).pwr.cut = s.pwr.cut := by
  simp [State.throttleRise]

@[simp] theorem State.measureEnd_kept (s : State) (p : Nat) :
    (State.measureEnd s p).pending = s.pending ∧ (State.measureEnd s p).ram = s.ram ∧ (State.measureEnd s p).pwr.cut = s.pwr.cut := by
  simp only [State.measureEnd]; (repeat' split) <;> simp

@[simp] theorem State.unskip_kept (s : State) :
    (State.unskip s).pending = s.pending ∧ (State.unskip s).ram = s.ram ∧ (State.unskip s).sys.safe = s.sys.safe ∧ (State.unskip s).pwr.cut = s.pwr.cut := by
  simp [State.unskip]

@[simp] theorem State.undo_kept (s : State) (a : ThrotAct) :
    (State.undo s a).pending = s.pending ∧ (State.undo s a).ram = s.ram ∧ (State.undo s a).sys.safe = s.sys.safe ∧ (State.undo s a).pwr.cut = s.pwr.cut := by
  simp [State.undo]

@[simp] theorem State.releaseStep_kept (s : State) (p : Nat) :
    (State.releaseStep s p).pending = s.pending ∧ (State.releaseStep s p).ram = s.ram ∧ (State.releaseStep s p).sys.safe = s.sys.safe ∧ (State.releaseStep s p).pwr.cut = s.pwr.cut := by
  simp only [State.releaseStep]; (repeat' split) <;> simp

@[simp] theorem State.throttleBoundary_kept (s : State) (shots : Bool) :
    (State.throttleBoundary s shots).pending = s.pending ∧ (State.throttleBoundary s shots).ram = s.ram ∧ (State.throttleBoundary s shots).sys.safe = s.sys.safe ∧ (State.throttleBoundary s shots).pwr.cut = s.pwr.cut := by
  simp [State.throttleBoundary]

@[simp] theorem State.vinsDone_kept (s : State) :
    (State.vinsDone s).pending = s.pending ∧ (State.vinsDone s).ram = s.ram ∧ (State.vinsDone s).sys.safe = s.sys.safe ∧ (State.vinsDone s).pwr.cut = s.pwr.cut := by
  exact ⟨rfl, rfl, rfl, rfl⟩

@[simp] theorem State.cutOff_kept (s : State) (h : Held) :
    (State.cutOff s h).pending = s.pending ∧ (State.cutOff s h).ram = s.ram ∧ (State.cutOff s h).sys.safe = s.sys.safe := by
  exact ⟨rfl, rfl, rfl⟩

@[simp] theorem State.hardwareCut_kept (s : State) (tile : Nat) :
    (State.hardwareCut s tile).pending = s.pending ∧ (State.hardwareCut s tile).ram = s.ram ∧ (State.hardwareCut s tile).sys.safe = s.sys.safe := by
  simp [State.hardwareCut]

@[simp] theorem State.supplyRecord_kept (s : State) (rail : Nat) (on : Bool) (mv : Nat) :
    (State.supplyRecord s rail on mv).pending = s.pending ∧ (State.supplyRecord s rail on mv).ram = s.ram ∧ (State.supplyRecord s rail on mv).sys.safe = s.sys.safe ∧ (State.supplyRecord s rail on mv).pwr.cut = s.pwr.cut := by
  simp [State.supplyRecord]

@[simp] theorem State.coreRail_kept (s : State) (rail mv : Nat) :
    (State.coreRail s rail mv).pending = s.pending ∧ (State.coreRail s rail mv).ram = s.ram ∧ (State.coreRail s rail mv).pwr.cut = s.pwr.cut := by
  simp [State.coreRail]

@[simp] theorem State.rfRail_kept (s : State) (q : Nat) :
    (State.rfRail s q).pending = s.pending ∧ (State.rfRail s q).ram = s.ram ∧ (State.rfRail s q).sys.safe = s.sys.safe ∧ (State.rfRail s q).pwr.cut = s.pwr.cut := by
  simp [State.rfRail]

@[simp] theorem State.recoverRf_kept (s : State) :
    (State.recoverRf s).pending = s.pending ∧ (State.recoverRf s).ram = s.ram ∧ (State.recoverRf s).sys.safe = s.sys.safe ∧ (State.recoverRf s).pwr.cut = s.pwr.cut := by
  simp [State.recoverRf]

@[simp] theorem State.railRecover_kept (s : State) (rail mv : Nat) :
    (State.railRecover s rail mv).pending = s.pending ∧ (State.railRecover s rail mv).ram = s.ram ∧ (State.railRecover s rail mv).sys.safe = s.sys.safe ∧ (State.railRecover s rail mv).pwr.cut = s.pwr.cut := by
  simp [State.railRecover]

@[simp] theorem State.rungRecord_kept (s : State) (from_ dst cause us : Nat) :
    (State.rungRecord s from_ dst cause us).pending = s.pending ∧ (State.rungRecord s from_ dst cause us).ram = s.ram ∧ (State.rungRecord s from_ dst cause us).sys.safe = s.sys.safe ∧ (State.rungRecord s from_ dst cause us).pwr.cut = s.pwr.cut := by
  simp [State.rungRecord]

@[simp] theorem State.enterHold_kept (s : State) :
    (State.enterHold s).pending = s.pending ∧ (State.enterHold s).ram = s.ram ∧ (State.enterHold s).sys.safe = s.sys.safe ∧ (State.enterHold s).pwr.cut = s.pwr.cut := by
  simp [State.enterHold]

@[simp] theorem State.restLink_kept (s : State) (l : Nat) :
    (State.restLink s l).pending = s.pending ∧ (State.restLink s l).ram = s.ram ∧ (State.restLink s l).sys.safe = s.sys.safe ∧ (State.restLink s l).pwr.cut = s.pwr.cut := by
  simp [State.restLink]

@[simp] theorem State.enterRest_kept (s : State) :
    (State.enterRest s).pending = s.pending ∧ (State.enterRest s).ram = s.ram ∧ (State.enterRest s).sys.safe = s.sys.safe ∧ (State.enterRest s).pwr.cut = s.pwr.cut := by
  simp [State.enterRest]

@[simp] theorem State.sleepDomain_kept (s : State) (d : Nat) :
    (State.sleepDomain s d).pending = s.pending ∧ (State.sleepDomain s d).ram = s.ram ∧ (State.sleepDomain s d).sys.safe = s.sys.safe ∧ (State.sleepDomain s d).pwr.cut = s.pwr.cut := by
  simp [State.sleepDomain]

@[simp] theorem State.enterSleep_kept (s : State) :
    (State.enterSleep s).pending = s.pending ∧ (State.enterSleep s).ram = s.ram ∧ (State.enterSleep s).sys.safe = s.sys.safe ∧ (State.enterSleep s).pwr.cut = s.pwr.cut := by
  simp [State.enterSleep]

@[simp] theorem State.dropVolatile_kept (s : State) (pcie : Bool) :
    (State.dropVolatile s pcie).pending = s.pending := by
  rfl

@[simp] theorem State.enterDeep_kept (s : State) :
    (State.enterDeep s).pending = s.pending ∧ (State.enterDeep s).sys.safe = s.sys.safe ∧ (State.enterDeep s).pwr.cut = s.pwr.cut := by
  first
    | exact ⟨rfl, rfl, rfl⟩
    | (simp [State.enterDeep]; done)
    | (simp only [State.enterDeep]; (repeat' split) <;> simp; done)
    | (unfold State.enterDeep; (repeat' split) <;> simp; done)

@[simp] theorem State.enterRung_kept (s : State) (dst cause : Nat) :
    (State.enterRung s dst cause).pending = s.pending ∧ (State.enterRung s dst cause).ram = s.ram ∧ (State.enterRung s dst cause).sys.safe = s.sys.safe ∧ (State.enterRung s dst cause).pwr.cut = s.pwr.cut := by
  simp [State.enterRung]

@[simp] theorem State.startDeep_kept (s : State) :
    (State.startDeep s).pending = s.pending ∧ (State.startDeep s).ram = s.ram ∧ (State.startDeep s).sys.safe = s.sys.safe ∧ (State.startDeep s).pwr.cut = s.pwr.cut := by
  simp [State.startDeep]

@[simp] theorem State.startRise_kept (s : State) (dst cause : Nat) :
    (State.startRise s dst cause).pending = s.pending ∧ (State.startRise s dst cause).ram = s.ram ∧ (State.startRise s dst cause).sys.safe = s.sys.safe ∧ (State.startRise s dst cause).pwr.cut = s.pwr.cut := by
  exact ⟨rfl, rfl, rfl, rfl⟩

@[simp] theorem State.riseDone_kept (s : State) :
    (State.riseDone s).pending = s.pending ∧ (State.riseDone s).ram = s.ram ∧ (State.riseDone s).sys.safe = s.sys.safe ∧ (State.riseDone s).pwr.cut = s.pwr.cut := by
  simp only [State.riseDone]; (repeat' split) <;> simp

@[simp] theorem State.leaveDeep_kept (s : State) (dst : Nat) :
    (State.leaveDeep s dst).pending = s.pending ∧ (State.leaveDeep s dst).ram = s.ram ∧ (State.leaveDeep s dst).sys.safe = s.sys.safe ∧ (State.leaveDeep s dst).pwr.cut = s.pwr.cut := by
  exact ⟨rfl, rfl, rfl, rfl⟩

@[simp] theorem State.rungChange_kept (s : State) :
    (State.rungChange s).pending = s.pending ∧ (State.rungChange s).sys.safe = s.sys.safe ∧ (State.rungChange s).pwr.cut = s.pwr.cut := by
  first
    | exact ⟨rfl, rfl, rfl⟩
    | (simp [State.rungChange]; done)
    | (simp only [State.rungChange]; (repeat' split) <;> simp; done)
    | (unfold State.rungChange; (repeat' split) <;> simp; done)

@[simp] theorem State.rungRequest_kept (s : State) (v : Nat) :
    (State.rungRequest s v).pending = s.pending ∧ (State.rungRequest s v).ram = s.ram ∧ (State.rungRequest s v).sys.safe = s.sys.safe ∧ (State.rungRequest s v).pwr.cut = s.pwr.cut := by
  simp [State.rungRequest]

/-! ### Commit -/

@[simp] theorem State.putField_kept (s : State) (f : Fld) (idx : List Nat) (v : Nat) :
    (State.putField s f idx v).pending = s.pending ∧ (State.putField s f idx v).ram = s.ram ∧ (State.putField s f idx v).sys.safe = s.sys.safe ∧ (State.putField s f idx v).pwr.cut = s.pwr.cut := by
  exact ⟨rfl, rfl, rfl, rfl⟩

@[simp] theorem State.putPair_kept (s : State) (p : Pair) (idx : List Nat) (v : Nat) :
    (State.putPair s p idx v).pending = s.pending ∧ (State.putPair s p idx v).ram = s.ram ∧ (State.putPair s p idx v).sys.safe = s.sys.safe ∧ (State.putPair s p idx v).pwr.cut = s.pwr.cut := by
  exact ⟨rfl, rfl, rfl, rfl⟩

@[simp] theorem State.noteX_kept (s : State) (f : Fld) (idx : List Nat) (e : Fld) (eidx : List Nat) (written used : Nat) :
    (State.noteX s f idx e eidx written used).pending = s.pending ∧ (State.noteX s f idx e eidx written used).ram = s.ram ∧ (State.noteX s f idx e eidx written used).sys.safe = s.sys.safe ∧ (State.noteX s f idx e eidx written used).pwr.cut = s.pwr.cut := by
  exact ⟨rfl, rfl, rfl, rfl⟩

@[simp] theorem State.xfix_kept (s : State) (f : Fld) (idx : List Nat) (e : Fld) (eidx : List Nat) (v : Nat) :
    (State.xfix s f idx e eidx v).pending = s.pending ∧ (State.xfix s f idx e eidx v).ram = s.ram ∧ (State.xfix s f idx e eidx v).sys.safe = s.sys.safe ∧ (State.xfix s f idx e eidx v).pwr.cut = s.pwr.cut := by
  simp [State.xfix]

@[simp] theorem State.xfixPair_kept (s : State) (p : Pair) (idx : List Nat) (e : Fld) (eidx : List Nat) (v : Nat) :
    (State.xfixPair s p idx e eidx v).pending = s.pending ∧ (State.xfixPair s p idx e eidx v).ram = s.ram ∧ (State.xfixPair s p idx e eidx v).sys.safe = s.sys.safe ∧ (State.xfixPair s p idx e eidx v).pwr.cut = s.pwr.cut := by
  simp [State.xfixPair]

@[simp] theorem State.pairRange_kept (s : State) (p : Pair) (lo hi : Nat) (idx : List Nat) :
    (State.pairRange s p lo hi idx).pending = s.pending ∧ (State.pairRange s p lo hi idx).ram = s.ram ∧ (State.pairRange s p lo hi idx).sys.safe = s.sys.safe ∧ (State.pairRange s p lo hi idx).pwr.cut = s.pwr.cut := by
  simp [State.pairRange]

@[simp] theorem State.each_pending (s : State) (n : Nat) (f : State → Nat → State) (h : ∀ s k, (f s k).pending = s.pending) :
    (s.each n f).pending = s.pending := by
  unfold State.each; exact foldl_pending f h _ s

@[simp] theorem State.each_ram (s : State) (n : Nat) (f : State → Nat → State) (h : ∀ s k, (f s k).ram = s.ram) :
    (s.each n f).ram = s.ram := by
  unfold State.each; exact foldl_ram f h _ s

@[simp] theorem State.each_safe (s : State) (n : Nat) (f : State → Nat → State) (h : ∀ s k, (f s k).sys.safe = s.sys.safe) :
    (s.each n f).sys.safe = s.sys.safe := by
  unfold State.each; exact foldl_safe f h _ s

@[simp] theorem State.each_cut (s : State) (n : Nat) (f : State → Nat → State) (h : ∀ s k, (f s k).pwr.cut = s.pwr.cut) :
    (s.each n f).pwr.cut = s.pwr.cut := by
  unfold State.each; exact foldl_cut f h _ s

@[simp] theorem State.keepSizes_kept (o s : State) (c : Nat) :
    (State.keepSizes o s c).pending = s.pending ∧ (State.keepSizes o s c).ram = s.ram ∧ (State.keepSizes o s c).sys.safe = s.sys.safe ∧ (State.keepSizes o s c).pwr.cut = s.pwr.cut := by
  simp [State.keepSizes]

@[simp] theorem State.keepBase_kept (o : State) (c : Nat) (s : State) (p : Pair) :
    (State.keepBase o c s p).pending = s.pending ∧ (State.keepBase o c s p).ram = s.ram ∧ (State.keepBase o c s p).sys.safe = s.sys.safe ∧ (State.keepBase o c s p).pwr.cut = s.pwr.cut := by
  simp [State.keepBase]

@[simp] theorem State.keepBases_kept (o s : State) (c : Nat) :
    (State.keepBases o s c).pending = s.pending ∧ (State.keepBases o s c).ram = s.ram ∧ (State.keepBases o s c).sys.safe = s.sys.safe ∧ (State.keepBases o s c).pwr.cut = s.pwr.cut := by
  simp [State.keepBases]

@[simp] theorem State.keepRings_kept (o s : State) (c : Nat) :
    (State.keepRings o s c).pending = s.pending ∧ (State.keepRings o s c).ram = s.ram ∧ (State.keepRings o s c).sys.safe = s.sys.safe ∧ (State.keepRings o s c).pwr.cut = s.pwr.cut := by
  simp [State.keepRings]

@[simp] theorem State.sizeRules_kept (s : State) (c : Nat) :
    (State.sizeRules s c).pending = s.pending ∧ (State.sizeRules s c).ram = s.ram ∧ (State.sizeRules s c).sys.safe = s.sys.safe ∧ (State.sizeRules s c).pwr.cut = s.pwr.cut := by
  simp [State.sizeRules]

@[simp] theorem State.ctxRules_kept (o s : State) (c : Nat) :
    (State.ctxRules o s c).pending = s.pending ∧ (State.ctxRules o s c).ram = s.ram ∧ (State.ctxRules o s c).sys.safe = s.sys.safe ∧ (State.ctxRules o s c).pwr.cut = s.pwr.cut := by
  refine ⟨?_, ?_, ?_, ?_⟩ <;> unfold State.ctxRules <;> (repeat' split) <;> simp

@[simp] theorem State.timeRules_kept (s : State) (d : Nat) :
    (State.timeRules s d).pending = s.pending ∧ (State.timeRules s d).ram = s.ram ∧ (State.timeRules s d).sys.safe = s.sys.safe ∧ (State.timeRules s d).pwr.cut = s.pwr.cut := by
  simp only [State.timeRules]; (repeat' split) <;> simp

@[simp] theorem State.windowRule_kept (s : State) (w : Nat) :
    (State.windowRule s w).pending = s.pending ∧ (State.windowRule s w).ram = s.ram ∧ (State.windowRule s w).sys.safe = s.sys.safe ∧ (State.windowRule s w).pwr.cut = s.pwr.cut := by
  simp [State.windowRule]

@[simp] theorem State.monRules_kept (s : State) :
    (State.monRules s).pending = s.pending ∧ (State.monRules s).ram = s.ram ∧ (State.monRules s).sys.safe = s.sys.safe ∧ (State.monRules s).pwr.cut = s.pwr.cut := by
  simp [State.monRules]

@[simp] theorem State.awlRule_kept (s : State) (k : Nat) :
    (State.awlRule s k).pending = s.pending ∧ (State.awlRule s k).ram = s.ram ∧ (State.awlRule s k).sys.safe = s.sys.safe ∧ (State.awlRule s k).pwr.cut = s.pwr.cut := by
  simp [State.awlRule]

@[simp] theorem State.waveRule_kept (s : State) (q w : Nat) :
    (State.waveRule s q w).pending = s.pending ∧ (State.waveRule s q w).ram = s.ram ∧ (State.waveRule s q w).sys.safe = s.sys.safe ∧ (State.waveRule s q w).pwr.cut = s.pwr.cut := by
  simp [State.waveRule]

@[simp] theorem State.planeRules_kept (s : State) :
    (State.planeRules s).pending = s.pending ∧ (State.planeRules s).ram = s.ram ∧ (State.planeRules s).sys.safe = s.sys.safe ∧ (State.planeRules s).pwr.cut = s.pwr.cut := by
  simp [State.planeRules]

@[simp] theorem State.genBand_kept (q : Nat) (s : State) (n : Nat) :
    (State.genBand q s n).pending = s.pending ∧ (State.genBand q s n).ram = s.ram ∧ (State.genBand q s n).sys.safe = s.sys.safe ∧ (State.genBand q s n).pwr.cut = s.pwr.cut := by
  simp [State.genBand]

@[simp] theorem State.genSelf_kept (q : Nat) (s : State) (n : Nat) :
    (State.genSelf q s n).pending = s.pending ∧ (State.genSelf q s n).ram = s.ram ∧ (State.genSelf q s n).sys.safe = s.sys.safe ∧ (State.genSelf q s n).pwr.cut = s.pwr.cut := by
  simp [State.genSelf]

@[simp] theorem State.genChain_kept (t : State) (q : Nat) (s : State) (n : Nat) :
    (State.genChain t q s n).pending = s.pending ∧ (State.genChain t q s n).ram = s.ram ∧ (State.genChain t q s n).sys.safe = s.sys.safe ∧ (State.genChain t q s n).pwr.cut = s.pwr.cut := by
  simp [State.genChain]

@[simp] theorem State.genChains_kept (s : State) (q : Nat) :
    (State.genChains s q).pending = s.pending ∧ (State.genChains s q).ram = s.ram ∧ (State.genChains s q).sys.safe = s.sys.safe ∧ (State.genChains s q).pwr.cut = s.pwr.cut := by
  simp [State.genChains]

@[simp] theorem State.genRules_kept (s : State) (q : Nat) :
    (State.genRules s q).pending = s.pending ∧ (State.genRules s q).ram = s.ram ∧ (State.genRules s q).sys.safe = s.sys.safe ∧ (State.genRules s q).pwr.cut = s.pwr.cut := by
  refine ⟨?_, ?_, ?_, ?_⟩ <;> unfold State.genRules <;> (repeat' split) <;> simp

@[simp] theorem State.toneBand_kept (q : Nat) (s : State) (t : Nat) :
    (State.toneBand q s t).pending = s.pending ∧ (State.toneBand q s t).ram = s.ram ∧ (State.toneBand q s t).sys.safe = s.sys.safe ∧ (State.toneBand q s t).pwr.cut = s.pwr.cut := by
  simp [State.toneBand]

@[simp] theorem State.capDecim_kept (q : Nat) (s : State) (i : Nat) :
    (State.capDecim q s i).pending = s.pending ∧ (State.capDecim q s i).ram = s.ram ∧ (State.capDecim q s i).sys.safe = s.sys.safe ∧ (State.capDecim q s i).pwr.cut = s.pwr.cut := by
  simp [State.capDecim]

@[simp] theorem State.capGate_kept (q : Nat) (s : State) (i : Nat) :
    (State.capGate q s i).pending = s.pending ∧ (State.capGate q s i).ram = s.ram ∧ (State.capGate q s i).sys.safe = s.sys.safe ∧ (State.capGate q s i).pwr.cut = s.pwr.cut := by
  simp [State.capGate]

@[simp] theorem State.inputRules_kept (s : State) (q : Nat) :
    (State.inputRules s q).pending = s.pending ∧ (State.inputRules s q).ram = s.ram ∧ (State.inputRules s q).sys.safe = s.sys.safe ∧ (State.inputRules s q).pwr.cut = s.pwr.cut := by
  refine ⟨?_, ?_, ?_, ?_⟩ <;> unfold State.inputRules <;> (repeat' split) <;> simp

@[simp] theorem State.bufferRule_kept (s : State) (q k : Nat) :
    (State.bufferRule s q k).pending = s.pending ∧ (State.bufferRule s q k).ram = s.ram ∧ (State.bufferRule s q k).sys.safe = s.sys.safe ∧ (State.bufferRule s q k).pwr.cut = s.pwr.cut := by
  simp [State.bufferRule]

@[simp] theorem State.quarterRules_kept (s : State) (q : Nat) :
    (State.quarterRules s q).pending = s.pending ∧ (State.quarterRules s q).ram = s.ram ∧ (State.quarterRules s q).sys.safe = s.sys.safe ∧ (State.quarterRules s q).pwr.cut = s.pwr.cut := by
  simp [State.quarterRules]

@[simp] theorem State.genRange_kept (q : Nat) (s : State) (n : Nat) :
    (State.genRange q s n).pending = s.pending ∧ (State.genRange q s n).ram = s.ram ∧ (State.genRange q s n).sys.safe = s.sys.safe ∧ (State.genRange q s n).pwr.cut = s.pwr.cut := by
  simp [State.genRange]

@[simp] theorem State.toneRange_kept (q : Nat) (s : State) (t : Nat) :
    (State.toneRange q s t).pending = s.pending ∧ (State.toneRange q s t).ram = s.ram ∧ (State.toneRange q s t).sys.safe = s.sys.safe ∧ (State.toneRange q s t).pwr.cut = s.pwr.cut := by
  simp [State.toneRange]

@[simp] theorem State.quarterRanges_kept (s : State) (q : Nat) :
    (State.quarterRanges s q).pending = s.pending ∧ (State.quarterRanges s q).ram = s.ram ∧ (State.quarterRanges s q).sys.safe = s.sys.safe ∧ (State.quarterRanges s q).pwr.cut = s.pwr.cut := by
  simp [State.quarterRanges]

@[simp] theorem State.pairRanges_kept (s : State) :
    (State.pairRanges s).pending = s.pending ∧ (State.pairRanges s).ram = s.ram ∧ (State.pairRanges s).sys.safe = s.sys.safe ∧ (State.pairRanges s).pwr.cut = s.pwr.cut := by
  refine ⟨?_, ?_, ?_, ?_⟩ <;> unfold State.pairRanges <;> (repeat' split) <;> simp

@[simp] theorem State.crossRules_kept (o s : State) :
    (State.crossRules o s).pending = s.pending ∧ (State.crossRules o s).ram = s.ram ∧ (State.crossRules o s).sys.safe = s.sys.safe ∧ (State.crossRules o s).pwr.cut = s.pwr.cut := by
  simp [State.crossRules]

@[simp] theorem State.resetRing_kept (o s : State) (c : Nat) (f : Fld) (p : Pair) (put : Ctx → Ctx) :
    (State.resetRing o s c f p put).pending = s.pending ∧ (State.resetRing o s c f p put).ram = s.ram ∧ (State.resetRing o s c f p put).sys.safe = s.sys.safe ∧ (State.resetRing o s c f p put).pwr.cut = s.pwr.cut := by
  simp [State.resetRing]

@[simp] theorem State.movedStatus_kept (o s : State) (c : Nat) :
    (State.movedStatus o s c).pending = s.pending ∧ (State.movedStatus o s c).ram = s.ram ∧ (State.movedStatus o s c).sys.safe = s.sys.safe ∧ (State.movedStatus o s c).pwr.cut = s.pwr.cut := by
  simp [State.movedStatus]

@[simp] theorem State.ctxChanged_kept (o s : State) (c : Nat) :
    (State.ctxChanged o s c).pending = s.pending ∧ (State.ctxChanged o s c).ram = s.ram ∧ (State.ctxChanged o s c).sys.safe = s.sys.safe ∧ (State.ctxChanged o s c).pwr.cut = s.pwr.cut := by
  simp [State.ctxChanged]

@[simp] theorem State.enableChanged_kept (o s : State) (k : Nat) :
    (State.enableChanged o s k).pending = s.pending ∧ (State.enableChanged o s k).ram = s.ram ∧ (State.enableChanged o s k).sys.safe = s.sys.safe ∧ (State.enableChanged o s k).pwr.cut = s.pwr.cut := by
  simp [State.enableChanged]

@[simp] theorem State.idChanged_kept (o s : State) :
    (State.idChanged o s).pending = s.pending ∧ (State.idChanged o s).ram = s.ram ∧ (State.idChanged o s).sys.safe = s.sys.safe ∧ (State.idChanged o s).pwr.cut = s.pwr.cut := by
  simp [State.idChanged]

@[simp] theorem State.linkEnable_kept (o s : State) (l : Nat) :
    (State.linkEnable o s l).pending = s.pending ∧ (State.linkEnable o s l).ram = s.ram ∧ (State.linkEnable o s l).sys.safe = s.sys.safe ∧ (State.linkEnable o s l).pwr.cut = s.pwr.cut := by
  simp only [State.linkEnable]; (repeat' split) <;> simp

@[simp] theorem State.timeChanged_kept (o s : State) :
    (State.timeChanged o s).pending = s.pending ∧ (State.timeChanged o s).ram = s.ram ∧ (State.timeChanged o s).sys.safe = s.sys.safe ∧ (State.timeChanged o s).pwr.cut = s.pwr.cut := by
  simp [State.timeChanged]

@[simp] theorem State.committed_kept (o s : State) :
    (State.committed o s).pending = s.pending ∧ (State.committed o s).ram = s.ram ∧ (State.committed o s).sys.safe = s.sys.safe ∧ (State.committed o s).pwr.cut = s.pwr.cut := by
  simp [State.committed]

@[simp] theorem State.commitStart_kept (s : State) :
    (State.commitStart s).pending = s.pending ∧ (State.commitStart s).ram = s.ram ∧ (State.commitStart s).sys.safe = s.sys.safe ∧ (State.commitStart s).pwr.cut = s.pwr.cut := by
  simp [State.commitStart]

@[simp] theorem State.heldToShadow_kept (s : State) :
    (s.heldToShadow).pending = s.pending ∧ (s.heldToShadow).ram = s.ram ∧ (s.heldToShadow).sys.safe = s.sys.safe ∧ (s.heldToShadow).pwr.cut = s.pwr.cut := by
  unfold State.heldToShadow
  exact ⟨foldl_pending _ (by intros; split <;> rfl) _ _, foldl_ram _ (by intros; split <;> rfl) _ _,
    foldl_safe _ (by intros; split <;> rfl) _ _, foldl_cut _ (by intros; split <;> rfl) _ _⟩

@[simp] theorem State.commitEnd_kept (s : State) (at_ : Nat) :
    (State.commitEnd s at_).pending = s.pending ∧ (State.commitEnd s at_).ram = s.ram ∧ (State.commitEnd s at_).sys.safe = s.sys.safe ∧ (State.commitEnd s at_).pwr.cut = s.pwr.cut := by
  simp [State.commitEnd]

@[simp] theorem State.postBoot_kept (s : State) :
    (State.postBoot s).pending = s.pending ∧ (State.postBoot s).ram = s.ram ∧ (State.postBoot s).sys.safe = s.sys.safe ∧ (State.postBoot s).pwr.cut = s.pwr.cut := by
  simp [State.postBoot]

end Sys2Proof.Machine
end

