-- ==== Sys2Proof/Laws/Kept5.lean ====
section
/-! SUPPORT. What the operations of Descriptors, Placement, Security, Jobs, Boot, Dsp leave as it is: the queue of commands, the memory,
the Safe cause and the latch of the hardware cut. One lemma per operation (those of them it keeps). -/

namespace Sys2Proof.Machine

/-! ### Descriptors -/

@[simp] theorem State.logDesc_kept (s : State) (c : Nat) (d : Desc) :
    (State.logDesc s c d).pending = s.pending ∧ (State.logDesc s c d).ram = s.ram ∧ (State.logDesc s c d).sys.safe = s.sys.safe ∧ (State.logDesc s c d).pwr.cut = s.pwr.cut := by
  simp [State.logDesc]

@[simp] theorem State.startDesc_pending (s : State) (c idx op : Nat) (go : State → Desc → State)
    (h : ∀ s d, (go s d).pending = s.pending) : (s.startDesc c idx op go).pending = s.pending := by
  unfold State.startDesc; (repeat' split) <;> simp [h]

@[simp] theorem State.startDesc_ram (s : State) (c idx op : Nat) (go : State → Desc → State)
    (h : ∀ s d, (go s d).ram = s.ram) : (s.startDesc c idx op go).ram = s.ram := by
  unfold State.startDesc; (repeat' split) <;> simp [h]

@[simp] theorem State.startDesc_safe (s : State) (c idx op : Nat) (go : State → Desc → State)
    (h : ∀ s d, (go s d).sys.safe = s.sys.safe) : (s.startDesc c idx op go).sys.safe = s.sys.safe := by
  unfold State.startDesc; (repeat' split) <;> simp [h]

@[simp] theorem State.startDesc_cut (s : State) (c idx op : Nat) (go : State → Desc → State)
    (h : ∀ s d, (go s d).pwr.cut = s.pwr.cut) : (s.startDesc c idx op go).pwr.cut = s.pwr.cut := by
  unfold State.startDesc; (repeat' split) <;> simp [h]

@[simp] theorem State.loadEnd_kept (s : State) (rs : List Region) :
    (State.loadEnd s rs).pending = s.pending ∧ (State.loadEnd s rs).ram = s.ram ∧ (State.loadEnd s rs).sys.safe = s.sys.safe ∧ (State.loadEnd s rs).pwr.cut = s.pwr.cut := by
  simp [State.loadEnd]

@[simp] theorem State.readData_kept (s : State) (c : Nat) (d : Desc) :
    (State.readData s c d).pending = s.pending ∧ (State.readData s c d).ram = s.ram ∧ (State.readData s c d).sys.safe = s.sys.safe ∧ (State.readData s c d).pwr.cut = s.pwr.cut := by
  exact ⟨rfl, rfl, rfl, rfl⟩

@[simp] theorem State.writeEnvelope_kept (s : State) (q id : Nat) (e data : List Byte) :
    (State.writeEnvelope s q id e data).pending = s.pending ∧ (State.writeEnvelope s q id e data).sys.safe = s.sys.safe ∧ (State.writeEnvelope s q id e data).pwr.cut = s.pwr.cut := by
  simp [State.writeEnvelope]

@[simp] theorem State.writeProgram_kept (s : State) (c : Nat) (d : Desc) (xs : List Checked) :
    (s.writeProgram c d xs).pending = s.pending ∧ (s.writeProgram c d xs).sys.safe = s.sys.safe ∧ (s.writeProgram c d xs).pwr.cut = s.pwr.cut := by
  unfold State.writeProgram; dsimp only; (repeat' split) <;> simp

@[simp] theorem State.applyProgram_kept (s : State) (c : Nat) (d : Desc) :
    (State.applyProgram s c d).pending = s.pending ∧ (State.applyProgram s c d).sys.safe = s.sys.safe ∧ (State.applyProgram s c d).pwr.cut = s.pwr.cut := by
  simp only [State.applyProgram]; (repeat' split) <;> simp

@[simp] theorem State.applyEnvelope_kept (s : State) (c : Nat) (d : Desc) :
    (State.applyEnvelope s c d).pending = s.pending ∧ (State.applyEnvelope s c d).sys.safe = s.sys.safe ∧ (State.applyEnvelope s c d).pwr.cut = s.pwr.cut := by
  simp [State.applyEnvelope]

@[simp] theorem State.applyDecoder_kept (s : State) (c : Nat) (d : Desc) :
    (State.applyDecoder s c d).pending = s.pending ∧ (State.applyDecoder s c d).ram = s.ram ∧ (State.applyDecoder s c d).sys.safe = s.sys.safe ∧ (State.applyDecoder s c d).pwr.cut = s.pwr.cut := by
  simp only [State.applyDecoder]; (repeat' split) <;> simp

@[simp] theorem State.biasSetStep_kept (s : State) (k : Nat) (code : Int) :
    (State.biasSetStep s k code).pending = s.pending ∧ (State.biasSetStep s k code).ram = s.ram ∧ (State.biasSetStep s k code).sys.safe = s.sys.safe ∧ (State.biasSetStep s k code).pwr.cut = s.pwr.cut := by
  simp [State.biasSetStep]

@[simp] theorem State.applyBias_kept (s : State) (c : Nat) (d : Desc) :
    (State.applyBias s c d).pending = s.pending ∧ (State.applyBias s c d).sys.safe = s.sys.safe ∧ (State.applyBias s c d).pwr.cut = s.pwr.cut := by
  simp only [State.applyBias]; (repeat' split) <;> simp

@[simp] theorem State.applyLoad_kept (s : State) (c : Nat) (d : Desc) (bad : Bool) :
    (State.applyLoad s c d bad).pending = s.pending ∧ (State.applyLoad s c d bad).sys.safe = s.sys.safe ∧ (State.applyLoad s c d bad).pwr.cut = s.pwr.cut := by
  simp only [State.applyLoad]; (repeat' split) <;> simp

@[simp] theorem State.beginLoad_kept (s : State) (c : Nat) (d : Desc) (bad : Bool) :
    (State.beginLoad s c d bad).pending = s.pending ∧ (State.beginLoad s c d bad).sys.safe = s.sys.safe ∧ (State.beginLoad s c d bad).pwr.cut = s.pwr.cut := by
  simp [State.beginLoad]

@[simp] theorem State.load__kept (s : State) (c idx op : Nat) (bad : Bool) :
    (State.load_ s c idx op bad).pending = s.pending ∧ (State.load_ s c idx op bad).sys.safe = s.sys.safe ∧ (State.load_ s c idx op bad).pwr.cut = s.pwr.cut := by
  simp only [State.load_]; (repeat' split) <;> simp

@[simp] theorem State.bindStream_kept (s : State) (c : Nat) (d : Desc) :
    (State.bindStream s c d).pending = s.pending ∧ (State.bindStream s c d).ram = s.ram ∧ (State.bindStream s c d).sys.safe = s.sys.safe ∧ (State.bindStream s c d).pwr.cut = s.pwr.cut := by
  simp [State.bindStream]

@[simp] theorem State.deferredApply_kept (s : State) (c idx : Nat) :
    (State.deferredApply s c idx).pending = s.pending ∧ (State.deferredApply s c idx).sys.safe = s.sys.safe ∧ (State.deferredApply s c idx).pwr.cut = s.pwr.cut := by
  simp only [State.deferredApply]; (repeat' split) <;> simp

@[simp] theorem State.query_kept (s : State) (c : Nat) (d : Desc) :
    (State.query s c d).pending = s.pending ∧ (State.query s c d).ram = s.ram ∧ (State.query s c d).sys.safe = s.sys.safe ∧ (State.query s c d).pwr.cut = s.pwr.cut := by
  simp [State.query]

@[simp] theorem State.jobReady_kept (s : State) (c idx op : Nat) :
    (State.jobReady s c idx op).pending = s.pending ∧ (State.jobReady s c idx op).ram = s.ram ∧ (State.jobReady s c idx op).sys.safe = s.sys.safe ∧ (State.jobReady s c idx op).pwr.cut = s.pwr.cut := by
  simp [State.jobReady]

/-! ### Placement -/

@[simp] theorem State.sampleSlow_kept (s : State) (counts : SpeedCounts) :
    (State.sampleSlow s counts).pending = s.pending ∧ (State.sampleSlow s counts).ram = s.ram ∧ (State.sampleSlow s counts).sys.safe = s.sys.safe ∧ (State.sampleSlow s counts).pwr.cut = s.pwr.cut := by
  simp [State.sampleSlow]

@[simp] theorem State.beginBuild_kept (s : State) (c : Nat) (d : Desc) (counts : SpeedCounts) :
    (State.beginBuild s c d counts).pending = s.pending ∧ (State.beginBuild s c d counts).ram = s.ram ∧ (State.beginBuild s c d counts).sys.safe = s.sys.safe ∧ (State.beginBuild s c d counts).pwr.cut = s.pwr.cut := by
  first
    | (simp [State.beginBuild]; done)
    | (simp only [State.beginBuild]; (repeat' split) <;> simp; done)
    | (unfold State.beginBuild; (repeat' split) <;> simp; done)

@[simp] theorem State.sendSummary_kept (s : State) (e : BuildEnv) (g : DecGraph) (p : Nat) :
    (State.sendSummary s e g p).pending = s.pending ∧ (State.sendSummary s e g p).ram = s.ram ∧ (State.sendSummary s e g p).sys.safe = s.sys.safe ∧ (State.sendSummary s e g p).pwr.cut = s.pwr.cut := by
  simp [State.sendSummary]

@[simp] theorem State.sendSummaries_kept (s : State) (e : BuildEnv) (p : Nat → Bool) :
    (State.sendSummaries s e p).pending = s.pending ∧ (State.sendSummaries s e p).ram = s.ram ∧ (State.sendSummaries s e p).sys.safe = s.sys.safe ∧ (State.sendSummaries s e p).pwr.cut = s.pwr.cut := by
  simp only [State.sendSummaries]; (repeat' split) <;> simp

@[simp] theorem State.takeImage_kept (s : State) (c : Nat) (d : Desc) (b : Build) :
    (State.takeImage s c d b).pending = s.pending ∧ (State.takeImage s c d b).ram = s.ram ∧ (State.takeImage s c d b).sys.safe = s.sys.safe ∧ (State.takeImage s c d b).pwr.cut = s.pwr.cut := by
  simp only [State.takeImage]; (repeat' split) <;> simp

@[simp] theorem State.place__kept (s : State) (c idx : Nat) (counts : SpeedCounts) :
    (State.place_ s c idx counts).pending = s.pending ∧ (State.place_ s c idx counts).ram = s.ram ∧ (State.place_ s c idx counts).sys.safe = s.sys.safe ∧ (State.place_ s c idx counts).pwr.cut = s.pwr.cut := by
  first
    | exact ⟨rfl, rfl, rfl, rfl⟩
    | (simp [State.place_]; done)
    | (simp only [State.place_]; (repeat' split) <;> simp; done)
    | (unfold State.place_; (repeat' split) <;> simp; done)

@[simp] theorem State.addRoute_kept (s : State) (r : LaceRoute) :
    (State.addRoute s r).pending = s.pending ∧ (State.addRoute s r).ram = s.ram ∧ (State.addRoute s r).sys.safe = s.sys.safe ∧ (State.addRoute s r).pwr.cut = s.pwr.cut := by
  exact ⟨rfl, rfl, rfl, rfl⟩

@[simp] theorem State.probeEnd_kept (s : State) :
    (s.probeEnd).pending = s.pending ∧ (s.probeEnd).ram = s.ram ∧ (s.probeEnd).sys.safe = s.sys.safe ∧ (s.probeEnd).pwr.cut = s.pwr.cut := by
  unfold State.probeEnd; dsimp only; (repeat' split)
  · simp
  · simp
  · simp only [State.sendSummaries_kept]
    exact ⟨foldl_pending _ (by intros; split <;> simp) _ _, foldl_ram _ (by intros; split <;> simp) _ _,
      foldl_safe _ (by intros; split <;> simp) _ _, foldl_cut _ (by intros; split <;> simp) _ _⟩

@[simp] theorem State.peerEnd_kept (s : State) (dev : Nat) :
    (State.peerEnd s dev).pending = s.pending ∧ (State.peerEnd s dev).ram = s.ram ∧ (State.peerEnd s dev).sys.safe = s.sys.safe ∧ (State.peerEnd s dev).pwr.cut = s.pwr.cut := by
  simp only [State.peerEnd]; (repeat' split) <;> simp

@[simp] theorem State.endBuild_kept (s : State) (b : Build) (x : Found) (kind : Nat) :
    (State.endBuild s b x kind).pending = s.pending ∧ (State.endBuild s b x kind).ram = s.ram ∧ (State.endBuild s b x kind).sys.safe = s.sys.safe ∧ (State.endBuild s b x kind).pwr.cut = s.pwr.cut := by
  simp only [State.endBuild]; (repeat' split) <;> simp

@[simp] theorem State.buildDone_kept (s : State) (remote : List RemoteDecision) :
    (State.buildDone s remote).pending = s.pending ∧ (State.buildDone s remote).ram = s.ram ∧ (State.buildDone s remote).sys.safe = s.sys.safe ∧ (State.buildDone s remote).pwr.cut = s.pwr.cut := by
  first
    | exact ⟨rfl, rfl, rfl, rfl⟩
    | (simp [State.buildDone]; done)
    | (simp only [State.buildDone]; (repeat' split) <;> simp; done)
    | (unfold State.buildDone; (repeat' split) <;> simp; done)

@[simp] theorem State.slownessSample_kept (s : State) (counts : SpeedCounts) :
    (State.slownessSample s counts).pending = s.pending ∧ (State.slownessSample s counts).ram = s.ram ∧ (State.slownessSample s counts).sys.safe = s.sys.safe ∧ (State.slownessSample s counts).pwr.cut = s.pwr.cut := by
  first
    | exact ⟨rfl, rfl, rfl, rfl⟩
    | (simp [State.slownessSample]; done)
    | (simp only [State.slownessSample]; (repeat' split) <;> simp; done)
    | (unfold State.slownessSample; (repeat' split) <;> simp; done)

@[simp] theorem State.reproofAnswer_kept (s : State) (ok : Bool) :
    (State.reproofAnswer s ok).pending = s.pending ∧ (State.reproofAnswer s ok).ram = s.ram ∧ (State.reproofAnswer s ok).pwr.cut = s.pwr.cut := by
  simp [State.reproofAnswer]

@[simp] theorem State.reproofDone_kept (s : State) (slow : Nat) :
    (State.reproofDone s slow).pending = s.pending ∧ (State.reproofDone s slow).ram = s.ram ∧ (State.reproofDone s slow).pwr.cut = s.pwr.cut := by
  simp [State.reproofDone]

/-! ### Security -/

@[simp] theorem State.mbViolation_kept (s : State) (code cmd : Nat) :
    (State.mbViolation s code cmd).pending = s.pending ∧ (State.mbViolation s code cmd).ram = s.ram ∧ (State.mbViolation s code cmd).sys.safe = s.sys.safe ∧ (State.mbViolation s code cmd).pwr.cut = s.pwr.cut := by
  simp [State.mbViolation]

@[simp] theorem State.drawN_kept (s : State) (n : Nat) :
    (State.drawN s n).pending = s.pending ∧ (State.drawN s n).ram = s.ram ∧ (State.drawN s n).sys.safe = s.sys.safe ∧ (State.drawN s n).pwr.cut = s.pwr.cut := by
  exact ⟨rfl, rfl, rfl, rfl⟩

@[simp] theorem State.respond_kept (s : State) (r : MbRun) :
    (State.respond s r).pending = s.pending ∧ (State.respond s r).ram = s.ram ∧ (State.respond s r).sys.safe = s.sys.safe ∧ (State.respond s r).pwr.cut = s.pwr.cut := by
  simp [State.respond]

@[simp] theorem State.clearSealed_kept (s : State) (p : SealMark → Bool) :
    (State.clearSealed s p).pending = s.pending ∧ (State.clearSealed s p).sys.safe = s.sys.safe ∧ (State.clearSealed s p).pwr.cut = s.pwr.cut := by
  simp [State.clearSealed]

@[simp] theorem State.clearDoomed_kept (s : State) :
    (State.clearDoomed s).pending = s.pending ∧ (State.clearDoomed s).sys.safe = s.sys.safe ∧ (State.clearDoomed s).pwr.cut = s.pwr.cut := by
  simp [State.clearDoomed]

@[simp] theorem State.zeroizeOwner_kept (s : State) :
    (State.zeroizeOwner s).pending = s.pending ∧ (State.zeroizeOwner s).sys.safe = s.sys.safe ∧ (State.zeroizeOwner s).pwr.cut = s.pwr.cut := by
  simp [State.zeroizeOwner]

@[simp] theorem State.patchRecord_kept (s : State) (what slot version : Nat) :
    (State.patchRecord s what slot version).pending = s.pending ∧ (State.patchRecord s what slot version).ram = s.ram ∧ (State.patchRecord s what slot version).sys.safe = s.sys.safe ∧ (State.patchRecord s what slot version).pwr.cut = s.pwr.cut := by
  simp [State.patchRecord]

@[simp] theorem State.sealRecord_kept (s : State) (r : MbRun) :
    (State.sealRecord s r).pending = s.pending ∧ (State.sealRecord s r).ram = s.ram ∧ (State.sealRecord s r).sys.safe = s.sys.safe ∧ (State.sealRecord s r).pwr.cut = s.pwr.cut := by
  simp [State.sealRecord]

@[simp] theorem State.selftestEnd_kept (s : State) (failed alg : Nat) :
    (State.selftestEnd s failed alg).pending = s.pending ∧ (State.selftestEnd s failed alg).ram = s.ram ∧ (State.selftestEnd s failed alg).sys.safe = s.sys.safe ∧ (State.selftestEnd s failed alg).pwr.cut = s.pwr.cut := by
  simp [State.selftestEnd]

@[simp] theorem State.mbEffect_kept (s : State) (e : MbEffect) :
    (State.mbEffect s e).pending = s.pending ∧ (State.mbEffect s e).sys.safe = s.sys.safe ∧ (State.mbEffect s e).pwr.cut = s.pwr.cut := by
  simp only [State.mbEffect]; (repeat' split) <;> simp

@[simp] theorem State.moduleError_kept (s : State) (r : MbRun) :
    (State.moduleError s r).pending = s.pending ∧ (State.moduleError s r).ram = s.ram ∧ (State.moduleError s r).sys.safe = s.sys.safe ∧ (State.moduleError s r).pwr.cut = s.pwr.cut := by
  first
    | exact ⟨rfl, rfl, rfl, rfl⟩
    | (simp [State.moduleError]; done)
    | (simp only [State.moduleError]; (repeat' split) <;> simp; done)
    | (unfold State.moduleError; (repeat' split) <;> simp; done)

@[simp] theorem State.serviceDone_kept (s : State) (bad : Bool) :
    (State.serviceDone s bad).pending = s.pending ∧ (State.serviceDone s bad).sys.safe = s.sys.safe ∧ (State.serviceDone s bad).pwr.cut = s.pwr.cut := by
  first
    | exact ⟨rfl, rfl, rfl⟩
    | (simp [State.serviceDone]; done)
    | (simp only [State.serviceDone]; (repeat' split) <;> simp; done)
    | (unfold State.serviceDone; (repeat' split) <;> simp; done)

@[simp] theorem State.authFail_kept (s : State) (role : MbRole) :
    (State.authFail s role).pending = s.pending ∧ (State.authFail s role).ram = s.ram ∧ (State.authFail s role).sys.safe = s.sys.safe ∧ (State.authFail s role).pwr.cut = s.pwr.cut := by
  simp [State.authFail]

@[simp] theorem State.authPass_kept (s : State) (role : MbRole) :
    (State.authPass s role).pending = s.pending ∧ (State.authPass s role).ram = s.ram ∧ (State.authPass s role).sys.safe = s.sys.safe ∧ (State.authPass s role).pwr.cut = s.pwr.cut := by
  exact ⟨rfl, rfl, rfl, rfl⟩

@[simp] theorem State.answerOnly_kept (s : State) (x : MbRun) (status : Nat) :
    (State.answerOnly s x status).pending = s.pending ∧ (State.answerOnly s x status).ram = s.ram ∧ (State.answerOnly s x status).sys.safe = s.sys.safe ∧ (State.answerOnly s x status).pwr.cut = s.pwr.cut := by
  exact ⟨rfl, rfl, rfl, rfl⟩

@[simp] theorem State.go_pending (s : State) (cmd : Nat) (role : MbRole) (r : MbReq) (work : State → MbRun → State)
    (h : ∀ s x, (work s x).pending = s.pending) : (s.go cmd role r work).pending = s.pending := by
  unfold State.go; dsimp only; (repeat' split) <;> simp [h] <;> (repeat' split) <;> simp

@[simp] theorem State.go_ram (s : State) (cmd : Nat) (role : MbRole) (r : MbReq) (work : State → MbRun → State)
    (h : ∀ s x, (work s x).ram = s.ram) : (s.go cmd role r work).ram = s.ram := by
  unfold State.go; dsimp only; (repeat' split) <;> simp [h] <;> (repeat' split) <;> simp

@[simp] theorem State.go_safe (s : State) (cmd : Nat) (role : MbRole) (r : MbReq) (work : State → MbRun → State)
    (h : ∀ s x, (work s x).sys.safe = s.sys.safe) : (s.go cmd role r work).sys.safe = s.sys.safe := by
  unfold State.go; dsimp only; (repeat' split) <;> simp [h] <;> (repeat' split) <;> simp

@[simp] theorem State.go_cut (s : State) (cmd : Nat) (role : MbRole) (r : MbReq) (work : State → MbRun → State)
    (h : ∀ s x, (work s x).pwr.cut = s.pwr.cut) : (s.go cmd role r work).pwr.cut = s.pwr.cut := by
  unfold State.go; dsimp only; (repeat' split) <;> simp [h] <;> (repeat' split) <;> simp

@[simp] theorem State.serve_kept (s : State) (x : MbRun) (payload : List Byte) (e : MbEffect) :
    (State.serve s x payload e).pending = s.pending ∧ (State.serve s x payload e).ram = s.ram ∧ (State.serve s x payload e).sys.safe = s.sys.safe ∧ (State.serve s x payload e).pwr.cut = s.pwr.cut := by
  exact ⟨rfl, rfl, rfl, rfl⟩

@[simp] theorem State.decline_kept (s : State) (x : MbRun) (status : Nat) (e : MbEffect) :
    (State.decline s x status e).pending = s.pending ∧ (State.decline s x status e).ram = s.ram ∧ (State.decline s x status e).sys.safe = s.sys.safe ∧ (State.decline s x status e).pwr.cut = s.pwr.cut := by
  exact ⟨rfl, rfl, rfl, rfl⟩

@[simp] theorem State.unsealFail_kept (s : State) (r : MbRun) :
    (State.unsealFail s r).pending = s.pending ∧ (State.unsealFail s r).sys.safe = s.sys.safe ∧ (State.unsealFail s r).pwr.cut = s.pwr.cut := by
  simp [State.unsealFail]

@[simp] theorem State.zeroize_kept (s : State) (r : MbReq) (full : Bool) :
    (State.zeroize s r full).pending = s.pending ∧ (State.zeroize s r full).sys.safe = s.sys.safe ∧ (State.zeroize s r full).pwr.cut = s.pwr.cut := by
  simp only [State.zeroize]; (repeat' split) <;> simp

@[simp] theorem State.installPatch_kept (s : State) (x : MbRun) (version rom : Nat) (image : List Byte) (sigOk : Bool) :
    (State.installPatch s x version rom image sigOk).pending = s.pending ∧ (State.installPatch s x version rom image sigOk).ram = s.ram ∧ (State.installPatch s x version rom image sigOk).sys.safe = s.sys.safe ∧ (State.installPatch s x version rom image sigOk).pwr.cut = s.pwr.cut := by
  simp [State.installPatch]

@[simp] theorem State.unsealEntry_kept (s : State) (r : MbRun) (e : SealEnt) :
    (State.unsealEntry s r e).pending = s.pending ∧ (State.unsealEntry s r e).sys.safe = s.sys.safe ∧ (State.unsealEntry s r e).pwr.cut = s.pwr.cut := by
  simp [State.unsealEntry]

@[simp] theorem State.passEnd_kept (s : State) (tagOk : Bool) (hdr : List Byte) (ents : List SealEnt) :
    (State.passEnd s tagOk hdr ents).pending = s.pending ∧ (State.passEnd s tagOk hdr ents).sys.safe = s.sys.safe ∧ (State.passEnd s tagOk hdr ents).pwr.cut = s.pwr.cut := by
  first
    | exact ⟨rfl, rfl, rfl⟩
    | (simp [State.passEnd]; done)
    | (simp only [State.passEnd]; (repeat' split) <;> simp; done)
    | (unfold State.passEnd; (repeat' split) <;> simp; done)

/-! ### Jobs -/

@[simp] theorem State.prepareShot_kept (s : State) :
    (State.prepareShot s).pending = s.pending ∧ (State.prepareShot s).ram = s.ram ∧ (State.prepareShot s).sys.safe = s.sys.safe ∧ (State.prepareShot s).pwr.cut = s.pwr.cut := by
  simp [State.prepareShot]

@[simp] theorem State.fluxPresets_kept (s : State) :
    (State.fluxPresets s).pending = s.pending ∧ (State.fluxPresets s).ram = s.ram ∧ (State.fluxPresets s).sys.safe = s.sys.safe ∧ (State.fluxPresets s).pwr.cut = s.pwr.cut := by
  simp [State.fluxPresets]

@[simp] theorem State.workStart_kept (s : State) :
    (State.workStart s).pending = s.pending ∧ (State.workStart s).ram = s.ram ∧ (State.workStart s).sys.safe = s.sys.safe ∧ (State.workStart s).pwr.cut = s.pwr.cut := by
  simp only [State.workStart]; (repeat' split) <;> simp

@[simp] theorem State.restartStreams_kept (s : State) :
    (State.restartStreams s).pending = s.pending ∧ (State.restartStreams s).ram = s.ram ∧ (State.restartStreams s).sys.safe = s.sys.safe ∧ (State.restartStreams s).pwr.cut = s.pwr.cut := by
  exact ⟨rfl, rfl, rfl, rfl⟩

@[simp] theorem State.putLast_kept (s : State) (n : Nat) :
    (State.putLast s n).pending = s.pending ∧ (State.putLast s n).ram = s.ram ∧ (State.putLast s n).sys.safe = s.sys.safe ∧ (State.putLast s n).pwr.cut = s.pwr.cut := by
  simp [State.putLast]

@[simp] theorem State.workOver_kept (s : State) :
    (State.workOver s).pending = s.pending ∧ (State.workOver s).ram = s.ram ∧ (State.workOver s).sys.safe = s.sys.safe ∧ (State.workOver s).pwr.cut = s.pwr.cut := by
  exact ⟨rfl, rfl, rfl, rfl⟩

@[simp] theorem State.workEnd_kept (s : State) :
    (s.workEnd).pending = s.pending ∧ (s.workEnd).ram = s.ram ∧ (s.workEnd).sys.safe = s.sys.safe ∧ (s.workEnd).pwr.cut = s.pwr.cut := by
  have k1 (s : State) (b : Bool) (f : State → State) (h : ∀ s, (f s).pending = s.pending ∧ (f s).ram = s.ram
      ∧ (f s).sys.safe = s.sys.safe ∧ (f s).pwr.cut = s.pwr.cut) :
      (if b = true then f s else s).pending = s.pending ∧ (if b = true then f s else s).ram = s.ram
        ∧ (if b = true then f s else s).sys.safe = s.sys.safe ∧ (if b = true then f s else s).pwr.cut = s.pwr.cut := by
    split
    · exact h s
    · exact ⟨rfl, rfl, rfl, rfl⟩
  unfold State.workEnd
  split
  · exact ⟨rfl, rfl, rfl, rfl⟩
  · have k2 (s : State) (o : Option Nat) :
        (match o with | some n => s.putLast n | none => s).pending = s.pending
          ∧ (match o with | some n => s.putLast n | none => s).ram = s.ram
          ∧ (match o with | some n => s.putLast n | none => s).sys.safe = s.sys.safe
          ∧ (match o with | some n => s.putLast n | none => s).pwr.cut = s.pwr.cut := by
      cases o
      · exact ⟨rfl, rfl, rfl, rfl⟩
      · exact State.putLast_kept _ _
    extract_lets w s1 s2 s3 s4 s5 s6 j s7
    have h1 := k1 s w.workCommit (fun s => (s.commitEnd w.workAt).postBoot) (by intro s; simp)
    have h2 := k1 s1 w.workTaps (fun s => s.applyTaps w.workAt) (by intro s; simp)
    have h3 := k1 s2 w.workVins (fun s => s.vinsDone) (by intro s; simp)
    have h4 := k2 s3 w.nextLast
    have h5 := k1 s4 w.workRung (fun s => s.riseDone) (by intro s; simp)
    have h6 : s7.pending = s5.pending ∧ s7.ram = s5.ram ∧ s7.sys.safe = s5.sys.safe ∧ s7.pwr.cut = s5.pwr.cut := by
      simp [s7, s6]
    have e : s7.pending = s.pending ∧ s7.ram = s.ram ∧ s7.sys.safe = s.sys.safe ∧ s7.pwr.cut = s.pwr.cut :=
      ⟨h6.1.trans <| h5.1.trans (h4.1.trans (h3.1.trans (h2.1.trans h1.1))),
        h6.2.1.trans <| h5.2.1.trans (h4.2.1.trans (h3.2.1.trans (h2.2.1.trans h1.2.1))),
        h6.2.2.1.trans <| h5.2.2.1.trans (h4.2.2.1.trans (h3.2.2.1.trans (h2.2.2.1.trans h1.2.2.1))),
        h6.2.2.2.trans <| h5.2.2.2.trans (h4.2.2.2.trans (h3.2.2.2.trans (h2.2.2.2.trans h1.2.2.2)))⟩
    split
    · simpa using e
    · simpa using e

@[simp] theorem State.armUnits_kept (s : State) :
    (State.armUnits s).pending = s.pending ∧ (State.armUnits s).ram = s.ram ∧ (State.armUnits s).sys.safe = s.sys.safe ∧ (State.armUnits s).pwr.cut = s.pwr.cut := by
  simp [State.armUnits]

@[simp] theorem State.arm_kept (s : State) (c : Nat) (d : Desc) :
    (State.arm s c d).pending = s.pending ∧ (State.arm s c d).ram = s.ram ∧ (State.arm s c d).sys.safe = s.sys.safe ∧ (State.arm s c d).pwr.cut = s.pwr.cut := by
  simp [State.arm]

@[simp] theorem State.jobStart_kept (s : State) (werr at_ : Nat) :
    (State.jobStart s werr at_).pending = s.pending ∧ (State.jobStart s werr at_).ram = s.ram ∧ (State.jobStart s werr at_).pwr.cut = s.pwr.cut := by
  refine ⟨?_, ?_, ?_⟩ <;> unfold State.jobStart <;> (repeat' split) <;> simp

@[simp] theorem State.delayRecord_kept (s : State) (j : Job) :
    (State.delayRecord s j).pending = s.pending ∧ (State.delayRecord s j).ram = s.ram ∧ (State.delayRecord s j).sys.safe = s.sys.safe ∧ (State.delayRecord s j).pwr.cut = s.pwr.cut := by
  simp [State.delayRecord]

@[simp] theorem State.calYield_kept (s : State) :
    (State.calYield s).pending = s.pending ∧ (State.calYield s).ram = s.ram ∧ (State.calYield s).sys.safe = s.sys.safe ∧ (State.calYield s).pwr.cut = s.pwr.cut := by
  simp only [State.calYield]; (repeat' split) <;> simp

@[simp] theorem State.shotStart_kept (s : State) :
    (State.shotStart s).pending = s.pending ∧ (State.shotStart s).ram = s.ram ∧ (State.shotStart s).sys.safe = s.sys.safe ∧ (State.shotStart s).pwr.cut = s.pwr.cut := by
  simp only [State.shotStart]; (repeat' split) <;> simp

@[simp] theorem State.unhalt_kept (s : State) (w : Nat) :
    (State.unhalt s w).pending = s.pending ∧ (State.unhalt s w).ram = s.ram ∧ (State.unhalt s w).sys.safe = s.sys.safe ∧ (State.unhalt s w).pwr.cut = s.pwr.cut := by
  simp only [State.unhalt]; (repeat' split) <;> simp

@[simp] theorem State.streamsShot_kept (s : State) :
    (State.streamsShot s).pending = s.pending ∧ (State.streamsShot s).ram = s.ram ∧ (State.streamsShot s).sys.safe = s.sys.safe ∧ (State.streamsShot s).pwr.cut = s.pwr.cut := by
  exact ⟨rfl, rfl, rfl, rfl⟩

@[simp] theorem State.closeShot_kept (s : State) :
    (State.closeShot s).pending = s.pending ∧ (State.closeShot s).ram = s.ram ∧ (State.closeShot s).sys.safe = s.sys.safe ∧ (State.closeShot s).pwr.cut = s.pwr.cut := by
  simp [State.closeShot]

@[simp] theorem State.flushSide_pending (k : Nat) (s : State) : (State.flushSide k s).pending = s.pending := by
  induction k generalizing s with
  | zero => rfl
  | succ k ih => simp [State.flushSide, ih]

@[simp] theorem State.flushSide_ram (k : Nat) (s : State) : (State.flushSide k s).ram = s.ram := by
  induction k generalizing s with
  | zero => rfl
  | succ k ih => simp [State.flushSide, ih]

@[simp] theorem State.flushSide_safe (k : Nat) (s : State) : (State.flushSide k s).sys.safe = s.sys.safe := by
  induction k generalizing s with
  | zero => rfl
  | succ k ih => simp [State.flushSide, ih]

@[simp] theorem State.flushSide_cut (k : Nat) (s : State) : (State.flushSide k s).pwr.cut = s.pwr.cut := by
  induction k generalizing s with
  | zero => rfl
  | succ k ih => simp [State.flushSide, ih]

@[simp] theorem State.disarm_kept (s : State) :
    (State.disarm s).pending = s.pending ∧ (State.disarm s).ram = s.ram ∧ (State.disarm s).sys.safe = s.sys.safe ∧ (State.disarm s).pwr.cut = s.pwr.cut := by
  simp [State.disarm]

@[simp] theorem State.jobEnd_kept (s : State) :
    (s.jobEnd).pending = s.pending ∧ (s.jobEnd).sys.safe = s.sys.safe ∧ (s.jobEnd).pwr.cut = s.pwr.cut := by
  unfold State.jobEnd
  split
  · exact ⟨rfl, rfl, rfl⟩
  · generalize List.range 32 = l
    simp

@[simp] theorem State.nextShot_kept (s : State) :
    (State.nextShot s).pending = s.pending ∧ (State.nextShot s).ram = s.ram ∧ (State.nextShot s).sys.safe = s.sys.safe ∧ (State.nextShot s).pwr.cut = s.pwr.cut := by
  simp [State.nextShot]

@[simp] theorem State.countShot_kept (s : State) :
    (State.countShot s).pending = s.pending ∧ (State.countShot s).sys.safe = s.sys.safe ∧ (State.countShot s).pwr.cut = s.pwr.cut := by
  simp only [State.countShot]; (repeat' split) <;> simp

@[simp] theorem State.shotEnd_kept (s : State) :
    (State.shotEnd s).pending = s.pending ∧ (State.shotEnd s).sys.safe = s.sys.safe ∧ (State.shotEnd s).pwr.cut = s.pwr.cut := by
  simp [State.shotEnd]

@[simp] theorem State.muteShot_kept (s : State) :
    (State.muteShot s).pending = s.pending ∧ (State.muteShot s).ram = s.ram ∧ (State.muteShot s).sys.safe = s.sys.safe ∧ (State.muteShot s).pwr.cut = s.pwr.cut := by
  simp [State.muteShot]

@[simp] theorem State.stopJob_kept (s : State) :
    (State.stopJob s).pending = s.pending ∧ (State.stopJob s).sys.safe = s.sys.safe ∧ (State.stopJob s).pwr.cut = s.pwr.cut := by
  simp [State.stopJob]

@[simp] theorem State.keepRung_kept (s : State) :
    (State.keepRung s).pending = s.pending ∧ (State.keepRung s).ram = s.ram ∧ (State.keepRung s).sys.safe = s.sys.safe ∧ (State.keepRung s).pwr.cut = s.pwr.cut := by
  first
    | exact ⟨rfl, rfl, rfl, rfl⟩
    | (simp [State.keepRung]; done)
    | (simp only [State.keepRung]; (repeat' split) <;> simp; done)
    | (unfold State.keepRung; (repeat' split) <;> simp; done)

@[simp] theorem State.stopDone_kept (s : State) (p : StopSt) :
    (State.stopDone s p).pending = s.pending ∧ (State.stopDone s p).ram = s.ram ∧ (State.stopDone s p).sys.safe = s.sys.safe ∧ (State.stopDone s p).pwr.cut = s.pwr.cut := by
  simp [State.stopDone]

@[simp] theorem State.stopTimeout_kept (s : State) :
    (State.stopTimeout s).pending = s.pending ∧ (State.stopTimeout s).sys.safe = s.sys.safe ∧ (State.stopTimeout s).pwr.cut = s.pwr.cut := by
  simp only [State.stopTimeout]; (repeat' split) <;> simp

/-! ### Boot -/

@[simp] theorem State.clearCut_kept (s : State) :
    (State.clearCut s).pending = s.pending ∧ (State.clearCut s).ram = s.ram ∧ (State.clearCut s).sys.safe = s.sys.safe := by
  simp only [State.clearCut]; (repeat' split) <;> simp

@[simp] theorem State.restart_kept (s : State) (pcie : Bool) :
    (State.restart s pcie).pending = s.pending := by
  first
    | rfl
    | (simp [State.restart]; done)
    | (simp only [State.restart]; (repeat' split) <;> simp; done)
    | (unfold State.restart; (repeat' split) <;> simp; done)

@[simp] theorem State.deviceReset_kept (s : State) :
    (State.deviceReset s).pending = s.pending := by
  first
    | rfl
    | (simp [State.deviceReset]; done)
    | (simp only [State.deviceReset]; (repeat' split) <;> simp; done)
    | (unfold State.deviceReset; (repeat' split) <;> simp; done)

@[simp] theorem State.powerUpReset_kept (s : State) (aon : Bool) :
    (State.powerUpReset s aon).pending = s.pending := by
  first
    | rfl
    | (simp [State.powerUpReset]; done)
    | (simp only [State.powerUpReset]; (repeat' split) <;> simp; done)
    | (unfold State.powerUpReset; (repeat' split) <;> simp; done)

@[simp] theorem State.powerUpRelease_kept (s : State) :
    (State.powerUpRelease s).pending = s.pending ∧ (State.powerUpRelease s).ram = s.ram ∧ (State.powerUpRelease s).sys.safe = s.sys.safe ∧ (State.powerUpRelease s).pwr.cut = s.pwr.cut := by
  simp only [State.powerUpRelease]; (repeat' split) <;> simp

@[simp] theorem State.nvDone_kept (s : State) (what : Nat) :
    (State.nvDone s what).pending = s.pending := by
  first
    | rfl
    | (simp [State.nvDone]; done)
    | (simp only [State.nvDone]; (repeat' split) <;> simp; done)
    | (unfold State.nvDone; (repeat' split) <;> simp; done)

@[simp] theorem State.bootPatch_kept (s : State) (ok0 ok1 : Bool) :
    (State.bootPatch s ok0 ok1).pending = s.pending ∧ (State.bootPatch s ok0 ok1).ram = s.ram ∧ (State.bootPatch s ok0 ok1).sys.safe = s.sys.safe ∧ (State.bootPatch s ok0 ok1).pwr.cut = s.pwr.cut := by
  simp [State.bootPatch]

@[simp] theorem State.bootSelftest_kept (s : State) (n : Nat) (pass : Bool) :
    (State.bootSelftest s n pass).pending = s.pending ∧ (State.bootSelftest s n pass).ram = s.ram ∧ (State.bootSelftest s n pass).sys.safe = s.sys.safe ∧ (State.bootSelftest s n pass).pwr.cut = s.pwr.cut := by
  simp [State.bootSelftest]

@[simp] theorem State.bootField_kept (s : State) (f : Fld) (idx : List Nat) (v : Nat) :
    (State.bootField s f idx v).pending = s.pending ∧ (State.bootField s f idx v).ram = s.ram ∧ (State.bootField s f idx v).sys.safe = s.sys.safe ∧ (State.bootField s f idx v).pwr.cut = s.pwr.cut := by
  exact ⟨rfl, rfl, rfl, rfl⟩

@[simp] theorem State.biasUp_kept (s : State) :
    (State.biasUp s).pending = s.pending ∧ (State.biasUp s).ram = s.ram ∧ (State.biasUp s).sys.safe = s.sys.safe ∧ (State.biasUp s).pwr.cut = s.pwr.cut := by
  simp [State.biasUp]

@[simp] theorem State.readBias_kept (s : State) :
    (State.readBias s).pending = s.pending ∧ (State.readBias s).ram = s.ram ∧ (State.readBias s).sys.safe = s.sys.safe ∧ (State.readBias s).pwr.cut = s.pwr.cut := by
  simp only [State.readBias]; (repeat' split) <;> simp

@[simp] theorem State.readTaps_kept (s : State) :
    (State.readTaps s).pending = s.pending ∧ (State.readTaps s).ram = s.ram ∧ (State.readTaps s).sys.safe = s.sys.safe ∧ (State.readTaps s).pwr.cut = s.pwr.cut := by
  exact ⟨rfl, rfl, rfl, rfl⟩

@[simp] theorem State.readId_kept (s : State) :
    (State.readId s).pending = s.pending ∧ (State.readId s).ram = s.ram ∧ (State.readId s).sys.safe = s.sys.safe ∧ (State.readId s).pwr.cut = s.pwr.cut := by
  simp only [State.readId]; (repeat' split) <;> simp

@[simp] theorem State.bootPlanes_kept (s : State) (f0 f1 : Nat) :
    (State.bootPlanes s f0 f1).pending = s.pending ∧ (State.bootPlanes s f0 f1).ram = s.ram ∧ (State.bootPlanes s f0 f1).pwr.cut = s.pwr.cut := by
  simp [State.bootPlanes]

@[simp] theorem State.stepEffect_kept (s : State) (b : BootStep) :
    (State.stepEffect s b).pending = s.pending ∧ (State.stepEffect s b).ram = s.ram ∧ (State.stepEffect s b).pwr.cut = s.pwr.cut := by
  cases b <;> simp [State.stepEffect]

@[simp] theorem State.bootStep_kept (s : State) (b : BootStep) :
    (State.bootStep s b).pending = s.pending ∧ (State.bootStep s b).ram = s.ram ∧ (State.bootStep s b).pwr.cut = s.pwr.cut := by
  simp [State.bootStep]

@[simp] theorem State.bootLock_kept (s : State) :
    (State.bootLock s).pending = s.pending ∧ (State.bootLock s).ram = s.ram ∧ (State.bootLock s).sys.safe = s.sys.safe ∧ (State.bootLock s).pwr.cut = s.pwr.cut := by
  simp [State.bootLock]

@[simp] theorem State.bootMode_kept (s : State) :
    (State.bootMode s).pending = s.pending ∧ (State.bootMode s).ram = s.ram ∧ (State.bootMode s).sys.safe = s.sys.safe ∧ (State.bootMode s).pwr.cut = s.pwr.cut := by
  simp [State.bootMode]

@[simp] theorem State.bootLinks_kept (s : State) :
    (State.bootLinks s).pending = s.pending ∧ (State.bootLinks s).ram = s.ram ∧ (State.bootLinks s).sys.safe = s.sys.safe ∧ (State.bootLinks s).pwr.cut = s.pwr.cut := by
  simp [State.bootLinks]

@[simp] theorem State.deepLeft_kept (s : State) :
    (State.deepLeft s).pending = s.pending ∧ (State.deepLeft s).ram = s.ram ∧ (State.deepLeft s).sys.safe = s.sys.safe ∧ (State.deepLeft s).pwr.cut = s.pwr.cut := by
  first
    | exact ⟨rfl, rfl, rfl, rfl⟩
    | (simp [State.deepLeft]; done)
    | (simp only [State.deepLeft]; (repeat' split) <;> simp; done)
    | (unfold State.deepLeft; (repeat' split) <;> simp; done)

@[simp] theorem State.bootEnd_kept (s : State) :
    (State.bootEnd s).pending = s.pending ∧ (State.bootEnd s).ram = s.ram := by
  simp [State.bootEnd]

@[simp] theorem State.vbiasIn_kept (s : State) :
    (State.vbiasIn s).pending = s.pending ∧ (State.vbiasIn s).ram = s.ram ∧ (State.vbiasIn s).sys.safe = s.sys.safe ∧ (State.vbiasIn s).pwr.cut = s.pwr.cut := by
  simp only [State.vbiasIn]; (repeat' split) <;> simp

/-! ### Dsp -/

@[simp] theorem State.dspArith_kept (s : State) (k : Nat) (bad : BitVec 3) (op : Nat) (f : Int → Int → Int) :
    (State.dspArith s k bad op f).pending = s.pending ∧ (State.dspArith s k bad op f).ram = s.ram ∧ (State.dspArith s k bad op f).sys.safe = s.sys.safe ∧ (State.dspArith s k bad op f).pwr.cut = s.pwr.cut := by
  simp [State.dspArith]

@[simp] theorem State.dspAddi_kept (s : State) (k : Nat) (bad : BitVec 3) :
    (State.dspAddi s k bad).pending = s.pending ∧ (State.dspAddi s k bad).ram = s.ram ∧ (State.dspAddi s k bad).sys.safe = s.sys.safe ∧ (State.dspAddi s k bad).pwr.cut = s.pwr.cut := by
  simp [State.dspAddi]

@[simp] theorem State.dspLdi_kept (s : State) (k : Nat) (bad : BitVec 3) :
    (State.dspLdi s k bad).pending = s.pending ∧ (State.dspLdi s k bad).ram = s.ram ∧ (State.dspLdi s k bad).sys.safe = s.sys.safe ∧ (State.dspLdi s k bad).pwr.cut = s.pwr.cut := by
  simp [State.dspLdi]

@[simp] theorem State.dspLdih_kept (s : State) (k : Nat) (bad : BitVec 3) :
    (State.dspLdih s k bad).pending = s.pending ∧ (State.dspLdih s k bad).ram = s.ram ∧ (State.dspLdih s k bad).sys.safe = s.sys.safe ∧ (State.dspLdih s k bad).pwr.cut = s.pwr.cut := by
  simp [State.dspLdih]

@[simp] theorem State.dspShl_kept (s : State) (k : Nat) (bad : BitVec 3) :
    (State.dspShl s k bad).pending = s.pending ∧ (State.dspShl s k bad).ram = s.ram ∧ (State.dspShl s k bad).sys.safe = s.sys.safe ∧ (State.dspShl s k bad).pwr.cut = s.pwr.cut := by
  simp [State.dspShl]

@[simp] theorem State.dspAsr_kept (s : State) (k : Nat) (bad : BitVec 3) :
    (State.dspAsr s k bad).pending = s.pending ∧ (State.dspAsr s k bad).ram = s.ram ∧ (State.dspAsr s k bad).sys.safe = s.sys.safe ∧ (State.dspAsr s k bad).pwr.cut = s.pwr.cut := by
  simp [State.dspAsr]

@[simp] theorem State.dspCmp_kept (s : State) (k : Nat) (bad : BitVec 3) :
    (State.dspCmp s k bad).pending = s.pending ∧ (State.dspCmp s k bad).ram = s.ram ∧ (State.dspCmp s k bad).sys.safe = s.sys.safe ∧ (State.dspCmp s k bad).pwr.cut = s.pwr.cut := by
  simp [State.dspCmp]

@[simp] theorem State.dspGeta_kept (s : State) (k : Nat) (bad : BitVec 3) :
    (State.dspGeta s k bad).pending = s.pending ∧ (State.dspGeta s k bad).ram = s.ram ∧ (State.dspGeta s k bad).sys.safe = s.sys.safe ∧ (State.dspGeta s k bad).pwr.cut = s.pwr.cut := by
  simp [State.dspGeta]

@[simp] theorem State.dspLda_kept (s : State) (k : Nat) (bad : BitVec 3) :
    (State.dspLda s k bad).pending = s.pending ∧ (State.dspLda s k bad).ram = s.ram ∧ (State.dspLda s k bad).sys.safe = s.sys.safe ∧ (State.dspLda s k bad).pwr.cut = s.pwr.cut := by
  simp [State.dspLda]

@[simp] theorem State.dspClra_kept (s : State) (k : Nat) (bad : BitVec 3) :
    (State.dspClra s k bad).pending = s.pending ∧ (State.dspClra s k bad).ram = s.ram ∧ (State.dspClra s k bad).sys.safe = s.sys.safe ∧ (State.dspClra s k bad).pwr.cut = s.pwr.cut := by
  simp [State.dspClra]

@[simp] theorem State.dspMovs_kept (s : State) (k : Nat) (bad : BitVec 3) :
    (State.dspMovs s k bad).pending = s.pending ∧ (State.dspMovs s k bad).ram = s.ram ∧ (State.dspMovs s k bad).sys.safe = s.sys.safe ∧ (State.dspMovs s k bad).pwr.cut = s.pwr.cut := by
  simp [State.dspMovs]

@[simp] theorem State.dspMovt_kept (s : State) (k : Nat) (bad : BitVec 3) :
    (State.dspMovt s k bad).pending = s.pending ∧ (State.dspMovt s k bad).ram = s.ram ∧ (State.dspMovt s k bad).sys.safe = s.sys.safe ∧ (State.dspMovt s k bad).pwr.cut = s.pwr.cut := by
  simp [State.dspMovt]

@[simp] theorem State.dspMag2_kept (s : State) (k : Nat) (bad : BitVec 3) :
    (State.dspMag2 s k bad).pending = s.pending ∧ (State.dspMag2 s k bad).ram = s.ram ∧ (State.dspMag2 s k bad).sys.safe = s.sys.safe ∧ (State.dspMag2 s k bad).pwr.cut = s.pwr.cut := by
  simp [State.dspMag2]

@[simp] theorem State.dspUmov_kept (s : State) (k : Nat) (bad : BitVec 3) :
    (State.dspUmov s k bad).pending = s.pending ∧ (State.dspUmov s k bad).ram = s.ram ∧ (State.dspUmov s k bad).sys.safe = s.sys.safe ∧ (State.dspUmov s k bad).pwr.cut = s.pwr.cut := by
  simp [State.dspUmov]

@[simp] theorem State.dspGmov_kept (s : State) (k : Nat) (bad : BitVec 3) :
    (State.dspGmov s k bad).pending = s.pending ∧ (State.dspGmov s k bad).ram = s.ram ∧ (State.dspGmov s k bad).sys.safe = s.sys.safe ∧ (State.dspGmov s k bad).pwr.cut = s.pwr.cut := by
  simp [State.dspGmov]

@[simp] theorem State.dspLd_kept (s : State) (k : Nat) (bad : BitVec 3) :
    (State.dspLd s k bad).pending = s.pending ∧ (State.dspLd s k bad).ram = s.ram ∧ (State.dspLd s k bad).sys.safe = s.sys.safe ∧ (State.dspLd s k bad).pwr.cut = s.pwr.cut := by
  simp [State.dspLd]

@[simp] theorem State.dspSt_kept (s : State) (k : Nat) (bad : BitVec 3) :
    (State.dspSt s k bad).pending = s.pending ∧ (State.dspSt s k bad).sys.safe = s.sys.safe ∧ (State.dspSt s k bad).pwr.cut = s.pwr.cut := by
  simp [State.dspSt]

@[simp] theorem State.dspSetp_kept (s : State) (k : Nat) (bad : BitVec 3) :
    (State.dspSetp s k bad).pending = s.pending ∧ (State.dspSetp s k bad).ram = s.ram ∧ (State.dspSetp s k bad).sys.safe = s.sys.safe ∧ (State.dspSetp s k bad).pwr.cut = s.pwr.cut := by
  simp [State.dspSetp]

@[simp] theorem State.dspSets_kept (s : State) (k : Nat) (bad : BitVec 3) :
    (State.dspSets s k bad).pending = s.pending ∧ (State.dspSets s k bad).ram = s.ram ∧ (State.dspSets s k bad).sys.safe = s.sys.safe ∧ (State.dspSets s k bad).pwr.cut = s.pwr.cut := by
  simp [State.dspSets]

@[simp] theorem State.dspSetrb_kept (s : State) (k : Nat) (bad : BitVec 3) :
    (State.dspSetrb s k bad).pending = s.pending ∧ (State.dspSetrb s k bad).ram = s.ram ∧ (State.dspSetrb s k bad).sys.safe = s.sys.safe ∧ (State.dspSetrb s k bad).pwr.cut = s.pwr.cut := by
  simp [State.dspSetrb]

@[simp] theorem State.dspSetrl_kept (s : State) (k : Nat) (bad : BitVec 3) :
    (State.dspSetrl s k bad).pending = s.pending ∧ (State.dspSetrl s k bad).ram = s.ram ∧ (State.dspSetrl s k bad).sys.safe = s.sys.safe ∧ (State.dspSetrl s k bad).pwr.cut = s.pwr.cut := by
  simp [State.dspSetrl]

@[simp] theorem State.dspMovp_kept (s : State) (k : Nat) (bad : BitVec 3) :
    (State.dspMovp s k bad).pending = s.pending ∧ (State.dspMovp s k bad).ram = s.ram ∧ (State.dspMovp s k bad).sys.safe = s.sys.safe ∧ (State.dspMovp s k bad).pwr.cut = s.pwr.cut := by
  simp [State.dspMovp]

@[simp] theorem State.dspNop_kept (s : State) (k : Nat) (bad : BitVec 3) :
    (State.dspNop s k bad).pending = s.pending ∧ (State.dspNop s k bad).ram = s.ram ∧ (State.dspNop s k bad).sys.safe = s.sys.safe ∧ (State.dspNop s k bad).pwr.cut = s.pwr.cut := by
  simp [State.dspNop]

@[simp] theorem State.dspRep_kept (s : State) (k : Nat) (bad : BitVec 3) :
    (State.dspRep s k bad).pending = s.pending ∧ (State.dspRep s k bad).ram = s.ram ∧ (State.dspRep s k bad).sys.safe = s.sys.safe ∧ (State.dspRep s k bad).pwr.cut = s.pwr.cut := by
  simp [State.dspRep]

@[simp] theorem State.dspRepg_kept (s : State) (k : Nat) (bad : BitVec 3) :
    (State.dspRepg s k bad).pending = s.pending ∧ (State.dspRepg s k bad).ram = s.ram ∧ (State.dspRepg s k bad).sys.safe = s.sys.safe ∧ (State.dspRepg s k bad).pwr.cut = s.pwr.cut := by
  simp [State.dspRepg]

@[simp] theorem State.dspJmp_kept (s : State) (k : Nat) (bad : BitVec 3) :
    (State.dspJmp s k bad).pending = s.pending ∧ (State.dspJmp s k bad).ram = s.ram ∧ (State.dspJmp s k bad).sys.safe = s.sys.safe ∧ (State.dspJmp s k bad).pwr.cut = s.pwr.cut := by
  simp [State.dspJmp]

@[simp] theorem State.dspJcc_kept (s : State) (k : Nat) (bad : BitVec 3) :
    (State.dspJcc s k bad).pending = s.pending ∧ (State.dspJcc s k bad).ram = s.ram ∧ (State.dspJcc s k bad).sys.safe = s.sys.safe ∧ (State.dspJcc s k bad).pwr.cut = s.pwr.cut := by
  simp [State.dspJcc]

@[simp] theorem State.dspWaitin_kept (s : State) (k : Nat) (bad : BitVec 3) :
    (State.dspWaitin s k bad).pending = s.pending ∧ (State.dspWaitin s k bad).ram = s.ram ∧ (State.dspWaitin s k bad).sys.safe = s.sys.safe ∧ (State.dspWaitin s k bad).pwr.cut = s.pwr.cut := by
  refine ⟨?_, ?_, ?_, ?_⟩ <;> unfold State.dspWaitin <;> (first | apply State.dspIssue_pending | apply State.dspIssue_ram | apply State.dspIssue_safe | apply State.dspIssue_cut) <;>
    intros <;> (try dsimp only) <;> (repeat' split) <;> simp

@[simp] theorem State.sendDspToken_kept (s : State) (d : Dsp) (w : Nat) (p : Packet) :
    (State.sendDspToken s d w p).pending = s.pending ∧ (State.sendDspToken s d w p).ram = s.ram ∧ (State.sendDspToken s d w p).sys.safe = s.sys.safe ∧ (State.sendDspToken s d w p).pwr.cut = s.pwr.cut := by
  exact ⟨rfl, rfl, rfl, rfl⟩

@[simp] theorem State.dspTokenI_kept (s : State) (k : Nat) (bad : BitVec 3) :
    (State.dspTokenI s k bad).pending = s.pending ∧ (State.dspTokenI s k bad).ram = s.ram ∧ (State.dspTokenI s k bad).sys.safe = s.sys.safe ∧ (State.dspTokenI s k bad).pwr.cut = s.pwr.cut := by
  refine ⟨?_, ?_, ?_, ?_⟩ <;> unfold State.dspTokenI <;> (first | apply State.dspIssue_pending | apply State.dspIssue_ram | apply State.dspIssue_safe | apply State.dspIssue_cut) <;>
    intros <;> (try dsimp only) <;> (repeat' split) <;> simp

@[simp] theorem State.dspRecordI_kept (s : State) (k : Nat) (bad : BitVec 3) :
    (State.dspRecordI s k bad).pending = s.pending ∧ (State.dspRecordI s k bad).ram = s.ram ∧ (State.dspRecordI s k bad).sys.safe = s.sys.safe ∧ (State.dspRecordI s k bad).pwr.cut = s.pwr.cut := by
  simp [State.dspRecordI]

@[simp] theorem State.dspEndI_kept (s : State) (k : Nat) (bad : BitVec 3) :
    (State.dspEndI s k bad).pending = s.pending ∧ (State.dspEndI s k bad).ram = s.ram ∧ (State.dspEndI s k bad).sys.safe = s.sys.safe ∧ (State.dspEndI s k bad).pwr.cut = s.pwr.cut := by
  simp [State.dspEndI]

@[simp] theorem State.waitinWake_kept (s : State) (k : Nat) :
    (State.waitinWake s k).pending = s.pending ∧ (State.waitinWake s k).ram = s.ram ∧ (State.waitinWake s k).sys.safe = s.sys.safe ∧ (State.waitinWake s k).pwr.cut = s.pwr.cut := by
  simp [State.waitinWake]

@[simp] theorem State.budgetOverrun_kept (s : State) (k : Nat) :
    (State.budgetOverrun s k).pending = s.pending ∧ (State.budgetOverrun s k).ram = s.ram ∧ (State.budgetOverrun s k).sys.safe = s.sys.safe ∧ (State.budgetOverrun s k).pwr.cut = s.pwr.cut := by
  simp only [State.budgetOverrun]; (repeat' split) <;> simp

end Sys2Proof.Machine
end

