-- ==== Sys2Proof/Laws/Kept6.lean ====
section
/-! SUPPORT. What the operations of Records, Registers, Tick, Step leave as it is: the queue of commands, the memory,
the Safe cause and the latch of the hardware cut. One lemma per operation (those of them it keeps). -/

namespace Sys2Proof.Machine

/-! ### Records -/

@[simp] theorem State.awlGave_kept (s : State) (src : Nat) :
    (State.awlGave s src).pending = s.pending ∧ (State.awlGave s src).ram = s.ram ∧ (State.awlGave s src).sys.safe = s.sys.safe ∧ (State.awlGave s src).pwr.cut = s.pwr.cut := by
  first
    | exact ⟨rfl, rfl, rfl, rfl⟩
    | (simp [State.awlGave]; done)
    | (simp only [State.awlGave]; (repeat' split) <;> simp; done)
    | (unfold State.awlGave; (repeat' split) <;> simp; done)

@[simp] theorem State.spoilRecord_kept (s : State) (h : Held) :
    (State.spoilRecord s h).pending = s.pending ∧ (State.spoilRecord s h).ram = s.ram ∧ (State.spoilRecord s h).sys.safe = s.sys.safe ∧ (State.spoilRecord s h).pwr.cut = s.pwr.cut := by
  first
    | exact ⟨rfl, rfl, rfl, rfl⟩
    | (simp [State.spoilRecord]; done)
    | (simp only [State.spoilRecord]; (repeat' split) <;> simp; done)
    | (unfold State.spoilRecord; (repeat' split) <;> simp; done)

@[simp] theorem State.releaseOne_kept (s : State) (src free : Nat) (bad : Bool) :
    (State.releaseOne s src free bad).pending = s.pending ∧ (State.releaseOne s src free bad).ram = s.ram ∧ (State.releaseOne s src free bad).sys.safe = s.sys.safe ∧ (State.releaseOne s src free bad).pwr.cut = s.pwr.cut := by
  first
    | exact ⟨rfl, rfl, rfl, rfl⟩
    | (simp [State.releaseOne]; done)
    | (simp only [State.releaseOne]; (repeat' split) <;> simp; done)
    | (unfold State.releaseOne; (repeat' split) <;> simp; done)

@[simp] theorem State.postHorizon_kept (s : State) (c : Nat) :
    (State.postHorizon s c).pending = s.pending ∧ (State.postHorizon s c).ram = s.ram ∧ (State.postHorizon s c).sys.safe = s.sys.safe ∧ (State.postHorizon s c).pwr.cut = s.pwr.cut := by
  simp [State.postHorizon]

@[simp] theorem State.hznSet_kept (s : State) (p : Nat) :
    (State.hznSet s p).pending = s.pending ∧ (State.hznSet s p).ram = s.ram ∧ (State.hznSet s p).sys.safe = s.sys.safe ∧ (State.hznSet s p).pwr.cut = s.pwr.cut := by
  exact ⟨rfl, rfl, rfl, rfl⟩

@[simp] theorem State.horizon_kept (s : State) :
    (State.horizon s).pending = s.pending ∧ (State.horizon s).ram = s.ram ∧ (State.horizon s).sys.safe = s.sys.safe ∧ (State.horizon s).pwr.cut = s.pwr.cut := by
  simp [State.horizon]

@[simp] theorem State.timeSnap_kept (s : State) :
    (State.timeSnap s).pending = s.pending ∧ (State.timeSnap s).ram = s.ram ∧ (State.timeSnap s).sys.safe = s.sys.safe ∧ (State.timeSnap s).pwr.cut = s.pwr.cut := by
  exact ⟨rfl, rfl, rfl, rfl⟩

@[simp] theorem State.hznWrite_kept (s : State) (p : Nat) :
    (State.hznWrite s p).pending = s.pending ∧ (State.hznWrite s p).ram = s.ram ∧ (State.hznWrite s p).sys.safe = s.sys.safe ∧ (State.hznWrite s p).pwr.cut = s.pwr.cut := by
  exact ⟨rfl, rfl, rfl, rfl⟩

@[simp] theorem State.holdoffEnd_kept (s : State) (v : Nat) :
    (State.holdoffEnd s v).pending = s.pending ∧ (State.holdoffEnd s v).ram = s.ram ∧ (State.holdoffEnd s v).sys.safe = s.sys.safe ∧ (State.holdoffEnd s v).pwr.cut = s.pwr.cut := by
  simp [State.holdoffEnd]

@[simp] theorem State.unmask_kept (s : State) (v : Nat) (func : Bool) :
    (State.unmask s v func).pending = s.pending ∧ (State.unmask s v func).ram = s.ram ∧ (State.unmask s v func).sys.safe = s.sys.safe ∧ (State.unmask s v func).pwr.cut = s.pwr.cut := by
  simp [State.unmask]

/-! ### Registers -/

@[simp] theorem State.checkFields_pending (s : State) (r : RegName) (idx : List Nat) (w : Nat) (l : List FieldSpec) (x : Nat) :
    (State.checkFields s r idx w l x).1.pending = s.pending := by
  induction l generalizing s x with
  | nil => rfl
  | cons e l ih => simp only [State.checkFields]; split <;> simp [ih] <;> split <;> simp

@[simp] theorem State.checkFields_ram (s : State) (r : RegName) (idx : List Nat) (w : Nat) (l : List FieldSpec) (x : Nat) :
    (State.checkFields s r idx w l x).1.ram = s.ram := by
  induction l generalizing s x with
  | nil => rfl
  | cons e l ih => simp only [State.checkFields]; split <;> simp [ih] <;> split <;> simp

@[simp] theorem State.checkFields_safe (s : State) (r : RegName) (idx : List Nat) (w : Nat) (l : List FieldSpec) (x : Nat) :
    (State.checkFields s r idx w l x).1.sys.safe = s.sys.safe := by
  induction l generalizing s x with
  | nil => rfl
  | cons e l ih => simp only [State.checkFields]; split <;> simp [ih] <;> split <;> simp

@[simp] theorem State.checkFields_cut (s : State) (r : RegName) (idx : List Nat) (w : Nat) (l : List FieldSpec) (x : Nat) :
    (State.checkFields s r idx w l x).1.pwr.cut = s.pwr.cut := by
  induction l generalizing s x with
  | nil => rfl
  | cons e l ih => simp only [State.checkFields]; split <;> simp [ih] <;> split <;> simp

@[simp] theorem State.storeWord_kept (s : State) (r : RegName) (idx : List Nat) (x : Word) :
    (State.storeWord s r idx x).pending = s.pending ∧ (State.storeWord s r idx x).ram = s.ram ∧ (State.storeWord s r idx x).sys.safe = s.sys.safe ∧ (State.storeWord s r idx x).pwr.cut = s.pwr.cut := by
  simp [State.storeWord]

@[simp] theorem State.storeFields_kept (s : State) (r : RegName) (idx : List Nat) (w : Nat) :
    (s.storeFields r idx w).pending = s.pending ∧ (s.storeFields r idx w).ram = s.ram ∧ (s.storeFields r idx w).sys.safe = s.sys.safe ∧ (s.storeFields r idx w).pwr.cut = s.pwr.cut := by
  unfold State.storeFields; simp

@[simp] theorem State.glbReset_kept (s : State) (w : Nat) :
    (State.glbReset s w).pending = s.pending := by
  first
    | rfl
    | (simp [State.glbReset]; done)
    | (simp only [State.glbReset]; (repeat' split) <;> simp; done)
    | (unfold State.glbReset; (repeat' split) <;> simp; done)

@[simp] theorem State.maskWrite_kept (s : State) (v : Nat) (m : Bool) :
    (State.maskWrite s v m).pending = s.pending ∧ (State.maskWrite s v m).ram = s.ram ∧ (State.maskWrite s v m).sys.safe = s.sys.safe ∧ (State.maskWrite s v m).pwr.cut = s.pwr.cut := by
  simp [State.maskWrite]

@[simp] theorem State.when__pending (s : State) (b : Bool) (f : State → State) (h : (f s).pending = s.pending) :
    (s.when_ b f).pending = s.pending := by
  unfold State.when_; split <;> simp [h]

@[simp] theorem State.when__ram (s : State) (b : Bool) (f : State → State) (h : (f s).ram = s.ram) :
    (s.when_ b f).ram = s.ram := by
  unfold State.when_; split <;> simp [h]

@[simp] theorem State.when__safe (s : State) (b : Bool) (f : State → State) (h : (f s).sys.safe = s.sys.safe) :
    (s.when_ b f).sys.safe = s.sys.safe := by
  unfold State.when_; split <;> simp [h]

@[simp] theorem State.when__cut (s : State) (b : Bool) (f : State → State) (h : (f s).pwr.cut = s.pwr.cut) :
    (s.when_ b f).pwr.cut = s.pwr.cut := by
  unfold State.when_; split <;> simp [h]

@[simp] theorem State.writeAction_kept (s : State) (r : RegName) (idx : List Nat) (w : Nat) :
    (State.writeAction s r idx w).pending = s.pending := by
  first
    | rfl
    | (simp [State.writeAction]; done)
    | (simp only [State.writeAction]; (repeat' split) <;> simp; done)
    | (unfold State.writeAction; (repeat' split) <;> simp; done)

@[simp] theorem State.regWrite_kept (s : State) (r : RegName) (idx : List Nat) (w : Nat) :
    (State.regWrite s r idx w).pending = s.pending := by
  first
    | rfl
    | (simp [State.regWrite]; done)
    | (simp only [State.regWrite]; (repeat' split) <;> simp; done)
    | (unfold State.regWrite; (repeat' split) <;> simp; done)

@[simp] theorem State.writeAt_kept (s : State) (a w : Nat) :
    (State.writeAt s a w).pending = s.pending := by
  first
    | rfl
    | (simp [State.writeAt]; done)
    | (simp only [State.writeAt]; (repeat' split) <;> simp; done)
    | (unfold State.writeAt; (repeat' split) <;> simp; done)

@[simp] theorem State.barWrite_kept (s : State) (a size v : Nat) :
    (State.barWrite s a size v).pending = s.pending := by
  first
    | rfl
    | (simp [State.barWrite]; done)
    | (simp only [State.barWrite]; (repeat' split) <;> simp; done)
    | (unfold State.barWrite; (repeat' split) <;> simp; done)

@[simp] theorem State.mbWrite_kept (s : State) (a size v : Nat) :
    (State.mbWrite s a size v).pending = s.pending ∧ (State.mbWrite s a size v).sys.safe = s.sys.safe ∧ (State.mbWrite s a size v).pwr.cut = s.pwr.cut := by
  first
    | exact ⟨rfl, rfl, rfl⟩
    | (simp [State.mbWrite]; done)
    | (simp only [State.mbWrite]; (repeat' split) <;> simp; done)
    | (unfold State.mbWrite; (repeat' split) <;> simp; done)

@[simp] theorem State.hostWrite_kept (s : State) (bar : HostBar) (a size v : Nat) :
    (State.hostWrite s bar a size v).pending = s.pending := by
  first
    | rfl
    | (simp [State.hostWrite]; done)
    | (simp only [State.hostWrite]; (repeat' split) <;> simp; done)
    | (unfold State.hostWrite; (repeat' split) <;> simp; done)

@[simp] theorem State.hznReg_kept (s : State) (w : Nat) :
    (State.hznReg s w).pending = s.pending := by
  first
    | exact ⟨rfl, rfl, rfl⟩
    | (simp [State.hznReg]; done)
    | (simp only [State.hznReg]; (repeat' split) <;> simp; done)
    | (unfold State.hznReg; (repeat' split) <;> simp; done)

@[simp] theorem State.clearRc_kept (s : State) (r : RegName) (idx : List Nat) :
    (State.clearRc s r idx).pending = s.pending ∧ (State.clearRc s r idx).ram = s.ram ∧ (State.clearRc s r idx).sys.safe = s.sys.safe ∧ (State.clearRc s r idx).pwr.cut = s.pwr.cut := by
  simp [State.clearRc]

@[simp] theorem State.windowWord_kept (s : State) (o : Nat) (bad : Bool) :
    (State.windowWord s o bad).1.pending = s.pending ∧ (State.windowWord s o bad).1.ram = s.ram ∧ (State.windowWord s o bad).1.sys.safe = s.sys.safe ∧ (State.windowWord s o bad).1.pwr.cut = s.pwr.cut := by
  simp only [State.windowWord]; (repeat' split) <;> simp

@[simp] theorem State.readAt_kept (s : State) (a : Nat) (bad : Bool) :
    (State.readAt s a bad).1.pending = s.pending ∧ (State.readAt s a bad).1.ram = s.ram ∧ (State.readAt s a bad).1.sys.safe = s.sys.safe ∧ (State.readAt s a bad).1.pwr.cut = s.pwr.cut := by
  simp only [State.readAt]; (repeat' split) <;> simp

@[simp] theorem State.barRead_kept (s : State) (a size : Nat) (bad : BitVec 2) :
    (State.barRead s a size bad).1.pending = s.pending ∧ (State.barRead s a size bad).1.ram = s.ram ∧ (State.barRead s a size bad).1.sys.safe = s.sys.safe ∧ (State.barRead s a size bad).1.pwr.cut = s.pwr.cut := by
  simp only [State.barRead]; (repeat' split) <;> simp

@[simp] theorem State.hostRead_kept (s : State) (bar : HostBar) (a size : Nat) (bad : BitVec 2) :
    (State.hostRead s bar a size bad).1.pending = s.pending ∧ (State.hostRead s bar a size bad).1.ram = s.ram ∧ (State.hostRead s bar a size bad).1.sys.safe = s.sys.safe ∧ (State.hostRead s bar a size bad).1.pwr.cut = s.pwr.cut := by
  first
    | exact ⟨rfl, rfl, rfl, rfl⟩
    | (simp [State.hostRead]; done)
    | (simp only [State.hostRead]; (repeat' split) <;> simp; done)
    | (unfold State.hostRead; (repeat' split) <;> simp; done)

/-! ### Tick -/

@[simp] theorem State.playOut_kept (s : State) (ch : Nat) :
    (State.playOut s ch).pending = s.pending ∧ (State.playOut s ch).ram = s.ram ∧ (State.playOut s ch).sys.safe = s.sys.safe ∧ (State.playOut s ch).pwr.cut = s.pwr.cut := by
  simp [State.playOut]

/-! ### Step -/

@[simp] theorem State.withPending_kept (s : State) (q : List Instr) :
    (State.withPending s q).ram = s.ram ∧ (State.withPending s q).sys.safe = s.sys.safe ∧ (State.withPending s q).pwr.cut = s.pwr.cut := by
  exact ⟨rfl, rfl, rfl⟩

@[simp] theorem State.withFetchWord_kept (s : State) (nbits w : Nat) :
    (State.withFetchWord s nbits w).ram = s.ram ∧ (State.withFetchWord s nbits w).sys.safe = s.sys.safe ∧ (State.withFetchWord s nbits w).pwr.cut = s.pwr.cut := by
  exact ⟨rfl, rfl, rfl⟩

end Sys2Proof.Machine
end

