-- ==== Sys2Proof/Laws/KeptMemory.lean ====
section
/-! SUPPORT. The operations that write the memory keep its canonical form, and the resets put the machine in it. -/

namespace Sys2Proof.Machine

theorem foldl_wf {α : Type} (f : State → α → State) (h : ∀ s a, Memory.wf s.ram = true → Memory.wf (f s a).ram = true)
    (l : List α) (s : State) (hs : Memory.wf s.ram = true) : Memory.wf (l.foldl f s).ram = true := by
  induction l generalizing s with
  | nil => exact hs
  | cons a l ih => exact ih _ (h s a hs)

@[simp] theorem State.putSamples_wf (s : State) (q first len pos : Nat) (l : List Byte) (i : Nat)
    (h : Memory.wf s.ram = true) : Memory.wf (s.putSamples q first len pos l i).ram = true := by
  induction l generalizing s i with
  | nil => exact h
  | cons e l ih => exact ih _ _ (State.store_wf _ _ _ h)

@[simp] theorem State.putItems_wf (s : State) (base n a : Nat) (l : List Nat) (h : Memory.wf s.ram = true) :
    Memory.wf (s.putItems base n a l).ram = true := by
  induction l generalizing s a with
  | nil => exact h
  | cons e l ih => exact ih _ _ (State.store_wf _ _ _ h)

@[simp] theorem State.streamArrives_wf (s : State) (q strm : Nat) (b : List Byte) (h : Memory.wf s.ram = true) :
    Memory.wf (s.streamArrives q strm b).ram = true := by
  unfold State.streamArrives; dsimp only; (repeat' split) <;> simp [h]

@[simp] theorem State.writeEnvelope_wf (s : State) (q id : Nat) (e data : List Byte) (h : Memory.wf s.ram = true) :
    Memory.wf (s.writeEnvelope q id e data).ram = true := by
  simp [State.writeEnvelope, h]

@[simp] theorem State.writeProgram_wf (s : State) (c : Nat) (d : Desc) (xs : List Checked) (h : Memory.wf s.ram = true) :
    Memory.wf (s.writeProgram c d xs).ram = true := by
  unfold State.writeProgram; dsimp only; (repeat' split) <;> simp [h]

@[simp] theorem State.applyProgram_wf (s : State) (c : Nat) (d : Desc) (h : Memory.wf s.ram = true) :
    Memory.wf (s.applyProgram c d).ram = true := by
  unfold State.applyProgram; dsimp only; (repeat' split) <;> simp [h]

@[simp] theorem State.applyEnvelope_wf (s : State) (c : Nat) (d : Desc) (h : Memory.wf s.ram = true) :
    Memory.wf (s.applyEnvelope c d).ram = true := by
  unfold State.applyEnvelope; dsimp only; (repeat' split) <;> simp [h]

@[simp] theorem State.applyBias_wf (s : State) (c : Nat) (d : Desc) (h : Memory.wf s.ram = true) :
    Memory.wf (s.applyBias c d).ram = true := by
  unfold State.applyBias; (try dsimp only); (repeat' split) <;> simp [h]

@[simp] theorem State.applyLoad_wf (s : State) (c : Nat) (d : Desc) (bad : Bool) (h : Memory.wf s.ram = true) :
    Memory.wf (s.applyLoad c d bad).ram = true := by
  unfold State.applyLoad; dsimp only; (repeat' split) <;> simp [h]

@[simp] theorem State.beginLoad_wf (s : State) (c : Nat) (d : Desc) (bad : Bool) (h : Memory.wf s.ram = true) :
    Memory.wf (s.beginLoad c d bad).ram = true := by
  unfold State.beginLoad; (repeat' split) <;> simp [h]

theorem State.startDesc_wf (s : State) (c idx op : Nat) (go : State → Desc → State)
    (hg : ∀ d, Memory.wf (go s d).ram = true) (h : Memory.wf s.ram = true) :
    Memory.wf (s.startDesc c idx op go).ram = true := by
  unfold State.startDesc; (repeat' split) <;> simp [h, hg]

@[simp] theorem State.load__wf (s : State) (c idx op : Nat) (bad : Bool) (h : Memory.wf s.ram = true) :
    Memory.wf (s.load_ c idx op bad).ram = true := by
  unfold State.load_
  split
  · split
    · split <;> simp [h]
    · apply State.startDesc_wf _ _ _ _ _ _ h; intro d; split <;> simp [h]
  · exact h

@[simp] theorem State.deferredApply_wf (s : State) (c idx : Nat) (h : Memory.wf s.ram = true) :
    Memory.wf (s.deferredApply c idx).ram = true := by
  unfold State.deferredApply; (repeat' split) <;> simp [h]

theorem State.dspIssue_wf (s : State) (k : Nat) (bad : BitVec 3) (cls op : Nat) (act : State → Dsp → Nat → State)
    (ha : ∀ d w, Memory.wf (act s d w).ram = true) (h : Memory.wf s.ram = true) :
    Memory.wf (s.dspIssue k bad cls op act).ram = true := by
  unfold State.dspIssue; dsimp only; (repeat' split) <;> simp [h, ha]

@[simp] theorem State.clearMark_wf (s : State) (m : SealMark) (h : Memory.wf s.ram = true) :
    Memory.wf (s.clearMark m).ram = true := by
  unfold State.clearMark; (repeat' split) <;> simp [h]

@[simp] theorem State.clearSealed_wf (s : State) (p : SealMark → Bool) (h : Memory.wf s.ram = true) :
    Memory.wf (s.clearSealed p).ram = true := by
  unfold State.clearSealed; dsimp only
  split <;> simp <;> exact foldl_wf _ (fun s a hs => State.clearMark_wf s a hs) _ _ h

@[simp] theorem State.clearDoomed_wf (s : State) (h : Memory.wf s.ram = true) :
    Memory.wf s.clearDoomed.ram = true :=
  foldl_wf _ (fun s a hs => State.clearMark_wf s a hs) _ _ h

@[simp] theorem State.zeroizeOwner_wf (s : State) (h : Memory.wf s.ram = true) :
    Memory.wf s.zeroizeOwner.ram = true := State.clearSealed_wf s _ h

@[simp] theorem State.mbEffect_wf (s : State) (e : MbEffect) (h : Memory.wf s.ram = true) :
    Memory.wf (s.mbEffect e).ram = true := by
  cases e <;> simp [State.mbEffect, h]

@[simp] theorem State.serviceDone_wf (s : State) (bad : Bool) (h : Memory.wf s.ram = true) :
    Memory.wf (s.serviceDone bad).ram = true := by
  unfold State.serviceDone; (repeat' split) <;> simp [h]

@[simp] theorem State.unsealFail_wf (s : State) (r : MbRun) (h : Memory.wf s.ram = true) :
    Memory.wf (s.unsealFail r).ram = true := by
  unfold State.unsealFail
  simp
  exact foldl_wf _ (fun s e hs => State.clear_wf _ _ _ hs) _ _ (foldl_wf _ (fun s e hs => State.clear_wf _ _ _ hs) _ _ h)

@[simp] theorem State.zeroize_wf (s : State) (r : MbReq) (full : Bool) (h : Memory.wf s.ram = true) :
    Memory.wf (s.zeroize r full).ram = true := by
  unfold State.zeroize; dsimp only; rw [State.go_ram _ _ _ _ _ (by simp)]
  split
  · split <;> simp [h]
  · exact h

@[simp] theorem State.unsealEntry_wf (s : State) (r : MbRun) (e : SealEnt) (h : Memory.wf s.ram = true) :
    Memory.wf (s.unsealEntry r e).ram = true := by
  simp [State.unsealEntry, h]

@[simp] theorem State.passEnd_wf (s : State) (tagOk : Bool) (hdr : List Byte) (ents : List SealEnt)
    (h : Memory.wf s.ram = true) : Memory.wf (s.passEnd tagOk hdr ents).ram = true := by
  have hf (r : MbRun) (l : List SealEnt) : Memory.wf (l.foldl (fun s e => s.unsealEntry r e) s).ram = true :=
    foldl_wf _ (fun s e hs => State.unsealEntry_wf s r e hs) _ _ h
  unfold State.passEnd; dsimp only; (repeat' split) <;> simp [h, hf]

@[simp] theorem State.putWords_wf (s : State) (k n : Nat) (w : Win) (xs : List Nat)
    (h : Memory.wf s.ram = true) : Memory.wf (State.putWords s k n w xs).1.ram = true := by
  induction xs generalizing s w with
  | nil => exact h
  | cons x xs ih => unfold State.putWords; dsimp only; (repeat' split) <;> simp [h, ih]

@[simp] theorem State.takeGroups_wf (s : State) (k : Nat) (w : Win) (codes : List (BitVec 12)) (fin : Bool)
    (h : Memory.wf s.ram = true) : Memory.wf (s.takeGroups k w codes fin).1.ram = true := by
  simp [State.takeGroups, h]

@[simp] theorem State.windowGroups_wf (s : State) (w : Win) (codes : List (BitVec 12))
    (h : Memory.wf s.ram = true) : Memory.wf (s.windowGroups w codes).ram = true := by
  unfold State.windowGroups; split <;> simp [h]

@[simp] theorem State.closeWindow_wf (s : State) (w : Win) (codes : List (BitVec 12)) (kerr : Option Word)
    (h : Memory.wf s.ram = true) : Memory.wf (s.closeWindow w codes kerr).ram = true := by
  unfold State.closeWindow; dsimp only; (repeat' split) <;> simp [h]

@[simp] theorem State.windowEnd_wf (s : State) (q t : Nat) (codes : List (BitVec 12)) (kerr : Option Word)
    (h : Memory.wf s.ram = true) : Memory.wf (s.windowEnd q t codes kerr).ram = true := by
  unfold State.windowEnd; (repeat' split) <;> simp [h]

@[simp] theorem State.dspSt_wf (s : State) (k : Nat) (bad : BitVec 3) (h : Memory.wf s.ram = true) :
    Memory.wf (s.dspSt k bad).ram = true := by
  unfold State.dspSt
  apply State.dspIssue_wf _ _ _ _ _ _ _ h
  intro d w; simp [h]

@[simp] theorem State.jobEnd_wf (s : State) (h : Memory.wf s.ram = true) : Memory.wf s.jobEnd.ram = true := by
  unfold State.jobEnd
  split
  · exact h
  · generalize List.range 32 = l
    simp [h]

@[simp] theorem State.countShot_wf (s : State) (h : Memory.wf s.ram = true) : Memory.wf s.countShot.ram = true := by
  unfold State.countShot; dsimp only; (repeat' split) <;> simp [h]

@[simp] theorem State.shotEnd_wf (s : State) (h : Memory.wf s.ram = true) : Memory.wf s.shotEnd.ram = true := by
  unfold State.shotEnd; split <;> simp [h]

@[simp] theorem State.stopJob_wf (s : State) (h : Memory.wf s.ram = true) : Memory.wf s.stopJob.ram = true := by
  unfold State.stopJob; dsimp only; (repeat' split) <;> simp [h]

@[simp] theorem State.stopTimeout_wf (s : State) (h : Memory.wf s.ram = true) : Memory.wf s.stopTimeout.ram = true := by
  unfold State.stopTimeout; dsimp only; (repeat' split) <;> simp [h]

/-! the resets -/

@[simp] theorem State.dropVolatile_ram (s : State) (pcie : Bool) :
    (s.dropVolatile pcie).ram = [] ∧ (s.dropVolatile pcie).sys.safe = 0 := ⟨rfl, rfl⟩

@[simp] theorem State.restart_ram (s : State) (pcie : Bool) :
    (s.restart pcie).ram = [] := by
  unfold State.restart; dsimp only; split <;> simp

@[simp] theorem wf_nil : Memory.wf [] = true := rfl

@[simp] theorem State.deviceReset_wf (s : State) (h : Memory.wf s.ram = true) :
    Memory.wf s.deviceReset.ram = true := by
  unfold State.deviceReset; split <;> simp [h]
@[simp] theorem State.powerUpReset_wf (s : State) (aon : Bool) :
    Memory.wf (s.powerUpReset aon).ram = true := by
  unfold State.powerUpReset; dsimp only; split <;> simp
@[simp] theorem State.nvDone_wf (s : State) (w : Nat) (h : Memory.wf s.ram = true) :
    Memory.wf (s.nvDone w).ram = true := by
  unfold State.nvDone; dsimp only; (repeat' split) <;> simp [h]
@[simp] theorem State.enterDeep_wf (s : State) : Memory.wf s.enterDeep.ram = true := by
  simp [State.enterDeep]
@[simp] theorem State.rungChange_wf (s : State) (h : Memory.wf s.ram = true) :
    Memory.wf s.rungChange.ram = true := by
  unfold State.rungChange; dsimp only; (repeat' split) <;> simp [h]
@[simp] theorem State.glbReset_wf (s : State) (w : Nat) (h : Memory.wf s.ram = true) :
    Memory.wf (s.glbReset w).ram = true := by
  unfold State.glbReset; (repeat' split) <;> simp [h]
theorem State.when__wf (s : State) (b : Bool) (f : State → State) (h : Memory.wf s.ram = true)
    (hf : Memory.wf (f s).ram = true) : Memory.wf (s.when_ b f).ram = true := by
  unfold State.when_; split <;> simp [h, hf]
@[simp] theorem State.writeAction_wf (s : State) (r : RegName) (idx : List Nat) (w : Nat) (h : Memory.wf s.ram = true) :
    Memory.wf (s.writeAction r idx w).ram = true := by
  unfold State.writeAction; dsimp only; (repeat' split) <;> simp [h]
@[simp] theorem State.regWrite_wf (s : State) (r : RegName) (idx : List Nat) (w : Nat) (h : Memory.wf s.ram = true) :
    Memory.wf (s.regWrite r idx w).ram = true := by
  unfold State.regWrite; split <;> simp [h]
@[simp] theorem State.writeAt_wf (s : State) (a w : Nat) (h : Memory.wf s.ram = true) :
    Memory.wf (s.writeAt a w).ram = true := by
  unfold State.writeAt; (repeat' split) <;> simp [h]
@[simp] theorem State.barWrite_wf (s : State) (a n v : Nat) (h : Memory.wf s.ram = true) :
    Memory.wf (s.barWrite a n v).ram = true := by
  unfold State.barWrite; (repeat' split) <;> simp [h]
@[simp] theorem State.mbWrite_wf (s : State) (a n v : Nat) (h : Memory.wf s.ram = true) :
    Memory.wf (s.mbWrite a n v).ram = true := by
  unfold State.mbWrite; (repeat' split) <;> simp [h]
@[simp] theorem State.hostWrite_wf (s : State) (bar : HostBar) (a n v : Nat) (h : Memory.wf s.ram = true) :
    Memory.wf (s.hostWrite bar a n v).ram = true := by
  cases bar <;> simp [State.hostWrite, h]
theorem State.gate_wf (s t : State) (h : Memory.wf s.ram = true) (ht : Memory.wf t.ram = true) :
    Memory.wf (s.gate t).ram = true := by
  unfold State.gate; split <;> assumption

end Sys2Proof.Machine
end

