-- ==== Sys2Proof/Laws/KeptSafe.lean ====
section
/-! SUPPORT. A Safe cause that is latched stays latched under the operations that set one (R699); the resets are not
among them. -/

namespace Sys2Proof.Machine

@[simp] theorem State.orderlyStop_latched (s : State) (cause unit : Nat) (h : s.sys.safe ≠ 0) : (State.orderlyStop s cause unit).sys.safe = s.sys.safe := by
  simp [State.orderlyStop, h]

@[simp] theorem State.cobblerFail_latched (s : State) (cause : Nat) (h : s.sys.safe ≠ 0) : (State.cobblerFail s cause).sys.safe = s.sys.safe := by
  simp [State.cobblerFail, h]

@[simp] theorem State.microwordError_latched (s : State) (a : Nat) (h : s.sys.safe ≠ 0) : (State.microwordError s a).sys.safe = s.sys.safe := by
  simp [State.microwordError, h]

@[simp] theorem State.workError_latched (s : State) (werr at_ : Nat) (h : s.sys.safe ≠ 0) : (State.workError s werr at_).sys.safe = s.sys.safe := by
  unfold State.workError; (repeat' split) <;> simp [h]

@[simp] theorem State.planeQuarantine_latched (s : State) (p : Fin 2) (cause : Nat) (h : s.sys.safe ≠ 0) : (State.planeQuarantine s p cause).sys.safe = s.sys.safe := by
  simp [State.planeQuarantine, h]

@[simp] theorem State.checkOutcome_latched (s : State) (f0 f1 : Bool) (h : s.sys.safe ≠ 0) : (State.checkOutcome s f0 f1).sys.safe = s.sys.safe := by
  unfold State.checkOutcome; (repeat' split) <;> simp [h]

@[simp] theorem State.checkEnd_latched (s : State) (which : Fin 3) (f0 f1 : Nat) (h : s.sys.safe ≠ 0) : (State.checkEnd s which f0 f1).sys.safe = s.sys.safe := by
  unfold State.checkEnd; (repeat' split) <;> simp [h]

@[simp] theorem State.planeToken_latched (s : State) (p : Fin 2) (tgt bad addr : Nat) (h : s.sys.safe ≠ 0) : (State.planeToken s p tgt bad addr).sys.safe = s.sys.safe := by
  unfold State.planeToken; dsimp only; (repeat' split) <;> simp [h]

@[simp] theorem State.synToken_latched (s : State) (p : Fin 2) (tgt bad addr : Nat) (h : s.sys.safe ≠ 0) : (State.synToken s p tgt bad addr).sys.safe = s.sys.safe := by
  unfold State.synToken; dsimp only; (repeat' split) <;> simp [h]

@[simp] theorem State.scrubError_latched (s : State) (e : ScrubErr) (h : s.sys.safe ≠ 0) : (State.scrubError s e).sys.safe = s.sys.safe := by
  simp [State.scrubError, h]

@[simp] theorem State.thresholds_latched (s : State) (i : Nat) (h : s.sys.safe ≠ 0) : (State.thresholds s i).sys.safe = s.sys.safe := by
  simp [State.thresholds, h]

@[simp] theorem State.takeReading_latched (s : State) (i : Nat) (raw : Int) (h : s.sys.safe ≠ 0) : (State.takeReading s i raw).sys.safe = s.sys.safe := by
  unfold State.takeReading; dsimp only; (repeat' split) <;> simp [h]

@[simp] theorem State.sensorSample_latched (s : State) (i : Nat) (raw : Int) (h : s.sys.safe ≠ 0) : (State.sensorSample s i raw).sys.safe = s.sys.safe := by
  simp [State.sensorSample, h]

@[simp] theorem State.take__latched (s : State) (n : Nat) (h : s.sys.safe ≠ 0) : (State.take_ s n).sys.safe = s.sys.safe := by
  unfold State.take_; (repeat' split) <;> simp [h]

@[simp] theorem State.throttleAct_latched (s : State) (h : s.sys.safe ≠ 0) : (State.throttleAct s).sys.safe = s.sys.safe := by
  unfold State.throttleAct; dsimp only; (repeat' split) <;> simp [h]

@[simp] theorem State.throttleRise_latched (s : State) (p : Nat) (h : s.sys.safe ≠ 0) : (State.throttleRise s p).sys.safe = s.sys.safe := by
  simp [State.throttleRise, h]

@[simp] theorem State.measureEnd_latched (s : State) (p : Nat) (h : s.sys.safe ≠ 0) : (State.measureEnd s p).sys.safe = s.sys.safe := by
  unfold State.measureEnd; dsimp only; (repeat' split) <;> simp [h]

@[simp] theorem State.coreRail_latched (s : State) (rail mv : Nat) (h : s.sys.safe ≠ 0) : (State.coreRail s rail mv).sys.safe = s.sys.safe := by
  simp [State.coreRail, h]

@[simp] theorem State.reproofAnswer_latched (s : State) (ok : Bool) (h : s.sys.safe ≠ 0) : (State.reproofAnswer s ok).sys.safe = s.sys.safe := by
  simp [State.reproofAnswer, h]

@[simp] theorem State.reproofDone_latched (s : State) (slow : Nat) (h : s.sys.safe ≠ 0) : (State.reproofDone s slow).sys.safe = s.sys.safe := by
  simp [State.reproofDone, h]

@[simp] theorem State.jobStart_latched (s : State) (werr at_ : Nat) (h : s.sys.safe ≠ 0) : (State.jobStart s werr at_).sys.safe = s.sys.safe := by
  unfold State.jobStart; (repeat' split) <;> simp [h]

@[simp] theorem State.bootPlanes_latched (s : State) (f0 f1 : Nat) (h : s.sys.safe ≠ 0) : (State.bootPlanes s f0 f1).sys.safe = s.sys.safe := by
  simp [State.bootPlanes, h]

@[simp] theorem State.stepEffect_latched (s : State) (b : BootStep) (h : s.sys.safe ≠ 0) : (State.stepEffect s b).sys.safe = s.sys.safe := by
  unfold State.stepEffect; (repeat' split) <;> simp [h]

@[simp] theorem State.bootStep_latched (s : State) (b : BootStep) (h : s.sys.safe ≠ 0) : (State.bootStep s b).sys.safe = s.sys.safe := by
  simp [State.bootStep, h]

@[simp] theorem State.bootEnd_latched (s : State) (h : s.sys.safe ≠ 0) : (State.bootEnd s).sys.safe = s.sys.safe := by
  simp [State.bootEnd, h]

end Sys2Proof.Machine
end

