-- ==== Sys2Proof/Laws/Ops.lean ====
section
/-! SUPPORT. What the shared operations on records, contexts, registers and the clamp log can do: for each, the
parts of the state it can change (every other part is as before), and the laws of reading after it. -/

namespace Sys2Proof.Machine

/-! ### Contexts and registers -/

@[simp] theorem State.ctx_updCtx_same (s : State) (c : Nat) (f : Ctx → Ctx) : (s.updCtx c f).ctx c = f (s.ctx c) := by
  unfold State.ctx State.updCtx Table.upd; exact Table.get_set_same _ _ _ _

theorem State.ctx_updCtx_other (s : State) (c x : Nat) (f : Ctx → Ctx) (h : x ≠ c) :
    (s.updCtx c f).ctx x = s.ctx x := by
  unfold State.ctx State.updCtx Table.upd; exact Table.get_set_other _ _ _ _ _ h

theorem State.word_setDirect_same (s : State) (r : RegName) (i : List Nat) (w : Word) (h : (regSpec r).dbuf = false) :
    (s.setDirect r i w).word r i = w := by
  simp [State.word, State.setDirect, h]

theorem State.word_setLive_same (s : State) (r : RegName) (i : List Nat) (w : Word) (h : (regSpec r).dbuf = true) :
    (s.setLive r i w).word r i = w := by
  simp [State.word, State.setLive, h]

theorem State.shadow_setShadow_same (s : State) (r : RegName) (i : List Nat) (w : Word) :
    (s.setShadow r i w).shadowWord r i = w := by
  simp [State.shadowWord, State.setShadow]

/-! ### Records -/

/-- A produced record changes the record store, the records of boot, and the mark of the running shot. -/
theorem State.post_eq (s : State) (c : Nat) (ring : Ring) (src kind flags : Nat) (st : Stamp)
    (body : List (Nat × Nat × Nat)) : s.post c ring src kind flags st body = { s with
      recs := (s.post c ring src kind flags st body).recs
      sys := (s.post c ring src kind flags st body).sys
      job := (s.post c ring src kind flags st body).job } := by
  unfold State.post State.holdBoot State.markInvalid State.updJob; dsimp only
  split <;> split <;> (try split) <;> rfl

/-- A record whose flags hold no INVALID leaves the job alone. -/
theorem State.post_job (s : State) (c : Nat) (ring : Ring) (src kind flags : Nat) (st : Stamp)
    (body : List (Nat × Nat × Nat)) (h : flags / 8 % 2 ≠ 1) : (s.post c ring src kind flags st body).job = s.job := by
  unfold State.post State.holdBoot; dsimp only
  split
  · contradiction
  · split <;> (try split) <;> rfl

/-- Firing a source changes the pending array and the interrupt path. -/
theorem State.sendMsix_eq (s : State) (v : Nat) : s.sendMsix v = { s with recs := (s.sendMsix v).recs } := rfl

theorem State.signal_eq (s : State) (v : Nat) : s.signal v = { s with recs := (s.signal v).recs } := by
  unfold State.signal; split
  · rfl
  · split <;> rfl

theorem State.fire_eq (s : State) (src : Nat) : s.fire src = { s with
    recs := (s.fire src).recs
    regs := { s.regs with direct := (s.fire src).regs.direct } } := by
  unfold State.fire; dsimp only; split
  · rw [State.signal_eq]; rfl
  · rfl

@[simp] theorem State.signal_seq (s : State) (v : Nat) : (s.signal v).recs.seq = s.recs.seq := by
  unfold State.signal; split
  · rfl
  · split <;> rfl

@[simp] theorem State.fire_seq (s : State) (src : Nat) : (s.fire src).recs.seq = s.recs.seq := by
  unfold State.fire; dsimp only; split <;> simp [State.setDirect]

@[simp] theorem State.signal_held (s : State) (v : Nat) : (s.signal v).recs.held = s.recs.held := by
  unfold State.signal; split
  · rfl
  · split <;> rfl

@[simp] theorem State.fire_held (s : State) (src : Nat) : (s.fire src).recs.held = s.recs.held := by
  unfold State.fire; dsimp only; split <;> simp [State.setDirect]

@[simp] theorem State.fire_ctx (s : State) (src c : Nat) : (s.fire src).ctx c = s.ctx c := by
  rw [State.fire_eq]; rfl

/-- What the interrupt path sends is messages: no write to host memory comes from it. -/
theorem State.fire_writes (s : State) (src a : Nat) (bs : List Byte) :
    HostOut.write a bs ∈ (s.fire src).recs.out ↔ HostOut.write a bs ∈ s.recs.out := by
  have h (u : State) (v : Nat) : HostOut.write a bs ∈ (u.signal v).recs.out ↔ HostOut.write a bs ∈ u.recs.out := by
    unfold State.signal; split
    · rfl
    · split
      · rfl
      · simp [State.sendMsix, State.emit]
  unfold State.fire; dsimp only; split
  · rw [h]; rfl
  · rfl

/-- Numbering a record changes the record store, its context, the pending array and the job's latest stamp. -/
theorem State.writeStatus_eq (s : State) (c : Nat) : s.writeStatus c = { s with recs := (s.writeStatus c).recs } := rfl

@[simp] theorem State.writeStatus_ctx (s : State) (c x : Nat) : (s.writeStatus c).ctx x = s.ctx x := rfl

@[simp] theorem State.writeStatus_seq (s : State) (c : Nat) : (s.writeStatus c).recs.seq = s.recs.seq := rfl

/-! ### The clamp log -/

theorem State.logEntry_eq (s : State) (id aux written used : Nat) (st : Stamp) :
    s.logEntry id aux written used st = { s with cfg := (s.logEntry id aux written used st).cfg } := rfl

theorem State.logClamp_eq (s : State) (ctx id aux written used : Nat) (st : Stamp) (coarse : Bool) :
    s.logClamp ctx id aux written used st coarse = { s with
      cfg := (s.logEntry id aux written used st).cfg
      recs := (s.logClamp ctx id aux written used st coarse).recs
      sys := (s.logClamp ctx id aux written used st coarse).sys
      job := (s.logClamp ctx id aux written used st coarse).job } := by
  unfold State.logClamp
  rw [State.post_eq]
  rfl

/-! ### Side effects and completions -/

theorem State.sideFrom_eq (s : State) (p : Fin 2) (c : SideCmd) : s.sideFrom p c = { s with planes := (s.sideFrom p c).planes } := by
  unfold State.sideFrom; split
  · rfl
  · split
    · rfl
    · split <;> rfl

theorem State.passCpl_eq (s : State) (c idx : Nat) (entry : List Byte) (irq : Bool) (st : Stamp) :
    s.passCpl c idx entry irq st = { s with planes := (s.passCpl c idx entry irq st).planes } := by
  unfold State.passCpl; dsimp only
  rw [State.sideFrom_eq, State.sideFrom_eq]

theorem State.complete_eq (s : State) (c : Nat) (d : Desc) (status detail aux : Nat) (st : Stamp) (cflags : Nat) :
    s.complete c d status detail aux st cflags = { s with
      ctxs := (s.updCtx c fun x => { x with fetched := x.fetched.filter fun e => e.index ≠ d.index }).ctxs
      planes := (s.complete c d status detail aux st cflags).planes } := by
  unfold State.complete; dsimp only
  rw [State.passCpl_eq]; rfl

end Sys2Proof.Machine
end

