-- ==== Sys2Proof/Laws/State.lean ====
section
/-! SUPPORT. The small updates of the state: what each leaves of every field and what it makes of its own, so that
no proof unfolds a record update; and reading an entry of a table after an update of it. -/

namespace Sys2Proof.Machine

/-! ### draw -/

@[simp] theorem State.draw_pending (s : State) : (s.draw).pending = s.pending := rfl
@[simp] theorem State.draw_time (s : State) : (s.draw).time = s.time := rfl
@[simp] theorem State.draw_regs (s : State) : (s.draw).regs = s.regs := rfl
@[simp] theorem State.draw_cfg (s : State) : (s.draw).cfg = s.cfg := rfl
@[simp] theorem State.draw_recs (s : State) : (s.draw).recs = s.recs := rfl
@[simp] theorem State.draw_ctxs (s : State) : (s.draw).ctxs = s.ctxs := rfl
@[simp] theorem State.draw_host (s : State) : (s.draw).host = s.host := rfl
@[simp] theorem State.draw_job (s : State) : (s.draw).job = s.job := rfl
@[simp] theorem State.draw_outs (s : State) : (s.draw).outs = s.outs := rfl
@[simp] theorem State.draw_sq (s : State) : (s.draw).sq = s.sq := rfl
@[simp] theorem State.draw_place (s : State) : (s.draw).place = s.place := rfl
@[simp] theorem State.draw_rdo (s : State) : (s.draw).rdo = s.rdo := rfl
@[simp] theorem State.draw_dsps (s : State) : (s.draw).dsps = s.dsps := rfl
@[simp] theorem State.draw_planes (s : State) : (s.draw).planes = s.planes := rfl
@[simp] theorem State.draw_bias (s : State) : (s.draw).bias = s.bias := rfl
@[simp] theorem State.draw_nv (s : State) : (s.draw).nv = s.nv := rfl
@[simp] theorem State.draw_sys (s : State) : (s.draw).sys = s.sys := rfl
@[simp] theorem State.draw_pwr (s : State) : (s.draw).pwr = s.pwr := rfl
@[simp] theorem State.draw_eng (s : State) : (s.draw).eng = s.eng := rfl
@[simp] theorem State.draw_cal (s : State) : (s.draw).cal = s.cal := rfl
@[simp] theorem State.draw_sec (s : State) : (s.draw).sec = s.sec := rfl
@[simp] theorem State.draw_lace (s : State) : (s.draw).lace = s.lace := rfl
@[simp] theorem State.draw_net (s : State) : (s.draw).net = s.net := rfl
@[simp] theorem State.draw_awl (s : State) : (s.draw).awl = s.awl := rfl
@[simp] theorem State.draw_mon (s : State) : (s.draw).mon = s.mon := rfl
@[simp] theorem State.draw_dec (s : State) : (s.draw).dec = s.dec := rfl
@[simp] theorem State.draw_ram (s : State) : (s.draw).ram = s.ram := rfl
@[simp] theorem State.draw_freeCtr (s : State) : (s.draw).freeCtr = s.freeCtr + 1 := rfl

/-! ### emit -/

@[simp] theorem State.emit_pending (s : State) (o : HostOut) : (s.emit o).pending = s.pending := rfl
@[simp] theorem State.emit_time (s : State) (o : HostOut) : (s.emit o).time = s.time := rfl
@[simp] theorem State.emit_regs (s : State) (o : HostOut) : (s.emit o).regs = s.regs := rfl
@[simp] theorem State.emit_cfg (s : State) (o : HostOut) : (s.emit o).cfg = s.cfg := rfl
@[simp] theorem State.emit_recs (s : State) (o : HostOut) : (s.emit o).recs = { s.recs with out := o :: s.recs.out } := rfl
@[simp] theorem State.emit_ctxs (s : State) (o : HostOut) : (s.emit o).ctxs = s.ctxs := rfl
@[simp] theorem State.emit_host (s : State) (o : HostOut) : (s.emit o).host = s.host := rfl
@[simp] theorem State.emit_job (s : State) (o : HostOut) : (s.emit o).job = s.job := rfl
@[simp] theorem State.emit_outs (s : State) (o : HostOut) : (s.emit o).outs = s.outs := rfl
@[simp] theorem State.emit_sq (s : State) (o : HostOut) : (s.emit o).sq = s.sq := rfl
@[simp] theorem State.emit_place (s : State) (o : HostOut) : (s.emit o).place = s.place := rfl
@[simp] theorem State.emit_rdo (s : State) (o : HostOut) : (s.emit o).rdo = s.rdo := rfl
@[simp] theorem State.emit_dsps (s : State) (o : HostOut) : (s.emit o).dsps = s.dsps := rfl
@[simp] theorem State.emit_planes (s : State) (o : HostOut) : (s.emit o).planes = s.planes := rfl
@[simp] theorem State.emit_bias (s : State) (o : HostOut) : (s.emit o).bias = s.bias := rfl
@[simp] theorem State.emit_nv (s : State) (o : HostOut) : (s.emit o).nv = s.nv := rfl
@[simp] theorem State.emit_sys (s : State) (o : HostOut) : (s.emit o).sys = s.sys := rfl
@[simp] theorem State.emit_pwr (s : State) (o : HostOut) : (s.emit o).pwr = s.pwr := rfl
@[simp] theorem State.emit_eng (s : State) (o : HostOut) : (s.emit o).eng = s.eng := rfl
@[simp] theorem State.emit_cal (s : State) (o : HostOut) : (s.emit o).cal = s.cal := rfl
@[simp] theorem State.emit_sec (s : State) (o : HostOut) : (s.emit o).sec = s.sec := rfl
@[simp] theorem State.emit_lace (s : State) (o : HostOut) : (s.emit o).lace = s.lace := rfl
@[simp] theorem State.emit_net (s : State) (o : HostOut) : (s.emit o).net = s.net := rfl
@[simp] theorem State.emit_awl (s : State) (o : HostOut) : (s.emit o).awl = s.awl := rfl
@[simp] theorem State.emit_mon (s : State) (o : HostOut) : (s.emit o).mon = s.mon := rfl
@[simp] theorem State.emit_dec (s : State) (o : HostOut) : (s.emit o).dec = s.dec := rfl
@[simp] theorem State.emit_ram (s : State) (o : HostOut) : (s.emit o).ram = s.ram := rfl
@[simp] theorem State.emit_freeCtr (s : State) (o : HostOut) : (s.emit o).freeCtr = s.freeCtr := rfl

/-! ### withPending -/

@[simp] theorem State.withPending_pending (s : State) (q : List Instr) : (s.withPending q).pending = q := rfl
@[simp] theorem State.withPending_time (s : State) (q : List Instr) : (s.withPending q).time = s.time := rfl
@[simp] theorem State.withPending_regs (s : State) (q : List Instr) : (s.withPending q).regs = s.regs := rfl
@[simp] theorem State.withPending_cfg (s : State) (q : List Instr) : (s.withPending q).cfg = s.cfg := rfl
@[simp] theorem State.withPending_recs (s : State) (q : List Instr) : (s.withPending q).recs = s.recs := rfl
@[simp] theorem State.withPending_ctxs (s : State) (q : List Instr) : (s.withPending q).ctxs = s.ctxs := rfl
@[simp] theorem State.withPending_host (s : State) (q : List Instr) : (s.withPending q).host = s.host := rfl
@[simp] theorem State.withPending_job (s : State) (q : List Instr) : (s.withPending q).job = s.job := rfl
@[simp] theorem State.withPending_outs (s : State) (q : List Instr) : (s.withPending q).outs = s.outs := rfl
@[simp] theorem State.withPending_sq (s : State) (q : List Instr) : (s.withPending q).sq = s.sq := rfl
@[simp] theorem State.withPending_place (s : State) (q : List Instr) : (s.withPending q).place = s.place := rfl
@[simp] theorem State.withPending_rdo (s : State) (q : List Instr) : (s.withPending q).rdo = s.rdo := rfl
@[simp] theorem State.withPending_dsps (s : State) (q : List Instr) : (s.withPending q).dsps = s.dsps := rfl
@[simp] theorem State.withPending_planes (s : State) (q : List Instr) : (s.withPending q).planes = s.planes := rfl
@[simp] theorem State.withPending_bias (s : State) (q : List Instr) : (s.withPending q).bias = s.bias := rfl
@[simp] theorem State.withPending_nv (s : State) (q : List Instr) : (s.withPending q).nv = s.nv := rfl
@[simp] theorem State.withPending_sys (s : State) (q : List Instr) : (s.withPending q).sys = s.sys := rfl
@[simp] theorem State.withPending_pwr (s : State) (q : List Instr) : (s.withPending q).pwr = s.pwr := rfl
@[simp] theorem State.withPending_eng (s : State) (q : List Instr) : (s.withPending q).eng = s.eng := rfl
@[simp] theorem State.withPending_cal (s : State) (q : List Instr) : (s.withPending q).cal = s.cal := rfl
@[simp] theorem State.withPending_sec (s : State) (q : List Instr) : (s.withPending q).sec = s.sec := rfl
@[simp] theorem State.withPending_lace (s : State) (q : List Instr) : (s.withPending q).lace = s.lace := rfl
@[simp] theorem State.withPending_net (s : State) (q : List Instr) : (s.withPending q).net = s.net := rfl
@[simp] theorem State.withPending_awl (s : State) (q : List Instr) : (s.withPending q).awl = s.awl := rfl
@[simp] theorem State.withPending_mon (s : State) (q : List Instr) : (s.withPending q).mon = s.mon := rfl
@[simp] theorem State.withPending_dec (s : State) (q : List Instr) : (s.withPending q).dec = s.dec := rfl
@[simp] theorem State.withPending_ram (s : State) (q : List Instr) : (s.withPending q).ram = s.ram := rfl
@[simp] theorem State.withPending_freeCtr (s : State) (q : List Instr) : (s.withPending q).freeCtr = s.freeCtr := rfl

/-! ### store -/

@[simp] theorem State.store_time (s : State) (a : Nat) (bs : List Byte) : (s.store a bs).time = s.time := rfl
@[simp] theorem State.store_regs (s : State) (a : Nat) (bs : List Byte) : (s.store a bs).regs = s.regs := rfl
@[simp] theorem State.store_cfg (s : State) (a : Nat) (bs : List Byte) : (s.store a bs).cfg = s.cfg := rfl
@[simp] theorem State.store_recs (s : State) (a : Nat) (bs : List Byte) : (s.store a bs).recs = s.recs := rfl
@[simp] theorem State.store_ctxs (s : State) (a : Nat) (bs : List Byte) : (s.store a bs).ctxs = s.ctxs := rfl
@[simp] theorem State.store_host (s : State) (a : Nat) (bs : List Byte) : (s.store a bs).host = s.host := rfl
@[simp] theorem State.store_job (s : State) (a : Nat) (bs : List Byte) : (s.store a bs).job = s.job := rfl
@[simp] theorem State.store_outs (s : State) (a : Nat) (bs : List Byte) : (s.store a bs).outs = s.outs := rfl
@[simp] theorem State.store_sq (s : State) (a : Nat) (bs : List Byte) : (s.store a bs).sq = s.sq := rfl
@[simp] theorem State.store_place (s : State) (a : Nat) (bs : List Byte) : (s.store a bs).place = s.place := rfl
@[simp] theorem State.store_rdo (s : State) (a : Nat) (bs : List Byte) : (s.store a bs).rdo = s.rdo := rfl
@[simp] theorem State.store_dsps (s : State) (a : Nat) (bs : List Byte) : (s.store a bs).dsps = s.dsps := rfl
@[simp] theorem State.store_planes (s : State) (a : Nat) (bs : List Byte) : (s.store a bs).planes = s.planes := rfl
@[simp] theorem State.store_bias (s : State) (a : Nat) (bs : List Byte) : (s.store a bs).bias = s.bias := rfl
@[simp] theorem State.store_nv (s : State) (a : Nat) (bs : List Byte) : (s.store a bs).nv = s.nv := rfl
@[simp] theorem State.store_sys (s : State) (a : Nat) (bs : List Byte) : (s.store a bs).sys = s.sys := rfl
@[simp] theorem State.store_pwr (s : State) (a : Nat) (bs : List Byte) : (s.store a bs).pwr = s.pwr := rfl
@[simp] theorem State.store_eng (s : State) (a : Nat) (bs : List Byte) : (s.store a bs).eng = s.eng := rfl
@[simp] theorem State.store_cal (s : State) (a : Nat) (bs : List Byte) : (s.store a bs).cal = s.cal := rfl
@[simp] theorem State.store_sec (s : State) (a : Nat) (bs : List Byte) : (s.store a bs).sec = s.sec := rfl
@[simp] theorem State.store_lace (s : State) (a : Nat) (bs : List Byte) : (s.store a bs).lace = s.lace := rfl
@[simp] theorem State.store_net (s : State) (a : Nat) (bs : List Byte) : (s.store a bs).net = s.net := rfl
@[simp] theorem State.store_awl (s : State) (a : Nat) (bs : List Byte) : (s.store a bs).awl = s.awl := rfl
@[simp] theorem State.store_mon (s : State) (a : Nat) (bs : List Byte) : (s.store a bs).mon = s.mon := rfl
@[simp] theorem State.store_dec (s : State) (a : Nat) (bs : List Byte) : (s.store a bs).dec = s.dec := rfl
@[simp] theorem State.store_ram (s : State) (a : Nat) (bs : List Byte) : (s.store a bs).ram = Memory.writeBytes s.ram a bs := rfl
@[simp] theorem State.store_freeCtr (s : State) (a : Nat) (bs : List Byte) : (s.store a bs).freeCtr = s.freeCtr := rfl

/-! ### setDirect -/

@[simp] theorem State.setDirect_pending (s : State) (r : RegName) (i : List Nat) (w : Word) : (s.setDirect r i w).pending = s.pending := rfl
@[simp] theorem State.setDirect_time (s : State) (r : RegName) (i : List Nat) (w : Word) : (s.setDirect r i w).time = s.time := rfl
@[simp] theorem State.setDirect_regs (s : State) (r : RegName) (i : List Nat) (w : Word) : (s.setDirect r i w).regs = { s.regs with direct := Table.set (resetWord r i) s.regs.direct (regAddr r i) w } := rfl
@[simp] theorem State.setDirect_cfg (s : State) (r : RegName) (i : List Nat) (w : Word) : (s.setDirect r i w).cfg = s.cfg := rfl
@[simp] theorem State.setDirect_recs (s : State) (r : RegName) (i : List Nat) (w : Word) : (s.setDirect r i w).recs = s.recs := rfl
@[simp] theorem State.setDirect_ctxs (s : State) (r : RegName) (i : List Nat) (w : Word) : (s.setDirect r i w).ctxs = s.ctxs := rfl
@[simp] theorem State.setDirect_host (s : State) (r : RegName) (i : List Nat) (w : Word) : (s.setDirect r i w).host = s.host := rfl
@[simp] theorem State.setDirect_job (s : State) (r : RegName) (i : List Nat) (w : Word) : (s.setDirect r i w).job = s.job := rfl
@[simp] theorem State.setDirect_outs (s : State) (r : RegName) (i : List Nat) (w : Word) : (s.setDirect r i w).outs = s.outs := rfl
@[simp] theorem State.setDirect_sq (s : State) (r : RegName) (i : List Nat) (w : Word) : (s.setDirect r i w).sq = s.sq := rfl
@[simp] theorem State.setDirect_place (s : State) (r : RegName) (i : List Nat) (w : Word) : (s.setDirect r i w).place = s.place := rfl
@[simp] theorem State.setDirect_rdo (s : State) (r : RegName) (i : List Nat) (w : Word) : (s.setDirect r i w).rdo = s.rdo := rfl
@[simp] theorem State.setDirect_dsps (s : State) (r : RegName) (i : List Nat) (w : Word) : (s.setDirect r i w).dsps = s.dsps := rfl
@[simp] theorem State.setDirect_planes (s : State) (r : RegName) (i : List Nat) (w : Word) : (s.setDirect r i w).planes = s.planes := rfl
@[simp] theorem State.setDirect_bias (s : State) (r : RegName) (i : List Nat) (w : Word) : (s.setDirect r i w).bias = s.bias := rfl
@[simp] theorem State.setDirect_nv (s : State) (r : RegName) (i : List Nat) (w : Word) : (s.setDirect r i w).nv = s.nv := rfl
@[simp] theorem State.setDirect_sys (s : State) (r : RegName) (i : List Nat) (w : Word) : (s.setDirect r i w).sys = s.sys := rfl
@[simp] theorem State.setDirect_pwr (s : State) (r : RegName) (i : List Nat) (w : Word) : (s.setDirect r i w).pwr = s.pwr := rfl
@[simp] theorem State.setDirect_eng (s : State) (r : RegName) (i : List Nat) (w : Word) : (s.setDirect r i w).eng = s.eng := rfl
@[simp] theorem State.setDirect_cal (s : State) (r : RegName) (i : List Nat) (w : Word) : (s.setDirect r i w).cal = s.cal := rfl
@[simp] theorem State.setDirect_sec (s : State) (r : RegName) (i : List Nat) (w : Word) : (s.setDirect r i w).sec = s.sec := rfl
@[simp] theorem State.setDirect_lace (s : State) (r : RegName) (i : List Nat) (w : Word) : (s.setDirect r i w).lace = s.lace := rfl
@[simp] theorem State.setDirect_net (s : State) (r : RegName) (i : List Nat) (w : Word) : (s.setDirect r i w).net = s.net := rfl
@[simp] theorem State.setDirect_awl (s : State) (r : RegName) (i : List Nat) (w : Word) : (s.setDirect r i w).awl = s.awl := rfl
@[simp] theorem State.setDirect_mon (s : State) (r : RegName) (i : List Nat) (w : Word) : (s.setDirect r i w).mon = s.mon := rfl
@[simp] theorem State.setDirect_dec (s : State) (r : RegName) (i : List Nat) (w : Word) : (s.setDirect r i w).dec = s.dec := rfl
@[simp] theorem State.setDirect_ram (s : State) (r : RegName) (i : List Nat) (w : Word) : (s.setDirect r i w).ram = s.ram := rfl
@[simp] theorem State.setDirect_freeCtr (s : State) (r : RegName) (i : List Nat) (w : Word) : (s.setDirect r i w).freeCtr = s.freeCtr := rfl

/-! ### setLive -/

@[simp] theorem State.setLive_pending (s : State) (r : RegName) (i : List Nat) (w : Word) : (s.setLive r i w).pending = s.pending := rfl
@[simp] theorem State.setLive_time (s : State) (r : RegName) (i : List Nat) (w : Word) : (s.setLive r i w).time = s.time := rfl
@[simp] theorem State.setLive_regs (s : State) (r : RegName) (i : List Nat) (w : Word) : (s.setLive r i w).regs = { s.regs with live := Table.set (resetWord r i) s.regs.live (regAddr r i) w } := rfl
@[simp] theorem State.setLive_cfg (s : State) (r : RegName) (i : List Nat) (w : Word) : (s.setLive r i w).cfg = s.cfg := rfl
@[simp] theorem State.setLive_recs (s : State) (r : RegName) (i : List Nat) (w : Word) : (s.setLive r i w).recs = s.recs := rfl
@[simp] theorem State.setLive_ctxs (s : State) (r : RegName) (i : List Nat) (w : Word) : (s.setLive r i w).ctxs = s.ctxs := rfl
@[simp] theorem State.setLive_host (s : State) (r : RegName) (i : List Nat) (w : Word) : (s.setLive r i w).host = s.host := rfl
@[simp] theorem State.setLive_job (s : State) (r : RegName) (i : List Nat) (w : Word) : (s.setLive r i w).job = s.job := rfl
@[simp] theorem State.setLive_outs (s : State) (r : RegName) (i : List Nat) (w : Word) : (s.setLive r i w).outs = s.outs := rfl
@[simp] theorem State.setLive_sq (s : State) (r : RegName) (i : List Nat) (w : Word) : (s.setLive r i w).sq = s.sq := rfl
@[simp] theorem State.setLive_place (s : State) (r : RegName) (i : List Nat) (w : Word) : (s.setLive r i w).place = s.place := rfl
@[simp] theorem State.setLive_rdo (s : State) (r : RegName) (i : List Nat) (w : Word) : (s.setLive r i w).rdo = s.rdo := rfl
@[simp] theorem State.setLive_dsps (s : State) (r : RegName) (i : List Nat) (w : Word) : (s.setLive r i w).dsps = s.dsps := rfl
@[simp] theorem State.setLive_planes (s : State) (r : RegName) (i : List Nat) (w : Word) : (s.setLive r i w).planes = s.planes := rfl
@[simp] theorem State.setLive_bias (s : State) (r : RegName) (i : List Nat) (w : Word) : (s.setLive r i w).bias = s.bias := rfl
@[simp] theorem State.setLive_nv (s : State) (r : RegName) (i : List Nat) (w : Word) : (s.setLive r i w).nv = s.nv := rfl
@[simp] theorem State.setLive_sys (s : State) (r : RegName) (i : List Nat) (w : Word) : (s.setLive r i w).sys = s.sys := rfl
@[simp] theorem State.setLive_pwr (s : State) (r : RegName) (i : List Nat) (w : Word) : (s.setLive r i w).pwr = s.pwr := rfl
@[simp] theorem State.setLive_eng (s : State) (r : RegName) (i : List Nat) (w : Word) : (s.setLive r i w).eng = s.eng := rfl
@[simp] theorem State.setLive_cal (s : State) (r : RegName) (i : List Nat) (w : Word) : (s.setLive r i w).cal = s.cal := rfl
@[simp] theorem State.setLive_sec (s : State) (r : RegName) (i : List Nat) (w : Word) : (s.setLive r i w).sec = s.sec := rfl
@[simp] theorem State.setLive_lace (s : State) (r : RegName) (i : List Nat) (w : Word) : (s.setLive r i w).lace = s.lace := rfl
@[simp] theorem State.setLive_net (s : State) (r : RegName) (i : List Nat) (w : Word) : (s.setLive r i w).net = s.net := rfl
@[simp] theorem State.setLive_awl (s : State) (r : RegName) (i : List Nat) (w : Word) : (s.setLive r i w).awl = s.awl := rfl
@[simp] theorem State.setLive_mon (s : State) (r : RegName) (i : List Nat) (w : Word) : (s.setLive r i w).mon = s.mon := rfl
@[simp] theorem State.setLive_dec (s : State) (r : RegName) (i : List Nat) (w : Word) : (s.setLive r i w).dec = s.dec := rfl
@[simp] theorem State.setLive_ram (s : State) (r : RegName) (i : List Nat) (w : Word) : (s.setLive r i w).ram = s.ram := rfl
@[simp] theorem State.setLive_freeCtr (s : State) (r : RegName) (i : List Nat) (w : Word) : (s.setLive r i w).freeCtr = s.freeCtr := rfl

/-! ### setShadow -/

@[simp] theorem State.setShadow_pending (s : State) (r : RegName) (i : List Nat) (w : Word) : (s.setShadow r i w).pending = s.pending := rfl
@[simp] theorem State.setShadow_time (s : State) (r : RegName) (i : List Nat) (w : Word) : (s.setShadow r i w).time = s.time := rfl
@[simp] theorem State.setShadow_regs (s : State) (r : RegName) (i : List Nat) (w : Word) : (s.setShadow r i w).regs = { s.regs with shadow := Table.set (resetWord r i) s.regs.shadow (regAddr r i) w } := rfl
@[simp] theorem State.setShadow_cfg (s : State) (r : RegName) (i : List Nat) (w : Word) : (s.setShadow r i w).cfg = s.cfg := rfl
@[simp] theorem State.setShadow_recs (s : State) (r : RegName) (i : List Nat) (w : Word) : (s.setShadow r i w).recs = s.recs := rfl
@[simp] theorem State.setShadow_ctxs (s : State) (r : RegName) (i : List Nat) (w : Word) : (s.setShadow r i w).ctxs = s.ctxs := rfl
@[simp] theorem State.setShadow_host (s : State) (r : RegName) (i : List Nat) (w : Word) : (s.setShadow r i w).host = s.host := rfl
@[simp] theorem State.setShadow_job (s : State) (r : RegName) (i : List Nat) (w : Word) : (s.setShadow r i w).job = s.job := rfl
@[simp] theorem State.setShadow_outs (s : State) (r : RegName) (i : List Nat) (w : Word) : (s.setShadow r i w).outs = s.outs := rfl
@[simp] theorem State.setShadow_sq (s : State) (r : RegName) (i : List Nat) (w : Word) : (s.setShadow r i w).sq = s.sq := rfl
@[simp] theorem State.setShadow_place (s : State) (r : RegName) (i : List Nat) (w : Word) : (s.setShadow r i w).place = s.place := rfl
@[simp] theorem State.setShadow_rdo (s : State) (r : RegName) (i : List Nat) (w : Word) : (s.setShadow r i w).rdo = s.rdo := rfl
@[simp] theorem State.setShadow_dsps (s : State) (r : RegName) (i : List Nat) (w : Word) : (s.setShadow r i w).dsps = s.dsps := rfl
@[simp] theorem State.setShadow_planes (s : State) (r : RegName) (i : List Nat) (w : Word) : (s.setShadow r i w).planes = s.planes := rfl
@[simp] theorem State.setShadow_bias (s : State) (r : RegName) (i : List Nat) (w : Word) : (s.setShadow r i w).bias = s.bias := rfl
@[simp] theorem State.setShadow_nv (s : State) (r : RegName) (i : List Nat) (w : Word) : (s.setShadow r i w).nv = s.nv := rfl
@[simp] theorem State.setShadow_sys (s : State) (r : RegName) (i : List Nat) (w : Word) : (s.setShadow r i w).sys = s.sys := rfl
@[simp] theorem State.setShadow_pwr (s : State) (r : RegName) (i : List Nat) (w : Word) : (s.setShadow r i w).pwr = s.pwr := rfl
@[simp] theorem State.setShadow_eng (s : State) (r : RegName) (i : List Nat) (w : Word) : (s.setShadow r i w).eng = s.eng := rfl
@[simp] theorem State.setShadow_cal (s : State) (r : RegName) (i : List Nat) (w : Word) : (s.setShadow r i w).cal = s.cal := rfl
@[simp] theorem State.setShadow_sec (s : State) (r : RegName) (i : List Nat) (w : Word) : (s.setShadow r i w).sec = s.sec := rfl
@[simp] theorem State.setShadow_lace (s : State) (r : RegName) (i : List Nat) (w : Word) : (s.setShadow r i w).lace = s.lace := rfl
@[simp] theorem State.setShadow_net (s : State) (r : RegName) (i : List Nat) (w : Word) : (s.setShadow r i w).net = s.net := rfl
@[simp] theorem State.setShadow_awl (s : State) (r : RegName) (i : List Nat) (w : Word) : (s.setShadow r i w).awl = s.awl := rfl
@[simp] theorem State.setShadow_mon (s : State) (r : RegName) (i : List Nat) (w : Word) : (s.setShadow r i w).mon = s.mon := rfl
@[simp] theorem State.setShadow_dec (s : State) (r : RegName) (i : List Nat) (w : Word) : (s.setShadow r i w).dec = s.dec := rfl
@[simp] theorem State.setShadow_ram (s : State) (r : RegName) (i : List Nat) (w : Word) : (s.setShadow r i w).ram = s.ram := rfl
@[simp] theorem State.setShadow_freeCtr (s : State) (r : RegName) (i : List Nat) (w : Word) : (s.setShadow r i w).freeCtr = s.freeCtr := rfl

/-! ### updCtx -/

@[simp] theorem State.updCtx_pending (s : State) (c : Nat) (f : Ctx → Ctx) : (s.updCtx c f).pending = s.pending := rfl
@[simp] theorem State.updCtx_time (s : State) (c : Nat) (f : Ctx → Ctx) : (s.updCtx c f).time = s.time := rfl
@[simp] theorem State.updCtx_regs (s : State) (c : Nat) (f : Ctx → Ctx) : (s.updCtx c f).regs = s.regs := rfl
@[simp] theorem State.updCtx_cfg (s : State) (c : Nat) (f : Ctx → Ctx) : (s.updCtx c f).cfg = s.cfg := rfl
@[simp] theorem State.updCtx_recs (s : State) (c : Nat) (f : Ctx → Ctx) : (s.updCtx c f).recs = s.recs := rfl
@[simp] theorem State.updCtx_ctxs (s : State) (c : Nat) (f : Ctx → Ctx) : (s.updCtx c f).ctxs = Table.upd {} s.ctxs c f := rfl
@[simp] theorem State.updCtx_host (s : State) (c : Nat) (f : Ctx → Ctx) : (s.updCtx c f).host = s.host := rfl
@[simp] theorem State.updCtx_job (s : State) (c : Nat) (f : Ctx → Ctx) : (s.updCtx c f).job = s.job := rfl
@[simp] theorem State.updCtx_outs (s : State) (c : Nat) (f : Ctx → Ctx) : (s.updCtx c f).outs = s.outs := rfl
@[simp] theorem State.updCtx_sq (s : State) (c : Nat) (f : Ctx → Ctx) : (s.updCtx c f).sq = s.sq := rfl
@[simp] theorem State.updCtx_place (s : State) (c : Nat) (f : Ctx → Ctx) : (s.updCtx c f).place = s.place := rfl
@[simp] theorem State.updCtx_rdo (s : State) (c : Nat) (f : Ctx → Ctx) : (s.updCtx c f).rdo = s.rdo := rfl
@[simp] theorem State.updCtx_dsps (s : State) (c : Nat) (f : Ctx → Ctx) : (s.updCtx c f).dsps = s.dsps := rfl
@[simp] theorem State.updCtx_planes (s : State) (c : Nat) (f : Ctx → Ctx) : (s.updCtx c f).planes = s.planes := rfl
@[simp] theorem State.updCtx_bias (s : State) (c : Nat) (f : Ctx → Ctx) : (s.updCtx c f).bias = s.bias := rfl
@[simp] theorem State.updCtx_nv (s : State) (c : Nat) (f : Ctx → Ctx) : (s.updCtx c f).nv = s.nv := rfl
@[simp] theorem State.updCtx_sys (s : State) (c : Nat) (f : Ctx → Ctx) : (s.updCtx c f).sys = s.sys := rfl
@[simp] theorem State.updCtx_pwr (s : State) (c : Nat) (f : Ctx → Ctx) : (s.updCtx c f).pwr = s.pwr := rfl
@[simp] theorem State.updCtx_eng (s : State) (c : Nat) (f : Ctx → Ctx) : (s.updCtx c f).eng = s.eng := rfl
@[simp] theorem State.updCtx_cal (s : State) (c : Nat) (f : Ctx → Ctx) : (s.updCtx c f).cal = s.cal := rfl
@[simp] theorem State.updCtx_sec (s : State) (c : Nat) (f : Ctx → Ctx) : (s.updCtx c f).sec = s.sec := rfl
@[simp] theorem State.updCtx_lace (s : State) (c : Nat) (f : Ctx → Ctx) : (s.updCtx c f).lace = s.lace := rfl
@[simp] theorem State.updCtx_net (s : State) (c : Nat) (f : Ctx → Ctx) : (s.updCtx c f).net = s.net := rfl
@[simp] theorem State.updCtx_awl (s : State) (c : Nat) (f : Ctx → Ctx) : (s.updCtx c f).awl = s.awl := rfl
@[simp] theorem State.updCtx_mon (s : State) (c : Nat) (f : Ctx → Ctx) : (s.updCtx c f).mon = s.mon := rfl
@[simp] theorem State.updCtx_dec (s : State) (c : Nat) (f : Ctx → Ctx) : (s.updCtx c f).dec = s.dec := rfl
@[simp] theorem State.updCtx_ram (s : State) (c : Nat) (f : Ctx → Ctx) : (s.updCtx c f).ram = s.ram := rfl
@[simp] theorem State.updCtx_freeCtr (s : State) (c : Nat) (f : Ctx → Ctx) : (s.updCtx c f).freeCtr = s.freeCtr := rfl

/-! ### updJob -/

@[simp] theorem State.updJob_pending (s : State) (f : Job → Job) : (s.updJob f).pending = s.pending := rfl
@[simp] theorem State.updJob_time (s : State) (f : Job → Job) : (s.updJob f).time = s.time := rfl
@[simp] theorem State.updJob_regs (s : State) (f : Job → Job) : (s.updJob f).regs = s.regs := rfl
@[simp] theorem State.updJob_cfg (s : State) (f : Job → Job) : (s.updJob f).cfg = s.cfg := rfl
@[simp] theorem State.updJob_recs (s : State) (f : Job → Job) : (s.updJob f).recs = s.recs := rfl
@[simp] theorem State.updJob_ctxs (s : State) (f : Job → Job) : (s.updJob f).ctxs = s.ctxs := rfl
@[simp] theorem State.updJob_host (s : State) (f : Job → Job) : (s.updJob f).host = s.host := rfl
@[simp] theorem State.updJob_job (s : State) (f : Job → Job) : (s.updJob f).job = { s.job with job := s.job.job.map f } := rfl
@[simp] theorem State.updJob_outs (s : State) (f : Job → Job) : (s.updJob f).outs = s.outs := rfl
@[simp] theorem State.updJob_sq (s : State) (f : Job → Job) : (s.updJob f).sq = s.sq := rfl
@[simp] theorem State.updJob_place (s : State) (f : Job → Job) : (s.updJob f).place = s.place := rfl
@[simp] theorem State.updJob_rdo (s : State) (f : Job → Job) : (s.updJob f).rdo = s.rdo := rfl
@[simp] theorem State.updJob_dsps (s : State) (f : Job → Job) : (s.updJob f).dsps = s.dsps := rfl
@[simp] theorem State.updJob_planes (s : State) (f : Job → Job) : (s.updJob f).planes = s.planes := rfl
@[simp] theorem State.updJob_bias (s : State) (f : Job → Job) : (s.updJob f).bias = s.bias := rfl
@[simp] theorem State.updJob_nv (s : State) (f : Job → Job) : (s.updJob f).nv = s.nv := rfl
@[simp] theorem State.updJob_sys (s : State) (f : Job → Job) : (s.updJob f).sys = s.sys := rfl
@[simp] theorem State.updJob_pwr (s : State) (f : Job → Job) : (s.updJob f).pwr = s.pwr := rfl
@[simp] theorem State.updJob_eng (s : State) (f : Job → Job) : (s.updJob f).eng = s.eng := rfl
@[simp] theorem State.updJob_cal (s : State) (f : Job → Job) : (s.updJob f).cal = s.cal := rfl
@[simp] theorem State.updJob_sec (s : State) (f : Job → Job) : (s.updJob f).sec = s.sec := rfl
@[simp] theorem State.updJob_lace (s : State) (f : Job → Job) : (s.updJob f).lace = s.lace := rfl
@[simp] theorem State.updJob_net (s : State) (f : Job → Job) : (s.updJob f).net = s.net := rfl
@[simp] theorem State.updJob_awl (s : State) (f : Job → Job) : (s.updJob f).awl = s.awl := rfl
@[simp] theorem State.updJob_mon (s : State) (f : Job → Job) : (s.updJob f).mon = s.mon := rfl
@[simp] theorem State.updJob_dec (s : State) (f : Job → Job) : (s.updJob f).dec = s.dec := rfl
@[simp] theorem State.updJob_ram (s : State) (f : Job → Job) : (s.updJob f).ram = s.ram := rfl
@[simp] theorem State.updJob_freeCtr (s : State) (f : Job → Job) : (s.updJob f).freeCtr = s.freeCtr := rfl

/-! ### updChan -/

@[simp] theorem State.updChan_pending (s : State) (k : Nat) (f : Chan → Chan) : (s.updChan k f).pending = s.pending := rfl
@[simp] theorem State.updChan_time (s : State) (k : Nat) (f : Chan → Chan) : (s.updChan k f).time = s.time := rfl
@[simp] theorem State.updChan_regs (s : State) (k : Nat) (f : Chan → Chan) : (s.updChan k f).regs = s.regs := rfl
@[simp] theorem State.updChan_cfg (s : State) (k : Nat) (f : Chan → Chan) : (s.updChan k f).cfg = s.cfg := rfl
@[simp] theorem State.updChan_recs (s : State) (k : Nat) (f : Chan → Chan) : (s.updChan k f).recs = s.recs := rfl
@[simp] theorem State.updChan_ctxs (s : State) (k : Nat) (f : Chan → Chan) : (s.updChan k f).ctxs = s.ctxs := rfl
@[simp] theorem State.updChan_host (s : State) (k : Nat) (f : Chan → Chan) : (s.updChan k f).host = s.host := rfl
@[simp] theorem State.updChan_job (s : State) (k : Nat) (f : Chan → Chan) : (s.updChan k f).job = s.job := rfl
@[simp] theorem State.updChan_outs (s : State) (k : Nat) (f : Chan → Chan) : (s.updChan k f).outs = { s.outs with chans := Table.upd {} s.outs.chans k f } := rfl
@[simp] theorem State.updChan_sq (s : State) (k : Nat) (f : Chan → Chan) : (s.updChan k f).sq = s.sq := rfl
@[simp] theorem State.updChan_place (s : State) (k : Nat) (f : Chan → Chan) : (s.updChan k f).place = s.place := rfl
@[simp] theorem State.updChan_rdo (s : State) (k : Nat) (f : Chan → Chan) : (s.updChan k f).rdo = s.rdo := rfl
@[simp] theorem State.updChan_dsps (s : State) (k : Nat) (f : Chan → Chan) : (s.updChan k f).dsps = s.dsps := rfl
@[simp] theorem State.updChan_planes (s : State) (k : Nat) (f : Chan → Chan) : (s.updChan k f).planes = s.planes := rfl
@[simp] theorem State.updChan_bias (s : State) (k : Nat) (f : Chan → Chan) : (s.updChan k f).bias = s.bias := rfl
@[simp] theorem State.updChan_nv (s : State) (k : Nat) (f : Chan → Chan) : (s.updChan k f).nv = s.nv := rfl
@[simp] theorem State.updChan_sys (s : State) (k : Nat) (f : Chan → Chan) : (s.updChan k f).sys = s.sys := rfl
@[simp] theorem State.updChan_pwr (s : State) (k : Nat) (f : Chan → Chan) : (s.updChan k f).pwr = s.pwr := rfl
@[simp] theorem State.updChan_eng (s : State) (k : Nat) (f : Chan → Chan) : (s.updChan k f).eng = s.eng := rfl
@[simp] theorem State.updChan_cal (s : State) (k : Nat) (f : Chan → Chan) : (s.updChan k f).cal = s.cal := rfl
@[simp] theorem State.updChan_sec (s : State) (k : Nat) (f : Chan → Chan) : (s.updChan k f).sec = s.sec := rfl
@[simp] theorem State.updChan_lace (s : State) (k : Nat) (f : Chan → Chan) : (s.updChan k f).lace = s.lace := rfl
@[simp] theorem State.updChan_net (s : State) (k : Nat) (f : Chan → Chan) : (s.updChan k f).net = s.net := rfl
@[simp] theorem State.updChan_awl (s : State) (k : Nat) (f : Chan → Chan) : (s.updChan k f).awl = s.awl := rfl
@[simp] theorem State.updChan_mon (s : State) (k : Nat) (f : Chan → Chan) : (s.updChan k f).mon = s.mon := rfl
@[simp] theorem State.updChan_dec (s : State) (k : Nat) (f : Chan → Chan) : (s.updChan k f).dec = s.dec := rfl
@[simp] theorem State.updChan_ram (s : State) (k : Nat) (f : Chan → Chan) : (s.updChan k f).ram = s.ram := rfl
@[simp] theorem State.updChan_freeCtr (s : State) (k : Nat) (f : Chan → Chan) : (s.updChan k f).freeCtr = s.freeCtr := rfl

/-! ### updQueue -/

@[simp] theorem State.updQueue_pending (s : State) (w : Nat) (f : WQueue → WQueue) : (s.updQueue w f).pending = s.pending := rfl
@[simp] theorem State.updQueue_time (s : State) (w : Nat) (f : WQueue → WQueue) : (s.updQueue w f).time = s.time := rfl
@[simp] theorem State.updQueue_regs (s : State) (w : Nat) (f : WQueue → WQueue) : (s.updQueue w f).regs = s.regs := rfl
@[simp] theorem State.updQueue_cfg (s : State) (w : Nat) (f : WQueue → WQueue) : (s.updQueue w f).cfg = s.cfg := rfl
@[simp] theorem State.updQueue_recs (s : State) (w : Nat) (f : WQueue → WQueue) : (s.updQueue w f).recs = s.recs := rfl
@[simp] theorem State.updQueue_ctxs (s : State) (w : Nat) (f : WQueue → WQueue) : (s.updQueue w f).ctxs = s.ctxs := rfl
@[simp] theorem State.updQueue_host (s : State) (w : Nat) (f : WQueue → WQueue) : (s.updQueue w f).host = s.host := rfl
@[simp] theorem State.updQueue_job (s : State) (w : Nat) (f : WQueue → WQueue) : (s.updQueue w f).job = s.job := rfl
@[simp] theorem State.updQueue_outs (s : State) (w : Nat) (f : WQueue → WQueue) : (s.updQueue w f).outs = { s.outs with queues := Table.upd {} s.outs.queues w f } := rfl
@[simp] theorem State.updQueue_sq (s : State) (w : Nat) (f : WQueue → WQueue) : (s.updQueue w f).sq = s.sq := rfl
@[simp] theorem State.updQueue_place (s : State) (w : Nat) (f : WQueue → WQueue) : (s.updQueue w f).place = s.place := rfl
@[simp] theorem State.updQueue_rdo (s : State) (w : Nat) (f : WQueue → WQueue) : (s.updQueue w f).rdo = s.rdo := rfl
@[simp] theorem State.updQueue_dsps (s : State) (w : Nat) (f : WQueue → WQueue) : (s.updQueue w f).dsps = s.dsps := rfl
@[simp] theorem State.updQueue_planes (s : State) (w : Nat) (f : WQueue → WQueue) : (s.updQueue w f).planes = s.planes := rfl
@[simp] theorem State.updQueue_bias (s : State) (w : Nat) (f : WQueue → WQueue) : (s.updQueue w f).bias = s.bias := rfl
@[simp] theorem State.updQueue_nv (s : State) (w : Nat) (f : WQueue → WQueue) : (s.updQueue w f).nv = s.nv := rfl
@[simp] theorem State.updQueue_sys (s : State) (w : Nat) (f : WQueue → WQueue) : (s.updQueue w f).sys = s.sys := rfl
@[simp] theorem State.updQueue_pwr (s : State) (w : Nat) (f : WQueue → WQueue) : (s.updQueue w f).pwr = s.pwr := rfl
@[simp] theorem State.updQueue_eng (s : State) (w : Nat) (f : WQueue → WQueue) : (s.updQueue w f).eng = s.eng := rfl
@[simp] theorem State.updQueue_cal (s : State) (w : Nat) (f : WQueue → WQueue) : (s.updQueue w f).cal = s.cal := rfl
@[simp] theorem State.updQueue_sec (s : State) (w : Nat) (f : WQueue → WQueue) : (s.updQueue w f).sec = s.sec := rfl
@[simp] theorem State.updQueue_lace (s : State) (w : Nat) (f : WQueue → WQueue) : (s.updQueue w f).lace = s.lace := rfl
@[simp] theorem State.updQueue_net (s : State) (w : Nat) (f : WQueue → WQueue) : (s.updQueue w f).net = s.net := rfl
@[simp] theorem State.updQueue_awl (s : State) (w : Nat) (f : WQueue → WQueue) : (s.updQueue w f).awl = s.awl := rfl
@[simp] theorem State.updQueue_mon (s : State) (w : Nat) (f : WQueue → WQueue) : (s.updQueue w f).mon = s.mon := rfl
@[simp] theorem State.updQueue_dec (s : State) (w : Nat) (f : WQueue → WQueue) : (s.updQueue w f).dec = s.dec := rfl
@[simp] theorem State.updQueue_ram (s : State) (w : Nat) (f : WQueue → WQueue) : (s.updQueue w f).ram = s.ram := rfl
@[simp] theorem State.updQueue_freeCtr (s : State) (w : Nat) (f : WQueue → WQueue) : (s.updQueue w f).freeCtr = s.freeCtr := rfl

/-! ### updPin -/

@[simp] theorem State.updPin_pending (s : State) (p : Nat) (f : Pin → Pin) : (s.updPin p f).pending = s.pending := rfl
@[simp] theorem State.updPin_time (s : State) (p : Nat) (f : Pin → Pin) : (s.updPin p f).time = s.time := rfl
@[simp] theorem State.updPin_regs (s : State) (p : Nat) (f : Pin → Pin) : (s.updPin p f).regs = s.regs := rfl
@[simp] theorem State.updPin_cfg (s : State) (p : Nat) (f : Pin → Pin) : (s.updPin p f).cfg = s.cfg := rfl
@[simp] theorem State.updPin_recs (s : State) (p : Nat) (f : Pin → Pin) : (s.updPin p f).recs = s.recs := rfl
@[simp] theorem State.updPin_ctxs (s : State) (p : Nat) (f : Pin → Pin) : (s.updPin p f).ctxs = s.ctxs := rfl
@[simp] theorem State.updPin_host (s : State) (p : Nat) (f : Pin → Pin) : (s.updPin p f).host = s.host := rfl
@[simp] theorem State.updPin_job (s : State) (p : Nat) (f : Pin → Pin) : (s.updPin p f).job = s.job := rfl
@[simp] theorem State.updPin_outs (s : State) (p : Nat) (f : Pin → Pin) : (s.updPin p f).outs = { s.outs with pins := Table.upd {} s.outs.pins p f } := rfl
@[simp] theorem State.updPin_sq (s : State) (p : Nat) (f : Pin → Pin) : (s.updPin p f).sq = s.sq := rfl
@[simp] theorem State.updPin_place (s : State) (p : Nat) (f : Pin → Pin) : (s.updPin p f).place = s.place := rfl
@[simp] theorem State.updPin_rdo (s : State) (p : Nat) (f : Pin → Pin) : (s.updPin p f).rdo = s.rdo := rfl
@[simp] theorem State.updPin_dsps (s : State) (p : Nat) (f : Pin → Pin) : (s.updPin p f).dsps = s.dsps := rfl
@[simp] theorem State.updPin_planes (s : State) (p : Nat) (f : Pin → Pin) : (s.updPin p f).planes = s.planes := rfl
@[simp] theorem State.updPin_bias (s : State) (p : Nat) (f : Pin → Pin) : (s.updPin p f).bias = s.bias := rfl
@[simp] theorem State.updPin_nv (s : State) (p : Nat) (f : Pin → Pin) : (s.updPin p f).nv = s.nv := rfl
@[simp] theorem State.updPin_sys (s : State) (p : Nat) (f : Pin → Pin) : (s.updPin p f).sys = s.sys := rfl
@[simp] theorem State.updPin_pwr (s : State) (p : Nat) (f : Pin → Pin) : (s.updPin p f).pwr = s.pwr := rfl
@[simp] theorem State.updPin_eng (s : State) (p : Nat) (f : Pin → Pin) : (s.updPin p f).eng = s.eng := rfl
@[simp] theorem State.updPin_cal (s : State) (p : Nat) (f : Pin → Pin) : (s.updPin p f).cal = s.cal := rfl
@[simp] theorem State.updPin_sec (s : State) (p : Nat) (f : Pin → Pin) : (s.updPin p f).sec = s.sec := rfl
@[simp] theorem State.updPin_lace (s : State) (p : Nat) (f : Pin → Pin) : (s.updPin p f).lace = s.lace := rfl
@[simp] theorem State.updPin_net (s : State) (p : Nat) (f : Pin → Pin) : (s.updPin p f).net = s.net := rfl
@[simp] theorem State.updPin_awl (s : State) (p : Nat) (f : Pin → Pin) : (s.updPin p f).awl = s.awl := rfl
@[simp] theorem State.updPin_mon (s : State) (p : Nat) (f : Pin → Pin) : (s.updPin p f).mon = s.mon := rfl
@[simp] theorem State.updPin_dec (s : State) (p : Nat) (f : Pin → Pin) : (s.updPin p f).dec = s.dec := rfl
@[simp] theorem State.updPin_ram (s : State) (p : Nat) (f : Pin → Pin) : (s.updPin p f).ram = s.ram := rfl
@[simp] theorem State.updPin_freeCtr (s : State) (p : Nat) (f : Pin → Pin) : (s.updPin p f).freeCtr = s.freeCtr := rfl

/-! ### updSeq -/

@[simp] theorem State.updSeq_pending (s : State) (k : Nat) (f : Seq → Seq) : (s.updSeq k f).pending = s.pending := rfl
@[simp] theorem State.updSeq_time (s : State) (k : Nat) (f : Seq → Seq) : (s.updSeq k f).time = s.time := rfl
@[simp] theorem State.updSeq_regs (s : State) (k : Nat) (f : Seq → Seq) : (s.updSeq k f).regs = s.regs := rfl
@[simp] theorem State.updSeq_cfg (s : State) (k : Nat) (f : Seq → Seq) : (s.updSeq k f).cfg = s.cfg := rfl
@[simp] theorem State.updSeq_recs (s : State) (k : Nat) (f : Seq → Seq) : (s.updSeq k f).recs = s.recs := rfl
@[simp] theorem State.updSeq_ctxs (s : State) (k : Nat) (f : Seq → Seq) : (s.updSeq k f).ctxs = s.ctxs := rfl
@[simp] theorem State.updSeq_host (s : State) (k : Nat) (f : Seq → Seq) : (s.updSeq k f).host = s.host := rfl
@[simp] theorem State.updSeq_job (s : State) (k : Nat) (f : Seq → Seq) : (s.updSeq k f).job = s.job := rfl
@[simp] theorem State.updSeq_outs (s : State) (k : Nat) (f : Seq → Seq) : (s.updSeq k f).outs = s.outs := rfl
@[simp] theorem State.updSeq_sq (s : State) (k : Nat) (f : Seq → Seq) : (s.updSeq k f).sq = { s.sq with seqs := Table.upd {} s.sq.seqs k f } := rfl
@[simp] theorem State.updSeq_place (s : State) (k : Nat) (f : Seq → Seq) : (s.updSeq k f).place = s.place := rfl
@[simp] theorem State.updSeq_rdo (s : State) (k : Nat) (f : Seq → Seq) : (s.updSeq k f).rdo = s.rdo := rfl
@[simp] theorem State.updSeq_dsps (s : State) (k : Nat) (f : Seq → Seq) : (s.updSeq k f).dsps = s.dsps := rfl
@[simp] theorem State.updSeq_planes (s : State) (k : Nat) (f : Seq → Seq) : (s.updSeq k f).planes = s.planes := rfl
@[simp] theorem State.updSeq_bias (s : State) (k : Nat) (f : Seq → Seq) : (s.updSeq k f).bias = s.bias := rfl
@[simp] theorem State.updSeq_nv (s : State) (k : Nat) (f : Seq → Seq) : (s.updSeq k f).nv = s.nv := rfl
@[simp] theorem State.updSeq_sys (s : State) (k : Nat) (f : Seq → Seq) : (s.updSeq k f).sys = s.sys := rfl
@[simp] theorem State.updSeq_pwr (s : State) (k : Nat) (f : Seq → Seq) : (s.updSeq k f).pwr = s.pwr := rfl
@[simp] theorem State.updSeq_eng (s : State) (k : Nat) (f : Seq → Seq) : (s.updSeq k f).eng = s.eng := rfl
@[simp] theorem State.updSeq_cal (s : State) (k : Nat) (f : Seq → Seq) : (s.updSeq k f).cal = s.cal := rfl
@[simp] theorem State.updSeq_sec (s : State) (k : Nat) (f : Seq → Seq) : (s.updSeq k f).sec = s.sec := rfl
@[simp] theorem State.updSeq_lace (s : State) (k : Nat) (f : Seq → Seq) : (s.updSeq k f).lace = s.lace := rfl
@[simp] theorem State.updSeq_net (s : State) (k : Nat) (f : Seq → Seq) : (s.updSeq k f).net = s.net := rfl
@[simp] theorem State.updSeq_awl (s : State) (k : Nat) (f : Seq → Seq) : (s.updSeq k f).awl = s.awl := rfl
@[simp] theorem State.updSeq_mon (s : State) (k : Nat) (f : Seq → Seq) : (s.updSeq k f).mon = s.mon := rfl
@[simp] theorem State.updSeq_dec (s : State) (k : Nat) (f : Seq → Seq) : (s.updSeq k f).dec = s.dec := rfl
@[simp] theorem State.updSeq_ram (s : State) (k : Nat) (f : Seq → Seq) : (s.updSeq k f).ram = s.ram := rfl
@[simp] theorem State.updSeq_freeCtr (s : State) (k : Nat) (f : Seq → Seq) : (s.updSeq k f).freeCtr = s.freeCtr := rfl

/-! ### updDsp -/

@[simp] theorem State.updDsp_pending (s : State) (k : Nat) (f : Dsp → Dsp) : (s.updDsp k f).pending = s.pending := rfl
@[simp] theorem State.updDsp_time (s : State) (k : Nat) (f : Dsp → Dsp) : (s.updDsp k f).time = s.time := rfl
@[simp] theorem State.updDsp_regs (s : State) (k : Nat) (f : Dsp → Dsp) : (s.updDsp k f).regs = s.regs := rfl
@[simp] theorem State.updDsp_cfg (s : State) (k : Nat) (f : Dsp → Dsp) : (s.updDsp k f).cfg = s.cfg := rfl
@[simp] theorem State.updDsp_recs (s : State) (k : Nat) (f : Dsp → Dsp) : (s.updDsp k f).recs = s.recs := rfl
@[simp] theorem State.updDsp_ctxs (s : State) (k : Nat) (f : Dsp → Dsp) : (s.updDsp k f).ctxs = s.ctxs := rfl
@[simp] theorem State.updDsp_host (s : State) (k : Nat) (f : Dsp → Dsp) : (s.updDsp k f).host = s.host := rfl
@[simp] theorem State.updDsp_job (s : State) (k : Nat) (f : Dsp → Dsp) : (s.updDsp k f).job = s.job := rfl
@[simp] theorem State.updDsp_outs (s : State) (k : Nat) (f : Dsp → Dsp) : (s.updDsp k f).outs = s.outs := rfl
@[simp] theorem State.updDsp_sq (s : State) (k : Nat) (f : Dsp → Dsp) : (s.updDsp k f).sq = s.sq := rfl
@[simp] theorem State.updDsp_place (s : State) (k : Nat) (f : Dsp → Dsp) : (s.updDsp k f).place = s.place := rfl
@[simp] theorem State.updDsp_rdo (s : State) (k : Nat) (f : Dsp → Dsp) : (s.updDsp k f).rdo = s.rdo := rfl
@[simp] theorem State.updDsp_dsps (s : State) (k : Nat) (f : Dsp → Dsp) : (s.updDsp k f).dsps = Table.upd {} s.dsps k f := rfl
@[simp] theorem State.updDsp_planes (s : State) (k : Nat) (f : Dsp → Dsp) : (s.updDsp k f).planes = s.planes := rfl
@[simp] theorem State.updDsp_bias (s : State) (k : Nat) (f : Dsp → Dsp) : (s.updDsp k f).bias = s.bias := rfl
@[simp] theorem State.updDsp_nv (s : State) (k : Nat) (f : Dsp → Dsp) : (s.updDsp k f).nv = s.nv := rfl
@[simp] theorem State.updDsp_sys (s : State) (k : Nat) (f : Dsp → Dsp) : (s.updDsp k f).sys = s.sys := rfl
@[simp] theorem State.updDsp_pwr (s : State) (k : Nat) (f : Dsp → Dsp) : (s.updDsp k f).pwr = s.pwr := rfl
@[simp] theorem State.updDsp_eng (s : State) (k : Nat) (f : Dsp → Dsp) : (s.updDsp k f).eng = s.eng := rfl
@[simp] theorem State.updDsp_cal (s : State) (k : Nat) (f : Dsp → Dsp) : (s.updDsp k f).cal = s.cal := rfl
@[simp] theorem State.updDsp_sec (s : State) (k : Nat) (f : Dsp → Dsp) : (s.updDsp k f).sec = s.sec := rfl
@[simp] theorem State.updDsp_lace (s : State) (k : Nat) (f : Dsp → Dsp) : (s.updDsp k f).lace = s.lace := rfl
@[simp] theorem State.updDsp_net (s : State) (k : Nat) (f : Dsp → Dsp) : (s.updDsp k f).net = s.net := rfl
@[simp] theorem State.updDsp_awl (s : State) (k : Nat) (f : Dsp → Dsp) : (s.updDsp k f).awl = s.awl := rfl
@[simp] theorem State.updDsp_mon (s : State) (k : Nat) (f : Dsp → Dsp) : (s.updDsp k f).mon = s.mon := rfl
@[simp] theorem State.updDsp_dec (s : State) (k : Nat) (f : Dsp → Dsp) : (s.updDsp k f).dec = s.dec := rfl
@[simp] theorem State.updDsp_ram (s : State) (k : Nat) (f : Dsp → Dsp) : (s.updDsp k f).ram = s.ram := rfl
@[simp] theorem State.updDsp_freeCtr (s : State) (k : Nat) (f : Dsp → Dsp) : (s.updDsp k f).freeCtr = s.freeCtr := rfl

/-! ### updBias -/

@[simp] theorem State.updBias_pending (s : State) (k : Nat) (f : Bias → Bias) : (s.updBias k f).pending = s.pending := rfl
@[simp] theorem State.updBias_time (s : State) (k : Nat) (f : Bias → Bias) : (s.updBias k f).time = s.time := rfl
@[simp] theorem State.updBias_regs (s : State) (k : Nat) (f : Bias → Bias) : (s.updBias k f).regs = s.regs := rfl
@[simp] theorem State.updBias_cfg (s : State) (k : Nat) (f : Bias → Bias) : (s.updBias k f).cfg = s.cfg := rfl
@[simp] theorem State.updBias_recs (s : State) (k : Nat) (f : Bias → Bias) : (s.updBias k f).recs = s.recs := rfl
@[simp] theorem State.updBias_ctxs (s : State) (k : Nat) (f : Bias → Bias) : (s.updBias k f).ctxs = s.ctxs := rfl
@[simp] theorem State.updBias_host (s : State) (k : Nat) (f : Bias → Bias) : (s.updBias k f).host = s.host := rfl
@[simp] theorem State.updBias_job (s : State) (k : Nat) (f : Bias → Bias) : (s.updBias k f).job = s.job := rfl
@[simp] theorem State.updBias_outs (s : State) (k : Nat) (f : Bias → Bias) : (s.updBias k f).outs = s.outs := rfl
@[simp] theorem State.updBias_sq (s : State) (k : Nat) (f : Bias → Bias) : (s.updBias k f).sq = s.sq := rfl
@[simp] theorem State.updBias_place (s : State) (k : Nat) (f : Bias → Bias) : (s.updBias k f).place = s.place := rfl
@[simp] theorem State.updBias_rdo (s : State) (k : Nat) (f : Bias → Bias) : (s.updBias k f).rdo = s.rdo := rfl
@[simp] theorem State.updBias_dsps (s : State) (k : Nat) (f : Bias → Bias) : (s.updBias k f).dsps = s.dsps := rfl
@[simp] theorem State.updBias_planes (s : State) (k : Nat) (f : Bias → Bias) : (s.updBias k f).planes = s.planes := rfl
@[simp] theorem State.updBias_bias (s : State) (k : Nat) (f : Bias → Bias) : (s.updBias k f).bias = { s.bias with outs := Table.upd {} s.bias.outs k f } := rfl
@[simp] theorem State.updBias_nv (s : State) (k : Nat) (f : Bias → Bias) : (s.updBias k f).nv = s.nv := rfl
@[simp] theorem State.updBias_sys (s : State) (k : Nat) (f : Bias → Bias) : (s.updBias k f).sys = s.sys := rfl
@[simp] theorem State.updBias_pwr (s : State) (k : Nat) (f : Bias → Bias) : (s.updBias k f).pwr = s.pwr := rfl
@[simp] theorem State.updBias_eng (s : State) (k : Nat) (f : Bias → Bias) : (s.updBias k f).eng = s.eng := rfl
@[simp] theorem State.updBias_cal (s : State) (k : Nat) (f : Bias → Bias) : (s.updBias k f).cal = s.cal := rfl
@[simp] theorem State.updBias_sec (s : State) (k : Nat) (f : Bias → Bias) : (s.updBias k f).sec = s.sec := rfl
@[simp] theorem State.updBias_lace (s : State) (k : Nat) (f : Bias → Bias) : (s.updBias k f).lace = s.lace := rfl
@[simp] theorem State.updBias_net (s : State) (k : Nat) (f : Bias → Bias) : (s.updBias k f).net = s.net := rfl
@[simp] theorem State.updBias_awl (s : State) (k : Nat) (f : Bias → Bias) : (s.updBias k f).awl = s.awl := rfl
@[simp] theorem State.updBias_mon (s : State) (k : Nat) (f : Bias → Bias) : (s.updBias k f).mon = s.mon := rfl
@[simp] theorem State.updBias_dec (s : State) (k : Nat) (f : Bias → Bias) : (s.updBias k f).dec = s.dec := rfl
@[simp] theorem State.updBias_ram (s : State) (k : Nat) (f : Bias → Bias) : (s.updBias k f).ram = s.ram := rfl
@[simp] theorem State.updBias_freeCtr (s : State) (k : Nat) (f : Bias → Bias) : (s.updBias k f).freeCtr = s.freeCtr := rfl

/-! ### updPlane -/

@[simp] theorem State.updPlane_pending (s : State) (p : Fin 2) (f : Plane → Plane) : (s.updPlane p f).pending = s.pending := rfl
@[simp] theorem State.updPlane_time (s : State) (p : Fin 2) (f : Plane → Plane) : (s.updPlane p f).time = s.time := rfl
@[simp] theorem State.updPlane_regs (s : State) (p : Fin 2) (f : Plane → Plane) : (s.updPlane p f).regs = s.regs := rfl
@[simp] theorem State.updPlane_cfg (s : State) (p : Fin 2) (f : Plane → Plane) : (s.updPlane p f).cfg = s.cfg := rfl
@[simp] theorem State.updPlane_recs (s : State) (p : Fin 2) (f : Plane → Plane) : (s.updPlane p f).recs = s.recs := rfl
@[simp] theorem State.updPlane_ctxs (s : State) (p : Fin 2) (f : Plane → Plane) : (s.updPlane p f).ctxs = s.ctxs := rfl
@[simp] theorem State.updPlane_host (s : State) (p : Fin 2) (f : Plane → Plane) : (s.updPlane p f).host = s.host := rfl
@[simp] theorem State.updPlane_job (s : State) (p : Fin 2) (f : Plane → Plane) : (s.updPlane p f).job = s.job := rfl
@[simp] theorem State.updPlane_outs (s : State) (p : Fin 2) (f : Plane → Plane) : (s.updPlane p f).outs = s.outs := rfl
@[simp] theorem State.updPlane_sq (s : State) (p : Fin 2) (f : Plane → Plane) : (s.updPlane p f).sq = s.sq := rfl
@[simp] theorem State.updPlane_place (s : State) (p : Fin 2) (f : Plane → Plane) : (s.updPlane p f).place = s.place := rfl
@[simp] theorem State.updPlane_rdo (s : State) (p : Fin 2) (f : Plane → Plane) : (s.updPlane p f).rdo = s.rdo := rfl
@[simp] theorem State.updPlane_dsps (s : State) (p : Fin 2) (f : Plane → Plane) : (s.updPlane p f).dsps = s.dsps := rfl
@[simp] theorem State.updPlane_planes (s : State) (p : Fin 2) (f : Plane → Plane) : (s.updPlane p f).planes = { s.planes with dp := s.planes.dp.set p (f s.planes.dp[p]) } := rfl
@[simp] theorem State.updPlane_bias (s : State) (p : Fin 2) (f : Plane → Plane) : (s.updPlane p f).bias = s.bias := rfl
@[simp] theorem State.updPlane_nv (s : State) (p : Fin 2) (f : Plane → Plane) : (s.updPlane p f).nv = s.nv := rfl
@[simp] theorem State.updPlane_sys (s : State) (p : Fin 2) (f : Plane → Plane) : (s.updPlane p f).sys = s.sys := rfl
@[simp] theorem State.updPlane_pwr (s : State) (p : Fin 2) (f : Plane → Plane) : (s.updPlane p f).pwr = s.pwr := rfl
@[simp] theorem State.updPlane_eng (s : State) (p : Fin 2) (f : Plane → Plane) : (s.updPlane p f).eng = s.eng := rfl
@[simp] theorem State.updPlane_cal (s : State) (p : Fin 2) (f : Plane → Plane) : (s.updPlane p f).cal = s.cal := rfl
@[simp] theorem State.updPlane_sec (s : State) (p : Fin 2) (f : Plane → Plane) : (s.updPlane p f).sec = s.sec := rfl
@[simp] theorem State.updPlane_lace (s : State) (p : Fin 2) (f : Plane → Plane) : (s.updPlane p f).lace = s.lace := rfl
@[simp] theorem State.updPlane_net (s : State) (p : Fin 2) (f : Plane → Plane) : (s.updPlane p f).net = s.net := rfl
@[simp] theorem State.updPlane_awl (s : State) (p : Fin 2) (f : Plane → Plane) : (s.updPlane p f).awl = s.awl := rfl
@[simp] theorem State.updPlane_mon (s : State) (p : Fin 2) (f : Plane → Plane) : (s.updPlane p f).mon = s.mon := rfl
@[simp] theorem State.updPlane_dec (s : State) (p : Fin 2) (f : Plane → Plane) : (s.updPlane p f).dec = s.dec := rfl
@[simp] theorem State.updPlane_ram (s : State) (p : Fin 2) (f : Plane → Plane) : (s.updPlane p f).ram = s.ram := rfl
@[simp] theorem State.updPlane_freeCtr (s : State) (p : Fin 2) (f : Plane → Plane) : (s.updPlane p f).freeCtr = s.freeCtr := rfl

/-! ### updDyn -/

@[simp] theorem State.updDyn_pending (s : State) (p : Fin 2) (f : DecDyn → DecDyn) : (s.updDyn p f).pending = s.pending := rfl
@[simp] theorem State.updDyn_time (s : State) (p : Fin 2) (f : DecDyn → DecDyn) : (s.updDyn p f).time = s.time := rfl
@[simp] theorem State.updDyn_regs (s : State) (p : Fin 2) (f : DecDyn → DecDyn) : (s.updDyn p f).regs = s.regs := rfl
@[simp] theorem State.updDyn_cfg (s : State) (p : Fin 2) (f : DecDyn → DecDyn) : (s.updDyn p f).cfg = s.cfg := rfl
@[simp] theorem State.updDyn_recs (s : State) (p : Fin 2) (f : DecDyn → DecDyn) : (s.updDyn p f).recs = s.recs := rfl
@[simp] theorem State.updDyn_ctxs (s : State) (p : Fin 2) (f : DecDyn → DecDyn) : (s.updDyn p f).ctxs = s.ctxs := rfl
@[simp] theorem State.updDyn_host (s : State) (p : Fin 2) (f : DecDyn → DecDyn) : (s.updDyn p f).host = s.host := rfl
@[simp] theorem State.updDyn_job (s : State) (p : Fin 2) (f : DecDyn → DecDyn) : (s.updDyn p f).job = s.job := rfl
@[simp] theorem State.updDyn_outs (s : State) (p : Fin 2) (f : DecDyn → DecDyn) : (s.updDyn p f).outs = s.outs := rfl
@[simp] theorem State.updDyn_sq (s : State) (p : Fin 2) (f : DecDyn → DecDyn) : (s.updDyn p f).sq = s.sq := rfl
@[simp] theorem State.updDyn_place (s : State) (p : Fin 2) (f : DecDyn → DecDyn) : (s.updDyn p f).place = s.place := rfl
@[simp] theorem State.updDyn_rdo (s : State) (p : Fin 2) (f : DecDyn → DecDyn) : (s.updDyn p f).rdo = s.rdo := rfl
@[simp] theorem State.updDyn_dsps (s : State) (p : Fin 2) (f : DecDyn → DecDyn) : (s.updDyn p f).dsps = s.dsps := rfl
@[simp] theorem State.updDyn_planes (s : State) (p : Fin 2) (f : DecDyn → DecDyn) : (s.updDyn p f).planes = s.planes := rfl
@[simp] theorem State.updDyn_bias (s : State) (p : Fin 2) (f : DecDyn → DecDyn) : (s.updDyn p f).bias = s.bias := rfl
@[simp] theorem State.updDyn_nv (s : State) (p : Fin 2) (f : DecDyn → DecDyn) : (s.updDyn p f).nv = s.nv := rfl
@[simp] theorem State.updDyn_sys (s : State) (p : Fin 2) (f : DecDyn → DecDyn) : (s.updDyn p f).sys = s.sys := rfl
@[simp] theorem State.updDyn_pwr (s : State) (p : Fin 2) (f : DecDyn → DecDyn) : (s.updDyn p f).pwr = s.pwr := rfl
@[simp] theorem State.updDyn_eng (s : State) (p : Fin 2) (f : DecDyn → DecDyn) : (s.updDyn p f).eng = s.eng := rfl
@[simp] theorem State.updDyn_cal (s : State) (p : Fin 2) (f : DecDyn → DecDyn) : (s.updDyn p f).cal = s.cal := rfl
@[simp] theorem State.updDyn_sec (s : State) (p : Fin 2) (f : DecDyn → DecDyn) : (s.updDyn p f).sec = s.sec := rfl
@[simp] theorem State.updDyn_lace (s : State) (p : Fin 2) (f : DecDyn → DecDyn) : (s.updDyn p f).lace = s.lace := rfl
@[simp] theorem State.updDyn_net (s : State) (p : Fin 2) (f : DecDyn → DecDyn) : (s.updDyn p f).net = s.net := rfl
@[simp] theorem State.updDyn_awl (s : State) (p : Fin 2) (f : DecDyn → DecDyn) : (s.updDyn p f).awl = s.awl := rfl
@[simp] theorem State.updDyn_mon (s : State) (p : Fin 2) (f : DecDyn → DecDyn) : (s.updDyn p f).mon = s.mon := rfl
@[simp] theorem State.updDyn_dec (s : State) (p : Fin 2) (f : DecDyn → DecDyn) : (s.updDyn p f).dec = { s.dec with dyn := s.dec.dyn.set p (f s.dec.dyn[p]) } := rfl
@[simp] theorem State.updDyn_ram (s : State) (p : Fin 2) (f : DecDyn → DecDyn) : (s.updDyn p f).ram = s.ram := rfl
@[simp] theorem State.updDyn_freeCtr (s : State) (p : Fin 2) (f : DecDyn → DecDyn) : (s.updDyn p f).freeCtr = s.freeCtr := rfl

/-! ### updSensor -/

@[simp] theorem State.updSensor_pending (s : State) (i : Nat) (f : Sensor → Sensor) : (s.updSensor i f).pending = s.pending := rfl
@[simp] theorem State.updSensor_time (s : State) (i : Nat) (f : Sensor → Sensor) : (s.updSensor i f).time = s.time := rfl
@[simp] theorem State.updSensor_regs (s : State) (i : Nat) (f : Sensor → Sensor) : (s.updSensor i f).regs = s.regs := rfl
@[simp] theorem State.updSensor_cfg (s : State) (i : Nat) (f : Sensor → Sensor) : (s.updSensor i f).cfg = s.cfg := rfl
@[simp] theorem State.updSensor_recs (s : State) (i : Nat) (f : Sensor → Sensor) : (s.updSensor i f).recs = s.recs := rfl
@[simp] theorem State.updSensor_ctxs (s : State) (i : Nat) (f : Sensor → Sensor) : (s.updSensor i f).ctxs = s.ctxs := rfl
@[simp] theorem State.updSensor_host (s : State) (i : Nat) (f : Sensor → Sensor) : (s.updSensor i f).host = s.host := rfl
@[simp] theorem State.updSensor_job (s : State) (i : Nat) (f : Sensor → Sensor) : (s.updSensor i f).job = s.job := rfl
@[simp] theorem State.updSensor_outs (s : State) (i : Nat) (f : Sensor → Sensor) : (s.updSensor i f).outs = s.outs := rfl
@[simp] theorem State.updSensor_sq (s : State) (i : Nat) (f : Sensor → Sensor) : (s.updSensor i f).sq = s.sq := rfl
@[simp] theorem State.updSensor_place (s : State) (i : Nat) (f : Sensor → Sensor) : (s.updSensor i f).place = s.place := rfl
@[simp] theorem State.updSensor_rdo (s : State) (i : Nat) (f : Sensor → Sensor) : (s.updSensor i f).rdo = s.rdo := rfl
@[simp] theorem State.updSensor_dsps (s : State) (i : Nat) (f : Sensor → Sensor) : (s.updSensor i f).dsps = s.dsps := rfl
@[simp] theorem State.updSensor_planes (s : State) (i : Nat) (f : Sensor → Sensor) : (s.updSensor i f).planes = s.planes := rfl
@[simp] theorem State.updSensor_bias (s : State) (i : Nat) (f : Sensor → Sensor) : (s.updSensor i f).bias = s.bias := rfl
@[simp] theorem State.updSensor_nv (s : State) (i : Nat) (f : Sensor → Sensor) : (s.updSensor i f).nv = s.nv := rfl
@[simp] theorem State.updSensor_sys (s : State) (i : Nat) (f : Sensor → Sensor) : (s.updSensor i f).sys = s.sys := rfl
@[simp] theorem State.updSensor_pwr (s : State) (i : Nat) (f : Sensor → Sensor) : (s.updSensor i f).pwr = { s.pwr with sensors := Table.upd {} s.pwr.sensors i f } := rfl
@[simp] theorem State.updSensor_eng (s : State) (i : Nat) (f : Sensor → Sensor) : (s.updSensor i f).eng = s.eng := rfl
@[simp] theorem State.updSensor_cal (s : State) (i : Nat) (f : Sensor → Sensor) : (s.updSensor i f).cal = s.cal := rfl
@[simp] theorem State.updSensor_sec (s : State) (i : Nat) (f : Sensor → Sensor) : (s.updSensor i f).sec = s.sec := rfl
@[simp] theorem State.updSensor_lace (s : State) (i : Nat) (f : Sensor → Sensor) : (s.updSensor i f).lace = s.lace := rfl
@[simp] theorem State.updSensor_net (s : State) (i : Nat) (f : Sensor → Sensor) : (s.updSensor i f).net = s.net := rfl
@[simp] theorem State.updSensor_awl (s : State) (i : Nat) (f : Sensor → Sensor) : (s.updSensor i f).awl = s.awl := rfl
@[simp] theorem State.updSensor_mon (s : State) (i : Nat) (f : Sensor → Sensor) : (s.updSensor i f).mon = s.mon := rfl
@[simp] theorem State.updSensor_dec (s : State) (i : Nat) (f : Sensor → Sensor) : (s.updSensor i f).dec = s.dec := rfl
@[simp] theorem State.updSensor_ram (s : State) (i : Nat) (f : Sensor → Sensor) : (s.updSensor i f).ram = s.ram := rfl
@[simp] theorem State.updSensor_freeCtr (s : State) (i : Nat) (f : Sensor → Sensor) : (s.updSensor i f).freeCtr = s.freeCtr := rfl

/-! ### setCobbler -/

@[simp] theorem State.setCobbler_pending (s : State) (n st : Nat) : (s.setCobbler n st).pending = s.pending := rfl
@[simp] theorem State.setCobbler_time (s : State) (n st : Nat) : (s.setCobbler n st).time = s.time := rfl
@[simp] theorem State.setCobbler_regs (s : State) (n st : Nat) : (s.setCobbler n st).regs = s.regs := rfl
@[simp] theorem State.setCobbler_cfg (s : State) (n st : Nat) : (s.setCobbler n st).cfg = s.cfg := rfl
@[simp] theorem State.setCobbler_recs (s : State) (n st : Nat) : (s.setCobbler n st).recs = s.recs := rfl
@[simp] theorem State.setCobbler_ctxs (s : State) (n st : Nat) : (s.setCobbler n st).ctxs = s.ctxs := rfl
@[simp] theorem State.setCobbler_host (s : State) (n st : Nat) : (s.setCobbler n st).host = s.host := rfl
@[simp] theorem State.setCobbler_job (s : State) (n st : Nat) : (s.setCobbler n st).job = s.job := rfl
@[simp] theorem State.setCobbler_outs (s : State) (n st : Nat) : (s.setCobbler n st).outs = s.outs := rfl
@[simp] theorem State.setCobbler_sq (s : State) (n st : Nat) : (s.setCobbler n st).sq = s.sq := rfl
@[simp] theorem State.setCobbler_place (s : State) (n st : Nat) : (s.setCobbler n st).place = s.place := rfl
@[simp] theorem State.setCobbler_rdo (s : State) (n st : Nat) : (s.setCobbler n st).rdo = s.rdo := rfl
@[simp] theorem State.setCobbler_dsps (s : State) (n st : Nat) : (s.setCobbler n st).dsps = s.dsps := rfl
@[simp] theorem State.setCobbler_planes (s : State) (n st : Nat) : (s.setCobbler n st).planes = s.planes := rfl
@[simp] theorem State.setCobbler_bias (s : State) (n st : Nat) : (s.setCobbler n st).bias = s.bias := rfl
@[simp] theorem State.setCobbler_nv (s : State) (n st : Nat) : (s.setCobbler n st).nv = s.nv := rfl
@[simp] theorem State.setCobbler_sys (s : State) (n st : Nat) : (s.setCobbler n st).sys = s.sys := rfl
@[simp] theorem State.setCobbler_pwr (s : State) (n st : Nat) : (s.setCobbler n st).pwr = s.pwr := rfl
@[simp] theorem State.setCobbler_eng (s : State) (n st : Nat) : (s.setCobbler n st).eng = { s.eng with st := s.eng.st.set! n st } := rfl
@[simp] theorem State.setCobbler_cal (s : State) (n st : Nat) : (s.setCobbler n st).cal = s.cal := rfl
@[simp] theorem State.setCobbler_sec (s : State) (n st : Nat) : (s.setCobbler n st).sec = s.sec := rfl
@[simp] theorem State.setCobbler_lace (s : State) (n st : Nat) : (s.setCobbler n st).lace = s.lace := rfl
@[simp] theorem State.setCobbler_net (s : State) (n st : Nat) : (s.setCobbler n st).net = s.net := rfl
@[simp] theorem State.setCobbler_awl (s : State) (n st : Nat) : (s.setCobbler n st).awl = s.awl := rfl
@[simp] theorem State.setCobbler_mon (s : State) (n st : Nat) : (s.setCobbler n st).mon = s.mon := rfl
@[simp] theorem State.setCobbler_dec (s : State) (n st : Nat) : (s.setCobbler n st).dec = s.dec := rfl
@[simp] theorem State.setCobbler_ram (s : State) (n st : Nat) : (s.setCobbler n st).ram = s.ram := rfl
@[simp] theorem State.setCobbler_freeCtr (s : State) (n st : Nat) : (s.setCobbler n st).freeCtr = s.freeCtr := rfl

/-! ### updLink -/

@[simp] theorem State.updLink_pending (s : State) (l : Nat) (f : LaceLink → LaceLink) : (s.updLink l f).pending = s.pending := rfl
@[simp] theorem State.updLink_time (s : State) (l : Nat) (f : LaceLink → LaceLink) : (s.updLink l f).time = s.time := rfl
@[simp] theorem State.updLink_regs (s : State) (l : Nat) (f : LaceLink → LaceLink) : (s.updLink l f).regs = s.regs := rfl
@[simp] theorem State.updLink_cfg (s : State) (l : Nat) (f : LaceLink → LaceLink) : (s.updLink l f).cfg = s.cfg := rfl
@[simp] theorem State.updLink_recs (s : State) (l : Nat) (f : LaceLink → LaceLink) : (s.updLink l f).recs = s.recs := rfl
@[simp] theorem State.updLink_ctxs (s : State) (l : Nat) (f : LaceLink → LaceLink) : (s.updLink l f).ctxs = s.ctxs := rfl
@[simp] theorem State.updLink_host (s : State) (l : Nat) (f : LaceLink → LaceLink) : (s.updLink l f).host = s.host := rfl
@[simp] theorem State.updLink_job (s : State) (l : Nat) (f : LaceLink → LaceLink) : (s.updLink l f).job = s.job := rfl
@[simp] theorem State.updLink_outs (s : State) (l : Nat) (f : LaceLink → LaceLink) : (s.updLink l f).outs = s.outs := rfl
@[simp] theorem State.updLink_sq (s : State) (l : Nat) (f : LaceLink → LaceLink) : (s.updLink l f).sq = s.sq := rfl
@[simp] theorem State.updLink_place (s : State) (l : Nat) (f : LaceLink → LaceLink) : (s.updLink l f).place = s.place := rfl
@[simp] theorem State.updLink_rdo (s : State) (l : Nat) (f : LaceLink → LaceLink) : (s.updLink l f).rdo = s.rdo := rfl
@[simp] theorem State.updLink_dsps (s : State) (l : Nat) (f : LaceLink → LaceLink) : (s.updLink l f).dsps = s.dsps := rfl
@[simp] theorem State.updLink_planes (s : State) (l : Nat) (f : LaceLink → LaceLink) : (s.updLink l f).planes = s.planes := rfl
@[simp] theorem State.updLink_bias (s : State) (l : Nat) (f : LaceLink → LaceLink) : (s.updLink l f).bias = s.bias := rfl
@[simp] theorem State.updLink_nv (s : State) (l : Nat) (f : LaceLink → LaceLink) : (s.updLink l f).nv = s.nv := rfl
@[simp] theorem State.updLink_sys (s : State) (l : Nat) (f : LaceLink → LaceLink) : (s.updLink l f).sys = s.sys := rfl
@[simp] theorem State.updLink_pwr (s : State) (l : Nat) (f : LaceLink → LaceLink) : (s.updLink l f).pwr = s.pwr := rfl
@[simp] theorem State.updLink_eng (s : State) (l : Nat) (f : LaceLink → LaceLink) : (s.updLink l f).eng = s.eng := rfl
@[simp] theorem State.updLink_cal (s : State) (l : Nat) (f : LaceLink → LaceLink) : (s.updLink l f).cal = s.cal := rfl
@[simp] theorem State.updLink_sec (s : State) (l : Nat) (f : LaceLink → LaceLink) : (s.updLink l f).sec = s.sec := rfl
@[simp] theorem State.updLink_lace (s : State) (l : Nat) (f : LaceLink → LaceLink) : (s.updLink l f).lace = { s.lace with links := Table.upd {} s.lace.links l f } := rfl
@[simp] theorem State.updLink_net (s : State) (l : Nat) (f : LaceLink → LaceLink) : (s.updLink l f).net = s.net := rfl
@[simp] theorem State.updLink_awl (s : State) (l : Nat) (f : LaceLink → LaceLink) : (s.updLink l f).awl = s.awl := rfl
@[simp] theorem State.updLink_mon (s : State) (l : Nat) (f : LaceLink → LaceLink) : (s.updLink l f).mon = s.mon := rfl
@[simp] theorem State.updLink_dec (s : State) (l : Nat) (f : LaceLink → LaceLink) : (s.updLink l f).dec = s.dec := rfl
@[simp] theorem State.updLink_ram (s : State) (l : Nat) (f : LaceLink → LaceLink) : (s.updLink l f).ram = s.ram := rfl
@[simp] theorem State.updLink_freeCtr (s : State) (l : Nat) (f : LaceLink → LaceLink) : (s.updLink l f).freeCtr = s.freeCtr := rfl

/-! ### updTimer -/

@[simp] theorem State.updTimer_pending (s : State) (i : Nat) (f : Timer → Timer) : (s.updTimer i f).pending = s.pending := rfl
@[simp] theorem State.updTimer_time (s : State) (i : Nat) (f : Timer → Timer) : (s.updTimer i f).time = s.time := rfl
@[simp] theorem State.updTimer_regs (s : State) (i : Nat) (f : Timer → Timer) : (s.updTimer i f).regs = s.regs := rfl
@[simp] theorem State.updTimer_cfg (s : State) (i : Nat) (f : Timer → Timer) : (s.updTimer i f).cfg = s.cfg := rfl
@[simp] theorem State.updTimer_recs (s : State) (i : Nat) (f : Timer → Timer) : (s.updTimer i f).recs = s.recs := rfl
@[simp] theorem State.updTimer_ctxs (s : State) (i : Nat) (f : Timer → Timer) : (s.updTimer i f).ctxs = s.ctxs := rfl
@[simp] theorem State.updTimer_host (s : State) (i : Nat) (f : Timer → Timer) : (s.updTimer i f).host = s.host := rfl
@[simp] theorem State.updTimer_job (s : State) (i : Nat) (f : Timer → Timer) : (s.updTimer i f).job = s.job := rfl
@[simp] theorem State.updTimer_outs (s : State) (i : Nat) (f : Timer → Timer) : (s.updTimer i f).outs = s.outs := rfl
@[simp] theorem State.updTimer_sq (s : State) (i : Nat) (f : Timer → Timer) : (s.updTimer i f).sq = s.sq := rfl
@[simp] theorem State.updTimer_place (s : State) (i : Nat) (f : Timer → Timer) : (s.updTimer i f).place = s.place := rfl
@[simp] theorem State.updTimer_rdo (s : State) (i : Nat) (f : Timer → Timer) : (s.updTimer i f).rdo = s.rdo := rfl
@[simp] theorem State.updTimer_dsps (s : State) (i : Nat) (f : Timer → Timer) : (s.updTimer i f).dsps = s.dsps := rfl
@[simp] theorem State.updTimer_planes (s : State) (i : Nat) (f : Timer → Timer) : (s.updTimer i f).planes = s.planes := rfl
@[simp] theorem State.updTimer_bias (s : State) (i : Nat) (f : Timer → Timer) : (s.updTimer i f).bias = s.bias := rfl
@[simp] theorem State.updTimer_nv (s : State) (i : Nat) (f : Timer → Timer) : (s.updTimer i f).nv = s.nv := rfl
@[simp] theorem State.updTimer_sys (s : State) (i : Nat) (f : Timer → Timer) : (s.updTimer i f).sys = s.sys := rfl
@[simp] theorem State.updTimer_pwr (s : State) (i : Nat) (f : Timer → Timer) : (s.updTimer i f).pwr = s.pwr := rfl
@[simp] theorem State.updTimer_eng (s : State) (i : Nat) (f : Timer → Timer) : (s.updTimer i f).eng = s.eng := rfl
@[simp] theorem State.updTimer_cal (s : State) (i : Nat) (f : Timer → Timer) : (s.updTimer i f).cal = s.cal := rfl
@[simp] theorem State.updTimer_sec (s : State) (i : Nat) (f : Timer → Timer) : (s.updTimer i f).sec = s.sec := rfl
@[simp] theorem State.updTimer_lace (s : State) (i : Nat) (f : Timer → Timer) : (s.updTimer i f).lace = s.lace := rfl
@[simp] theorem State.updTimer_net (s : State) (i : Nat) (f : Timer → Timer) : (s.updTimer i f).net = { s.net with timers := Table.upd {} s.net.timers i f } := rfl
@[simp] theorem State.updTimer_awl (s : State) (i : Nat) (f : Timer → Timer) : (s.updTimer i f).awl = s.awl := rfl
@[simp] theorem State.updTimer_mon (s : State) (i : Nat) (f : Timer → Timer) : (s.updTimer i f).mon = s.mon := rfl
@[simp] theorem State.updTimer_dec (s : State) (i : Nat) (f : Timer → Timer) : (s.updTimer i f).dec = s.dec := rfl
@[simp] theorem State.updTimer_ram (s : State) (i : Nat) (f : Timer → Timer) : (s.updTimer i f).ram = s.ram := rfl
@[simp] theorem State.updTimer_freeCtr (s : State) (i : Nat) (f : Timer → Timer) : (s.updTimer i f).freeCtr = s.freeCtr := rfl

/-! ### updAwl -/

@[simp] theorem State.updAwl_pending (s : State) (k : Nat) (f : AwlIn → AwlIn) : (s.updAwl k f).pending = s.pending := rfl
@[simp] theorem State.updAwl_time (s : State) (k : Nat) (f : AwlIn → AwlIn) : (s.updAwl k f).time = s.time := rfl
@[simp] theorem State.updAwl_regs (s : State) (k : Nat) (f : AwlIn → AwlIn) : (s.updAwl k f).regs = s.regs := rfl
@[simp] theorem State.updAwl_cfg (s : State) (k : Nat) (f : AwlIn → AwlIn) : (s.updAwl k f).cfg = s.cfg := rfl
@[simp] theorem State.updAwl_recs (s : State) (k : Nat) (f : AwlIn → AwlIn) : (s.updAwl k f).recs = s.recs := rfl
@[simp] theorem State.updAwl_ctxs (s : State) (k : Nat) (f : AwlIn → AwlIn) : (s.updAwl k f).ctxs = s.ctxs := rfl
@[simp] theorem State.updAwl_host (s : State) (k : Nat) (f : AwlIn → AwlIn) : (s.updAwl k f).host = s.host := rfl
@[simp] theorem State.updAwl_job (s : State) (k : Nat) (f : AwlIn → AwlIn) : (s.updAwl k f).job = s.job := rfl
@[simp] theorem State.updAwl_outs (s : State) (k : Nat) (f : AwlIn → AwlIn) : (s.updAwl k f).outs = s.outs := rfl
@[simp] theorem State.updAwl_sq (s : State) (k : Nat) (f : AwlIn → AwlIn) : (s.updAwl k f).sq = s.sq := rfl
@[simp] theorem State.updAwl_place (s : State) (k : Nat) (f : AwlIn → AwlIn) : (s.updAwl k f).place = s.place := rfl
@[simp] theorem State.updAwl_rdo (s : State) (k : Nat) (f : AwlIn → AwlIn) : (s.updAwl k f).rdo = s.rdo := rfl
@[simp] theorem State.updAwl_dsps (s : State) (k : Nat) (f : AwlIn → AwlIn) : (s.updAwl k f).dsps = s.dsps := rfl
@[simp] theorem State.updAwl_planes (s : State) (k : Nat) (f : AwlIn → AwlIn) : (s.updAwl k f).planes = s.planes := rfl
@[simp] theorem State.updAwl_bias (s : State) (k : Nat) (f : AwlIn → AwlIn) : (s.updAwl k f).bias = s.bias := rfl
@[simp] theorem State.updAwl_nv (s : State) (k : Nat) (f : AwlIn → AwlIn) : (s.updAwl k f).nv = s.nv := rfl
@[simp] theorem State.updAwl_sys (s : State) (k : Nat) (f : AwlIn → AwlIn) : (s.updAwl k f).sys = s.sys := rfl
@[simp] theorem State.updAwl_pwr (s : State) (k : Nat) (f : AwlIn → AwlIn) : (s.updAwl k f).pwr = s.pwr := rfl
@[simp] theorem State.updAwl_eng (s : State) (k : Nat) (f : AwlIn → AwlIn) : (s.updAwl k f).eng = s.eng := rfl
@[simp] theorem State.updAwl_cal (s : State) (k : Nat) (f : AwlIn → AwlIn) : (s.updAwl k f).cal = s.cal := rfl
@[simp] theorem State.updAwl_sec (s : State) (k : Nat) (f : AwlIn → AwlIn) : (s.updAwl k f).sec = s.sec := rfl
@[simp] theorem State.updAwl_lace (s : State) (k : Nat) (f : AwlIn → AwlIn) : (s.updAwl k f).lace = s.lace := rfl
@[simp] theorem State.updAwl_net (s : State) (k : Nat) (f : AwlIn → AwlIn) : (s.updAwl k f).net = s.net := rfl
@[simp] theorem State.updAwl_awl (s : State) (k : Nat) (f : AwlIn → AwlIn) : (s.updAwl k f).awl = Table.upd {} s.awl k f := rfl
@[simp] theorem State.updAwl_mon (s : State) (k : Nat) (f : AwlIn → AwlIn) : (s.updAwl k f).mon = s.mon := rfl
@[simp] theorem State.updAwl_dec (s : State) (k : Nat) (f : AwlIn → AwlIn) : (s.updAwl k f).dec = s.dec := rfl
@[simp] theorem State.updAwl_ram (s : State) (k : Nat) (f : AwlIn → AwlIn) : (s.updAwl k f).ram = s.ram := rfl
@[simp] theorem State.updAwl_freeCtr (s : State) (k : Nat) (f : AwlIn → AwlIn) : (s.updAwl k f).freeCtr = s.freeCtr := rfl

/-! ### Entries of tables -/

@[simp] theorem State.chan_updChan_same (s : State) (k : Nat) (f : Chan → Chan) : (s.updChan k f).chan k = f (s.chan k) := by
  unfold State.chan State.updChan Table.upd; exact Table.get_set_same _ _ _ _

theorem State.chan_updChan_other (s : State) (k n : Nat) (f : Chan → Chan) (h : n ≠ k) : (s.updChan k f).chan n = s.chan n := by
  unfold State.chan State.updChan Table.upd; exact Table.get_set_other _ _ _ _ _ h

@[simp] theorem State.queue_updQueue_same (s : State) (k : Nat) (f : WQueue → WQueue) : (s.updQueue k f).queue k = f (s.queue k) := by
  unfold State.queue State.updQueue Table.upd; exact Table.get_set_same _ _ _ _

theorem State.queue_updQueue_other (s : State) (k n : Nat) (f : WQueue → WQueue) (h : n ≠ k) : (s.updQueue k f).queue n = s.queue n := by
  unfold State.queue State.updQueue Table.upd; exact Table.get_set_other _ _ _ _ _ h

@[simp] theorem State.pin_updPin_same (s : State) (k : Nat) (f : Pin → Pin) : (s.updPin k f).pin k = f (s.pin k) := by
  unfold State.pin State.updPin Table.upd; exact Table.get_set_same _ _ _ _

theorem State.pin_updPin_other (s : State) (k n : Nat) (f : Pin → Pin) (h : n ≠ k) : (s.updPin k f).pin n = s.pin n := by
  unfold State.pin State.updPin Table.upd; exact Table.get_set_other _ _ _ _ _ h

@[simp] theorem State.seq_updSeq_same (s : State) (k : Nat) (f : Seq → Seq) : (s.updSeq k f).seq k = f (s.seq k) := by
  unfold State.seq State.updSeq Table.upd; exact Table.get_set_same _ _ _ _

theorem State.seq_updSeq_other (s : State) (k n : Nat) (f : Seq → Seq) (h : n ≠ k) : (s.updSeq k f).seq n = s.seq n := by
  unfold State.seq State.updSeq Table.upd; exact Table.get_set_other _ _ _ _ _ h

@[simp] theorem State.dsp_updDsp_same (s : State) (k : Nat) (f : Dsp → Dsp) : (s.updDsp k f).dsp k = f (s.dsp k) := by
  unfold State.dsp State.updDsp Table.upd; exact Table.get_set_same _ _ _ _

theorem State.dsp_updDsp_other (s : State) (k n : Nat) (f : Dsp → Dsp) (h : n ≠ k) : (s.updDsp k f).dsp n = s.dsp n := by
  unfold State.dsp State.updDsp Table.upd; exact Table.get_set_other _ _ _ _ _ h

@[simp] theorem State.biasOut_updBias_same (s : State) (k : Nat) (f : Bias → Bias) : (s.updBias k f).biasOut k = f (s.biasOut k) := by
  unfold State.biasOut State.updBias Table.upd; exact Table.get_set_same _ _ _ _

theorem State.biasOut_updBias_other (s : State) (k n : Nat) (f : Bias → Bias) (h : n ≠ k) : (s.updBias k f).biasOut n = s.biasOut n := by
  unfold State.biasOut State.updBias Table.upd; exact Table.get_set_other _ _ _ _ _ h

@[simp] theorem State.sensor_updSensor_same (s : State) (k : Nat) (f : Sensor → Sensor) : (s.updSensor k f).sensor k = f (s.sensor k) := by
  unfold State.sensor State.updSensor Table.upd; exact Table.get_set_same _ _ _ _

theorem State.sensor_updSensor_other (s : State) (k n : Nat) (f : Sensor → Sensor) (h : n ≠ k) : (s.updSensor k f).sensor n = s.sensor n := by
  unfold State.sensor State.updSensor Table.upd; exact Table.get_set_other _ _ _ _ _ h

@[simp] theorem State.lnk_updLink_same (s : State) (k : Nat) (f : LaceLink → LaceLink) : (s.updLink k f).lnk k = f (s.lnk k) := by
  unfold State.lnk State.updLink Table.upd; exact Table.get_set_same _ _ _ _

theorem State.lnk_updLink_other (s : State) (k n : Nat) (f : LaceLink → LaceLink) (h : n ≠ k) : (s.updLink k f).lnk n = s.lnk n := by
  unfold State.lnk State.updLink Table.upd; exact Table.get_set_other _ _ _ _ _ h

@[simp] theorem State.timer_updTimer_same (s : State) (k : Nat) (f : Timer → Timer) : (s.updTimer k f).timer k = f (s.timer k) := by
  unfold State.timer State.updTimer Table.upd; exact Table.get_set_same _ _ _ _

theorem State.timer_updTimer_other (s : State) (k n : Nat) (f : Timer → Timer) (h : n ≠ k) : (s.updTimer k f).timer n = s.timer n := by
  unfold State.timer State.updTimer Table.upd; exact Table.get_set_other _ _ _ _ _ h

@[simp] theorem State.awlIn_updAwl_same (s : State) (k : Nat) (f : AwlIn → AwlIn) : (s.updAwl k f).awlIn k = f (s.awlIn k) := by
  unfold State.awlIn State.updAwl Table.upd; exact Table.get_set_same _ _ _ _

theorem State.awlIn_updAwl_other (s : State) (k n : Nat) (f : AwlIn → AwlIn) (h : n ≠ k) : (s.updAwl k f).awlIn n = s.awlIn n := by
  unfold State.awlIn State.updAwl Table.upd; exact Table.get_set_other _ _ _ _ _ h

end Sys2Proof.Machine
end

