-- ==== Sys2Proof/Machine/Package.lean ====
section
/-! DEFINITION. The balls of the package (chapter 23): where each signal and each rail of R719 to R726 lies. -/

namespace Sys2Proof.Machine

/-- R719: a ball: its row and its column, from 1 to 72. -/
structure Ball where
  row : Nat
  col : Nat
deriving DecidableEq, Repr

/-- R721: the ball of quarter q at depth i and position j of its local frame. -/
def localBall (q i j : Nat) : Ball :=
  match q with
  | 0 => ⟨i, j⟩
  | 1 => ⟨j, 73 - i⟩
  | 2 => ⟨73 - i, 73 - j⟩
  | _ => ⟨73 - j, i⟩

/-- R721: depth and position of a ball in the frame of quarter q. -/
def localPlace (q : Nat) (b : Ball) : Nat × Nat :=
  match q with
  | 0 => (b.row, b.col)
  | 1 => (73 - b.col, b.row)
  | 2 => (73 - b.row, 73 - b.col)
  | _ => (b.col, 73 - b.row)

/-- R722: the RF port of local index x of quarter q. -/
def rfBall (q x : Nat) : Ball := localBall q (2 + 3 * (x / 18)) (11 + 3 * (x % 18))

/-- R724: the ball of slot `n` of SerDes corner c; `compl` takes the complement. -/
def serdesBall (c n : Nat) (compl : Bool) : Ball :=
  let row := if c < 2 then 1 else 64
  let col := if c = 0 ∨ c = 3 then 1 else 64
  ⟨row + n / 3, col + 3 * (n % 3) + (if compl then 1 else 0)⟩

/-- R722 to R725: the signals that have a ball of their own. -/
inductive Signal where
  | drv (k : Fin 128)
  | rdo (k : Fin 32)
  | rdi (k : Fin 32)
  | ffl (k : Fin 64)
  | bia (k : Fin 256)
  | mk (k : Fin 64)
  | mon (n : Fin 16) (neg : Bool)
  | lace (l : Fin 8) (lane : Fin 4) (rx compl : Bool)
  | pcie (lane : Fin 16) (rx compl : Bool)
  | tp (n : Fin 2) (rx compl : Bool)
  | pcieClock (compl : Bool)
  | sysRef (compl : Bool)
  | ppsIn
  | resetN
  | perstN
  | clkreqN
  | tmode
  | faultN
  | vid (n : Fin 4)
  | tck
  | tms
  | tdi
  | tdo
  | trstN
deriving DecidableEq, Repr

/-- 1 for a receive pair (R724). -/
def rxSlot (rx : Bool) : Nat := if rx then 1 else 0

/-- R722 to R725: the ball of a signal. -/
def Signal.ball : Signal → Ball
  | .drv k => rfBall (k / 32) (k % 32)
  | .rdo k => rfBall (k / 8) (32 + k % 8)
  | .rdi k => rfBall (k / 8) (40 + k % 8)
  | .ffl k => localBall (k / 16) 10 (14 + 3 * (k % 16))
  | .bia k => localBall (k / 64) (12 + k % 64 / 32) (14 + k % 64 % 32)
  | .mk k => localBall (k / 16) (12 + k % 16 / 8) (48 + k % 16 % 8)
  | .mon n neg => localBall (n / 4) (12 + n % 4 / 2) (56 + 2 * (n % 4 % 2) + (if neg then 1 else 0))
  | .lace l lane rx compl => serdesBall (l / 2) (l % 2 * 8 + lane * 2 + rxSlot rx) compl
  | .pcie lane rx compl => serdesBall (lane / 4) (16 + lane % 4 * 2 + rxSlot rx) compl
  | .tp n rx compl => serdesBall n (24 + rxSlot rx) compl
  | .pcieClock compl => serdesBall 0 26 compl
  | .sysRef compl => serdesBall 1 26 compl
  | .ppsIn => ⟨10, 10⟩
  | .resetN => ⟨10, 11⟩
  | .perstN => ⟨10, 12⟩
  | .clkreqN => ⟨10, 13⟩
  | .tmode => ⟨11, 10⟩
  | .faultN => ⟨11, 11⟩
  | .vid n => ⟨11 + (n + 2) / 4, 10 + (n + 2) % 4⟩
  | .tck => ⟨12, 12⟩
  | .tms => ⟨12, 13⟩
  | .tdi => ⟨13, 10⟩
  | .tdo => ⟨13, 11⟩
  | .trstN => ⟨13, 12⟩

/-- The rails that have balls (R725, R726). -/
inductive Rail where
  | vddIns
  | vddQd
  | vddRf10
  | vddRf18
  | vddSd09
  | vddSd12
  | vddIo
  | vddAon
  | vbiasP
  | vbiasN
  | vss
deriving DecidableEq, Repr

/-- R726: the quarter whose local depth at a ball is smallest, ties to the lower number. -/
def coreQuarter (b : Ball) : Nat :=
  let d (q : Nat) : Nat := (localPlace q b).1
  ([0, 1, 2, 3].find? fun q => [0, 1, 2, 3].all fun r => decide (d q ≤ d r)).getD 0

/-- R726: the rail of a ball of the core, rows and columns 14 to 59. -/
def coreRail (b : Ball) : Rail :=
  if (b.row + b.col) % 2 = 1 then .vss
  else if 26 ≤ b.row ∧ b.row ≤ 47 ∧ 26 ≤ b.col ∧ b.col ≤ 47 then .vddIns
  else
    let q := coreQuarter b
    let (i, j) := localPlace q b
    if j = 14 ∨ j = 15 ∨ j = 58 ∨ j = 59 then .vddSd09
    else if j = 16 ∨ j = 17 ∨ j = 56 ∨ j = 57 then .vddSd12
    else match i - 14 with
      | 0 => .vbiasP
      | 1 => .vbiasN
      | 2 => .vddRf18
      | 3 => .vddRf18
      | 4 => .vddRf18
      | 5 => .vddRf10
      | 6 => .vddRf10
      | 7 => .vddRf10
      | 8 => .vddQd
      | 9 => .vddQd
      | 10 => .vddQd
      | _ => if q = 0 then .vddAon else .vddIns

/-- R720, R725, R726: the rail of a ball that carries no signal: the core's by R726, VDD_IO on the even balls of the
NE, SE and SW control squares, and VSS everywhere else. -/
def supplyBall (b : Ball) : Rail :=
  let near (n : Nat) : Bool := decide (10 ≤ n ∧ n ≤ 13)
  let far (n : Nat) : Bool := decide (60 ≤ n ∧ n ≤ 63)
  if 14 ≤ b.row ∧ b.row ≤ 59 ∧ 14 ≤ b.col ∧ b.col ≤ 59 then coreRail b
  else if ((near b.row && far b.col) || (far b.row && (near b.col || far b.col))) && (b.row + b.col) % 2 == 0 then .vddIo
  else .vss

/-- R710, R716: the level of a ball that the device drives by its state: VID0 to VID3 and FAULT_N (low). -/
def State.drivenBall (s : State) : Signal → Option Bool
  | .vid n => some (bitOf s.vid n)
  | .faultN => if s.faultLow then some false else none
  | _ => none

end Sys2Proof.Machine
end

