-- ==== Sys2Proof/Tests/Slice0.lean ====
section
/-! SUPPORT. Tests: well-formedness, the worked examples of the spec, and for every statement with hypotheses a
witness that meets those of each of its clauses. Expected values are the spec's own. -/

namespace Sys2Proof.Tests

open Sys2Proof Sys2Proof.Machine

/-! ### Small states -/

/-- A device that has booted. -/
def up : State := { sys := { boot := false, ready := true } }

/-- Give a register field a value that the hardware acts on. -/
def put (s : State) (f : Fld) (idx : List Nat) (v : Nat) : State :=
  let w := BitVec.ofNat 32 (setBits (s.word f.reg idx).toNat f.hi f.lo v)
  (s.setLive f.reg idx w).setDirect f.reg idx w

/-- Context 0 enabled, with rings of two entries. -/
def ring0 : State :=
  put (put (put (put up Reg.CTX_CFG.ENABLE [0] 1) Reg.CTX_SIZE.EVT [0] 1) Reg.CTX_SIZE.SUB [0] 1) Reg.CTX_SIZE.CPL [0] 1

/-- A job in its shot. -/
def shotOn : State := { up with job := { job := some {}, phase := .inShot } }

/-- A capture of input 0. -/
def capOn : State :=
  put { up with job := { job := some { capture := true, inputs := 1 }, phase := .inShot } } Reg.CAP_CFG.GATE [0, 0] 1

/-- Sequencer 0 in a state, at a stitch whose first byte is `b`. -/
def prog (x : Seq) (b : Byte) : State := { up with sq.seqs := [(0, x)] }.store (progBase 0) [b]

/-- Processor 0 in a state, at a word of its program. -/
def dspAt (d : Dsp) (w : Nat) : State := { up with dsps := [(0, d)] }.store (instrBase 0) (leBytes 4 w)

def win (w : Win) (now : Nat) : State := { up with rdo.wins := [w], time.now := now }
def plane0 (p : Plane) : State := { up with planes.dp := #v[p, {}] }

/-- The decoder at work in a shot. -/
def decOn (g : DecGraph) (d : DecDyn) : State :=
  put { shotOn with dec := { graph := some g, dyn := #v[d, {}] } } Reg.DEC_CFG.EN [] 1

def ctx0 (x : Ctx) : State := { up with ctxs := [(0, x)] }
def desc0 (d : Desc) : State := ctx0 { fetched := [d] }
def bias0 (m : BiasMove) : State := { up with bias.outs := [(0, { move := m })] }
def link0 (l : LaceLink) : State := { up with lace.links := [(0, l)] }
def netDom (p : PtpPort) : State := { up with net.ports := #v[{ dom := #v[p, {}] }, {}] }
def mon0 (c : MonConv) : State := { up with mon.cur := some c }

/-- awl input 0 enabled for both edges. -/
def awl0 : State := put (put up Reg.AWL_IN_CFG.EN [0] 1) Reg.AWL_IN_CFG.EDGE [0] 2

/-- A device with an owner and a nonce. -/
def owned : State := { up with sec.owned := true, sec.nonce := some [] }

/-- Window 0 open for writing to every context. -/
def window0 (s : State) : State :=
  put (put (put (put s Reg.WIN_CTL.EN [0] 1) Reg.WIN_CTL.ALL [0] 1) Reg.WIN_CTL.WR [0] 1) Reg.WIN_SIZE.PAGES [0] 1

/-- A placement image that is as long as its counts say, with the format number 0. -/
def place32 : Desc := { bytes := List.replicate 16 0 ++ [32, 0, 0, 0], data := List.replicate 32 0 }
/-- A BIAS_SET of one entry with a reserved bit set. -/
def biasBad : Desc := { bytes := [8], data := [0, 0, 1, 0] }

/-- Sequencer 0 in a state, in a shot, at the stitch w. -/
def progW (x : Seq) (w : Stitch) : State :=
  { shotOn with sq.seqs := [(0, x)] }.store (progBase 0) (leBytes 16 w.toNat)

/-- A descriptor of context 0 at index 0, with window 0 open. -/
def descIn (ph : DescPhase) (bytes : List Byte) : State := window0 (desc0 { bytes := bytes, phase := ph })

/-- Input 0 captured, with an interval of two ticks that has ended. -/
def capEnd (x : CapSlot) : State :=
  { put capOn Reg.CTX_CFG.ENABLE [0] 1 with time.now := 2, rdo.caps := [(0, { x with ivals := [{ stop := some 16 }] })] }

/-- Port 0 enabled, with its link and a mode for domain 0. -/
def ptp0 (mode : Nat) (p : PtpPort) : State :=
  { put (put up Reg.TP_CFG.EN [0] 1) Reg.TP_CFG.MODE_A [0] mode with net.ports := #v[{ link := true, dom := #v[p, {}] }, {}] }

/-- Link 0 enabled, on a device with an identifier. -/
def train0 (x : LaceLink) : State := { put (link0 x) Reg.LC_CFG.EN [0] 1 with lace.idValid := true }

/-- Link 0 up, with room for a frame of VC 0. -/
def frame0 (room : Nat) : State := link0 { st := 3, rx := #v[{ free := room }, {}, {}] }

/-- A frame of a type with its fixed length, all of whose payload is zero. -/
def zeroFrame (t : BitVec 6) : LaceFrame :=
  let n := (frameLen t.toNat 1).getD 0
  { ftype := t, len := BitVec.ofNat 6 n, data := List.replicate n 0 }

/-- The header of a sealed container of a kind and of a number of entries, for every device. -/
def sealHdr (kind ents len : Nat) : List Byte :=
  leBytes 4 1 ++ leBytes 2 kind ++ leBytes 2 ents ++ leBytes 4 len ++ List.replicate 12 0 ++ List.replicate 4 255
  ++ List.replicate 36 0

/-- A DECISION frame with a token and its codes. -/
def tokenFrame (v : BitVec 64) : LaceFrame :=
  { ftype := 1, len := 3
    data := [BitVec.ofNat 64 ((Config.secded (v.extractLsb' 0 32)).toNat * 2 ^ 36 + (Config.secded (v.extractLsb' 32 32)).toNat * 2 ^ 43), v, 0] }

theorem tokenFrame_first (v : BitVec 64) :
    (tokenFrame v).d 0 = (Config.secded (v.extractLsb' 0 32)).toNat * 2 ^ 36 + (Config.secded (v.extractLsb' 32 32)).toNat * 2 ^ 43 := by
  have h1 := (Config.secded (v.extractLsb' 0 32)).isLt
  have h2 := (Config.secded (v.extractLsb' 32 32)).isLt
  show (BitVec.ofNat 64 _).toNat = _
  rw [BitVec.toNat_ofNat, Nat.mod_eq_of_lt (by omega)]

theorem tokenFrame_tokenBits (v : BitVec 64) : (tokenFrame v).tokenBits = some v := by
  have h1 := (Config.secded (v.extractLsb' 0 32)).isLt
  have h2 := (Config.secded (v.extractLsb' 32 32)).isLt
  have e1 : (tokenFrame v).d 1 = v.toNat := rfl
  have b1 : bitsOf ((tokenFrame v).d 0) 42 36 = (Config.secded (v.extractLsb' 0 32)).toNat := by
    rw [tokenFrame_first]; unfold bitsOf; omega
  have b2 : bitsOf ((tokenFrame v).d 0) 49 43 = (Config.secded (v.extractLsb' 32 32)).toNat := by
    rw [tokenFrame_first]; unfold bitsOf; omega
  have w1 : BitVec.ofNat 32 v.toNat = v.extractLsb' 0 32 := by
    apply BitVec.eq_of_toNat_eq; simp
  have w2 : BitVec.ofNat 32 (v.toNat / 2 ^ 32) = v.extractLsb' 32 32 := by
    apply BitVec.eq_of_toNat_eq; simp [Nat.shiftRight_eq_div_pow]
  unfold LaceFrame.tokenBits halfOf
  rw [e1, b1, b2, w1, w2]
  simp
  refine BitVec.eq_of_getLsbD_eq fun i hi => ?_
  rw [BitVec.getLsbD_append, BitVec.getLsbD_extractLsb', BitVec.getLsbD_extractLsb']
  by_cases h : i < 32
  · simp [h]
  · simp only [h, if_false]
    rw [show 32 + (i - 32) = i by omega]; simp; omega

theorem tokenFrame_content (v : BitVec 64) : contentFault (tokenFrame v) 0 = none ∧ (tokenFrame v).dest = 0 := by
  have h1 := (Config.secded (v.extractLsb' 0 32)).isLt
  have h2 := (Config.secded (v.extractLsb' 32 32)).isLt
  have h0 := tokenFrame_first v
  constructor
  · have : (tokenFrame v).reserved = false := by
      show ((tokenFrame v).d 0 / 2 ^ 50 != 0) = false
      rw [h0]; simp; omega
    unfold contentFault
    rw [this]; rfl
  · unfold LaceFrame.dest; rw [h0]; unfold bitsOf; omega

/-! ### Well-formedness: each check refuses an ill-formed term -/

theorem test_wf_write_of_no_byte : (Instr.registerWrite ⟨.bar0, 0⟩ 0 0).wf = false := by decide
theorem test_wf_read_of_no_byte : (Instr.registerReadClear ⟨.bar0, 0⟩ 0 0).wf = false := by decide
theorem test_wf_doorbell_of_no_byte : (Instr.doorbellUnlistedWrite 0 0 0).wf = false := by decide
theorem test_wf_nanoseconds_of_a_second : (Instr.timeFirstAlign ⟨0, 1000000000#30⟩ 1).wf = false := by decide
theorem test_wf_part_of_a_sample : (Instr.streamDataArrive 0 0 [0, 0, 0]).wf = false := by decide
theorem test_wf_short_entry : (Instr.hostReadCompletion (.entry 0 0 false) []).wf = false := by decide
theorem test_wf_short_header : (Instr.unsealPassEnd true [] [{}]).wf = false := by decide
theorem test_wf_write : (Instr.registerWrite ⟨.bar0, 0x900090⟩ 4 1).wf = true := by decide

/-! ### The queue (log 1) -/

theorem test_step_takes_the_front :
    step { up with pending := [.d3hotEntry, .commit] } = exec .d3hotEntry { up with pending := [.commit] } := rfl

/-- R50: 999,999,999 ns is followed by the next second. -/
theorem test_tick_carries : (TimeSt.next { locked := true, dev := ⟨7, 999999999#30⟩ }).dev = ⟨8, 0⟩ := by decide

/-! ### Worked examples of the spec -/

/-- Chapter 02, the example after R61: the twelve bytes of a stamp. -/
theorem test_stamp_bytes : leBytes 12 (Stamp.bits ⟨1, ⟨1700000123, 456789012⟩, 0x5000⟩)
    = [0x00, 0x50, 0x14, 0x0C, 0x3A, 0x5B, 0x7B, 0xF1, 0x53, 0x65, 0x00, 0x00] := by decide

/-- Chapter 02: DRV041 is queue 9 of quarter 1. Chapters 06, 08, 11, 13: further addresses. -/
theorem test_addresses : regAddr .WELT_CTL [1, 9] = 0x900090 ∧ regAddr .IN_CFG [0, 5] = 0x220050
    ∧ regAddr .CAP_CFG [0, 5] = 0x220058 ∧ regAddr .DP_RT0 [0x40] = 0x190200 ∧ regAddr .BIA_CFG [37] = 0x174250
    ∧ regAddr .CTX_SIZE [5] = 0x40144 := by decide

/-- Chapter 02: the write selects SLIP in the shadow; the live copy waits for CFG_COMMIT (R453). -/
theorem test_write_goes_to_the_shadow : ∃ t, exec (.registerWrite ⟨.bar0, 0x900090⟩ 4 1) up = .next t
    ∧ bitsOf (t.shadowWord .WELT_CTL [1, 9]).toNat 1 0 = 1 ∧ t.rd Reg.WELT_CTL.LATE_POLICY [1, 9] = up.rd Reg.WELT_CTL.LATE_POLICY [1, 9] :=
  ⟨_, rfl, by decide +kernel⟩

/-- Chapter 06: CAP_CFG 0xFFFF_9611 gives records of 63 steps, which cover 4,032 ns. -/
theorem test_capture_record : (up.setLive .CAP_CFG [0, 5] 0xFFFF9611).fullSamples 5 = 4032 * 8 := by decide +kernel

/-- Chapter 13: CTX_SIZE 0x0005_2908 of context 5: rings of 256, 256, 1,024 and 1,024 entries, no capture ring. -/
theorem test_ring_sizes :
    let s := put (up.setLive .CTX_SIZE [5] 0x52908) Reg.CTX_CFG.ENABLE [5] 1
    s.ringSize 5 Reg.CTX_SIZE.SUB = 256 ∧ s.ringSize 5 Reg.CTX_SIZE.CPL = 256 ∧ s.ringSize 5 Reg.CTX_SIZE.RES = 1024
    ∧ s.ringSize 5 Reg.CTX_SIZE.EVT = 1024 ∧ s.ringSize 5 Reg.CTX_SIZE.CAP = 0 := by decide +kernel

/-- Chapter 11: 3.000 mA is code 314,573 at ±5 mA and code 78,643 at ±20 mA. -/
theorem test_bias_rescales : ((put { up with bias.outs := [(37, { code := 314573, range := 1 })] } Reg.BIA_CFG.RANGE [37] 2).rangeStart 37).biasOut 37
    = { code := 314573, range := 1, move := .toZero 0 2 78643, seqFrom := 0, oldRange := 1 } := by decide +kernel

/-- Chapter 15: a timer armed at second 50, ns 3,400,120 with a period of 1 ms fires first at ns 4,000,000. -/
theorem test_timer_skips : (({ up with net.timers := [(0, { armed := true, periodic := true, per := 1000000, next := 50000000000 })] }.timerSkip
    0 50003400128).timer 0).next = 50004000000 := by decide +kernel

/-- Chapter 05: the example program's PLAY on queue 35, MEAS on queue 43 and BRANCH. -/
theorem test_stitch_play : let w : Stitch := ⟨0x00280001, 0x00FFF223, 0x00003E80, 0x00004000⟩
    w.cls = 1 ∧ w.dt = 40 ∧ w.queue = 35 ∧ w.gen = 2 ∧ w.env = 4095 ∧ w.known = true ∧ w.clean = true := by decide
theorem test_stitch_meas : let w : Stitch := ⟨0x00640003, 0x0323022B, 0x00001F40, 0⟩
    w.cls = 3 ∧ w.dt = 100 ∧ w.queue = 43 ∧ w.known = true ∧ w.clean = true := by decide
theorem test_stitch_branch : let w : Stitch := ⟨0x00000005, 0x00044105, 0x047E0032, 0⟩
    w.cls = 5 ∧ w.cond = 1 ∧ w.sel = 0 ∧ w.val = 1 ∧ w.deft = false ∧ w.policy = false ∧ w.target = 0x105 ∧ w.dline = 1150
    ∧ bitsOf w.cid 11 0 = 0x032 ∧ w.clean = true := by decide
/-- Chapter 05: with bit 23 of W1 set, the whole load is refused (R185). -/
theorem test_stitch_reserved_bit : (⟨0x00000005, 0x00844105, 0x047E0032, 0⟩ : Stitch).clean = false := by decide

/-- Chapter 07: 2,048 ≤ 3,000 < 4,096 has 3 redundant sign bits. -/
theorem test_redundant_bits : redundant 3000 = 3 ∧ redundant 5900 = 2 ∧ redundant 11600 = 1 := by decide

/-- Chapter 23: the worked balls. -/
theorem test_balls : (Signal.drv 77).ball = ⟨71, 23⟩ ∧ (Signal.rdi 21).ball = ⟨65, 35⟩ ∧ (Signal.bia 37).ball = ⟨13, 19⟩
    ∧ (Signal.lace 5 2 true false).ball = ⟨68, 67⟩ ∧ (Signal.lace 5 2 true true).ball = ⟨68, 68⟩ := by decide

/-! ### Rules at their boundaries -/

/-- R661: 880 units are 110 °C, the onset of shutdown; R670, R699: an orderly stop latches cause 1. -/
theorem test_shutdown_onset : (up.sensorSample 0 880).sys.safe = 1 ∧ (up.sensorSample 0 879).sys.safe = 0 := by decide +kernel

/-- R654: RUNG 7 is clamped to 4. -/
theorem test_rung_clamps : ∃ t, exec (.rungRequest 7) up = .next t ∧ t.pwr.rungReq = some 4 := ⟨_, rfl, by decide +kernel⟩

/-- R593: a channel code between the current inputs and the voltages is clamped to 271. -/
theorem test_mon_channel : monChan 300 = 271 ∧ monChan 512 = 512 ∧ monChan 1000 = 767 := by decide

/-- R83: a record waits with its source; nothing is numbered yet. -/
theorem test_record_is_held : ((up.postCoarse 0 640 0x80 0 []).recs.held.length, (up.postCoarse 0 640 0x80 0 []).recs.seq) = (1, []) := by decide

/-- R694: an entropy failure puts the module in its error state, and the device is degraded (R700). -/
theorem test_entropy_failure : ∃ t, exec .entropyHealthFailure up = .next t ∧ t.sec.err = true ∧ t.mode = 6 :=
  ⟨_, rfl, by decide +kernel⟩

/-- A byte stored is read back; a byte of 0 leaves no cell (log 9). -/
theorem test_memory : (up.store 5 [7]).ram = [(5, 7)] ∧ ((up.store 5 [7]).store 5 [0]).ram = [] := by decide

/-! ### No empty hypotheses -/

theorem witness_StepRunsFrontCommand :
    ∃ (s : State) (c : Instr) (rest : List Instr), s.pending = c :: rest :=
  ⟨{ pending := [.commit] }, .commit, [], by decide⟩

theorem witness_EmptyQueueLetsATickPass :
    ∃ (s : State), s.pending = [] :=
  ⟨{}, by decide⟩

theorem witness_DeviceTimeCountsNanoseconds :
    (∃ (s : State), s.pending = [] ∧ s.time.locked = true ∧ s.time.holding = false)
    ∧ (∃ (s : State), s.pending = [] ∧ s.time.locked = true ∧ s.time.holding = false ∧ s.time.dev = ⟨BitVec.ofNat 48 (2 ^ 48 - 1), 999999999#30⟩) :=
  ⟨⟨{ time.locked := true }, by decide⟩,
   ⟨{ time := { locked := true, dev := ⟨BitVec.ofNat 48 (2 ^ 48 - 1), 999999999#30⟩ } }, by decide⟩⟩

theorem witness_CommandsLeaveTheQueue :
    ∃ (c : Instr) (s : State) (t : State), exec c s = .next t :=
  ⟨.entropyHealthFailure, up, _, rfl⟩

theorem witness_EveryStepKeepsMemoryCanonical :
    ∃ (s : State) (t : State), s.memoryOk ∧ step s = .next t :=
  ⟨{ up with pending := [.d3hotEntry] }, _, ⟨rfl, rfl⟩⟩

theorem witness_SafeCauseStaysLatched :
    ∃ (c : Instr) (s : State) (t : State), s.sys.safe ≠ 0 ∧ (¬ resetsDevice s c) ∧ exec c s = .next t :=
  ⟨.d3hotEntry, { up with sys.safe := 3 }, _, ⟨by decide, id, rfl⟩⟩

theorem witness_HardwareCutStaysLatched :
    ∃ (c : Instr) (s : State) (t : State), s.pwr.cut = true ∧ (¬ resetsDevice s c) ∧ c ≠ .bootEnd ∧ exec c s = .next t :=
  ⟨.d3hotEntry, { up with pwr.cut := true }, _, ⟨by decide, id, by decide, rfl⟩⟩

theorem witness_MemoryReadAfterWrite :
    (∃ (n : Nat) (v : Nat), v < 256 ^ n)
    ∧ (∃ (a : Nat) (b : Nat) (bs : List Byte), (b < a ∨ a + bs.length ≤ b)) :=
  ⟨⟨1, 255, by decide⟩,
   ⟨1, 0, [1], by decide⟩⟩

theorem witness_RecordsAreHeldByTheirSource :
    (∃ (s : State), s.sys.boot = false)
    ∧ (∃ (s : State), s.sys.boot = true ∧ s.sys.bootRecs.length < 16)
    ∧ (∃ (flags : Nat), flags / 8 % 2 ≠ 1)
    ∧ (∃ (flags : Nat), flags / 8 % 2 = 1) :=
  ⟨⟨up, by decide +kernel⟩,
   ⟨{ up with sys.boot := true, sys.bootRecs := List.replicate 15 {} }, by decide +kernel⟩,
   ⟨7, by decide +kernel⟩,
   ⟨8, by decide +kernel⟩⟩

theorem witness_SequenceNumbersCountEveryRecord :
    (∃ (s : State) (t : State), s.nv.writes = [] ∧ exec .deviceReset s = .next t)
    ∧ (∃ (h : Held), h.kind ≠ 0x6B)
    ∧ (∃ (h : Held), h.kind = 0x6B)
    ∧ (∃ (h : Held) (src : Nat), src ≠ h.src)
    ∧ (∃ (h : Held), h.src < 65536) :=
  ⟨⟨up, _, ⟨by decide, rfl⟩⟩,
   ⟨{}, by decide +kernel⟩,
   ⟨{ kind := 0x6B }, by decide +kernel⟩,
   ⟨{}, 1, by decide +kernel⟩,
   ⟨{ src := 65535 }, by decide⟩⟩

theorem witness_FullRingLosesTheRecord :
    (∃ (s : State) (h : Held), (h.ofJob && s.job.silent) = false ∧ ((s.ringState h).1 = 0 ∨ ((s.ringState h).2.1 + 1) % (s.ringState h).1 =
      (s.ringState h).2.2) ∧ h.ring = .result)
    ∧ (∃ (s : State) (h : Held), (h.ofJob && s.job.silent) = false ∧ ((s.ringState h).1 = 0 ∨ ((s.ringState h).2.1 + 1) % (s.ringState h).1 =
      (s.ringState h).2.2) ∧ h.ring = .event)
    ∧ (∃ (s : State) (h : Held) (a : Nat) (bs : List Byte), (h.ofJob && s.job.silent) = false ∧ ((s.ringState h).1 = 0 ∨ ((s.ringState h).2.1 + 1) %
      (s.ringState h).1 = (s.ringState h).2.2) ∧ HostOut.write a bs ∈ (s.numberAndPost h).recs.out)
    ∧ (∃ (s : State) (h : Held), (h.ofJob && s.job.silent) = false ∧ (s.ringState h).1 ≠ 0 ∧ ((s.ringState h).2.1 + 1) % (s.ringState h).1 ≠
      (s.ringState h).2.2 ∧ h.ring = .result)
    ∧ (∃ (s : State) (h : Held), (h.ofJob && s.job.silent) = false ∧ (s.ringState h).1 ≠ 0 ∧ ((s.ringState h).2.1 + 1) % (s.ringState h).1 ≠
      (s.ringState h).2.2 ∧ h.ring = .event)
    ∧ (∃ (s : State) (h : Held), (h.ofJob && s.job.silent) = true) :=
  ⟨⟨up, { ring := .result }, by decide +kernel⟩,
   ⟨up, {}, by decide +kernel⟩,
   ⟨{ up with recs.out := [.write 0 []] }, {}, 0, [], by decide +kernel⟩,
   ⟨put ring0 Reg.CTX_SIZE.RES [0] 1, { ring := .result }, by decide +kernel⟩,
   ⟨ring0, {}, by decide +kernel⟩,
   ⟨{ up with job.silent := true }, { ofJob := true }, by decide +kernel⟩⟩

theorem witness_FiringSetsThePendingBit :
    (∃ (s : State) (v : Nat), s.masked v = true)
    ∧ (∃ (s : State) (v : Nat), s.masked v = false ∧ s.inHoldoff v = true)
    ∧ (∃ (s : State) (v : Nat), s.masked v = false ∧ s.inHoldoff v = false) :=
  ⟨⟨{ up with recs.funcMask := true }, 0, by decide⟩,
   ⟨{ put (put up Reg.MSIX_CTL.MASK [0] 0) Reg.EVT_VMOD.HOLDOFF [0] 1 with recs.lastMsg := [(0, 1)] }, 0, by decide⟩,
   ⟨put up Reg.MSIX_CTL.MASK [0] 0, 0, by decide⟩⟩

theorem witness_ClampLogKeepsTheLast256 :
    (∃ (s : State) (k : Nat), k ≠ s.cfg.clampNum.toNat % 256)
    ∧ (∃ (w : Nat), w < 16)
    ∧ (∃ (k : Nat) (w : Nat), k < 256 ∧ w < 16) :=
  ⟨⟨up, 1, by decide +kernel⟩,
   ⟨15, by decide⟩,
   ⟨255, 15, by decide⟩⟩

theorem witness_ViolationsQuarantineAtTheLimit :
    (∃ (s : State) (c : Nat), (s.ctx c).quar = false ∧ (s.rd Reg.CTX_CFG.VIO_LIM [c] ≤ 1 + ((s.ctx c).vios.filter fun t => decide (s.time.now < t +
      s.rd Reg.CTX_CFG.VIO_WIN [c] * 100000)).length))
    ∧ (∃ (s : State) (c : Nat), (s.ctx c).quar = false ∧ (1 + ((s.ctx c).vios.filter fun t => decide (s.time.now < t + s.rd Reg.CTX_CFG.VIO_WIN [c] *
      100000)).length < s.rd Reg.CTX_CFG.VIO_LIM [c])) :=
  ⟨⟨put up Reg.CTX_CFG.VIO_LIM [0] 1, 0, by decide +kernel⟩,
   ⟨put up Reg.CTX_CFG.VIO_LIM [0] 2, 0, by decide +kernel⟩⟩

theorem witness_CompletionLeavesOneEntry :
    (∃ (c : Nat) (x : Nat), x ≠ c)
    ∧ (∃ (s : State) (c : Nat) (d : Desc) (now : Desc), (now = ((s.ctx c).fetched.find? fun e => e.index == d.index).getD d)) :=
  ⟨⟨0, 1, by decide +kernel⟩,
   ⟨up, 0, {}, _, rfl⟩⟩

theorem witness_ModeChangesPostAModeRecord :
    (∃ (s : State), s.mode = s.sys.shown)
    ∧ (∃ (s : State), s.mode ≠ s.sys.shown)
    ∧ (∃ (s : State), s.mode ≠ s.sys.shown ∧ s.sys.boot = false ∧ ((s.recs.held.find? fun h => h.kind == 0xA0 && h.stamp == s.nowStamp) = none))
    ∧ (∃ (s : State) (h : Held), s.mode ≠ s.sys.shown ∧ ((s.recs.held.find? fun g => g.kind == 0xA0 && g.stamp == s.nowStamp) = some h)) :=
  ⟨⟨{}, by decide⟩,
   ⟨up, by decide⟩,
   ⟨up, by decide +kernel⟩,
   ⟨{ up with recs.held := [{ kind := 0xA0, src := 1008 }] }, { kind := 0xA0, src := 1008 }, by decide +kernel⟩⟩

theorem witness_RegisterAccesses :
    (∃ (a : BitVec 26) (r : RegName) (i : List Nat) (s : State), a.toNat % 4 = 0 ∧ s.sys.ready = true ∧ regFind a.toNat = some (r, i))
    ∧ (∃ (d : BitVec 64), bitOf d.toNat 30 = true)
    ∧ (∃ (s : State) (a : Nat), s.sys.ready = false ∧ 0x10000 ≤ a ∧ a ≠ regAddr .PWR_CTL [])
    ∧ (∃ (a : Nat), regFind a = none)
    ∧ (∃ (s : State) (a : Nat) (r : RegName) (i : List Nat), s.sys.ready = true ∧ regFind a = some (r, i))
    ∧ (∃ (n : Fin 9), 5 ≤ n.val ∧ n ≠ 8)
    ∧ (∃ (a : BitVec 26), a.toNat % 4 ≠ 0)
    ∧ (∃ (a : BitVec 26), a.toNat % 4 = 0)
    ∧ (∃ (r : RegName), (∀ f ∈ (regSpec r).fields, f.acc ≠ .rc))
    ∧ (∃ (s : State), s.sys.ready = true)
    ∧ (∃ (s : State), s.sys.ready = false) :=
  ⟨⟨BitVec.ofNat 26 (regAddr .PWR_CTL []), .PWR_CTL, [], up, by decide⟩,
   ⟨0x40000000, by decide +kernel⟩,
   ⟨{}, 0x10000, by decide⟩,
   ⟨2, by decide⟩,
   ⟨up, regAddr .PWR_CTL [], .PWR_CTL, [], by decide⟩,
   ⟨5, by decide⟩,
   ⟨2, by decide⟩,
   ⟨4, by decide +kernel⟩,
   ⟨.PWR_CTL, by decide⟩,
   ⟨up, by decide +kernel⟩,
   ⟨{}, by decide +kernel⟩⟩

theorem witness_ClampedFieldsTakeTheNearestValue :
    (∃ (r : RegName), (regSpec r).dbuf = true)
    ∧ (∃ (r : RegName), (regSpec r).dbuf = false)
    ∧ (∃ (f : FieldSpec), f.acc ≠ .rw)
    ∧ (∃ (f : FieldSpec), f.acc = .rw)
    ∧ (∃ (f : FieldSpec) (lo : Nat) (hi : Nat), f.clamp = .range lo hi ∧ lo ≤ hi)
    ∧ (∃ (f : FieldSpec) (lo : Nat) (hi : Nat) (v : Nat), f.clamp = .range lo hi ∧ lo ≤ hi ∧ lo ≤ v ∧ v ≤ hi) :=
  ⟨⟨.CTX_CFG, by decide⟩,
   ⟨.PWR_CTL, by decide⟩,
   ⟨⟨0, 0, .ro, fun _ => 0, .none⟩, by decide⟩,
   ⟨⟨0, 0, .rw, fun _ => 0, .none⟩, by decide⟩,
   ⟨⟨2, 0, .rw, fun _ => 0, .range 4 4⟩, 4, 4, by decide⟩,
   ⟨⟨2, 0, .rw, fun _ => 0, .range 4 4⟩, 4, 4, 4, by decide +kernel⟩⟩

theorem witness_RecordCommands :
    (∃ (src : Fin 1024) (free : Fin 131073) (h : Held) (s : State), (nextHeld (fun h => h.src == src.val) s.recs.held = some h) ∧ s.mustHold h = false
      ∧ s.pwr.cut = false ∧ s.awlBusy src = false ∧ telemetryWaits src free = false)
    ∧ (∃ (src : Fin 1024) (free : Fin 131073) (s : State), (∀ h : Held, nextHeld (fun h => h.src == src.val) s.recs.held = some h → s.mustHold h =
      true ∨ s.pwr.cut = true ∨ s.awlBusy src = true ∨ telemetryWaits src free = true))
    ∧ (∃ (s : State), s.rd Reg.TIME_HZN.PERIOD [] ≠ 0 ∧ s.time.hznNext ≤ s.time.now)
    ∧ (∃ (s : State), (s.rd Reg.TIME_HZN.PERIOD [] = 0 ∨ s.time.now < s.time.hznNext))
    ∧ (∃ (s : State), s.sys.ready = true)
    ∧ (∃ (s : State), s.sys.ready = false)
    ∧ (∃ (v : Fin 256) (s : State), v.val ∈ s.recs.heldVec ∧ s.inHoldoff v = false ∧ s.masked v = false)
    ∧ (∃ (v : Fin 256) (s : State), v.val ∈ s.recs.heldVec ∧ s.inHoldoff v = false ∧ s.masked v = true)
    ∧ (∃ (v : Fin 256) (s : State), (v.val ∉ s.recs.heldVec ∨ s.inHoldoff v = true)) :=
  ⟨⟨852, 32768, { src := 852 }, { up with recs.held := [{ src := 852 }] }, by decide +kernel⟩,
   ⟨5, 0, up, fun _ h => absurd (h.symm.trans (by decide : _ = none)) (by simp)⟩,
   ⟨put up Reg.TIME_HZN.PERIOD [] 1, by decide +kernel⟩,
   ⟨{ up with time.hznNext := 1 }, by decide +kernel⟩,
   ⟨up, by decide +kernel⟩,
   ⟨{}, by decide +kernel⟩,
   ⟨0, { put up Reg.MSIX_CTL.MASK [0] 0 with recs.heldVec := [0] }, by decide +kernel⟩,
   ⟨0, { up with recs.heldVec := [0], recs.funcMask := true }, by decide +kernel⟩,
   ⟨0, up, by decide +kernel⟩⟩

theorem witness_TimeCommands :
    (∃ (dom : BitVec 2) (s : State), s.idle = true ∧ s.time.domain = 0 ∧ dom ≠ 0 ∧ s.time.locked = true)
    ∧ (∃ (dom : BitVec 2) (s : State), (s.idle = false ∨ s.time.domain ≠ 0 ∨ dom = 0 ∨ s.time.locked = false))
    ∧ (∃ (s : State), s.time.holding = true ∧ s.time.holdLeft = 0)
    ∧ (∃ (s : State), (s.time.holding = false ∨ s.time.holdLeft ≠ 0))
    ∧ (∃ (s : State), s.sys.porHeld = false ∧ s.time.locked = false ∧ s.sys.refLost = false)
    ∧ (∃ (s : State), s.sys.porHeld = false ∧ s.time.locked = true)
    ∧ (∃ (s : State), s.sys.porHeld = true)
    ∧ (∃ (s : State), s.sys.refLost = true)
    ∧ (∃ (s : State), s.sys.refLost = false)
    ∧ (∃ (s : State), (s.sys.refLost = false ∨ s.time.now < s.time.lostAt + 10000000))
    ∧ (∃ (s : State), s.sys.refLost = true ∧ s.time.locked = true ∧ s.time.lostAt + 10000000 ≤ s.time.now) :=
  ⟨⟨1, { up with time.locked := true }, by decide⟩,
   ⟨0, up, by decide⟩,
   ⟨{ up with time.holding := true }, by decide +kernel⟩,
   ⟨up, by decide +kernel⟩,
   ⟨up, by decide +kernel⟩,
   ⟨{ up with time.locked := true }, by decide +kernel⟩,
   ⟨{ up with sys.porHeld := true }, by decide +kernel⟩,
   ⟨{ sys.refLost := true }, by decide⟩,
   ⟨up, by decide⟩,
   ⟨up, by decide +kernel⟩,
   ⟨{ up with sys.refLost := true, time.locked := true, time.now := 10000000 }, by decide +kernel⟩⟩

theorem witness_NvWrites :
    (∃ (s : State), s.sys.ready = true ∧ s.nv.refuse = false ∧ ((s.nv.writes.any fun w => w.what == 0) = false))
    ∧ (∃ (s : State), s.sys.ready = true ∧ s.nv.refuse = false ∧ ((s.nv.writes.any fun w => w.what == 1) = false))
    ∧ (∃ (s : State), s.sys.ready = true ∧ s.nv.refuse = false ∧ ((s.nv.writes.any fun w => w.what == 2) = false))
    ∧ (∃ (what : Fin 3) (s : State), ((s.nv.writes.find? fun w => w.what == what.val) = none))
    ∧ (∃ (what : Fin 3) (w : NvWrite) (s : State), ((s.nv.writes.find? fun w => w.what == what.val) = some w) ∧ s.sys.resetWait = false)
    ∧ (∃ (what : Fin 3) (w : NvWrite) (s : State), ((s.nv.writes.find? fun w => w.what == what.val) = some w) ∧ s.sys.resetWait = true ∧ s.nv.writes =
      [w]) :=
  ⟨⟨up, by decide +kernel⟩,
   ⟨up, by decide +kernel⟩,
   ⟨up, by decide +kernel⟩,
   ⟨2, up, by decide +kernel⟩,
   ⟨2, { what := 2 }, { up with nv.writes := [{ what := 2 }] }, by decide +kernel⟩,
   ⟨0, { what := 0 }, { up with nv.writes := [{ what := 0 }], sys.resetWait := true }, by decide +kernel⟩⟩

theorem witness_StartTicksFollowTheLead :
    (∃ (s : State) (j : Job), s.job.job = some j ∧ s.job.phase = .armed ∧ j.start = none)
    ∧ (∃ (s : State) (j : Job) (d : Nat), s.job.job = some j ∧ s.job.phase = .armed ∧ j.start = some d)
    ∧ (∃ (s : State) (d : Nat), s.time.dev.abs ≤ s.time.now + d)
    ∧ (∃ (s : State) (j : Job), s.job.job = some j ∧ s.job.phase = .shotBoundary) :=
  ⟨⟨{ up with job := { job := some {}, phase := .armed } }, {}, by decide⟩,
   ⟨{ up with job := { job := some { start := some 0 }, phase := .armed } }, { start := some 0 }, 0, by decide⟩,
   ⟨up, 0, by decide⟩,
   ⟨{ up with job := { job := some {}, phase := .shotBoundary } }, {}, by decide⟩⟩

theorem witness_JobStartArmsOrRefuses :
    ∃ (c : Nat) (d : Desc) (s : State), s.nextJob = some (c, d) ∧ s.jobMayStart = true ∧ s.ringFault c d = none ∧ s.jobRefusal d = none ∧
    s.extentFault c d = false ∧ s.streamsReady = true :=
  ⟨0, { bytes := [5], phase := .ready },
  { put ring0 Reg.CTX_SIZE.RES [0] 1 with time.locked := true, host := { rate := 6, width := 16 }, place := { lasts := #v[{ built := true }, {}, {}, {}], live := some 0 }, ctxs := [(0, { fetched := [{ bytes := [5], phase := .ready }] })] },
  by decide +kernel⟩

theorem witness_ShotStartsAtItsTick :
    (∃ (s : State), (s.job.job = none ∨ s.shotDue = false))
    ∧ (∃ (s : State) (j : Job), s.job.job = some j ∧ s.shotDue = true) :=
  ⟨⟨up, by decide⟩,
   ⟨{ up with job := { job := some {}, phase := .armed, prepared := true } }, {}, by decide⟩⟩

theorem witness_ShotEndsWhenAllFiveConditionsHold :
    (∃ (s : State), s.shotOver = false)
    ∧ (∃ (s : State), s.shotOver = true)
    ∧ (∃ (s : State) (j : Job), s.job.job = some j) :=
  ⟨⟨up, by decide⟩,
   ⟨shotOn, by decide⟩,
   ⟨shotOn, {}, by decide⟩⟩

theorem witness_BoundaryWork :
    (∃ (s : State), (s.job.work = true ∨ s.atBoundary = false ∨ s.cobblerUp = false ∨ s.sys.boot = true))
    ∧ (∃ (s : State), s.job.work = false ∧ s.atBoundary = true ∧ s.cobblerUp = true ∧ s.sys.boot = false ∧ s.job.phase = .shotBoundary ∧ s.cfg.pending
      = false ∧ s.cal.staged = [] ∧ s.vinsWant = s.pwr.vins)
    ∧ (∃ (s : State), s.job.work = false ∧ s.atBoundary = true ∧ s.cobblerUp = true ∧ s.sys.boot = false ∧ s.job.phase = .shotBoundary ∧ s.cfg.pending
      = true)
    ∧ (∃ (s : State), s.job.work = false ∧ s.atBoundary = true ∧ s.cobblerUp = true ∧ s.sys.boot = false ∧ s.job.phase = .idle ∧ (s.job.worked &&
      s.anyReady) = false ∧ s.cfg.pending = true)
    ∧ (∃ (s : State), (s.job.work = false ∨ s.cobblerUp = false))
    ∧ (∃ (s : State), s.job.work = true ∧ s.cobblerUp = true) :=
  ⟨⟨{ up with job.work := true }, by decide⟩,
   ⟨{ up with job := { job := some {}, phase := .shotBoundary } }, by decide⟩,
   ⟨{ up with job := { job := some {}, phase := .shotBoundary }, cfg.pending := true }, by decide⟩,
   ⟨{ up with cfg.pending := true }, by decide +kernel⟩,
   ⟨up, by decide⟩,
   ⟨{ up with job.work := true }, by decide⟩⟩

theorem witness_OrderlyStopEnds :
    (∃ (s : State), s.pwr.stop = none)
    ∧ (∃ (s : State) (p : StopSt), s.pwr.stop = some p ∧ s.time.now < p.t0 + 1000000)
    ∧ (∃ (s : State) (p : StopSt), s.pwr.stop = some p ∧ p.t0 + 1000000 ≤ s.time.now)
    ∧ (∃ (s : State) (j : Job), s.job.job = some j) :=
  ⟨⟨up, by decide⟩,
   ⟨{ up with pwr.stop := some {}, time.now := 999999 }, {}, by decide⟩,
   ⟨{ up with pwr.stop := some {}, time.now := 1000000 }, {}, by decide⟩,
   ⟨shotOn, {}, by decide⟩⟩

theorem witness_WeltJudgesEntries :
    (∃ (w : Fin 288) (s : State), (s.queue w).shank = [])
    ∧ (∃ (w : Fin 288) (s : State) (e : WEvent) (rest : List WEvent), (s.queue w).shank = e :: rest ∧ s.time.now + 4 ≤ s.job.startTick + e.tick ∧
      (s.queue w).lastRel ≤ s.targetSample w e + 1)
    ∧ (∃ (w : Fin 288) (s : State) (e : WEvent) (rest : List WEvent), (s.queue w).shank = e :: rest ∧ (s.job.startTick + e.tick < s.time.now + 4 ∨
      s.targetSample w e + 1 < (s.queue w).lastRel)) :=
  ⟨⟨0, up, by decide⟩,
   ⟨0, { up with outs.queues := [(0, { shank := [{ tick := 4 }] })] }, { tick := 4 }, [], by decide⟩,
   ⟨0, { up with outs.queues := [(0, { shank := [{ tick := 3 }] })] }, { tick := 3 }, [], by decide⟩⟩

theorem witness_WeltReleasesInOrder :
    (∃ (w : Fin 288) (e : WEvent) (s : State), s.nextEvent w (s.queue w).events = some e ∧ s.releaseSample w e / queueUnit (w.val % 72) ≤ s.time.now)
    ∧ (∃ (s : State) (w : Nat) (l : List WEvent) (e : WEvent), s.nextEvent w l = some e)
    ∧ (∃ (s : State) (w : Nat) (l : List WEvent) (e f : WEvent), s.nextEvent w l = some e ∧ f ∈ l ∧ s.releaseSample w f = s.releaseSample w e ∧
      eventClass f = 5)
    ∧ (∃ (lo : Nat) (hi : Nat), lo ≤ hi ∧ hi < 2 ^ 48)
    ∧ (∃ (lo : Nat) (hi : Nat) (f : BitVec 48), lo ≤ hi ∧ hi < 2 ^ 48 ∧ lo ≤ f.toNat ∧ f.toNat ≤ hi) :=
  ⟨⟨0, {}, { up with outs.queues := [(0, { events := [{}] })] }, by decide +kernel⟩,
   ⟨up, 0, [{}], {}, by decide⟩,
   ⟨up, 0, [{ act := .play 0 {} }, {}], {}, {}, by decide +kernel⟩,
   ⟨0, 2 ^ 48 - 1, by decide⟩,
   ⟨0, 2 ^ 48 - 1, 0xFFFFFFFFFFFF, by decide +kernel⟩⟩

theorem witness_OutputStages :
    (∃ (ch : Fin 224) (s : State), s.calOn ch = none ∧ s.enabled ch = true ∧ s.chanUsed ch = true ∧ (s.chan ch).st = 0 ∧ (s.job.phase = .armed ∨
      s.job.phase = .shotBoundary) ∧ s.job.prepared = true ∧ s.job.startTick ≤ s.time.now + 200)
    ∧ (∃ (ch : Fin 224) (s : State), (s.chan ch).switching = false)
    ∧ (∃ (ch : Fin 224) (s : State), (s.chan ch).switching = true ∧ ch.val < 160)
    ∧ (∃ (ch : Fin 224) (s : State), (s.chan ch).switching = true ∧ 160 ≤ ch.val)
    ∧ (∃ (ch : Fin 224) (s : State), (s.chan ch).st ≠ 1)
    ∧ (∃ (ch : Fin 224) (s : State), (s.chan ch).st = 1)
    ∧ (∃ (ch : Fin 224) (s : State), s.job.phase = .idle ∧ (s.chan ch).st = 2 ∧ (s.chan ch).lock = 0 ∧ (s.chan ch).causes = [1]) :=
  ⟨⟨0,
    { put up Reg.CH_CTL.ENABLE [0, 0] 1 with job := { job := some {}, phase := .armed, prepared := true, startTick := 200 }, place.inEffect.seqs := [(0, 0, 1)] },
    by decide +kernel⟩,
   ⟨0, up, by decide⟩,
   ⟨159, { up with outs.chans := [(159, { switching := true })] }, by decide⟩,
   ⟨160, { up with outs.chans := [(160, { switching := true })] }, by decide⟩,
   ⟨0, up, by decide⟩,
   ⟨0, { up with outs.chans := [(0, { st := 1 })] }, by decide⟩,
   ⟨223, { up with outs.chans := [(223, { st := 2, causes := [1] })] }, by decide +kernel⟩⟩

theorem witness_StitchesPlaceEvents :
    (∃ (q : Fin 64) (bad : Bool) (s : State), (s.seq q).st = .issue ∧ (s.seq q).haltPend = false ∧ bad = false ∧ (s.stitchAt q (s.seq q).pc.toNat).cls
      = 4 ∧ (s.stitchAt q (s.seq q).pc.toNat).sub = 0 ∧ (∀ g ∈ markQueues (s.stitchAt q (s.seq q).pc.toNat), s.queueLoad (q / 16 * 72 + 68 + g) <
      256))
    ∧ (∃ (q : Fin 64) (w : Stitch) (s : State), s.issues q w 1 0 ∧ s.queueLoad (q / 16 * 72 + w.queue) < 256 ∧ advCursor w.queue (s.seq q) w
      (s.playPulse (q / 16) w.queue w).len < 2 ^ 32)
    ∧ (∃ (q : Fin 64) (w : Stitch) (s : State), s.issues q w 9 0 ∧ s.queueLoad (q / 16 * 72 + w.queue) < 256 ∧ advCursor w.queue (s.seq q) w
      (streamPulse w (Table.get {} s.sq.streams (q / 16 * 16 + bitsOf w.w1 15 12)).issued).len < 2 ^ 32)
    ∧ (∃ (q : Fin 64) (w : Stitch) (s : State), s.issues q w 8 0 ∧ s.queueLoad (q / 16 * 72 + w.queue) < 256 ∧ (s.seq q).cursor < 2 ^ 32)
    ∧ (∃ (q : Fin 64) (w : Stitch) (s : State), s.issues q w 8 1 ∧ s.queueLoad (q / 16 * 72 + w.queue) < 256 ∧ (s.seq q).cursor < 2 ^ 32)
    ∧ (∃ (q : Fin 64) (w : Stitch) (s : State), s.issues q w 8 2 ∧ s.queueLoad (q / 16 * 72 + w.queue) < 256 ∧ (s.seq q).cursor < 2 ^ 32)
    ∧ (∃ (q : Fin 64) (w : Stitch) (s : State), s.issues q w 8 3 ∧ s.queueLoad (q / 16 * 72 + w.queue) < 256 ∧ (s.seq q).cursor < 2 ^ 32)
    ∧ (∃ (q : Fin 64) (w : Stitch) (s : State), s.issues q w 3 0 ∧ s.queueLoad (q / 16 * 72 + w.queue) < 256 ∧ (advCursor w.queue (s.seq q) w (bitsOf
      w.w2 16 0)) < 2 ^ 32)
    ∧ (∃ (q : Fin 64) (w : Stitch) (s : State), s.issues q w 11 0 ∧ s.queueLoad (q / 16 * 72 + w.queue) < 256 ∧ (s.seq q).cursor < 2 ^ 32)
    ∧ (∃ (q : Fin 64) (w : Stitch) (s : State), s.issues q w 11 1 ∧ s.queueLoad (q / 16 * 72 + w.queue) < 256 ∧ (s.seq q).cursor < 2 ^ 32)
    ∧ (∃ (q : Fin 64) (w : Stitch) (s : State), s.issues q w 11 2 ∧ s.queueLoad (q / 16 * 72 + w.queue) < 256 ∧ (s.seq q).cursor < 2 ^ 32)
    ∧ (∃ (s : State) (k : Nat) (x : Seq) (w : Stitch) (p : Pulse), s.queueLoad (k / 16 * 72 + w.queue) < 256 ∧ advCursor w.queue x w p.len < 2 ^ 32)
    ∧ (∃ (w : Stitch), w.adv = false) :=
  ⟨⟨0, false, prog { st := .issue } 4, by decide⟩,
   ⟨0, ⟨1, 0, 0, 0⟩, progW { st := .issue } ⟨1, 0, 0, 0⟩, by decide +kernel⟩,
   ⟨0, ⟨9, 0, 0, 0⟩, progW { st := .issue } ⟨9, 0, 0, 0⟩, by decide +kernel⟩,
   ⟨0, ⟨8, 0, 0, 0⟩, progW { st := .issue, cursor := 2 ^ 32 - 1 } ⟨8, 0, 0, 0⟩, by decide +kernel⟩,
   ⟨0, ⟨0x18, 0, 0, 0⟩, progW { st := .issue, cursor := 2 ^ 32 - 1 } ⟨0x18, 0, 0, 0⟩, by decide +kernel⟩,
   ⟨0, ⟨0x28, 0, 0, 0⟩, progW { st := .issue, cursor := 2 ^ 32 - 1 } ⟨0x28, 0, 0, 0⟩, by decide +kernel⟩,
   ⟨0, ⟨0x38, 0, 0, 0⟩, progW { st := .issue, cursor := 2 ^ 32 - 1 } ⟨0x38, 0, 0, 0⟩, by decide +kernel⟩,
   ⟨0, ⟨3, 40, 8, 0⟩, progW { st := .issue, cursor := 2 ^ 32 - 1 } ⟨3, 40, 8, 0⟩, by decide +kernel⟩,
   ⟨0, ⟨0xB, 64, 0, 0⟩, progW { st := .issue, cursor := 2 ^ 32 - 1 } ⟨0xB, 64, 0, 0⟩, by decide +kernel⟩,
   ⟨0, ⟨0x1B, 64, 0, 0⟩, progW { st := .issue, cursor := 2 ^ 32 - 1 } ⟨0x1B, 64, 0, 0⟩, by decide +kernel⟩,
   ⟨0, ⟨0x2B, 64, 0, 0⟩, progW { st := .issue, cursor := 2 ^ 32 - 1 } ⟨0x2B, 64, 0, 0⟩, by decide +kernel⟩,
   ⟨up, 0, {}, ⟨1, 0, 0, 0⟩, {}, by decide⟩,
   ⟨⟨0, 0, 0, 0⟩, by decide⟩⟩

theorem witness_StitchIssue :
    (∃ (s : State) (k : Nat), (s.seq k).st ≠ .issue)
    ∧ (∃ (s : State) (k : Nat), (s.seq k).st = .issue ∧ (s.seq k).haltPend = true)
    ∧ (∃ (s : State) (k : Nat), (s.seq k).st = .issue ∧ (s.seq k).haltPend = false)
    ∧ (∃ (s : State) (k : Nat), (s.seq k).st = .issue ∧ (s.seq k).haltPend = false ∧ (s.stitchAt k (s.seq k).pc.toNat).known = false)
    ∧ (∃ (s : State) (k : Nat), (s.seq k).st = .issue ∧ (s.seq k).haltPend = false ∧ (s.stitchAt k (s.seq k).pc.toNat).known = true) :=
  ⟨⟨up, 0, by decide⟩,
   ⟨prog { st := .issue, haltPend := true } 0, 0, by decide⟩,
   ⟨prog { st := .issue } 0, 0, by decide⟩,
   ⟨prog { st := .issue } 0, 0, by decide⟩,
   ⟨prog { st := .issue } 1, 0, by decide⟩⟩

theorem witness_StitchesControlTheProgram :
    (∃ (s : State) (k : Nat) (c : Nat), (s.seq k).st ≠ .stopped ∧ c < 2 ^ 32)
    ∧ (∃ (c : Nat), 2 ^ 32 ≤ c)
    ∧ (∃ (q : Fin 64) (w : Stitch) (s : State), s.issues q w 2 0 ∧ (s.seq q).cursor + w.w1 < 2 ^ 32)
    ∧ (∃ (q : Fin 64) (w : Stitch) (s : State), s.issues q w 2 1 ∧ max (s.seq q).cursor (w.w1 + (s.seq q).shiftSum) < 2 ^ 32)
    ∧ (∃ (q : Fin 64) (w : Stitch) (s : State), s.issues q w 2 2)
    ∧ (∃ (q : Fin 64) (w : Stitch) (s : State), s.issues q w 6 0)
    ∧ (∃ (q : Fin 64) (w : Stitch) (s : State), s.issues q w 6 1 ∧ 1 < (s.seq q).loopCnt[bitsOf w.w1 1 0]?.getD 0)
    ∧ (∃ (q : Fin 64) (w : Stitch) (s : State), s.issues q w 6 1 ∧ (s.seq q).loopCnt[bitsOf w.w1 1 0]?.getD 0 ≤ 1)
    ∧ (∃ (q : Fin 64) (w : Stitch) (s : State), s.issues q w 5 0 ∧ w.cond = 0)
    ∧ (∃ (q : Fin 64) (w : Stitch) (s : State), s.issues q w 5 0 ∧ w.cond ≠ 0)
    ∧ (∃ (q : Fin 64) (w : Stitch) (f : Pulse) (t : Pulse) (s : State), s.issues q w 5 1 ∧ s.forkPulse q w ((s.seq q).pc.toNat + 1) = some f ∧
      s.forkPulse q w w.target = some t ∧ 0 < Table.get 0 (s.seq q).segEnds (w.bqueue * 16 + w.bgen) ∧ s.queueLoad (q / 16 * 72 + w.bqueue) < 256 ∧
      w.cond ≠ 0)
    ∧ (∃ (q : Fin 64) (w : Stitch) (s : State), s.issues q w 7 0)
    ∧ (∃ (q : Fin 64) (w : Stitch) (s : State), s.issues q w 10 0 ∧ (s.seq q).latch = none)
    ∧ (∃ (q : Fin 64) (w : Stitch) (t : Trig) (s : State), s.issues q w 10 0 ∧ (s.seq q).latch = some t) :=
  ⟨⟨up, 0, 2 ^ 32 - 1, by decide⟩,
   ⟨2 ^ 32, by decide⟩,
   ⟨0, ⟨2, 2 ^ 32 - 1, 0, 0⟩, progW { st := .issue } ⟨2, 2 ^ 32 - 1, 0, 0⟩, by decide +kernel⟩,
   ⟨0, ⟨0x12, 2 ^ 32 - 1, 0, 0⟩, progW { st := .issue } ⟨0x12, 2 ^ 32 - 1, 0, 0⟩, by decide +kernel⟩,
   ⟨0, ⟨0x22, 0, 0, 0⟩, progW { st := .issue } ⟨0x22, 0, 0, 0⟩, by decide +kernel⟩,
   ⟨0, ⟨6, 0, 0, 0⟩, progW { st := .issue } ⟨6, 0, 0, 0⟩, by decide +kernel⟩,
   ⟨0, ⟨0x16, 0, 0, 0⟩, progW { st := .issue, loopCnt := #v[2, 0, 0, 0] } ⟨0x16, 0, 0, 0⟩, by decide +kernel⟩,
   ⟨0, ⟨0x16, 0, 0, 0⟩, progW { st := .issue, loopCnt := #v[1, 0, 0, 0] } ⟨0x16, 0, 0, 0⟩, by decide +kernel⟩,
   ⟨0, ⟨5, 0, 0, 0⟩, progW { st := .issue } ⟨5, 0, 0, 0⟩, by decide +kernel⟩,
   ⟨0, ⟨5, 0x4000, 0, 0⟩, progW { st := .issue } ⟨5, 0x4000, 0, 0⟩, by decide +kernel⟩,
   ⟨0, ⟨0x15, 0x4001, 0, 0⟩, _, _, (progW { st := .issue, segEnds := [(0, 1)] } ⟨0x15, 0x4001, 0, 0⟩).store (progBase 0 + 16) [1], ⟨by decide +kernel,
    rfl, rfl, by decide +kernel⟩⟩,
   ⟨0, ⟨7, 0, 0, 0⟩, progW { st := .issue } ⟨7, 0, 0, 0⟩, by decide +kernel⟩,
   ⟨0, ⟨10, 0, 0, 0⟩, progW { st := .issue } ⟨10, 0, 0, 0⟩, by decide +kernel⟩,
   ⟨0, ⟨10, 0, 0, 0⟩, {}, progW { st := .issue, latch := some {} } ⟨10, 0, 0, 0⟩, by decide +kernel⟩⟩

theorem witness_BranchesMeetTheirDeadline :
    (∃ (q : Fin 64) (s : State) (a : Int), (s.seq q).timeReq = some ⟨true, some a⟩)
    ∧ (∃ (q : Fin 64) (s : State) (a : Int) (br : Branch), (s.seq q).timeReq = some ⟨false, some a⟩ ∧ (s.seq q).branch = some br)
    ∧ (∃ (q : Fin 64) (s : State), (((s.seq q).jumps.find? fun j => !j.rejected) = none))
    ∧ (∃ (q : Fin 64) (smp : Fin 16) (s : State) (j : JumpReq), (((s.seq q).jumps.find? fun j => !j.rejected) = some j) ∧ (s.job.startTick * 16 +
      j.lastSample < s.time.now * 16 + smp ∨ hasFork j ((s.queue (q / 16 * 72 + j.queue)).events ++ (s.queue (q / 16 * 72 + j.queue)).shank) = false))
    ∧ (∃ (q : Fin 64) (smp : Fin 16) (s : State) (j : JumpReq), (((s.seq q).jumps.find? fun j => !j.rejected) = some j) ∧ s.time.now * 16 + smp ≤
      s.job.startTick * 16 + j.lastSample ∧ hasFork j ((s.queue (q / 16 * 72 + j.queue)).events ++ (s.queue (q / 16 * 72 + j.queue)).shank) = true)
    ∧ (∃ (q : Fin 64) (s : State), (((s.seq q).jumps.find? fun j => j.rejected) = none))
    ∧ (∃ (q : Fin 64) (s : State) (j : JumpReq), (((s.seq q).jumps.find? fun j => j.rejected) = some j))
    ∧ (∃ (q : Fin 64) (s : State), (s.seq q).st ≠ .queueWait)
    ∧ (∃ (q : Fin 64) (s : State), (s.seq q).st = .queueWait ∧ (s.stitchAt q (s.seq q).pc.toNat).cls = 1 ∧ s.queueLoad (q / 16 * 72 + (s.stitchAt q
      (s.seq q).pc.toNat).queue) < 256)
    ∧ (∃ (q : Fin 64) (br : Branch) (s : State), (s.seq q).branch = some br ∧ br.segEnd = false ∧ s.job.startTick + br.d ≤ s.time.now + 6)
    ∧ (∃ (q : Fin 64) (br : Branch) (s : State), (s.seq q).branch = some br ∧ br.segEnd = false ∧ br.signalSent = true ∧ br.signalled = false ∧
      (br.voided = true ∨ br.reanchor = false))
    ∧ (∃ (q : Fin 64) (br : Branch) (s : State), (s.seq q).branch = some br ∧ br.segEnd = false ∧ br.signalSent = true ∧ br.signalled = false ∧
      br.voided = false ∧ br.reanchor = true)
    ∧ (∃ (q : Fin 64) (r : TimeReq) (s : State), (s.seq q).timeReq = some r ∧ r.answer = none)
    ∧ (∃ (q : Fin 64) (br : Branch) (s : State), (s.seq q).branch = some br ∧ br.reanchor = true ∧ br.signalled = true ∧ br.chosen = none ∧
      s.job.startTick + br.d + s.rd Reg.SEQ_CFG.REANCHOR_MAX [q / 16, q % 16] ≤ s.time.now)
    ∧ (∃ (q : Fin 64) (br : Branch) (s : State), (s.seq q).branch = some br ∧ br.segEnd = true ∧ s.job.startTick * 16 + br.lastSample < (s.time.now +
      1) * 16)
    ∧ (∃ (q : Fin 64) (s : State), (s.stitchAt q (s.seq q).pc.toNat).cond = 2)
    ∧ (∃ (q : Fin 64) (src : Nat) (t : Trig) (rest : List (Nat × Trig)) (s : State), (s.seq q).edges = (src, t) :: rest ∧ s.listens q src (s.atArrival
      src t) = true) :=
  ⟨⟨0, prog { timeReq := some ⟨true, some 0⟩ } 0, 0, by decide⟩,
   ⟨0, prog { timeReq := some ⟨false, some 0⟩, branch := some {} } 0, 0, {}, by decide⟩,
   ⟨0, up, by decide +kernel⟩,
   ⟨0, 1, prog { jumps := [{}] } 0, {}, by decide +kernel⟩,
   ⟨0, 15, { prog { jumps := [{ lastSample := 15 }] } 0 with outs.queues := [(0, { events := [{ tick := 1, act := .fork 0 {} {} }] })] },
    { lastSample := 15 }, by decide +kernel⟩,
   ⟨0, up, by decide +kernel⟩,
   ⟨0, prog { jumps := [{ rejected := true }] } 0, { rejected := true }, by decide +kernel⟩,
   ⟨0, up, by decide⟩,
   ⟨0, prog { st := .queueWait } 1, by decide⟩,
   ⟨0, { d := 6 }, prog { branch := some { d := 6 } } 0, by decide +kernel⟩,
   ⟨0, { signalSent := true }, prog { branch := some { signalSent := true } } 0, by decide +kernel⟩,
   ⟨0, { signalSent := true, reanchor := true }, prog { branch := some { signalSent := true, reanchor := true } } 0, by decide +kernel⟩,
   ⟨0, {}, prog { timeReq := some {} } 0, by decide +kernel⟩,
   ⟨0, { signalled := true, reanchor := true }, { prog { branch := some { signalled := true, reanchor := true } } 0 with time.now := 2 ^ 32 },
    by decide +kernel⟩,
   ⟨0, { segEnd := true, lastSample := 15 }, prog { branch := some { segEnd := true, lastSample := 15 } } 0, by decide +kernel⟩,
   ⟨0, progW {} ⟨5, 0x8000, 0, 0⟩, by decide +kernel⟩,
   ⟨0, 1, {}, [], progW { edges := [(1, {})], branch := some {} } ⟨5, 0xC000, 1, 0⟩, by decide +kernel⟩⟩

theorem witness_TriggersBarriersAndUnderruns :
    (∃ (s : State) (k : Nat), (s.seq k).st = .idle)
    ∧ (∃ (s : State) (k : Nat), (s.seq k).st = .trigWait ∧ (s.seq k).timeReq = none)
    ∧ (∃ (s : State) (k : Nat), (s.seq k).st ≠ .idle ∧ (s.seq k).st ≠ .trigWait ∧ (s.seq k).latch = none)
    ∧ (∃ (s : State) (k : Nat) (a : Int), (s.seq k).st = .trigWait ∧ (max ((s.seq k).cursor : Int) (a + (bitsOf (s.stitchAt k (s.seq k).pc.toNat).w1
      15 0 : Int))).toNat < 2 ^ 32)
    ∧ (∃ (q : Fin 64) (s : State), ((s.seq q).st ≠ .syncWait ∨ s.time.now < (s.seq q).waitFrom + s.rd Reg.SEQ_CFG.SYNC_TIMEOUT [q / 16, q % 16] *
      1000))
    ∧ (∃ (q : Fin 64) (s : State), (s.seq q).st = .syncWait ∧ (s.seq q).waitFrom + s.rd Reg.SEQ_CFG.SYNC_TIMEOUT [q / 16, q % 16] * 1000 ≤ s.time.now)
    ∧ (∃ (w : Fin 288) (s : State), (s.queue w).events = [])
    ∧ (∃ (w : Fin 288) (s : State) (e : WEvent) (g : Nat) (strm : Nat) (rate : Nat) (pos : Nat) (p : Pulse), (s.queue w).events = [e] ∧ e.act = .play
      g p ∧ p.gap = none ∧ p.src = .stream strm rate pos ∧ 0 < s.missing (w / 72) p ∧ s.job.startTick + e.tick < s.time.now + 4)
    ∧ (∃ (q : Fin 64) (s : State), s.sys.ready = true ∧ s.rd Reg.SEQ_CFG.TRIG_SRC [q / 16, q % 16] = 26)
    ∧ (∃ (q : Fin 64) (src : Nat) (t : Trig) (rest : List (Nat × Trig)) (s : State), (s.seq q).edges = (src, t) :: rest ∧ s.listens q src (s.atArrival
      src t) = false ∧ s.rd Reg.SEQ_CFG.TRIG_SRC [q / 16, q % 16] = src)
    ∧ (∃ (b : Fin 64) (u : BarUse) (s : State), ((s.sq.bars.find? fun u => u.bar == (b : Nat) && s.barReady u) = some u)) :=
  ⟨⟨up, 0, by decide⟩,
   ⟨prog { st := .trigWait } 0, 0, by decide⟩,
   ⟨prog { st := .issue } 0, 0, by decide⟩,
   ⟨prog { st := .trigWait } 0, 0, 2 ^ 32 - 1, by decide⟩,
   ⟨0, up, by decide⟩,
   ⟨0, { prog { st := .syncWait } 0 with time.now := 4294967295000 }, by decide⟩,
   ⟨0, up, by decide⟩,
   ⟨0, { up with outs.queues := [(0, { events := [{ tick := 3, act := .play 0 { src := .stream 0 0 0, len := 16 } }] })] },
    { tick := 3, act := .play 0 { src := .stream 0 0 0, len := 16 } }, 0, 0, 0, 0, { src := .stream 0 0 0, len := 16 }, by decide +kernel⟩,
   ⟨0, put up Reg.SEQ_CFG.TRIG_SRC [0, 0] 26, by decide +kernel⟩,
   ⟨0, 25, {}, [], put (prog { edges := [(25, {})] } 0) Reg.SEQ_CFG.TRIG_SRC [0, 0] 25, by decide +kernel⟩,
   ⟨0, { arrived := [(0, 0)] }, { up with sq.bars := [{ arrived := [(0, 0)] }] }, by decide +kernel⟩⟩

theorem witness_WindowsAndCaptures :
    (∃ (q : Fin 4) (t : Fin 128) (s : State), s.winOn q t = none)
    ∧ (∃ (q : Fin 4) (t : Fin 128) (codes : List (BitVec 12)) (s : State) (w : Win), s.winOn q t = some w ∧ s.time.now < w.endTick ∧ (s.byGroups w =
      false ∨ w.cfg.len ≤ w.taken + codes.length))
    ∧ (∃ (q : Fin 4) (t : Fin 128) (codes : List (BitVec 12)) (s : State) (w : Win), s.winOn q t = some w ∧ s.time.now < w.endTick ∧ s.byGroups w =
      true ∧ w.taken + codes.length < w.cfg.len ∧ w.first + w.taken + codes.length ≤ s.time.now * 8)
    ∧ (∃ (q : Fin 4) (t : Fin 128) (s : State) (w : Win), s.winOn q t = some w ∧ w.endTick ≤ s.time.now ∧ w.void = true)
    ∧ (∃ (q : Fin 4) (t : Fin 128) (codes : List (BitVec 12)) (s : State) (w : Win), s.winOn q t = some w ∧ w.endTick ≤ s.time.now ∧ w.void = false ∧
      w.taken + codes.length = w.cfg.len)
    ∧ (∃ (w : Win), w.void = false)
    ∧ (∃ (s : State) (k : Nat) (w : Win) (n : Nat), w.full = false ∧ w.at_ = none ∧ n ≤ s.rd Reg.DSP_IBUF.ILEN [k / 4, k % 4] ∧ (s.dsp k).clash (s.rd
      Reg.DSP_IBUF.IBASE [k / 4, k % 4]) (s.rd Reg.DSP_IBUF.ILEN [k / 4, k % 4]) (((s.dsp k).wpos % s.rd Reg.DSP_IBUF.ILEN [k / 4, k % 4] + w.done) %
      s.rd Reg.DSP_IBUF.ILEN [k / 4, k % 4]) = true)
    ∧ (∃ (s : State) (k : Nat) (w : Win) (n : Nat), w.full = false ∧ w.at_ = none ∧ n ≤ s.rd Reg.DSP_IBUF.ILEN [k / 4, k % 4] ∧ (s.dsp k).clash (s.rd
      Reg.DSP_IBUF.IBASE [k / 4, k % 4]) (s.rd Reg.DSP_IBUF.ILEN [k / 4, k % 4]) (((s.dsp k).wpos % s.rd Reg.DSP_IBUF.ILEN [k / 4, k % 4] + w.done) %
      s.rd Reg.DSP_IBUF.ILEN [k / 4, k % 4]) = false)
    ∧ (∃ (inp : Fin 32) (s : State), (s.job.phase ≠ .inShot ∨ Table.get false s.rdo.ovrSeen inp.val = true))
    ∧ (∃ (inp : Fin 32) (s : State), s.job.phase = .inShot ∧ Table.get false s.rdo.ovrSeen inp.val = false)
    ∧ (∃ (inp : Fin 32) (s : State), (s.capSlot inp).ivals = [])
    ∧ (∃ (inp : Fin 32) (first : Nat) (codes : List (BitVec 12)) (closed : Bool) (v : CapIval) (rest : List CapIval) (s : State), (s.capSlot
      inp).ivals = v :: rest ∧ (first ≠ v.start ∨ closed ≠ decide (v.stop = some (v.start + codes.length)) ∨ s.recordFull inp v codes.length = false ∨
      s.windowBefore inp v.start = true))
    ∧ (∃ (inp : Fin 32) (codes : List (BitVec 12)) (v : CapIval) (rest : List CapIval) (s : State), (s.capSlot inp).ivals = v :: rest ∧ s.recordFull
      inp v codes.length = true ∧ s.windowBefore inp v.start = false ∧ (s.captureData inp v.start codes).2 ≠ 0 ∧ s.job.silent = false ∧ s.job.closing
      = none ∧ s.recs.held = [] ∧ ((s.capSlot inp).susp = true ∨ (s.capSlot inp).waiting.isSome = true))
    ∧ (∃ (inp : Fin 32) (codes : List (BitVec 12)) (v : CapIval) (rest : List CapIval) (s : State), (s.capSlot inp).ivals = v :: rest ∧ s.recordFull
      inp v codes.length = true ∧ s.windowBefore inp v.start = false ∧ (s.captureData inp v.start codes).2 ≠ 0 ∧ s.job.silent = false ∧ (s.capSlot
      inp).susp = false ∧ (s.capSlot inp).waiting = none)
    ∧ (∃ (inp : Fin 32) (s : State), (s.capSlot inp).waiting = none)
    ∧ (∃ (inp : Fin 32) (free : Fin 131073) (s : State) (st : Stamp) (b : List Byte), (s.capSlot inp).waiting = some (st, b) ∧ (free.val < 16384 ∨
      s.ringSize (s.capSlot inp).ctx Reg.CTX_SIZE.CAP = 0 ∨ ((s.ctx (s.capSlot inp).ctx).capTail + 1) % s.ringSize (s.capSlot inp).ctx
      Reg.CTX_SIZE.CAP = (s.ctx (s.capSlot inp).ctx).capHead))
    ∧ (∃ (inp : Fin 32) (free : Fin 131073) (s : State) (st : Stamp) (b : List Byte), (s.capSlot inp).waiting = some (st, b) ∧ 16384 ≤ free.val ∧
      s.ringSize (s.capSlot inp).ctx Reg.CTX_SIZE.CAP ≠ 0 ∧ ((s.ctx (s.capSlot inp).ctx).capTail + 1) % s.ringSize (s.capSlot inp).ctx
      Reg.CTX_SIZE.CAP ≠ (s.ctx (s.capSlot inp).ctx).capHead ∧ s.job.closing = none)
    ∧ (∃ (s : State), s.sys.ready = true) :=
  ⟨⟨0, 0, up, by decide⟩,
   ⟨0, 0, [], win {} 0, {}, by decide +kernel⟩,
   ⟨0, 0, List.replicate 8 0, (win { cfg := { len := 16 } } 1).setLive .DSP_ROUTE [0, 0, 0] 3, { cfg := { len := 16 } }, by decide +kernel⟩,
   ⟨0, 0, win { void := true } 1, { void := true }, by decide⟩,
   ⟨0, 0, List.replicate 8 0, win {} 1, {}, by decide +kernel⟩,
   ⟨{}, by decide⟩,
   ⟨put { up with dsps := [(0, { queue := [{ cnt := 1 }] })] } Reg.DSP_IBUF.ILEN [0, 0] 16, 0, {}, 16, by decide +kernel⟩,
   ⟨put up Reg.DSP_IBUF.ILEN [0, 0] 16, 0, {}, 16, by decide +kernel⟩,
   ⟨0, up, by decide⟩,
   ⟨0, shotOn, by decide⟩,
   ⟨0, up, by decide +kernel⟩,
   ⟨0, 0, [], false, {}, [], { capOn with rdo.caps := [(0, { ivals := [{}] })] }, by decide +kernel⟩,
   ⟨0, List.replicate 16 0, { stop := some 16 }, [], capEnd { susp := true }, by decide +kernel⟩,
   ⟨0, List.replicate 16 0, { stop := some 16 }, [], capEnd {}, by decide +kernel⟩,
   ⟨0, up, by decide +kernel⟩,
   ⟨0, 16383, { put ring0 Reg.CTX_SIZE.CAP [0] 1 with rdo.caps := [(0, { waiting := some ({}, []) })] }, {}, [], by decide +kernel⟩,
   ⟨0, 16384, { put ring0 Reg.CTX_SIZE.CAP [0] 1 with rdo.caps := [(0, { waiting := some ({}, []) })] }, {}, [], by decide +kernel⟩,
   ⟨up, by decide +kernel⟩⟩

theorem witness_ProcessorArithmetic :
    (∀ op : Fin 19, (dspAt { st := .run } (2 ^ 31 + op.val * 2 ^ 25)).dspIssues 0 0 2 op)
    ∧ (∀ op : Fin 7, (dspAt { st := .run } (3 * 2 ^ 30 + op.val * 2 ^ 27)).dspIssues 0 0 3 op)
    ∧ (∃ (k : Fin 16) (bad : BitVec 3) (s : State) (op : Nat) (f : Dsp → Word → Word → Dsp), s.dspIssues k bad 3 op ∧ bad.getLsbD 1 = false ∧
      bad.getLsbD 2 = false ∧ (∀ (d : Dsp) (a b : Word), (f d a b).u = d.u ∧ (f d a b).p = d.p ∧ (f d a b).act = d.act) ∧ (s.dsp k).act = []) :=
  ⟨by decide +kernel,
   by decide +kernel,
   ⟨0, 0, dspAt { st := .run } (3 * 2 ^ 30), 0, fun d _ _ => d, by decide +kernel, by decide, by decide, fun _ _ _ => ⟨rfl, rfl, rfl⟩,
    by decide +kernel⟩⟩

theorem witness_ProcessorControl :
    (∃ (w : Nat) (d : Dsp), (((d.act.filter (· ≠ bitsOf w 25 24)).any fun m => decide ((d.rep m).stop < bitsOf w 23 12)) = true))
    ∧ (∃ (w : Nat) (d : Dsp), (((d.act.filter (· ≠ bitsOf w 25 24)).any fun m => decide ((d.rep m).stop < bitsOf w 23 12)) = false))
    ∧ (∃ (n : Nat) (d : Dsp), d.act = [] ∧ n ≠ 0)
    ∧ (∃ (w : Nat) (n : Nat) (d : Dsp), n ≠ 0 ∧ (((d.act.filter (· ≠ bitsOf w 25 24)).any fun m => decide ((d.rep m).stop < bitsOf w 23 12)) = false)
      ∧ ((d.act.any fun m => (d.rep m).stop == d.pc.toNat) = true))
    ∧ (∃ (s : State) (k : Nat), (s.dsp k).queue = [])
    ∧ (∃ (k : Fin 16) (bad : BitVec 3) (s : State), bad.getLsbD 0 = false ∧ (s.dsp k).st = .run ∧ dspClass (s.dspWord k (s.dsp k).pc.toNat) = 0 ∧
      dspOp (s.dspWord k (s.dsp k).pc.toNat) = 7)
    ∧ (∃ (k : Fin 16) (s : State), ((s.dsp k).cur = none ∨ (s.dsp k).ovf = true ∨ (s.dsp k).hs ≤ s.rd Reg.DSP_BOUND.BOUND [k / 4, k % 4]))
    ∧ (∃ (k : Fin 16) (s : State) (p : Packet), (s.dsp k).cur = some p ∧ (s.dsp k).ovf = false ∧ s.rd Reg.DSP_BOUND.BOUND [k / 4, k % 4] < (s.dsp
      k).hs)
    ∧ (∃ (k : Fin 16) (bad : BitVec 3) (s : State), s.dspIssues k bad 1 0 ∧ bad.getLsbD 1 = false ∧ bad.getLsbD 2 = false)
    ∧ (∃ (k : Fin 16) (bad : BitVec 3) (s : State), s.dspIssues k bad 1 1)
    ∧ (∃ (k : Fin 16) (bad : BitVec 3) (s : State), s.dspIssues k bad 1 2)
    ∧ (∃ (k : Fin 16) (bad : BitVec 3) (s : State), s.dspIssues k bad 1 3)
    ∧ (∃ (k : Fin 16) (bad : BitVec 3) (s : State), s.dspIssues k bad 1 4)
    ∧ (∃ (k : Fin 16) (bad : BitVec 3) (s : State), s.dspIssues k bad 1 5 ∧ (s.dsp k).act ≠ [])
    ∧ (∃ (k : Fin 16) (bad : BitVec 3) (s : State), s.dspIssues k bad 1 5 ∧ (s.dsp k).act = [])
    ∧ (∃ (k : Fin 16) (bad : BitVec 3) (s : State), s.dspIssues k bad 1 6)
    ∧ (∃ (k : Fin 16) (bad : BitVec 3) (s : State), s.dspIssues k bad 0 0)
    ∧ (∃ (k : Fin 16) (bad : BitVec 3) (s : State), s.dspIssues k bad 0 1)
    ∧ (∃ (k : Fin 16) (bad : BitVec 3) (s : State), s.dspIssues k bad 0 2)
    ∧ (∃ (k : Fin 16) (bad : BitVec 3) (s : State), s.dspIssues k bad 0 3)
    ∧ (∃ (k : Fin 16) (bad : BitVec 3) (s : State), s.dspIssues k bad 0 4 ∧ (s.dsp k).cond (bitsOf (s.dspNow k) 3 0) = true)
    ∧ (∃ (k : Fin 16) (bad : BitVec 3) (s : State), s.dspIssues k bad 0 4 ∧ (s.dsp k).cond (bitsOf (s.dspNow k) 3 0) = false)
    ∧ (∃ (d : Dsp), d.act = [])
    ∧ (∃ (k : Fin 16) (bad : BitVec 3) (p : Packet) (s : State), s.dspIssues k bad 0 5 ∧ (s.dsp k).cur = some p)
    ∧ (∃ (k : Fin 16) (bad : BitVec 3) (s : State), s.dspIssues k bad 0 5 ∧ (s.dsp k).cur = none)
    ∧ (∃ (k : Fin 16) (s : State), (s.dsp k).st = .wait ∧ (s.dsp k).queue ≠ [])
    ∧ (∃ (s : State) (k : Nat) (p : Packet) (ps : List Packet), (s.dsp k).queue = p :: ps)
    ∧ (∃ (k : Fin 16) (bad : BitVec 3) (p : Packet) (s : State), s.dspIssues k bad 0 6 ∧ (s.dsp k).cur = some p ∧ p.voided = false)
    ∧ (∃ (k : Fin 16) (bad : BitVec 3) (s : State), s.dspIssues k bad 0 8) :=
  ⟨⟨4096, { act := [1] }, by decide +kernel⟩,
   ⟨0, {}, by decide +kernel⟩,
   ⟨1, {}, by decide⟩,
   ⟨0, 1, { act := [0] }, by decide +kernel⟩,
   ⟨up, 0, by decide⟩,
   ⟨0, 0, dspAt { st := .run } 0x1C000000, by decide⟩,
   ⟨0, up, by decide⟩,
   ⟨0, dspAt { cur := some {}, hs := 65536 } 0, {}, by decide⟩,
   ⟨0, 0, dspAt { st := .run } (2 ^ 30), by decide +kernel⟩,
   ⟨0, 0, dspAt { st := .run } (2 ^ 30 + 2 ^ 27), by decide +kernel⟩,
   ⟨0, 0, dspAt { st := .run } (2 ^ 30 + 2 * 2 ^ 27), by decide +kernel⟩,
   ⟨0, 0, dspAt { st := .run } (2 ^ 30 + 3 * 2 ^ 27), by decide +kernel⟩,
   ⟨0, 0, dspAt { st := .run } (2 ^ 30 + 4 * 2 ^ 27), by decide +kernel⟩,
   ⟨0, 0, dspAt { st := .run, act := [0] } (2 ^ 30 + 5 * 2 ^ 27), by decide +kernel⟩,
   ⟨0, 0, dspAt { st := .run } (2 ^ 30 + 5 * 2 ^ 27), by decide +kernel⟩,
   ⟨0, 0, dspAt { st := .run } (2 ^ 30 + 6 * 2 ^ 27), by decide +kernel⟩,
   ⟨0, 0, dspAt { st := .run } 0, by decide +kernel⟩,
   ⟨0, 0, dspAt { st := .run } (2 ^ 26), by decide +kernel⟩,
   ⟨0, 0, dspAt { st := .run } (2 * 2 ^ 26), by decide +kernel⟩,
   ⟨0, 0, dspAt { st := .run } (3 * 2 ^ 26), by decide +kernel⟩,
   ⟨0, 0, dspAt { st := .run, z := true } (4 * 2 ^ 26), by decide +kernel⟩,
   ⟨0, 0, dspAt { st := .run } (4 * 2 ^ 26), by decide +kernel⟩,
   ⟨{}, by decide +kernel⟩,
   ⟨0, 0, {}, dspAt { st := .run, cur := some {} } (5 * 2 ^ 26), by decide +kernel⟩,
   ⟨0, 0, dspAt { st := .run } (5 * 2 ^ 26), by decide +kernel⟩,
   ⟨0, dspAt { st := .wait, queue := [{}] } 0, by decide +kernel⟩,
   ⟨dspAt { queue := [{}] } 0, 0, {}, [], by decide +kernel⟩,
   ⟨0, 0, {}, dspAt { st := .run, cur := some {} } (6 * 2 ^ 26), by decide +kernel⟩,
   ⟨0, 0, dspAt { st := .run } (8 * 2 ^ 26), by decide +kernel⟩⟩

theorem witness_PlanesRouteAndReceive :
    (∃ (p : Fin 2) (g : BitVec 12) (s : State), takeToken g.toNat s.planes.dp[p].toks = none)
    ∧ (∃ (p : Fin 2) (g : BitVec 12) (s : State) (t : Token) (rest : List Token), takeToken g.toNat s.planes.dp[p].toks = some (t, rest))
    ∧ (∃ (s : State) (p : Fin 2) (par : Bool) (u : Nat) (j : Nat), 4 ≤ (Table.get [] s.planes.dp[p].slots (slotKey par u j)).length)
    ∧ (∃ (q : Fin 64) (o : Bool) (s : State), takeCopy q o s.planes.copies = none)
    ∧ (∃ (q : Fin 64) (o : Bool) (s : State) (t : Token) (rest : List (Nat × Token)), takeCopy q o s.planes.copies = some (t, rest))
    ∧ (∃ (s : State) (k : Nat) (t : Token), ((Table.get 0 (s.seq k).recv t.target.toNat + 32767) % 32768 + 32768 - t.seq.toNat) % 32768 ≤ 1023)
    ∧ (∃ (s : State) (k : Nat) (t : Token), Table.get 0 (s.seq k).recv t.target.toNat = t.seq.toNat)
    ∧ (∃ (p : Fin 2) (g : BitVec 12) (s : State), takeToken g.toNat s.planes.dp[p].syns = none)
    ∧ (∃ (p : Fin 2) (g : BitVec 12) (s : State) (t : Token) (rest : List Token), takeToken g.toNat s.planes.dp[p].syns = some (t, rest) ∧
      s.planes.dp[p].mode = .up)
    ∧ (∃ (p : Fin 2) (g : BitVec 12) (s : State) (t : Token) (rest : List Token), takeToken g.toNat s.planes.dp[p].toks = some (t, rest) ∧
      s.planes.dp[p].mode = .up) :=
  ⟨⟨0, 0, up, by decide⟩,
   ⟨0, 0, plane0 { toks := [{}] }, {}, [], by decide⟩,
   ⟨plane0 { slots := [(0, List.replicate 4 (false, {}))] }, 0, false, 0, 0, by decide⟩,
   ⟨0, false, up, by decide⟩,
   ⟨0, false, { up with planes.copies := [(0, {})] }, {}, [], by decide⟩,
   ⟨prog { recv := [(0, 1)] } 0, 0, {}, by decide⟩,
   ⟨up, 0, {}, by decide⟩,
   ⟨0, 0, up, by decide⟩,
   ⟨0, 0, plane0 { syns := [{}] }, {}, [], by decide⟩,
   ⟨0, 5, plane0 { toks := [{ target := 5 }] }, { target := 5 }, [], by decide +kernel⟩⟩

theorem witness_InterlockMutesAndRepair :
    (∃ (s : State) (m : Nat), (∀ g : Nat, g < 16 → bitOf m g = true → s.planes.emute.getLsbD g = true))
    ∧ (∃ (m : BitVec 16) (s : State), s.sys.ready = true ∧ s.planes.emute &&& m = 0)
    ∧ (∃ (m : BitVec 16) (s : State), s.sys.ready = true ∧ s.planes.emute &&& m ≠ 0)
    ∧ (∃ (s : State), s.planes.cmds = [])
    ∧ (∃ (s : State) (c : SideCmd) (rest : List SideCmd), s.planes.cmds = c :: rest ∧ c.key ∈ s.planes.keys[c.cls]?.getD [])
    ∧ (∃ (s : State) (c : SideCmd) (rest : List SideCmd), s.planes.cmds = c :: rest ∧ c.replay = false ∧ c.key ∉ s.planes.keys[c.cls]?.getD [])
    ∧ (∃ (s : State), s.planes.owner = 0 ∧ s.requests 0 = true)
    ∧ (∃ (s : State), s.planes.owner = 0 ∧ s.requests 0 = false ∧ s.requests 1 = true)
    ∧ (∃ (p : Fin 2) (s : State), s.planes.owner ≠ 0 ∧ s.planes.dp[p].take = false)
    ∧ (∃ (p : Fin 2) (s : State), s.planes.owner ≠ 0 ∧ s.planes.owner ≠ p.val + 1 ∧ s.planes.dp[p].take = true ∧ s.planeUp p = true)
    ∧ (∃ (s : State), s.planes.selfchk = none)
    ∧ (∃ (s : State) (c : Nat), s.planes.selfchk = some c)
    ∧ (∃ (s : State) (p : Fin 2), s.planes.dp[p].mode ≠ .quarantined ∧ s.planes.dp[1 - p].mode ≠ .quarantined)
    ∧ (∃ (q : Fin 2) (s : State), s.onBeat q false = false)
    ∧ (∃ (q : Fin 2) (s : State), s.onBeat q false = true ∧ (s.intervalEnd (1 - q) false).planes.dp[1 - q].beat.fault1 = false ∧ (s.intervalEnd (1 -
      q) false).planes.dp[1 - q].beat.declared = false)
    ∧ (∃ (q : Fin 2) (s : State), s.onBeat q true = false)
    ∧ (∃ (q : Fin 2) (s : State), s.onBeat q true = true ∧ (s.intervalEnd (1 - q) true).planes.dp[1 - q].beat.fault2 = false ∧ (s.intervalEnd (1 - q)
      true).planes.dp[1 - q].beat.declared = false ∧ (s.intervalEnd (1 - q) true).planes.dp[1 - q].beat.miss1 < 4)
    ∧ (∃ (p : Fin 2) (path : Bool) (s : State), s.onBeat (1 - p) path = false)
    ∧ (∃ (p : Fin 2) (s : State), s.onBeat (1 - p) false = true ∧ s.planes.dp[p].beat.from1 = 0)
    ∧ (∃ (p : Fin 2) (s : State), s.onBeat (1 - p) false = true ∧ s.planes.dp[p].beat.from1 ≠ 0 ∧ s.planes.dp[p].beat.from1 ≠ s.time.now + 1 ∧
      s.planes.dp[p].beat.miss1 < 3)
    ∧ (∃ (p : Fin 2) (s : State), s.onBeat (1 - p) true = true ∧ s.planes.dp[p].beat.from2 ≠ 0 ∧ s.planes.dp[p].beat.from2 ≠ s.time.now + 1 ∧
      s.planes.dp[p].beat.miss2 < 1)
    ∧ (∃ (p : Fin 2) (s : State), s.onBeat (1 - p) true = true ∧ s.planes.dp[p].beat.from2 ≠ 0 ∧ s.planes.dp[p].beat.from2 ≠ s.time.now + 1 ∧
      s.planes.dp[p].beat.got2 = false ∧ s.planes.dp[p].beat.miss2 = 1 ∧ 4 ≤ s.planes.dp[p].beat.miss1)
    ∧ (∃ (s : State), s.planes.link = true)
    ∧ (∃ (s : State), s.planes.link = false ∧ s.retrainDue = false)
    ∧ (∃ (s : State), s.planes.link = false ∧ s.retrainDue = true ∧ s.planes.dp[0].repair ≠ .checked ∧ s.planes.dp[1].repair ≠ .checked)
    ∧ (∃ (p : Fin 2) (s : State), (s.planes.dp[p].mode ≠ .resync ∨ s.resyncHere p = false ∨ s.planes.link = false ∨ s.planes.dp[1 - p].mode ≠ .up))
    ∧ (∃ (p : Fin 2) (s : State), s.planes.dp[p].mode = .resync ∧ s.planes.dp[p].repair = .copying ∧ s.planes.dp[1 - p].mode = .up ∧ s.resyncHere p =
      true ∧ s.planes.link = true ∧ s.planes.dp[p].buffer.length ≤ 16384)
    ∧ (∃ (s : State), s.sys.ready = true)
    ∧ (∃ (s : State), s.planes.owner ≠ 0)
    ∧ (∃ (s : State), s.sys.ready = true ∧ s.standbyUp.isSome = true)
    ∧ (∃ (p : Fin 2) (s : State), s.planes.handover = true ∧ s.jobBoundary = true ∧ s.standbyUp = some p)
    ∧ (∃ (s : State), s.sys.ready = true ∧ s.planes.selfchk = none)
    ∧ (∃ (p : Fin 2) (s : State), s.planes.dp[p].mode = .quarantined ∧ s.planes.dp[p].repair = .none ∧ s.jobBoundary = true ∧ (s.flag
      Reg.DP_CTL.AUTO_REPAIR [] = true ∨ s.planes.dp[p].repairReq = true))
    ∧ (∃ (f0 : BitVec 2) (s : State), s.planes.dp[0].repair = .started ∧ s.planes.link = true ∧ f0 = 0) :=
  ⟨⟨up, 0, by decide⟩,
   ⟨0x8000, up, by decide⟩,
   ⟨0x8000, { up with planes.emute := 0x8000 }, by decide⟩,
   ⟨up, by decide⟩,
   ⟨{ up with planes.cmds := [{}], planes.keys := #v[[[]], [], [], []] }, {}, [], by decide⟩,
   ⟨{ up with planes.cmds := [{}] }, {}, [], by decide⟩,
   ⟨up, by decide +kernel⟩,
   ⟨plane0 { mode := .quarantined }, by decide +kernel⟩,
   ⟨0, { up with planes.owner := 1 }, by decide +kernel⟩,
   ⟨1, { up with planes.owner := 1, planes.dp := #v[{}, { take := true }] }, by decide⟩,
   ⟨up, by decide⟩,
   ⟨{ up with planes.selfchk := some 0 }, 0, by decide⟩,
   ⟨up, 0, by decide⟩,
   ⟨1, up, by decide +kernel⟩,
   ⟨0, up, by decide +kernel⟩,
   ⟨1, up, by decide +kernel⟩,
   ⟨0, up, by decide +kernel⟩,
   ⟨0, true, up, by decide +kernel⟩,
   ⟨1, up, by decide +kernel⟩,
   ⟨1, { up with planes.dp := #v[{}, { beat := { from1 := 5, miss1 := 2 } }] }, by decide +kernel⟩,
   ⟨1, { up with planes.dp := #v[{}, { beat := { from2 := 5 } }] }, by decide +kernel⟩,
   ⟨1, { up with planes.dp := #v[{}, { beat := { from2 := 5, miss2 := 1, miss1 := 4 } }] }, by decide +kernel⟩,
   ⟨{ up with planes.link := true }, by decide +kernel⟩,
   ⟨{ up with planes.lostAt := some 0 }, by decide +kernel⟩,
   ⟨up, by decide +kernel⟩,
   ⟨0, up, by decide +kernel⟩,
   ⟨0, { plane0 { mode := .resync, repair := .copying } with planes.link := true }, by decide +kernel⟩,
   ⟨up, by decide +kernel⟩,
   ⟨{ up with planes.owner := 1 }, by decide +kernel⟩,
   ⟨{ up with planes.owner := 1 }, by decide +kernel⟩,
   ⟨1, { up with planes.owner := 1, planes.handover := true }, by decide +kernel⟩,
   ⟨up, by decide +kernel⟩,
   ⟨0, plane0 { mode := .quarantined, repairReq := true }, by decide +kernel⟩,
   ⟨0, { plane0 { repair := .started } with planes.link := true }, by decide +kernel⟩⟩

theorem witness_DecoderRounds :
    (∃ (p : Fin 2) (s : State), s.decoding p = none)
    ∧ (∃ (p : Fin 2) (s : State) (g : DecGraph), s.decoding p = some g)
    ∧ (∃ (p : Fin 2) (peer : Fin 8) (s : State) (g : DecGraph) (r : Nat), s.decoding p = some g ∧ peer.val < g.peers.length ∧ r < (s.dyn p).closed ∧
      (s.dyn p).decoded = r ∧ s.peerFrame p peer r = none ∧ (s.dyn p).isMissed peer r = false ∧ Table.get 0 (s.dyn p).closedAt r + s.rd
      Reg.DEC_WAIT.REMOTE_WAIT [] ≤ s.time.now + 1)
    ∧ (∃ (p : Fin 2) (s : State) (g : DecGraph), s.decoding p = some g ∧ ((s.dyn p).closed ≤ (s.dyn p).decoded ∨ (s.dyn p).out.isSome = true ∨ ∃ i :
      Nat, i < g.peers.length ∧ g.remotes i ≠ [] ∧ s.peerFrame p i (s.dyn p).decoded = none ∧ (s.dyn p).isMissed i (s.dyn p).decoded = false))
    ∧ (∃ (p : Fin 2) (s : State) (g : DecGraph), s.decoding p = some g ∧ (s.dyn p).decoded < (s.dyn p).closed ∧ (s.dyn p).out = none ∧ g.peers = [])
    ∧ (∃ (p : Fin 2) (s : State), (s.dyn p).out = none)
    ∧ (∃ (p : Fin 2) (s : State) (o : DecOut), (s.dyn p).out = some o ∧ s.planeUp p = true)
    ∧ (∃ (p : Fin 2) (s : State) (g : DecGraph), s.decoding p = some g ∧ (s.dyn p).closed < g.rounds ∧ s.mayClose p g (s.dyn p).closed = true)
    ∧ (∃ (p : Fin 2) (s : State) (g : DecGraph), s.decoding p = some g ∧ (s.dyn p).decoded < (s.dyn p).closed ∧ (s.dyn p).out = none ∧ (∀ i : Nat, i <
      g.peers.length → g.remotes i = [] ∨ (s.peerFrame p i (s.dyn p).decoded).isSome = true ∨ (s.dyn p).isMissed i (s.dyn p).decoded = true))
    ∧ (∃ (s : State) (p : Fin 2) (g : DecGraph) (r : Nat) (t : Nat), t < 16 ∧ s.planes.dp[p].mode = .up ∧ s.planes.owner = p.val + 1 ∧ (2048 <
      s.tileEvents g (((s.dyn p).det.filter fun e => decide (nodeKey (r + 1 - min (r + 1) g.window) 0 ≤ e.1 ∧ e.1 < nodeKey (r + 1) 0)).map (·.1)) t)) :=
  ⟨⟨0, up, by decide⟩,
   ⟨0, decOn {} {}, {}, by decide⟩,
   ⟨0, 0, { decOn { peers := [5] } { closed := 1 } with time.now := 4294967295 }, { peers := [5] }, 0, by decide⟩,
   ⟨0, decOn {} {}, {}, by decide⟩,
   ⟨0, decOn {} { closed := 1 }, {}, by decide⟩,
   ⟨0, up, by decide⟩,
   ⟨0, decOn {} { out := some {} }, {}, by decide⟩,
   ⟨0, decOn {} {}, {}, by decide +kernel⟩,
   ⟨0, decOn {} { closed := 1 }, {}, by decide +kernel⟩,
   ⟨{ decOn {} { det := (List.range 2049).map fun k => (k, true) } with planes.owner := 1 }, 0, {}, 0, 0, by decide +kernel⟩⟩

theorem witness_BuildsRefuseOrMakeALast :
    (∃ (c : Fin 1024) (i : BitVec 16) (s : State), s.desc c i.toNat = none)
    ∧ (∃ (c : Fin 1024) (i : BitVec 16) (s : State) (d : Desc), s.desc c i.toNat = some d ∧ (d.op ≠ 4 ∨ d.phase ≠ .loaded))
    ∧ (∃ (c : Fin 1024) (i : BitVec 16) (s : State) (d : Desc), s.desc c i.toNat = some d ∧ d.op = 4 ∧ d.phase = .loaded)
    ∧ (∃ (d : Desc), d.at_ 0x10 4 ≠ placeLen d.payload)
    ∧ (∃ (s : State) (off : Nat) (d : Desc), d.at_ 0x10 4 = placeLen d.payload ∧ imageFault s.deviceId d.payload = some off)
    ∧ (∃ (s : State), (s.place.build = none ∨ ∃ b : Build, s.place.build = some b ∧ b.probes = []))
    ∧ (∃ (s : State) (b : Build), s.place.build = some b ∧ b.probes ≠ [])
    ∧ (∃ (s : State), s.place.build = none)
    ∧ (∃ (s : State) (b : Build), s.place.build = some b ∧ (b.image = [] ∨ b.probes ≠ [] ∨ s.awaited b ≠ [] ∨ s.pwr.cut = true))
    ∧ (∃ (s : State) (b : Build), s.place.build = some b ∧ b.image ≠ [] ∧ b.probes = [] ∧ s.awaited b = [] ∧ s.pwr.cut = false)
    ∧ (∃ (b : Build) (x : Found), x.refusals ≠ [] ∧ (placeInput b.image).lastId < 16)
    ∧ (∃ (b : Build) (x : Found), x.refusals = [] ∧ (placeInput b.image).lastId < 16)
    ∧ (∃ (s : State), s.time.now < s.place.sampledAt + 1000000)
    ∧ (∃ (s : State), s.place.sampledAt + 1000000 ≤ s.time.now)
    ∧ (∃ (n : SpeedCounts) (i : Fin 32), n[i] ≠ 0)
    ∧ (∃ (s : State), s.place.reproof ≠ some 1)
    ∧ (∃ (s : State), s.place.reproof = some 1)
    ∧ (∃ (c : Fin 1024) (i : BitVec 16) (s : State) (d : Desc), s.starts c i.toNat 4 d ∧ s.place.build = none)
    ∧ (∃ (c : Fin 1024) (i : BitVec 16) (s : State) (d : Desc) (b : Build), s.hasData c i.toNat 4 d ∧ s.place.build = some b ∧ b.ctx = c.val ∧ b.index
      = i.toNat ∧ b.image = [])
    ∧ (∃ (p : BitVec 18) (s : State) (b : Build), s.place.build = some b ∧ b.image ≠ [] ∧ b.startAt + bitsOf b.plc.toNat 31 24 * 1000000 ≤ s.time.now
      ∧ p.toNat ∈ s.awaited b)
    ∧ (∃ (s : State), s.place.reproof = some 0) :=
  ⟨⟨0, 0, up, by decide⟩,
   ⟨0, 0, desc0 {}, {}, by decide⟩,
   ⟨0, 0, desc0 { bytes := [4], phase := .loaded }, { bytes := [4], phase := .loaded }, by decide⟩,
   ⟨{}, by decide⟩,
   ⟨up, 0, place32, by decide⟩,
   ⟨up, by decide⟩,
   ⟨{ up with place.build := some { probes := [1] } }, { probes := [1] }, by decide⟩,
   ⟨up, by decide⟩,
   ⟨{ up with place.build := some {} }, {}, by decide⟩,
   ⟨{ up with place.build := some { image := [1] } }, { image := [1] }, by decide⟩,
   ⟨{}, { refusals := [ref 0x12 3 0 0 0] }, by decide +kernel⟩,
   ⟨{}, {}, by decide⟩,
   ⟨up, by decide +kernel⟩,
   ⟨{ up with time.now := 1000000 }, by decide +kernel⟩,
   ⟨Vector.replicate 32 1, 31, by decide +kernel⟩,
   ⟨up, by decide⟩,
   ⟨{ up with place.reproof := some 1 }, by decide⟩,
   ⟨0, 0, descIn .fetched (4 :: List.replicate 15 0 ++ [32]), { bytes := 4 :: List.replicate 15 0 ++ [32] }, by decide +kernel⟩,
   ⟨0, 0, { desc0 { bytes := [4], phase := .loaded } with place.build := some {} }, { bytes := [4], phase := .loaded }, {}, by decide +kernel⟩,
   ⟨5,
    { put (progW {} ⟨3, 0x40028, 8, 0⟩) Reg.DEC_CFG.EN [] 1 with place.build := some { image := List.replicate 8 0 ++ [1] }, dec.graph := some { peers := [5] } },
    { image := List.replicate 8 0 ++ [1] }, by decide +kernel⟩,
   ⟨{ up with place.reproof := some 0 }, by decide +kernel⟩⟩

theorem witness_BiasOutputs :
    (∃ (k : Fin 256) (s : State) (t : Int) (from_ : Nat), (s.biasOut k).move = .ramp t from_)
    ∧ (∃ (k : Fin 256) (s : State) (from_ : Nat) (r : Nat) (c : Int), (s.biasOut k).move = .toZero from_ r c)
    ∧ (∃ (k : Fin 256) (s : State) (t : Int) (from_ : Nat), (s.biasOut k).move = .up t from_)
    ∧ (∃ (k : Fin 256) (s : State), (s.biasOut k).move = .steady)
    ∧ (∃ (k : Fin 256) (s : State) (from_ : Nat) (r : Nat) (c : Int), (s.biasOut k).move = .hold from_ r c)
    ∧ (∃ (k : Fin 256) (s : State), (s.biasOut k).wave = none)
    ∧ (∃ (k : Fin 256) (s : State) (w : BiasWave), (s.biasOut k).wave = some w)
    ∧ (∃ (k : Nat) (n : Nat), n ≠ k)
    ∧ (∃ (k : Fin 256) (s : State) (t : Int) (f : Nat), (s.biasOut k).move = .ramp t f ∧ f + s.rampLen k (t - (s.biasOut k).code) ≤ s.time.now)
    ∧ (∃ (k : Fin 256) (s : State), (s.biasOut k).rangeWait = true ∧ (s.biasOut k).st = 0 ∧ s.job.work = false ∧ (s.betweenJobs = true ∨ s.job.phase =
      .armed ∨ s.biasUsed k = false))
    ∧ (∃ (k : Fin 256) (s : State) (f : Nat) (r : Nat) (c : Int), (s.biasOut k).move = .hold f r c ∧ f + 20000 ≤ s.time.now)
    ∧ (∃ (k : Fin 256) (s : State) (w : BiasWave), (s.biasOut k).wave = some w ∧ w.due ≤ s.time.now ∧ w.next + 1 ≠ w.len)
    ∧ (∃ (k : Fin 256) (s : State), (s.biasOut k).st ≠ 3 ∧ (s.biasOut k).compl = false ∧ (s.biasOut k).openLoad = false)
    ∧ (∃ (k : Fin 256) (s : State), (s.biasOut k).compl = true)
    ∧ (∃ (k : Fin 256) (s : State), (s.biasOut k).st ≠ 3 ∧ (s.biasOut k).openLoad = false ∧ 8192 ≤ (s.biasCode k).natAbs)
    ∧ (∃ (k : Fin 256) (s : State), s.sys.ready = true ∧ (s.biasOut k).st = 2)
    ∧ (∃ (k : Fin 256) (s : State), s.sys.ready = true ∧ (s.biasOut k).st = 0)
    ∧ (∃ (s : State), s.sys.ready = true ∧ s.job.phase ≠ .inShot ∧ s.job.work = false ∧ s.cfg.pending = false)
    ∧ (∃ (s : State) (k c a : Nat) (j : Job), a ≠ 0 ∧ s.job.phase = .inShot ∧ (s.biasAct k c a).job.job = some j) :=
  ⟨⟨0, bias0 (.ramp 1 0), 1, 0, by decide⟩,
   ⟨0, bias0 (.toZero 0 1 2), 0, 1, 2, by decide⟩,
   ⟨0, bias0 (.up 1 0), 1, 0, by decide⟩,
   ⟨0, up, by decide⟩,
   ⟨0, bias0 (.hold 0 1 2), 0, 1, 2, by decide⟩,
   ⟨0, up, by decide⟩,
   ⟨0, { up with bias.outs := [(0, { wave := some {} })] }, {}, by decide⟩,
   ⟨0, 1, by decide +kernel⟩,
   ⟨0, { bias0 (.ramp 1 0) with time.now := 10000000000 }, 1, 0, by decide +kernel⟩,
   ⟨0, { up with bias.outs := [(0, { rangeWait := true })] }, by decide +kernel⟩,
   ⟨0, { bias0 (.hold 0 1 2) with time.now := 20000 }, 0, 1, 2, by decide +kernel⟩,
   ⟨0, { up with bias.outs := [(0, { wave := some { len := 2 } })] }, { len := 2 }, by decide +kernel⟩,
   ⟨0, up, by decide +kernel⟩,
   ⟨0, { up with bias.outs := [(0, { compl := true })] }, by decide +kernel⟩,
   ⟨0, { up with bias.outs := [(0, { code := -8192 })] }, by decide +kernel⟩,
   ⟨0, { up with bias.outs := [(0, { st := 2 })] }, by decide +kernel⟩,
   ⟨0, up, by decide +kernel⟩,
   ⟨up, by decide +kernel⟩,
   ⟨shotOn, 0, 1, 2, { shotInvalid := true }, by decide +kernel⟩⟩

theorem witness_DoorbellsAndHostReads :
    (∃ (s : State) (c : Nat), (s.ctx c).quar = true)
    ∧ (∃ (s : State) (c : Nat), (s.ctx c).quar = false)
    ∧ (∃ (c : Fin 1024) (e : Fin 3) (s : State), s.cobblerUp = true ∧ e = 0 ∧ s.mayFetch c = true)
    ∧ (∃ (c : Fin 1024) (e : Fin 3) (s : State), (s.cobblerUp = false ∨ (e = 0 ∧ s.mayFetch c = false)))
    ∧ (∃ (e : Fin 3) (s : State), s.cobblerUp = true ∧ e ≠ 0)
    ∧ (∃ (c : Nat) (i : Nat) (retry : Bool) (data : List Byte) (s : State), ReadFor.entry c i retry ∈ s.host.reads ∧ fieldAt data 0 1 ≤ 0x0B ∧ fieldAt
      data 0 1 ≠ 7)
    ∧ (∃ (s : State) (c : Nat), (s.ctx c).fetched = [])
    ∧ (∃ (s : State) (c : Nat) (d : Desc), (∀ e ∈ (s.ctx c).fetched, s.ringAge c d.index ≤ s.ringAge c e.index))
    ∧ (∃ (c : Nat) (i : Nat) (retry : Bool) (data : List Byte) (s : State), ReadFor.entry c i retry ∈ s.host.reads ∧ 0x0B < fieldAt data 0 1)
    ∧ (∃ (c : Nat) (i : Nat) (retry : Bool) (s : State) (d : Desc), ReadFor.data c i retry ∈ s.host.reads ∧ s.desc c i = some d ∧ d.phase = .reading)
    ∧ (∃ (c : Nat) (i : Nat) (retry : Bool) (s : State), ReadFor.entry c i retry ∉ s.host.reads)
    ∧ (∃ (c : Nat) (i : Nat) (retry : Bool) (s : State), ReadFor.data c i retry ∉ s.host.reads)
    ∧ (∃ (c : Nat) (i : Nat) (s : State), ReadFor.entry c i false ∈ s.host.reads)
    ∧ (∃ (c : Nat) (i : Nat) (x : Fin 5) (s : State), ReadFor.entry c i true ∈ s.host.reads ∧ x ≠ 0)
    ∧ (∃ (q : Fin 4) (n : Fin 16) (s : State), (Table.get {} s.sq.streams (q.val * 16 + n.val)).bound = false)
    ∧ (∃ (q : Fin 4) (n : Fin 16) (data : List Byte) (s : State), (Table.get {} s.sq.streams (q.val * 16 + n.val)).bound = true ∧ (Table.get {}
      s.sq.streams (q.val * 16 + n.val)).under = false ∧ data.length / 4 ≤ s.streamFree q n ∧ (Table.get {} s.sq.streams (q.val * 16 + n.val)).arrived
      + data.length / 4 ≤ s.streamLimit q n)
    ∧ (∃ (c : Fin 1024) (v : Word) (s : State), (s.ctx c).quar = false ∧ s.flag Reg.CTX_CFG.ENABLE [c] = true ∧ v.toNat < s.ringSize c
      Reg.CTX_SIZE.SUB)
    ∧ (∃ (c : Fin 1024) (v : Word) (s : State), (s.ctx c).quar = false ∧ s.flag Reg.CTX_CFG.ENABLE [c] = true ∧ v.toNat < s.ringSize c
      Reg.CTX_SIZE.CPL ∧ (v.toNat + s.ringSize c Reg.CTX_SIZE.CPL - (s.ctx c).cplHead) % s.ringSize c Reg.CTX_SIZE.CPL ≤ ((s.ctx c).cplTail +
      s.ringSize c Reg.CTX_SIZE.CPL - (s.ctx c).cplHead) % s.ringSize c Reg.CTX_SIZE.CPL)
    ∧ (∃ (c : Fin 1024) (v : Word) (s : State), (s.ctx c).quar = false ∧ s.flag Reg.CTX_CFG.ENABLE [c] = true ∧ v.toNat < s.ringSize c
      Reg.CTX_SIZE.RES ∧ (v.toNat + s.ringSize c Reg.CTX_SIZE.RES - (s.ctx c).resHead) % s.ringSize c Reg.CTX_SIZE.RES ≤ ((s.ctx c).resTail +
      s.ringSize c Reg.CTX_SIZE.RES - (s.ctx c).resHead) % s.ringSize c Reg.CTX_SIZE.RES)
    ∧ (∃ (c : Fin 1024) (v : Word) (s : State), (s.ctx c).quar = false ∧ s.flag Reg.CTX_CFG.ENABLE [c] = true ∧ v.toNat < s.ringSize c
      Reg.CTX_SIZE.EVT ∧ (v.toNat + s.ringSize c Reg.CTX_SIZE.EVT - (s.ctx c).evtHead) % s.ringSize c Reg.CTX_SIZE.EVT ≤ ((s.ctx c).evtTail +
      s.ringSize c Reg.CTX_SIZE.EVT - (s.ctx c).evtHead) % s.ringSize c Reg.CTX_SIZE.EVT)
    ∧ (∃ (c : Fin 1024) (v : Word) (s : State), (s.ctx c).quar = false ∧ s.flag Reg.CTX_CFG.ENABLE [c] = true ∧ v.toNat < s.ringSize c
      Reg.CTX_SIZE.CAP ∧ (v.toNat + s.ringSize c Reg.CTX_SIZE.CAP - (s.ctx c).capHead) % s.ringSize c Reg.CTX_SIZE.CAP ≤ ((s.ctx c).capTail +
      s.ringSize c Reg.CTX_SIZE.CAP - (s.ctx c).capHead) % s.ringSize c Reg.CTX_SIZE.CAP)
    ∧ (∃ (off : BitVec 22) (n : Fin 9) (s : State), (n ≠ 4 ∨ off.toNat % 4 ≠ 0 ∨ 16 < off.toNat % 4096) ∧ (s.ctx (off.toNat / 4096)).quar = false)
    ∧ (∃ (s : State), s.sys.ready = true)
    ∧ (∃ (c : Fin 1024) (s : State) (j : Job), s.sys.ready = true ∧ s.job.job = some j ∧ j.ctx = c.val) :=
  ⟨⟨ctx0 { quar := true }, 0, by decide⟩,
   ⟨up, 0, by decide⟩,
   ⟨0, 0, { ring0 with ctxs := [(0, { subTail := 1 })] }, by decide⟩,
   ⟨0, 0, up, by decide⟩,
   ⟨1, up, by decide⟩,
   ⟨0, 0, false, [0x0B], { up with host.reads := [.entry 0 0 false] }, by decide⟩,
   ⟨up, 0, by decide⟩,
   ⟨desc0 {}, 0, {}, by decide +kernel⟩,
   ⟨0, 0, true, [12], { up with host.reads := [.entry 0 0 true] }, by decide +kernel⟩,
   ⟨0, 0, false, { desc0 { phase := .reading } with host.reads := [.data 0 0 false] }, { phase := .reading }, by decide⟩,
   ⟨0, 0, false, up, by decide +kernel⟩,
   ⟨0, 0, false, up, by decide +kernel⟩,
   ⟨0, 0, { up with host.reads := [.entry 0 0 false] }, by decide⟩,
   ⟨0, 0, 4, { up with host.reads := [.entry 0 0 true] }, by decide +kernel⟩,
   ⟨0, 0, up, by decide⟩,
   ⟨0, 0, [], { up with sq.streams := [(0, { bound := true })] }, by decide +kernel⟩,
   ⟨0, 1, ring0, by decide +kernel⟩,
   ⟨0, 1, { ring0 with ctxs := [(0, { cplTail := 1 })] }, by decide +kernel⟩,
   ⟨0, 1, { put ring0 Reg.CTX_SIZE.RES [0] 1 with ctxs := [(0, { resTail := 1 })] }, by decide +kernel⟩,
   ⟨0, 1, { ring0 with ctxs := [(0, { evtTail := 1 })] }, by decide +kernel⟩,
   ⟨0, 1, { put ring0 Reg.CTX_SIZE.CAP [0] 1 with ctxs := [(0, { capTail := 1 })] }, by decide +kernel⟩,
   ⟨20, 4, up, by decide +kernel⟩,
   ⟨up, by decide +kernel⟩,
   ⟨0, shotOn, {}, by decide +kernel⟩⟩

theorem witness_CommitsFunctionStatesAndInterfaceResets :
    (∃ (host : Bool) (low : Fin 3) (w : Fin 17) (l : Fin 17) (s : State), (host = true ∨ s.mayLower low w l = true))
    ∧ (∃ (low : Fin 3) (w : Fin 17) (l : Fin 17) (s : State), s.mayLower low w l = false)
    ∧ (∃ (s : State), s.job.job = none)
    ∧ (∃ (s : State) (a : Nat), s.job.job = none ∧ ((0x20000 ≤ a ∧ a < 0x50000) ∨ (0x120000 ≤ a ∧ a < 0x130000)))
    ∧ (∃ (s : State) (a : Nat), s.job.job = none ∧ (¬ ((0x20000 ≤ a ∧ a < 0x50000) ∨ (0x120000 ≤ a ∧ a < 0x130000))))
    ∧ (∃ (s : State), s.sys.ready = false)
    ∧ (∃ (s : State), s.sys.ready = true ∧ (s.job.work && s.job.workCommit) = false)
    ∧ (∃ (s : State), s.sys.ready = true ∧ s.job.work = true ∧ s.job.workCommit = true)
    ∧ (∃ (s : State), s.sys.ready = true ∧ s.cfg.pending = true ∧ (s.job.work && s.job.workCommit) = false)
    ∧ (∃ (s : State), s.cfg.pending = false)
    ∧ (∃ (s : State), s.job.work = true ∧ s.job.workCommit = true)
    ∧ (∃ (s : State), s.job.job = none ∧ s.job.closing = none ∧ s.sys.shown = s.hostIfReset.mode) :=
  ⟨⟨true, 2, 0, 0, up, by decide +kernel⟩,
   ⟨2, 0, 0, up, by decide +kernel⟩,
   ⟨up, by decide⟩,
   ⟨up, 0x20000, by decide +kernel⟩,
   ⟨up, 0x50000, by decide +kernel⟩,
   ⟨{}, by decide⟩,
   ⟨up, by decide⟩,
   ⟨{ up with job := { work := true, workCommit := true } }, by decide⟩,
   ⟨{ up with cfg.pending := true }, by decide⟩,
   ⟨up, by decide⟩,
   ⟨{ up with job := { work := true, workCommit := true } }, by decide⟩,
   ⟨{ up with sys.shown := up.hostIfReset.mode }, by decide +kernel⟩⟩

theorem witness_DescriptorsStartAndComplete :
    (∃ (d : Desc), d.op = 11)
    ∧ (∃ (d : Desc), d.op = 5)
    ∧ (∃ (d : Desc), d.op = 1)
    ∧ (∃ (s : State) (c : Nat) (i : Nat) (op : Nat) (d : Desc), s.desc c i = some d ∧ d.op = op ∧ d.phase = .loaded ∧ s.cobblerUp = true)
    ∧ (∃ (s : State) (c : Nat) (i : Nat) (d : Desc), s.desc c i = some d ∧ d.phase = .fetched)
    ∧ (∃ (d : Desc) (o : Nat) (e : Nat), biasDataFault d = some (o, e))
    ∧ (∃ (d : Desc), d.at_ 0x14 1 = 7)
    ∧ (∃ (x : List Byte) (f : Nat) (n : Nat), x.length ≤ f + n)
    ∧ (∃ (c : Fin 1024) (i : BitVec 16) (s : State) (d : Desc), s.starts c i.toNat 0 d)
    ∧ (∃ (c : Fin 1024) (i : BitVec 16) (s : State) (d : Desc), s.starts c i.toNat 11 d)
    ∧ (∃ (c : Fin 1024) (i : BitVec 16) (s : State) (d : Desc), s.starts c i.toNat 1 d ∧ s.regionHeld d.regions = false ∧ d.source.2 ≠ 0)
    ∧ (∃ (c : Fin 1024) (i : BitVec 16) (s : State) (d : Desc), s.hasData c i.toNat 1 d)
    ∧ (∃ (c : Fin 1024) (i : BitVec 16) (s : State) (d : Desc), s.starts c i.toNat 2 d ∧ s.regionHeld d.regions = false ∧ d.source.2 ≠ 0)
    ∧ (∃ (c : Fin 1024) (i : BitVec 16) (s : State) (d : Desc), s.hasData c i.toNat 2 d)
    ∧ (∃ (c : Fin 1024) (i : BitVec 16) (s : State) (d : Desc), s.starts c i.toNat 3 d ∧ s.regionHeld d.regions = false ∧ d.source.2 ≠ 0)
    ∧ (∃ (c : Fin 1024) (i : BitVec 16) (s : State) (d : Desc), s.hasData c i.toNat 3 d)
    ∧ (∃ (c : Fin 1024) (i : BitVec 16) (s : State) (d : Desc), s.starts c i.toNat 8 d ∧ s.regionHeld d.regions = false ∧ d.source.2 ≠ 0)
    ∧ (∃ (c : Fin 1024) (i : BitVec 16) (s : State) (d : Desc), s.hasData c i.toNat 8 d)
    ∧ (∃ (d : Desc) (at_ : Nat) (cause : Nat), d.at_ 0x14 1 = 0 ∧ firstRefused (d.at_ 0x18 4) ((items (progUnit d).1 d.payload).map checkStitch) =
      some (at_, cause))
    ∧ (∃ (d : Desc), d.at_ 0x14 1 = 0 ∧ firstRefused (d.at_ 0x18 4) ((items (progUnit d).1 d.payload).map checkStitch) = none)
    ∧ (∃ (d : Desc) (o : Nat), (graphHead d.payload).len = d.at_ 0x10 4 ∧ graphFault d.payload (graphHead d.payload) = some o)
    ∧ (∃ (d : Desc), (graphHead d.payload).len = d.at_ 0x10 4 ∧ graphFault d.payload (graphHead d.payload) = none ∧ graphOver d.payload (graphHead
      d.payload) = false ∧ graphClamps d.payload (graphHead d.payload) = [])
    ∧ (∃ (c : Fin 1024) (i : BitVec 16) (s : State) (d : Desc), s.desc c i.toNat = some d ∧ d.phase = .deferred ∧ (s.job.phase = .idle ∨ s.job.phase =
      .armed) ∧ s.cobblerUp = true ∧ d.op ≠ 9 ∧ d.source.2 ≠ 0)
    ∧ (∃ (c : Fin 1024) (i : BitVec 16) (s : State) (d : Desc), s.starts c i.toNat 9 d ∧ s.streamHeld d = false)
    ∧ (∃ (c : Fin 1024) (i : BitVec 16) (s : State) (d : Desc), s.starts c i.toNat 10 d)
    ∧ (∃ (c : Fin 1024) (i : BitVec 16) (s : State) (d : Desc), s.starts c i.toNat 7 d ∧ s.calFirst c i.toNat = true)
    ∧ (∃ (c : Fin 1024) (i : BitVec 16) (s : State) (d : Desc), s.starts c i.toNat 5 d ∧ (s.anyReady = true ∨ s.job.ending.isSome = true))
    ∧ (∃ (c : Fin 1024) (i : BitVec 16) (s : State) (d : Desc), s.starts c i.toNat 5 d ∧ s.anyReady = false ∧ s.job.ending.isSome = false)
    ∧ (∃ (c : Fin 1024) (i : BitVec 16) (s : State) (d : Desc), s.starts c i.toNat 6 d ∧ (s.anyReady = true ∨ s.job.ending.isSome = true))
    ∧ (∃ (c : Fin 1024) (i : BitVec 16) (s : State) (d : Desc), s.starts c i.toNat 6 d ∧ s.anyReady = false ∧ s.job.ending.isSome = false) :=
  ⟨⟨{ bytes := [11] }, by decide +kernel⟩,
   ⟨{ bytes := [5] }, by decide +kernel⟩,
   ⟨{ bytes := [1] }, by decide +kernel⟩,
   ⟨desc0 { bytes := [1], phase := .loaded }, 0, 0, 1, { bytes := [1], phase := .loaded }, by decide⟩,
   ⟨desc0 {}, 0, 0, {}, by decide⟩,
   ⟨biasBad, 2, 2, by decide⟩,
   ⟨{ bytes := List.replicate 20 0 ++ [7] }, by decide⟩,
   ⟨[0], 0, 1, by decide +kernel⟩,
   ⟨0, 0, descIn .fetched [0], { bytes := [0] }, by decide +kernel⟩,
   ⟨0, 0, descIn .fetched [11], { bytes := [11] }, by decide +kernel⟩,
   ⟨0, 0, descIn .fetched [1], { bytes := [1] }, by decide +kernel⟩,
   ⟨0, 0, descIn .loaded [1], { bytes := [1], phase := .loaded }, by decide +kernel⟩,
   ⟨0, 0, descIn .fetched (2 :: List.replicate 15 0 ++ [64]), { bytes := 2 :: List.replicate 15 0 ++ [64] }, by decide +kernel⟩,
   ⟨0, 0, descIn .loaded [2], { bytes := [2], phase := .loaded }, by decide +kernel⟩,
   ⟨0, 0, descIn .fetched (3 :: List.replicate 15 0 ++ [64]), { bytes := 3 :: List.replicate 15 0 ++ [64] }, by decide +kernel⟩,
   ⟨0, 0, descIn .loaded [3], { bytes := [3], phase := .loaded }, by decide +kernel⟩,
   ⟨0, 0, descIn .fetched [8], { bytes := [8] }, by decide +kernel⟩,
   ⟨0, 0, descIn .loaded [8], { bytes := [8], phase := .loaded }, by decide +kernel⟩,
   ⟨{ bytes := [1], data := List.replicate 16 0 }, 0, 3, by decide +kernel⟩,
   ⟨{ bytes := [1], data := 0x22 :: List.replicate 15 0 }, by decide +kernel⟩,
   ⟨{ bytes := 3 :: List.replicate 15 0 ++ [80], data := List.replicate 80 0 }, 0, by decide +kernel⟩,
   ⟨{ bytes := 3 :: List.replicate 15 0 ++ [88], data := [1, 0, 0, 0, 2, 0, 1, 0, 1, 0, 0, 0, 1] ++ List.replicate 51 0 ++ List.replicate 8 0 ++ [1, 0, 0, 0, 0, 0, 0, 0] ++ [0, 0, 1, 0, 1, 0, 0, 0] },
    by decide +kernel⟩,
   ⟨0, 0, descIn .deferred [1], { bytes := [1], phase := .deferred }, by decide +kernel⟩,
   ⟨0, 0, descIn .fetched [9], { bytes := [9] }, by decide +kernel⟩,
   ⟨0, 0, descIn .fetched [10], { bytes := [10] }, by decide +kernel⟩,
   ⟨0, 0, descIn .fetched [7, 0, 0, 0, 0, 0, 0, 0, 1], { bytes := [7, 0, 0, 0, 0, 0, 0, 0, 1] }, by decide +kernel⟩,
   ⟨0, 0, { descIn .fetched [5] with job.ending := some 0 }, { bytes := [5] }, by decide +kernel⟩,
   ⟨0, 0, descIn .fetched [5], { bytes := [5] }, by decide +kernel⟩,
   ⟨0, 0, { descIn .fetched [6] with job.ending := some 0 }, { bytes := [6] }, by decide +kernel⟩,
   ⟨0, 0, descIn .fetched [6], { bytes := [6] }, by decide +kernel⟩⟩

theorem witness_LaceTrainingWidthAndIdle :
    (∃ (l : Fin 8) (s : State), (s.lnk l).waiting = false ∧ (s.lnk l).st ≠ 5)
    ∧ (∃ (l : Fin 8) (lane : Fin 4) (s : State), (s.lnk l).waiting = true ∧ bitOf (s.lnk l).sigEnd lane = false ∧ s.mayTrain l = true)
    ∧ (∃ (l : Fin 8) (s : State), (s.lnk l).up = false ∧ ((s.lnk l).st ≠ 2 ∨ (s.lnk l).ready = true))
    ∧ (∃ (l : Fin 8) (s : State), (s.lnk l).st = 2 ∧ (s.lnk l).ready = false)
    ∧ (∃ (l : Fin 8) (lane : Fin 4) (s : State), (s.lnk l).up = true ∧ (s.lnk l).idleRx = false ∧ bitOf (s.lnk l).lanes lane = false)
    ∧ (∃ (b : LaceBlock), trainOf b = none)
    ∧ (∃ (b : LaceBlock), ctrlType b = some 0x2D)
    ∧ (∃ (b : LaceBlock), ctrlType b ≠ some 0x2D ∧ ctrlType (~~~ b) = some 0x2D)
    ∧ (∃ (l : Fin 8) (lane : Fin 4) (b : LaceBlock) (c : LaceBlock) (inv : Bool) (s : State), trainOf b = some (inv, c) ∧ (s.lnk l).idleRx = false ∧
      ((s.lnk l).st ≠ 2 ∨ bitOf (s.lnk l).lanes lane = false))
    ∧ (∃ (l : Fin 8) (b : LaceBlock) (c : LaceBlock) (inv : Bool) (s : State), trainOf b = some (inv, c) ∧ (s.lnk l).idleRx = true ∧ (s.lnk
      l).exitFrom = 0)
    ∧ (∃ (l : Fin 8) (lane : Fin 4) (b : LaceBlock) (c : LaceBlock) (inv : Bool) (s : State), trainOf b = some (inv, c) ∧ (s.lnk l).idleRx = false ∧
      (s.lnk l).st = 2 ∧ bitOf (s.lnk l).lanes lane = true)
    ∧ (∃ (l : Fin 8) (lane : Fin 4) (b : LaceBlock) (c : LaceBlock) (inv : Bool) (drift : BitVec 16) (s : State), trainOf b = some (inv, c) ∧ (s.lnk
      l).idleRx = false ∧ (s.lnk l).st = 2 ∧ bitOf (s.lnk l).lanes lane = true ∧ (s.lnk l).ready = true ∧ (((s.lnk l).trainStep lane (s.trainCheck c
      drift.toNat) inv c).checkReady).ready = true ∧ (∀ i : Nat, i < 4 → bitOf (s.lnk l).lanes i = true → 16 ≤ (((s.lnk l).trainStep lane
      (s.trainCheck c drift.toNat) inv c).readyCnt[i]?.getD 0)))
    ∧ (∃ (l : Fin 8) (b : LaceBlock) (s : State), (ctrlType b ≠ some 0x99 ∨ (s.lnk l).up = false ∨ blockField b 11 8 = 0))
    ∧ (∃ (l : Fin 8) (b : LaceBlock) (s : State), ctrlType b = some 0x99 ∧ (s.lnk l).up = true ∧ blockField b 11 8 ≠ 0 ∧ (s.lnk l).reqMask = some
      (blockField b 11 8))
    ∧ (∃ (l : Fin 8) (b : LaceBlock) (s : State), ctrlType b = some 0x99 ∧ (s.lnk l).up = true ∧ blockField b 11 8 ≠ 0 ∧ (s.lnk l).reqMask ≠ some
      (blockField b 11 8))
    ∧ (∃ (l : Fin 8) (s : State), ((s.lnk l).up = false ∨ (s.lnk l).idleTx = false))
    ∧ (∃ (l : Fin 8) (s : State), (s.lnk l).up = true ∧ (s.lnk l).idleTx = true ∧ ((s.lnk l).tx.toList.any (fun t => !t.queue.isEmpty) = true ∨ (s.lnk
      l).txWait ≠ []))
    ∧ (∃ (l : Fin 8) (s : State), (s.lnk l).st = 1 ∧ (s.lnk l).waiting = false ∧ s.mayTrain l = true ∧ s.sys.ready = true)
    ∧ (∃ (l : Fin 8) (lane : Fin 4) (s : State), bitOf (s.lnk l).lanes lane = true ∧ (s.lnk l).up = false)
    ∧ (∃ (l : Fin 8) (b : LaceBlock) (skew : BitVec 16) (s : State), (s.lnk l).st = 2 ∧ ctrlType b = some 0x33 ∧ skew.toNat ≤ 16000)
    ∧ (∃ (l : Fin 8) (s : State), (s.lnk l).st = 2 ∧ (s.lnk l).attemptFrom + 10000000 ≤ s.time.now ∧ (s.lnk l).attempt < 8)
    ∧ (∃ (l : Fin 8) (s : State), (s.lnk l).st = 2 ∧ (s.lnk l).attemptFrom + 10000000 ≤ s.time.now ∧ 8 ≤ (s.lnk l).attempt)
    ∧ (∃ (l : Fin 8) (s : State), (s.lnk l).waiting = true ∧ (s.lnk l).waitTo ≤ s.time.now ∧ s.mayTrain l = true)
    ∧ (∃ (l : Fin 8) (lane : Fin 4) (s : State), (s.lnk l).up = true ∧ bitOf (s.lnk l).lanes lane = false ∧ ((s.lnk l).lostAt[lane.val]?.getD 0) +
      10000000 ≤ s.time.now)
    ∧ (∃ (l : Fin 8) (s : State), s.sys.ready = true ∧ s.mayTrain l = true ∧ (s.lnk l).st ≠ 6 ∧ (s.lnk l).up = false)
    ∧ (∃ (l : Fin 8) (s : State), s.sys.ready = true ∧ s.mayTrain l = true ∧ (s.lnk l).up = true)
    ∧ (∃ (l : Fin 8) (s : State), s.sys.ready = true ∧ (s.lnk l).st = 6)
    ∧ (∃ (l : Fin 8) (s : State), (s.lnk l).st = 6 ∧ (s.lnk l).holdTo ≤ s.time.now)
    ∧ (∃ (l : Fin 8) (s : State), (s.lnk l).up = true ∧ (s.lnk l).idleTx = false ∧ s.flag Reg.LC_CFG.IDLE_EN [l] = true ∧ (s.lnk l).quietFrom + s.rd
      Reg.LC_CFG.IDLE_AFTER [l] * 1000 ≤ s.time.now ∧ s.lace.follow ≠ some l.val ∧ s.linkInJob l = false)
    ∧ (∃ (l : Fin 8) (b : LaceBlock) (s : State), ctrlType b = some 0x66 ∧ (s.lnk l).up = true)
    ∧ (∃ (l : Fin 8) (s : State), (s.lnk l).idleRx = true ∧ (s.lnk l).exitFrom ≠ 0 ∧ (s.lnk l).exitFrom + 199 ≤ s.time.now) :=
  ⟨⟨0, up, by decide⟩,
   ⟨0, 0, { put (link0 { waiting := true }) Reg.LC_CFG.EN [0] 1 with lace.idValid := true }, by decide⟩,
   ⟨0, link0 {}, by decide +kernel⟩,
   ⟨0, link0 { st := 2 }, by decide +kernel⟩,
   ⟨0, 3, link0 { st := 3 }, by decide⟩,
   ⟨0, by decide +kernel⟩,
   ⟨trainBlockOf 0 0 0 false 0 0, by decide +kernel⟩,
   ⟨~~~ trainBlockOf 0 0 0 false 0 0, by decide +kernel⟩,
   ⟨0, 0, trainBlockOf 0 0 0 false 0 0, trainBlockOf 0 0 0 false 0 0, false, link0 {}, by decide +kernel⟩,
   ⟨0, trainBlockOf 0 0 0 false 0 0, trainBlockOf 0 0 0 false 0 0, false, link0 { idleRx := true }, by decide +kernel⟩,
   ⟨0, 0, trainBlockOf 0 0 0 false 0 0, trainBlockOf 0 0 0 false 0 0, false, link0 { st := 2, lanes := 1 }, by decide +kernel⟩,
   ⟨0, 0, trainBlockOf 0 0 2 true 1 0, trainBlockOf 0 0 2 true 1 0, false, 1000, link0
    { st := 2, lanes := 1, ready := true, deskew := 1, readyCnt := #v[15, 0, 0, 0] }, by decide +kernel⟩,
   ⟨0, 0, link0 {}, by decide +kernel⟩,
   ⟨0, ctrlWith 0x99 1, link0 { st := 3, reqMask := some 1 }, by decide +kernel⟩,
   ⟨0, ctrlWith 0x99 1, link0 { st := 3 }, by decide +kernel⟩,
   ⟨0, up, by decide⟩,
   ⟨0, link0 { st := 3, idleTx := true, txWait := [(0, 0)] }, by decide +kernel⟩,
   ⟨0, train0 {}, by decide +kernel⟩,
   ⟨0, 3, link0 { lanes := 8 }, by decide +kernel⟩,
   ⟨0, alignRowBlock, 16000, link0 { st := 2 }, by decide +kernel⟩,
   ⟨0, { link0 { st := 2, attempt := 7 } with time.now := 10000000 }, by decide +kernel⟩,
   ⟨0, { link0 { st := 2, attempt := 8 } with time.now := 10000000 }, by decide +kernel⟩,
   ⟨0, train0 { waiting := true }, by decide +kernel⟩,
   ⟨0, 3, { link0 { st := 4 } with time.now := 10000000 }, by decide +kernel⟩,
   ⟨0, train0 {}, by decide +kernel⟩,
   ⟨0, train0 { st := 3 }, by decide +kernel⟩,
   ⟨0, link0 { st := 6 }, by decide +kernel⟩,
   ⟨0, link0 { st := 6 }, by decide +kernel⟩,
   ⟨0, { put (link0 { st := 3 }) Reg.LC_CFG.IDLE_EN [0] 1 with time.now := 1000000000 }, by decide +kernel⟩,
   ⟨0, ctrlWith 0x66 0, link0 { st := 3 }, by decide +kernel⟩,
   ⟨0, { link0 { idleRx := true, exitFrom := 1 } with time.now := 200 }, by decide +kernel⟩⟩

theorem witness_LaceFramesAndBeacons :
    (∃ (h : BitVec 2) (ty : BitVec 8) (v : BitVec 56), linkctlOf 0 (blockParts h ty v) = none)
    ∧ (∃ (h : BitVec 2) (ty : BitVec 8) (v : BitVec 56), linkctlOf 1 (blockParts h ty v) = none)
    ∧ (∃ (nak : Nat) (b : LaceBlock), ctrlType b = some 0x4B ∧ blockField b 10 10 = nak ∧ blockField b 9 8 < 3)
    ∧ (∃ (h : BitVec 2) (ty : BitVec 8) (v : BitVec 56) (vc : Nat) (cr : Nat) (c : Nat) (q : BitVec 12), linkctlOf 0 (blockParts h ty v) = some (vc,
      q, cr, c))
    ∧ (∃ (h : BitVec 2) (ty : BitVec 8) (v : BitVec 56) (vc : Nat) (cr : Nat) (c : Nat) (q : BitVec 12), linkctlOf 1 (blockParts h ty v) = some (vc,
      q, cr, c))
    ∧ (∃ (l : Fin 8) (vc : Fin 3) (s : State), ((s.lnk l).tx[vc]).sent = [])
    ∧ (∃ (l : Fin 8) (vc : Fin 3) (s : State) (e : LaceFrame × Nat × Nat) (rest : List (LaceFrame × Nat × Nat)), ((s.lnk l).tx[vc]).sent = e :: rest)
    ∧ (∃ (s : State) (l : Nat) (vc : Fin 3) (e : LaceFrame × Nat × Nat), ((s.lnk l).tx[vc]).sent = [e] ∧ e.2.2 < 8)
    ∧ (∃ (s : State) (l : Nat), (s.lnk l).up = false)
    ∧ (∃ (s : State) (l : Nat) (f : LaceFrame), f.vc.toNat < 3 ∧ f.seq = (((s.lnk l).rx[f.vc.toNat]?).getD {}).expect ∧ f.data.length + 2 ≤ (((s.lnk
      l).rx[f.vc.toNat]?).getD {}).free)
    ∧ (∃ (s : State) (f : LaceFrame), f.ftype ≠ 0x10 ∧ f.hops.toNat ≤ f.hop.toNat ∧ f.dest = s.deviceId)
    ∧ (∃ (l : Nat) (s : State), (s.lnk l).opens = [])
    ∧ (∃ (o : LaceOpen) (os : List LaceOpen) (l : Nat) (s : State), (s.lnk l).opens = o :: os)
    ∧ (∃ (o : LaceOpen) (os : List LaceOpen) (f : LaceFrame) (w : LaceBlocks) (l : Nat) (s : State), (s.lnk l).opens = o :: os ∧ o.start = f.start ∧
      o.data = f.data ∧ o.bad = 0 ∧ w.mem = false)
    ∧ (∃ (o : LaceOpen) (os : List LaceOpen) (b : LaceBlock) (l : Nat) (s : State), (s.lnk l).opens = o :: os ∧ b.extractLsb' 0 2 ≠ 1#2 ∧
      b.extractLsb' 0 2 ≠ 2#2 ∧ o.data.length < (frameOf o.start []).len.toNat)
    ∧ (∃ (o : LaceOpen) (fin : BitVec 64), o.bad = 0 ∧ fin.extractLsb' 8 32 ≠ (frameOf o.start o.data).crc)
    ∧ (∃ (f : LaceFrame) (v : BitVec 64), f.tokenBits = some v ∧ tokenKnown (Token.ofNat v.toNat) = true)
    ∧ (∃ (l : Fin 8) (h : BitVec 2) (ty : BitVec 8) (d : BitVec 32) (r : BitVec 24) (s : State), (ctrlType (blockParts h ty (r ++ d)) ≠ some 0x5A ∨
      (s.lnk l).beat.wait = none))
    ∧ (∃ (l : Fin 8) (h : BitVec 2) (ty : BitVec 8) (d : BitVec 32) (r : BitVec 24) (s : State) (a : Nat) (b : Nat), ctrlType (blockParts h ty (r ++
      d)) = some 0x5A ∧ (s.lnk l).beat.wait = some (a, b) ∧ blockField (blockParts h ty (r ++ d)) 39 8 ≠ 0x80000000)
    ∧ (∃ (s : State), (s.jobBoundary = false ∨ s.time.holding = true))
    ∧ (∃ (s : State) (l : Nat), s.jobBoundary = true ∧ s.time.holding = false ∧ s.followChoice = some l ∧ s.lace.follow = some l ∧ s.time.domain ≠ 0)
    ∧ (∃ (l : Fin 8) (h : BitVec 2) (ty : BitVec 8) (v : BitVec 56) (vc : Nat) (cr : Nat) (c : Nat) (q : BitVec 12) (s : State), linkctlOf 0
      (blockParts h ty v) = some (vc, q, cr, c) ∧ (s.lnk l).up = true)
    ∧ (∃ (l : Fin 8) (h : BitVec 2) (ty : BitVec 8) (v : BitVec 56) (vc : Nat) (cr : Nat) (c : Nat) (q : BitVec 12) (s : State), linkctlOf 1
      (blockParts h ty v) = some (vc, q, cr, c) ∧ (s.lnk l).up = true)
    ∧ (∃ (l : Fin 8) (vc : Fin 3) (s : State) (e : LaceFrame × Nat × Nat), ((s.lnk l).tx[vc]).sent = [e] ∧ e.2.2 < 8 ∧ (s.lnk l).up = true ∧ e.2.1 +
      2000 ≤ s.time.now)
    ∧ (∃ (l : Fin 8) (s : State), s.diagnostic = true ∧ (∀ t ∈ ([2, 3, 4, 0x10, 0x11, 0x12, 0x20, 0x21, 0x22] : List (BitVec 6)), ∃ (w : LaceBlocks)
      (f : LaceFrame), f.ftype = t ∧ w.blocks = f.blocks ∧ w.mem = false ∧ (s.lnk l).up = true ∧ (s.lnk l).opens = [] ∧ f.vc.toNat < 3 ∧ f.seq =
      (((s.lnk l).rx[f.vc.toNat]?).getD {}).expect ∧ f.data.length + 2 ≤ (((s.lnk l).rx[f.vc.toNat]?).getD {}).free ∧ contentFault f 0 = none ∧
      f.hops.toNat ≤ f.hop.toNat ∧ (f.ftype = 0x10 ∨ f.ftype = 0x12 ∨ f.dest = s.deviceId) ∧ (f.ftype = 1 → f.tokenBits ≠ none)))
    ∧ (∃ (l : Fin 8) (w : LaceBlocks) (f : LaceFrame) (s : State), f.ftype = 1 ∧ w.blocks = f.blocks ∧ w.mem = false ∧ (s.lnk l).up = true ∧ (s.lnk
      l).opens = [] ∧ f.vc.toNat < 3 ∧ f.seq = (((s.lnk l).rx[f.vc.toNat]?).getD {}).expect ∧ f.data.length + 2 ≤ (((s.lnk l).rx[f.vc.toNat]?).getD
      {}).free ∧ contentFault f 0 = none ∧ f.hops.toNat ≤ f.hop.toNat ∧ (f.ftype = 0x10 ∨ f.ftype = 0x12 ∨ f.dest = s.deviceId) ∧ (f.ftype = 1 →
      f.tokenBits ≠ none))
    ∧ (∃ (l : Fin 8) (s : State), (s.lnk l).up = true ∧ (s.lnk l).timeAt + 1000000 ≤ s.time.now)
    ∧ (∃ (l : Fin 8) (s : State), s.awake = true ∧ (s.lnk l).up = true ∧ (s.lnk l).idleTx = false ∧ s.time.dev.ns.toNat % 1000 = 0)
    ∧ (∃ (l : Fin 8) (h : BitVec 2) (p : BitVec 64) (s : State), ctrlType (p ++ h : LaceBlock) = some 0x55 ∧ (s.lnk l).up = true)
    ∧ (∃ (x : LaceLink), x.txMask = 15 ∧ x.bcnWait = [] ∧ x.txWait ≠ []) :=
  ⟨⟨0, 0, 0, by decide +kernel⟩,
   ⟨0, 0, 0, by decide +kernel⟩,
   ⟨0, ctrlWith 0x4B 2, by decide +kernel⟩,
   ⟨2, 0x4B, 0, 0, 0, 0, 0, by decide +kernel⟩,
   ⟨2, 0x4B, 4, 0, 0, 0, 0, by decide +kernel⟩,
   ⟨0, 0, up, by decide⟩,
   ⟨0, 0, link0 { tx := #v[{ sent := [({}, 0, 0)] }, {}, {}] }, ({}, 0, 0), [], by decide⟩,
   ⟨link0 { tx := #v[{ sent := [({}, 0, 7)] }, {}, {}] }, 0, 0, ({}, 0, 7), by decide +kernel⟩,
   ⟨up, 0, by decide⟩,
   ⟨frame0 2, 0, {}, by decide +kernel⟩,
   ⟨up, {}, by decide⟩,
   ⟨0, link0 {}, by decide +kernel⟩,
   ⟨{}, [], 0, link0 { opens := [{}] }, by decide +kernel⟩,
   ⟨{ start := ({} : LaceFrame).start }, [], {}, {}, 0, link0 { opens := [{ start := ({} : LaceFrame).start }] }, by decide +kernel⟩,
   ⟨{ start := ({ len := 1 } : LaceFrame).start }, [], 0, 0, link0 { opens := [{ start := ({ len := 1 } : LaceFrame).start }] }, by decide +kernel⟩,
   ⟨{}, 0, by decide +kernel⟩,
   ⟨tokenFrame 0x1000000000000000, 0x1000000000000000, ⟨tokenFrame_tokenBits _, by decide +kernel⟩⟩,
   ⟨0, 0, 0, 0, 0, link0 {}, by decide +kernel⟩,
   ⟨0, 2, 0x5A, 0, 0, link0 { beat := { wait := some (0, 0) } }, 0, 0, by decide +kernel⟩,
   ⟨shotOn, by decide⟩,
   ⟨{ put (put (link0 { st := 3 }) Reg.LACE_TCFG.ROLE [] 2) Reg.TM_CFG.SRC [] 0 with lace.links := [(0, { st := 3 })], lace.follow := some 0, time.domain := 1 },
    0, by decide⟩,
   ⟨0, 2, 0x4B, 0, 0, 0, 0, 0, link0 { st := 3 }, by decide +kernel⟩,
   ⟨0, 2, 0x4B, 4, 0, 0, 0, 0, link0 { st := 3 }, by decide +kernel⟩,
   ⟨0, 0, { link0 { st := 3, tx := #v[{ sent := [({}, 0, 7)] }, {}, {}] } with time.now := 2000 }, ({}, 0, 7), by decide +kernel⟩,
   ⟨0, { frame0 12 with sys.tmode := true }, by decide +kernel, fun t h => ⟨⟨⟨0, 0, false⟩, (zeroFrame t).blocks⟩, zeroFrame t, rfl, rfl, rfl,
    by revert t; decide +kernel⟩⟩,
   ⟨0, ⟨⟨0, 0, false⟩, (tokenFrame 0).blocks⟩, tokenFrame 0, frame0 5, rfl, rfl, rfl, by decide +kernel, by decide +kernel, by decide +kernel,
    by decide +kernel, by decide +kernel, (tokenFrame_content 0).1, by decide +kernel, .inr (.inr ((tokenFrame_content 0).2.trans
    (by decide +kernel))), fun _ => by simp [tokenFrame_tokenBits]⟩,
   ⟨0, { link0 { st := 3 } with time.now := 1000000 }, by decide +kernel⟩,
   ⟨0, link0 { st := 3 }, by decide +kernel⟩,
   ⟨0, 2, 0x55, link0 { st := 3 }, by decide +kernel⟩,
   ⟨{ txMask := 15, txWait := [(0, 0)] }, by decide +kernel⟩⟩

theorem witness_NetworkTimeMessages :
    (∃ (s : State) (n : Nat) (d : Nat) (q : Nat) (m : PtpMsg) (t2 : Int) (dev : Int) (c : Int), (s.portDom n d).master = some m.id ∧ (s.portDom n
      d).sync = some (q, t2, dev, c))
    ∧ (∃ (s : State) (n : Nat) (d : Nat), (s.portDom n d).resid = none)
    ∧ (∃ (s : State) (n : Nat) (d : Nat) (q : Nat) (r : Int) (m : PtpMsg), (s.portDom n d).resid = some (m.id, q, r))
    ∧ (∃ (s : State) (n : Nat) (d : Nat) (t2 : Int) (t1 : Int) (x : Int), (((s.updPortDom n d fun p =>
      { p with pair := some (t2, t1 + s.ptpAsym n), sync := none }).portDom n d).delay = some x))
    ∧ (∃ (s : State) (n : Nat) (d : Nat), (s.portDom n d).master = none)
    ∧ (∃ (n : Fin 2) (m : PtpMsg) (d : Nat) (s : State), s.ptpTakes n 0 m d ∧ s.ptpMode n d = 3 ∧ m.twoStep = false)
    ∧ (∃ (n : Fin 2) (m : PtpMsg) (d : Nat) (s : State), s.ptpTakes n 0 m d ∧ s.ptpMode n d = 3 ∧ m.twoStep = true)
    ∧ (∃ (n : Fin 2) (m : PtpMsg) (d : Nat) (s : State), s.ptpTakes n 0 m d ∧ s.ptpMode n d = 1 ∧ (s.portDom n d).master = some m.id ∧ m.twoStep =
      false)
    ∧ (∃ (n : Fin 2) (m : PtpMsg) (d : Nat) (s : State), s.ptpTakes n 0 m d ∧ s.ptpMode n d = 1 ∧ (s.portDom n d).master = some m.id ∧ m.twoStep =
      true)
    ∧ (∃ (n : Fin 2) (m : PtpMsg) (d : Nat) (t2 : Int) (dev : Int) (c : Int) (s : State), s.ptpTakes n 8 m d ∧ s.ptpMode n d = 1 ∧ (s.portDom n
      d).master = some m.id ∧ (s.portDom n d).sync = some (m.seq.toNat, t2, dev, c))
    ∧ (∃ (n : Fin 2) (m : PtpMsg) (d : Nat) (r : Int) (s : State), s.ptpTakes n 8 m d ∧ s.ptpMode n d = 3 ∧ (s.portDom n d).resid = some (m.id,
      m.seq.toNat, r))
    ∧ (∃ (n : Fin 2) (m : PtpMsg) (d : Nat) (s : State), s.ptpTakes n 1 m d ∧ s.ptpMode n d = 3)
    ∧ (∃ (n : Fin 2) (m : PtpMsg) (d : Nat) (s : State), s.ptpTakes n 1 m d ∧ s.ptpMode n d = 2)
    ∧ (∃ (n : Fin 2) (m : PtpMsg) (d : Nat) (s : State), s.ptpTakes n 9 m d ∧ s.ptpMode n d = 3)
    ∧ (∃ (n : Fin 2) (m : PtpMsg) (d : Nat) (s : State) (t3 : Int) (t2 : Int) (t1 : Int), s.ptpTakes n 9 m d ∧ s.ptpMode n d = 1 ∧ (s.portDom n
      d).master = some m.id ∧ s.ours n d m = some t3 ∧ (s.portDom n d).pair = some (t2, t1))
    ∧ (∃ (n : Fin 2) (m : PtpMsg) (d : Nat) (s : State), s.ptpTakes n 2 m d ∧ s.flag Reg.TP_CFG.ONE_STEP [n] = true)
    ∧ (∃ (n : Fin 2) (m : PtpMsg) (d : Nat) (s : State), s.ptpTakes n 2 m d ∧ s.flag Reg.TP_CFG.ONE_STEP [n] = false)
    ∧ (∃ (n : Fin 2) (m : PtpMsg) (d : Nat) (t1 : Int) (s : State), s.ptpTakes n 3 m d ∧ s.ours n d m = some t1 ∧ m.twoStep = true)
    ∧ (∃ (n : Fin 2) (m : PtpMsg) (d : Nat) (t1 : Int) (s : State), s.ptpTakes n 3 m d ∧ s.ours n d m = some t1 ∧ m.twoStep = false)
    ∧ (∃ (n : Fin 2) (m : PtpMsg) (d : Nat) (t1 : Int) (t4 : Int) (t2 : Int) (c : Int) (s : State), s.ptpTakes n 10 m d ∧ s.ours n d m = some t1 ∧
      (s.portDom n d).presp = some (t4, t2, c))
    ∧ (∃ (n : Fin 2) (m : PtpMsg) (d : Nat) (s : State), s.ptpTakes n 11 m d ∧ s.ptpMode n d = 3)
    ∧ (∃ (n : Fin 2) (m : PtpMsg) (d : Nat) (s : State), s.ptpTakes n 11 m d ∧ s.ptpMode n d = 1 ∧ (s.portDom n d).master = some m.id)
    ∧ (∃ (n : Fin 2) (m : PtpMsg) (d : Nat) (s : State), s.ptpTakes n 11 m d ∧ s.ptpMode n d = 1 ∧ (s.portDom n d).master = none ∧ (m.id, (m.seq -
      1).toNat) ∈ (s.portDom n d).cands)
    ∧ (∃ (n : Fin 2) (s : State), s.flag Reg.TP_CFG.EN [n.val] = true)
    ∧ (∃ (n : Fin 2) (d : Fin 2) (s : State), s.sends n d 2 = true ∧ s.intervalOver (s.portDom n d).syncAt (s.rd Reg.DOM_CFG.LOG_SYNC [d]) = true)
    ∧ (∃ (n : Fin 2) (d : Fin 2) (s : State), s.sends n d 2 = true ∧ s.intervalOver (s.portDom n d).annAt (s.rd Reg.DOM_CFG.LOG_ANN [d]) = true)
    ∧ (∃ (n : Fin 2) (d : Fin 2) (s : State), s.sends n d 1 = true ∧ (s.peerDelay n d = true ∨ (s.portDom n d).master.isSome = true) ∧ s.intervalOver
      (s.portDom n d).dreqAt (s.rd Reg.DOM_CFG.LOG_DREQ [d]) = true)
    ∧ (∃ (n : Fin 2) (s : State), s.flag Reg.TP_CFG.EN [n] = true ∧ ((s.port n).link = false ∨ (s.port n).reportAt + 60000000000 ≤ s.time.now))
    ∧ (∃ (n : Fin 2) (peer : BitVec 80) (s : State), (s.port n).peers ≠ [] ∧ (((s.port n).peers.all fun x => x.id == peer.toNat && x.quarTo != 0 &&
      decide (x.quarTo ≤ s.time.now)) = true)) :=
  ⟨⟨netDom { master := some 0, sync := some (0, 0, 0, 0) }, 0, 0, 0, {}, 0, 0, 0, by decide⟩,
   ⟨netDom {}, 0, 0, by decide +kernel⟩,
   ⟨netDom { resid := some (0, 0, 0) }, 0, 0, 0, 0, {}, by decide +kernel⟩,
   ⟨netDom { delay := some 5 }, 0, 0, 1, 0, 5, by decide +kernel⟩,
   ⟨up, 0, 0, by decide⟩,
   ⟨0, {}, 0, ptp0 3 {}, by decide +kernel⟩,
   ⟨0, { twoStep := true }, 0, ptp0 3 {}, by decide +kernel⟩,
   ⟨0, {}, 0, ptp0 1 { master := some 0 }, by decide +kernel⟩,
   ⟨0, { twoStep := true }, 0, ptp0 1 { master := some 0 }, by decide +kernel⟩,
   ⟨0, { mtype := 8 }, 0, 1, 2, 3, ptp0 1 { master := some 0, sync := some (0, 1, 2, 3) }, by decide +kernel⟩,
   ⟨0, { mtype := 8 }, 0, 4, ptp0 3 { resid := some (0, 0, 4) }, by decide +kernel⟩,
   ⟨0, { mtype := 1 }, 0, ptp0 3 {}, by decide +kernel⟩,
   ⟨0, { mtype := 1 }, 0, ptp0 2 {}, by decide +kernel⟩,
   ⟨0, { mtype := 9 }, 0, ptp0 3 {}, by decide +kernel⟩,
   ⟨0, { mtype := 9, req := BitVec.ofNat 80 (up.clockId 0 * 65536 + 1) }, 0, ptp0 1 { master := some 0, req := some (0, 3), pair := some (2, 1) }, 3,
    2, 1, by decide +kernel⟩,
   ⟨0, { mtype := 2 }, 0, put (put (ptp0 1 {}) Reg.TP_CFG.DLY_A [0] 1) Reg.TP_CFG.ONE_STEP [0] 1, by decide +kernel⟩,
   ⟨0, { mtype := 2 }, 0, put (put (ptp0 1 {}) Reg.TP_CFG.DLY_A [0] 1) Reg.TP_CFG.ONE_STEP [0] 0, by decide +kernel⟩,
   ⟨0, { mtype := 3, twoStep := true, req := BitVec.ofNat 80 (up.clockId 0 * 65536 + 1) }, 0, 3, put (ptp0 1 { req := some (0, 3) }) Reg.TP_CFG.DLY_A
    [0] 1, by decide +kernel⟩,
   ⟨0, { mtype := 3, req := BitVec.ofNat 80 (up.clockId 0 * 65536 + 1) }, 0, 3, put (ptp0 1 { req := some (0, 3) }) Reg.TP_CFG.DLY_A [0] 1,
    by decide +kernel⟩,
   ⟨0, { mtype := 10, req := BitVec.ofNat 80 (up.clockId 0 * 65536 + 1) }, 0, 3, 4, 2, 0, put (ptp0 1 { req := some (0, 3), presp := some (4, 2, 0) })
    Reg.TP_CFG.DLY_A [0] 1, by decide +kernel⟩,
   ⟨0, { mtype := 11 }, 0, ptp0 3 {}, by decide +kernel⟩,
   ⟨0, { mtype := 11 }, 0, ptp0 1 { master := some 0 }, by decide +kernel⟩,
   ⟨0, { mtype := 11, seq := 1 }, 0, ptp0 1 { cands := [(0, 0)] }, by decide +kernel⟩,
   ⟨0, ptp0 1 {}, by decide +kernel⟩,
   ⟨0, 0, ptp0 2 {}, by decide +kernel⟩,
   ⟨0, 0, ptp0 2 {}, by decide +kernel⟩,
   ⟨0, 0, ptp0 1 { master := some 0 }, by decide +kernel⟩,
   ⟨0, put up Reg.TP_CFG.EN [0] 1, by decide +kernel⟩,
   ⟨0, 5, { up with time.now := 1, net.ports := #v[{ peers := [{ id := 5, quarTo := 1 }] }, {}] }, by decide +kernel⟩⟩

theorem witness_ServoPpsAndTimers :
    (∃ (s : State), (s.net.active = 0 ∨ s.time.domain = 0 ∨ (s.domSt (s.net.active - 1)).st ≠ 2 ∨ s.jobBoundary = false ∨ s.time.holding = true))
    ∧ (∃ (s : State), s.net.active ≠ 0 ∧ s.time.domain ≠ 0 ∧ (s.domSt (s.net.active - 1)).st = 2 ∧ s.jobBoundary = true ∧ s.time.holding = false)
    ∧ (∃ (s : State), (s.jobBoundary = false ∨ s.time.holding = true))
    ∧ (∃ (s : State), s.jobBoundary = true ∧ s.time.holding = false ∧ s.net.switchReq = true ∧ s.rd Reg.TM_CFG.SRC [] = 0)
    ∧ (∃ (s : State) (a : Nat) (c : Nat), s.jobBoundary = true ∧ s.time.holding = false ∧ (¬ (s.net.switchReq = true ∧ s.rd Reg.TM_CFG.SRC [] = 0)) ∧
      s.switchDue = some (a, c) ∧ (s.time.domain ≠ 0 ∨ s.idle = true))
    ∧ (∃ (falling : Bool) (s : State), (s.flag Reg.TM_PPS.EDGE [] ≠ falling ∨ s.rd Reg.TM_PPS.MODE [] = 0))
    ∧ (∃ (falling : Bool) (frac : BitVec 16) (s : State), s.flag Reg.TM_PPS.EDGE [] = falling ∧ s.rd Reg.TM_PPS.MODE [] ≠ 0 ∧ 65536000 < (s.ppsOffset
      frac).natAbs)
    ∧ (∃ (falling : Bool) (frac : BitVec 16) (s : State), s.flag Reg.TM_PPS.EDGE [] = falling ∧ s.rd Reg.TM_PPS.MODE [] ≠ 0 ∧ (s.ppsOffset
      frac).natAbs ≤ 65536000 ∧ s.net.ppsMiss = false)
    ∧ (∃ (falling : Bool) (frac : BitVec 16) (s : State), s.flag Reg.TM_PPS.EDGE [] = falling ∧ s.rd Reg.TM_PPS.MODE [] ≠ 0 ∧ (s.ppsOffset
      frac).natAbs ≤ 65536000 ∧ s.net.ppsMiss = true)
    ∧ (∃ (s : State), (s.rd Reg.TM_PPS.MODE [] = 0 ∨ s.net.ppsMiss = true ∨ s.time.now < s.net.ppsLast + 1500000000))
    ∧ (∃ (s : State), s.rd Reg.TM_PPS.MODE [] ≠ 0 ∧ s.net.ppsMiss = false ∧ s.net.ppsLast + 1500000000 ≤ s.time.now)
    ∧ (∃ (s : State), s.sys.ready = false)
    ∧ (∃ (s : State), s.sys.ready = true)
    ∧ (∃ (s : State) (i : Nat) (b : Nat), (s.timer i).armed = true ∧ (s.timer i).periodic = true ∧ (s.timer i).next < b ∧ 0 < (s.timer i).per)
    ∧ (∃ (i : Fin 8) (s : State), (s.timer i).armed = false)
    ∧ (∃ (i : Fin 8) (s : State), s.timerDue i = true ∧ (s.timer i).periodic = false)
    ∧ (∃ (n : Fin 2) (d : Fin 2) (s : State), (s.portDom n d).master.isSome = true ∧ (s.portDom n d).lastAnn + 3 * logTicks (s.rd Reg.DOM_CFG.LOG_ANN
      [d]) ≤ s.time.now)
    ∧ (∃ (d : Fin 2) (s : State), ((s.domSt d).st = 1 ∨ (s.domSt d).st = 2) ∧ (s.domSt d).lastSync + 3 * logTicks (s.rd Reg.DOM_CFG.LOG_SYNC [d]) ≤
      s.time.now)
    ∧ (∃ (s : State), s.net.active ≠ 0 ∧ s.time.domain ≠ 0 ∧ (s.domSt (s.net.active - 1)).st = 2 ∧ s.jobBoundary = true ∧ s.time.holding = false ∧
      s.rd Reg.TM_SERVO.CMIN [] * 65536 ≤ (s.estimate (s.net.active - 1)).natAbs * 1000 ∧ (s.job.phase = .armed ∨ (s.domSt (s.net.active - 1)).fresh =
      true))
    ∧ (∃ (i : Fin 8) (s : State), s.timerDue i = true ∧ (s.timer i).periodic = true ∧ 0 < (s.timer i).per)
    ∧ (∃ (i : Fin 8) (s : State), (s.timer i).pulseTo ≠ 0 ∧ (s.timer i).pulseTo ≤ s.time.now) :=
  ⟨⟨up, by decide⟩,
   ⟨{ up with net := { active := 1, doms := #v[{ st := 2 }, {}] }, time.domain := 1 }, by decide⟩,
   ⟨shotOn, by decide⟩,
   ⟨put { up with net.switchReq := true } Reg.TM_CFG.SRC [] 0, by decide⟩,
   ⟨put { up with net := { switchReq := true, doms := #v[{ st := 2 }, {}] } } Reg.TM_CFG.SRC [] 1, 1, 0, by decide⟩,
   ⟨true, up, by decide +kernel⟩,
   ⟨false, 0, { put up Reg.TM_PPS.MODE [] 1 with time.dev := ⟨0, 1001#30⟩ }, by decide +kernel⟩,
   ⟨false, 0, { put up Reg.TM_PPS.MODE [] 1 with time.dev := ⟨0, 1000#30⟩ }, by decide +kernel⟩,
   ⟨false, 0, { put up Reg.TM_PPS.MODE [] 1 with time.dev := ⟨0, 1000#30⟩, net.ppsMiss := true }, by decide +kernel⟩,
   ⟨up, by decide⟩,
   ⟨{ put up Reg.TM_PPS.MODE [] 1 with time.now := 1500000000 }, by decide⟩,
   ⟨{}, by decide⟩,
   ⟨up, by decide⟩,
   ⟨{ up with net.timers := [(0, { armed := true, periodic := true })] }, 0, 1, by decide⟩,
   ⟨7, up, by decide⟩,
   ⟨0, { up with net.timers := [(0, { armed := true })] }, by decide⟩,
   ⟨0, 0, { netDom { master := some 0 } with time.now := 10 ^ 13 }, by decide +kernel⟩,
   ⟨0, { up with net.doms := #v[{ st := 1 }, {}], time.now := 10 ^ 13 }, by decide +kernel⟩,
   ⟨{ put up Reg.TM_SERVO.CMIN [] 0 with net.active := 1, net.doms := #v[{ st := 2, fresh := true }, {}], time.domain := 1 }, by decide +kernel⟩,
   ⟨7, { up with net.timers := [(7, { armed := true, periodic := true })] }, by decide +kernel⟩,
   ⟨7, { up with net.timers := [(7, { pulseTo := 1 })], time.now := 1 }, by decide +kernel⟩⟩

theorem witness_TagsConversionsAndMarkerEdges :
    (∃ (k : Fin 32) (fall : Bool) (s : State), (s.awake = false ∨ s.flag Reg.AWL_IN_CFG.EN [k] = false ∨ (s.rd Reg.AWL_IN_CFG.EDGE [k] = 0 ∧ fall =
      true) ∨ (s.rd Reg.AWL_IN_CFG.EDGE [k] = 1 ∧ fall = false)))
    ∧ (∃ (k : Fin 32) (ref : Fin 16) (n : BitVec 8) (a : BitVec 8) (b : BitVec 8) (s : State), s.awake = true ∧ s.flag Reg.AWL_IN_CFG.EN [k] = true ∧
      s.rd Reg.AWL_IN_CFG.EDGE [k] = 2 ∧ s.awlAccepts k (s.time.now * 256 + ref.val * 16 - (s.awlMeasure (s.awlIn k) n.toNat a.toNat b.toNat).1) =
      false)
    ∧ (∃ (k : Fin 32) (ref : Fin 16) (n : BitVec 8) (a : BitVec 8) (b : BitVec 8) (s : State), s.awake = true ∧ s.flag Reg.AWL_IN_CFG.EN [k] = true ∧
      s.rd Reg.AWL_IN_CFG.EDGE [k] = 2 ∧ s.awlAccepts k (s.time.now * 256 + ref.val * 16 - (s.awlMeasure (s.awlIn k) n.toNat a.toNat b.toNat).1) =
      true)
    ∧ (∃ (a : Nat) (b : Nat), a + 12 ≤ b ∧ b ≤ a + 20)
    ∧ (∃ (k : Fin 32) (s : State), (s.awake = false ∨ s.flag Reg.AWL_IN_CFG.EN [k] = false ∨ s.rd Reg.AWL_IN_CFG.MODE [k] ≠ 2 ∨ s.time.now ≤ (s.awlIn
      k).g0 + ((s.awlIn k).gate + 1) * (s.rd Reg.AWL_IN_TIME.GATE [k] * 1000)))
    ∧ (∃ (k : Fin 32) (s : State), s.awake = true ∧ s.flag Reg.AWL_IN_CFG.EN [k] = true ∧ s.rd Reg.AWL_IN_CFG.MODE [k] = 2 ∧ (s.awlIn k).g0 +
      ((s.awlIn k).gate + 1) * (s.rd Reg.AWL_IN_TIME.GATE [k] * 1000) < s.time.now)
    ∧ (∃ (s : State), s.mon.cur = none)
    ∧ (∃ (s : State) (c : MonConv), s.mon.cur = some c)
    ∧ (∃ (s : State) (c : MonConv) (t : Nat), s.mon.cur = some c ∧ c.runAt = some t ∧ (c.kind = 3 ∨ (s.time.now - t) * 6 < s.monSamples c.set * 625))
    ∧ (∃ (s : State) (c : MonConv) (t : Nat), s.mon.cur = some c ∧ c.runAt = some t ∧ c.kind = 2 ∧ s.monSamples c.set * 625 ≤ (s.time.now - t) * 6)
    ∧ (∃ (s : State) (c : MonConv) (t : Nat), s.mon.cur = some c ∧ c.runAt = some t ∧ c.kind = 1 ∧ s.monSamples c.set * 625 ≤ (s.time.now - t) * 6)
    ∧ (∃ (s : State), s.awake = true ∧ s.mon.cur = none)
    ∧ (∃ (s : State) (c : MonConv), s.awake = true ∧ s.mon.cur = some c ∧ c.kind = 2 ∧ s.mon.queued = none)
    ∧ (∃ (s : State) (k : Nat), (s.awlIn k).starts = [] ∧ (s.awlIn k).stops = [])
    ∧ (∃ (xs : List Nat), xs.length < 8)
    ∧ (∃ (s : State), s.awake = true ∧ s.flag Reg.MON_CFG.SCAN_EN [] = true ∧ s.mon.pass = false ∧ s.rd Reg.MON_SCAN.PERIOD [] = 0)
    ∧ (∃ (s : State), s.awake = true ∧ s.flag Reg.MON_CFG.SCAN_EN [] = true ∧ s.mon.pass = false ∧ 0 < s.rd Reg.MON_SCAN.PERIOD [] ∧ s.mon.due ≤
      s.time.now ∧ s.mon.passEnd ≤ s.mon.due)
    ∧ (∃ (s : State), s.mon.pass = true ∧ s.mon.cur = none ∧ s.mon.queued = none ∧ s.mon.calDue = false ∧ s.bgPaused = false ∧ s.awake = true)
    ∧ (∃ (s : State) (c : MonConv), s.mon.cur = some c ∧ c.runAt = none ∧ c.readyAt ≤ s.time.now)
    ∧ (∃ (v : Word) (s : State), s.sys.ready = true ∧ bitOf v.toNat 31 = true ∧ monChan (bitsOf v.toNat 9 0) = bitsOf v.toNat 9 0) :=
  ⟨⟨0, false, up, by decide⟩,
   ⟨0, 0, 0, 0, 16, { awl0 with awl := [(0, { last := some 1 })] }, by decide⟩,
   ⟨0, 0, 0, 0, 16, awl0, by decide⟩,
   ⟨0, 20, by decide⟩,
   ⟨0, up, by decide +kernel⟩,
   ⟨0, { put awl0 Reg.AWL_IN_CFG.MODE [0] 2 with time.now := 10 ^ 13 }, by decide +kernel⟩,
   ⟨up, by decide⟩,
   ⟨mon0 {}, {}, by decide⟩,
   ⟨mon0 { runAt := some 0 }, { runAt := some 0 }, 0, by decide⟩,
   ⟨{ mon0 { kind := 2, runAt := some 0 } with time.now := 10000000000 }, { kind := 2, runAt := some 0 }, 0, by decide⟩,
   ⟨{ mon0 { runAt := some 0 } with time.now := 10000000000 }, { runAt := some 0 }, 0, by decide⟩,
   ⟨up, by decide⟩,
   ⟨mon0 { kind := 2 }, { kind := 2 }, by decide⟩,
   ⟨up, 0, by decide +kernel⟩,
   ⟨List.replicate 7 0, by decide +kernel⟩,
   ⟨put (put up Reg.MON_CFG.SCAN_EN [] 1) Reg.MON_SCAN.PERIOD [] 0, by decide +kernel⟩,
   ⟨put (put up Reg.MON_CFG.SCAN_EN [] 1) Reg.MON_SCAN.PERIOD [] 1, by decide +kernel⟩,
   ⟨{ up with mon.pass := true }, by decide +kernel⟩,
   ⟨mon0 {}, {}, by decide +kernel⟩,
   ⟨0x80000000, up, by decide +kernel⟩⟩

theorem witness_EnginesSwitchOverAndBackground :
    (∃ (s : State), s.eng.st[s.eng.active]! ≠ 0)
    ∧ (∃ (s : State), s.eng.st[s.eng.active]! = 0 ∧ s.eng.st[1 - s.eng.active]! = 1)
    ∧ (∃ (s : State), s.eng.st[s.eng.active]! = 0 ∧ s.eng.st[1 - s.eng.active]! = 2 ∧ s.sys.safe = 0 ∧ s.eng.active ≤ 1)
    ∧ (∃ (s : State), s.eng.gap = none)
    ∧ (∃ (s : State) (g : EngGap), s.eng.gap = some g ∧ g.warm = true)
    ∧ (∃ (s : State) (g : EngGap), s.eng.gap = some g)
    ∧ (∃ (s : State) (c : Nat) (d : Desc), (d ∈ ((s.ctx c).fetched.filter fun d => (s.sinceImage c).contains d.index && d.phase != .running)))
    ∧ (∃ (s : State), (s.cobblerUp = false ∨ s.jobBoundary = false ∨ s.eng.warm = true ∨ s.saveDue = false))
    ∧ (∃ (s : State), s.cobblerUp = true ∧ s.jobBoundary = true ∧ s.eng.warm = false ∧ s.saveDue = true)
    ∧ (∃ (s : State) (n : Nat), s.failedCobbler = some n ∧ s.jobBoundary = true ∧ s.eng.repairing = false ∧ (s.flag Reg.ENG_CFG.AUTO_REPAIR [] = true
      ∨ s.eng.repairReq = true))
    ∧ (∃ (s : State), (s.failedCobbler = none ∨ s.jobBoundary = false ∨ s.eng.repairing = true ∨ (s.flag Reg.ENG_CFG.AUTO_REPAIR [] = false ∧
      s.eng.repairReq = false)))
    ∧ (∃ (s : State), s.loadingCobbler = none)
    ∧ (∃ (s : State) (n : Nat), s.loadingCobbler = some n)
    ∧ (∃ (s : State), s.cal.run = none)
    ∧ (∃ (s : State) (r : CalRun), s.cal.run = some r)
    ∧ (∃ (r : CalRun) (vs : List Int), calInRange r.curT vs = false)
    ∧ (∃ (r : CalRun) (vs : List Int), calInRange r.curT vs = true)
    ∧ (∃ (s : State), s.scrubDue = false)
    ∧ (∃ (s : State), s.scrubDue = true)
    ∧ (∃ (s : State), (s.cal.scrubbing = false ∨ s.bgPaused = true))
    ∧ (∃ (s : State), s.cal.scrubbing = true ∧ s.bgPaused = false)
    ∧ (∃ (s : State), (s.rd Reg.CAL_BG.TEL_PERIOD [] = 0 ∨ s.bgPaused = true ∨ s.time.now < s.cal.telNext))
    ∧ (∃ (s : State), s.rd Reg.CAL_BG.TEL_PERIOD [] ≠ 0 ∧ s.bgPaused = false ∧ s.cal.telNext ≤ s.time.now ∧ s.sys.boot = false)
    ∧ (∃ (s : State), s.cobblerUp = true)
    ∧ (∃ (s : State), s.eng.syncing = true ∧ s.eng.st[1 - s.eng.active]! = 1)
    ∧ (∃ (s : State), s.sys.ready = true ∧ s.failedCobbler ≠ none)
    ∧ (∃ (s : State) (r : CalRun), s.cal.run = some r ∧ s.calMayStart r = true ∧ r.curT ≠ 6)
    ∧ (∃ (s : State) (r : CalRun), s.cal.run = some r ∧ s.calMayStart r = true ∧ r.curT = 6 ∧ s.mon.cur = none ∧ s.mon.queued = none)
    ∧ (∃ (s : State) (r : CalRun), s.cal.run = some r ∧ r.mode = 2)
    ∧ (∃ (s : State) (r : CalRun) (vs : List Int), s.cal.run = some r ∧ r.mode ≠ 2 ∧ s.calOver r = false ∧ s.calActive r = true ∧ s.calShort r = false
      ∧ r.step = 0 ∧ 0 < calBound r.curT r.curU ∧ vs ≠ [])
    ∧ (∃ (s : State) (r : CalRun), s.cal.run = some r ∧ r.mode ≠ 2 ∧ s.calOver r = false ∧ s.calActive r = true ∧ s.calShort r = false ∧ (r.step ≠ 0 ∨
      calBound r.curT r.curU = 0)) :=
  ⟨⟨{ up with eng.st := #v[2, 1] }, by decide⟩,
   ⟨up, by decide⟩,
   ⟨{ up with eng.st := #v[0, 2] }, by decide⟩,
   ⟨up, by decide⟩,
   ⟨{ up with eng.gap := some { warm := true } }, { warm := true }, by decide⟩,
   ⟨{ up with eng.gap := some {} }, {}, by decide⟩,
   ⟨{ ring0 with ctxs := [(0, { subHead := 1, fetched := [{}] })] }, 0, {}, by decide +kernel⟩,
   ⟨up, by decide +kernel⟩,
   ⟨{ up with time.now := 1000000 }, by decide +kernel⟩,
   ⟨{ up with eng := { st := #v[0, 2], repairReq := true } }, 1, by decide⟩,
   ⟨up, by decide⟩,
   ⟨up, by decide⟩,
   ⟨{ up with eng.st := #v[0, 3] }, 1, by decide⟩,
   ⟨up, by decide⟩,
   ⟨{ up with cal.run := some {} }, {}, by decide⟩,
   ⟨{ curT := 1 }, [0, 0, 128], by decide⟩,
   ⟨{ curT := 1 }, [0, 0, 127], by decide⟩,
   ⟨{ up with cal.scrubbing := true }, by decide⟩,
   ⟨up, by decide⟩,
   ⟨up, by decide⟩,
   ⟨{ up with cal.scrubbing := true }, by decide⟩,
   ⟨{ up with cal.telNext := 1 }, by decide⟩,
   ⟨put up Reg.CAL_BG.TEL_PERIOD [] 1, by decide⟩,
   ⟨up, by decide +kernel⟩,
   ⟨{ up with eng.syncing := true }, by decide +kernel⟩,
   ⟨{ up with eng.st := #v[0, 2] }, by decide +kernel⟩,
   ⟨{ up with cal.run := some {} }, {}, by decide +kernel⟩,
   ⟨{ up with cal.run := some { curT := 6 } }, { curT := 6 }, by decide +kernel⟩,
   ⟨{ up with cal.run := some { mode := 2 } }, { mode := 2 }, by decide +kernel⟩,
   ⟨{ up with cal.run := some { running := true }, time.now := 10 ^ 12 }, { running := true }, [0], by decide +kernel⟩,
   ⟨{ up with cal.run := some { running := true, step := 1 } }, { running := true, step := 1 }, by decide +kernel⟩⟩

theorem witness_SensorsThrottlingRailsAndRungs :
    (∃ (i : Fin 68) (s : State), s.sensorDue i = false)
    ∧ (∃ (i : Fin 68) (s : State), s.sensorDue i = true)
    ∧ (∃ (i : Fin 68) (raw : BitVec 12) (s : State), s.sensorDue i = true ∧ s.sys.safe = 0 ∧ (s.sensor i).shut = false ∧ (s.sensor i).broken = false ∧
      s.breaks i raw.toInt = false ∧ 880 ≤ raw.toInt)
    ∧ (∃ (s : State), (s.pwr.throt = false ∨ s.time.now < s.pwr.riseAt))
    ∧ (∃ (s : State), s.pwr.throt = true ∧ s.pwr.riseAt ≤ s.time.now)
    ∧ (∃ (s : State), (s.pwr.throt = false ∨ s.pwr.power + 100 * s.pwr.level ≤ 1200 ∨ s.actionBusy = true) ∧ s.pwr.level ≤ 12)
    ∧ (∃ (s : State), (s.pwr.measFrom = 0 ∨ s.time.now + 1 < s.pwr.measFrom + 1000000))
    ∧ (∃ (s : State) (a : ThrotAct) (rest : List ThrotAct), s.pwr.measFrom ≠ 0 ∧ s.pwr.measFrom + 1000000 ≤ s.time.now + 1 ∧ s.pwr.acts = a :: rest)
    ∧ (∃ (s : State), (s.pwr.throt = true ∨ s.pwr.relHold = true ∨ s.time.now < s.pwr.releaseAt ∨ (s.pwr.level = 0 ∧ (s.pwr.acts.filter fun x =>
      !x.gone) = [])))
    ∧ (∃ (s : State), s.pwr.throt = false ∧ s.pwr.relHold = false ∧ s.pwr.releaseAt ≤ s.time.now ∧ 0 < s.pwr.level ∧ ((s.pwr.acts.filter fun x =>
      !x.gone) = []))
    ∧ (∃ (s : State) (a : ThrotAct) (rest : List ThrotAct), s.pwr.throt = false ∧ s.pwr.relHold = false ∧ s.pwr.releaseAt ≤ s.time.now ∧
      ((s.pwr.acts.filter fun x => !x.gone) = a :: rest))
    ∧ (∃ (s : State), s.pwr.cut = true)
    ∧ (∃ (s : State), s.pwr.cut = false)
    ∧ (∃ (r : Fin 3) (s : State), s.pwr.rails.contains r.val = true)
    ∧ (∃ (r : Fin 3) (s : State), s.pwr.rails.contains r.val = false)
    ∧ (∃ (q : Fin 4) (s : State), s.pwr.rails.contains (4 + q.val) = true)
    ∧ (∃ (q : Fin 4) (s : State), s.pwr.rails.contains (4 + q.val) = false)
    ∧ (∃ (r : Fin 9) (s : State), s.pwr.rails.contains r.val = false)
    ∧ (∃ (r : Fin 9) (s : State), s.pwr.rails.contains r.val = true)
    ∧ (∃ (s : State), s.vbiasUp = true)
    ∧ (∃ (s : State), s.vbiasUp = false)
    ∧ (∃ (v : Word) (s : State), s.ladderUp = true ∧ bitsOf v.toNat 2 0 ≤ 4)
    ∧ (∃ (v : Word) (s : State), s.ladderUp = true ∧ 4 < bitsOf v.toNat 2 0)
    ∧ (∃ (s : State), s.ladderUp = false)
    ∧ (∃ (s : State), s.pwr.toDeep = false ∧ (s.job.phase ≠ .idle ∨ s.job.work = true ∨ s.pwr.stop ≠ none ∨ s.sys.boot = true ∨ (s.rungDue = none ∧
      s.wakeDue = none)))
    ∧ (∃ (s : State) (r : Nat), s.pwr.toDeep = false ∧ s.job.phase = .idle ∧ s.job.work = false ∧ s.pwr.stop = none ∧ s.sys.boot = false ∧ s.rungDue =
      some (r, 0))
    ∧ (∃ (s : State), s.pwr.toDeep = true ∧ (s.biasStill = false ∨ s.pwr.stop ≠ none))
    ∧ (∃ (s : State), s.pwr.toDeep = true ∧ s.biasStill = true ∧ s.pwr.stop = none)
    ∧ (∃ (s : State), s.pwr.relHold = true ∧ s.pwr.relHoldTo ≤ s.time.now)
    ∧ (∃ (s : State), s.vbiasWatched = true ∧ s.pwr.rails.contains 8 = false)
    ∧ (∃ (s : State) (r : Nat), s.pwr.toDeep = false ∧ s.job.phase = .idle ∧ s.job.work = false ∧ s.pwr.stop = none ∧ s.sys.boot = false ∧ s.rungDue =
      some (r, 0) ∧ s.pwr.rung < r ∧ s.pwr.rung ≠ 4 ∧ r ≠ 4)
    ∧ (∃ (s : State), s.pwr.toDeep = false ∧ s.job.phase = .idle ∧ s.job.work = false ∧ s.pwr.stop = none ∧ s.sys.boot = false ∧ s.rungDue = none ∧
      s.wakeDue = some (0, 1) ∧ s.pwr.rung ≠ 4) :=
  ⟨⟨67, { up with pwr.sensors := [(67, { valid := true })] }, by decide +kernel⟩,
   ⟨67, up, by decide +kernel⟩,
   ⟨67, 880, up, by decide +kernel⟩,
   ⟨up, by decide⟩,
   ⟨{ up with pwr.throt := true }, by decide⟩,
   ⟨{ up with pwr.throt := true, pwr.level := 12 }, by decide⟩,
   ⟨up, by decide⟩,
   ⟨{ up with pwr.measFrom := 1, pwr.acts := [{}], time.now := 1000000 }, {}, [], by decide⟩,
   ⟨up, by decide +kernel⟩,
   ⟨{ up with pwr.level := 1 }, by decide +kernel⟩,
   ⟨{ up with pwr.acts := [{}] }, {}, [], by decide +kernel⟩,
   ⟨{ up with pwr.cut := true }, by decide⟩,
   ⟨up, by decide⟩,
   ⟨2, { up with pwr.rails := [2] }, by decide⟩,
   ⟨2, up, by decide⟩,
   ⟨3, { up with pwr.rails := [7] }, by decide⟩,
   ⟨3, up, by decide⟩,
   ⟨8, up, by decide⟩,
   ⟨8, { up with pwr.rails := [8] }, by decide⟩,
   ⟨{ up with pwr.vbiasFrom := 1 }, by decide⟩,
   ⟨up, by decide⟩,
   ⟨4, up, by decide⟩,
   ⟨5, up, by decide⟩,
   ⟨{}, by decide⟩,
   ⟨up, by decide⟩,
   ⟨{ up with pwr.rungReq := some 4 }, 4, by decide⟩,
   ⟨{ up with pwr.toDeep := true, bias.outs := [(0, { move := .ramp 0 0 })] }, by decide +kernel⟩,
   ⟨{ up with pwr.toDeep := true }, by decide +kernel⟩,
   ⟨{ up with pwr.relHold := true }, by decide +kernel⟩,
   ⟨{ up with pwr.vbiasFrom := 1, time.now := 1000000 }, by decide +kernel⟩,
   ⟨{ up with pwr.rungReq := some 3 }, 3, by decide +kernel⟩,
   ⟨{ put (desc0 { bytes := [5], phase := .ready }) Reg.PWR_CFG.AUTO_WAKE [] 1 with pwr.rung := 1 }, by decide +kernel⟩⟩

theorem witness_BootStepsAndPowerUpReset :
    (∃ (b : BootStep) (s : State), (s.sys.boot = false ∨ s.sys.porHeld = true ∨ bootStepNo b ∈ s.sys.steps ∨ s.stepReady b = false))
    ∧ (∃ (b : BootStep) (s : State), s.sys.boot = true ∧ s.sys.porHeld = false ∧ (¬ bootStepNo b ∈ s.sys.steps) ∧ s.stepReady b = true)
    ∧ (∃ (s : State), s.sec.err = false)
    ∧ (∃ (s : State), s.sec.err = true)
    ∧ (∃ (s : State), s.eng.st = #v[0, 1])
    ∧ (∃ (s : State), s.bootOver = false)
    ∧ (∃ (s : State), s.bootOver = true)
    ∧ (∃ (s : State), s.sys.porHeld = true ∧ s.railsUp = true)
    ∧ (∃ (s : State), s.nv.writes = [])
    ∧ (∃ (s : State), s.nv.writes ≠ []) :=
  ⟨⟨.nvRead, {}, by decide⟩,
   ⟨.tmode false, {}, by decide⟩,
   ⟨up, by decide +kernel⟩,
   ⟨{ up with sec.err := true }, by decide +kernel⟩,
   ⟨{}, by decide⟩,
   ⟨{}, by decide⟩,
   ⟨{ sys.steps := [0, 1, 2, 4, 5, 6, 7, 9], time.locked := true }, by decide⟩,
   ⟨{ up with sys.porHeld := true }, by decide +kernel⟩,
   ⟨up, by decide +kernel⟩,
   ⟨{ up with nv.writes := [{}] }, by decide +kernel⟩⟩

theorem witness_MailboxRequestsAndServices :
    (∃ (s : State), s.goDiscarded = true)
    ∧ (∃ (s : State) (cmd : Nat) (role : MbRole) (r : MbReq), s.goDiscarded = false ∧ 2 ≤ s.mbRefusal cmd role r)
    ∧ (∃ (s : State) (cmd : Nat) (role : MbRole) (r : MbReq), s.goDiscarded = false ∧ s.mbRefusal cmd role r = 1)
    ∧ (∃ (s : State) (k : Fin 2), (s.sec.roles[k]).fails < 7)
    ∧ (∃ (s : State) (k : Fin 2), 7 ≤ (s.sec.roles[k]).fails)
    ∧ (∃ (r : MbReq) (s : State), s.goDiscarded = false ∧ s.mbRefusal 1 0 r = 0)
    ∧ (∃ (r : MbReq) (s : State), s.goDiscarded = false ∧ s.mbRefusal 2 0 r = 0)
    ∧ (∃ (r : MbReq) (s : State), s.goDiscarded = false ∧ s.mbRefusal 3 0 r = 0)
    ∧ (∃ (r : MbReq) (s : State), s.goDiscarded = false ∧ s.mbRefusal 6 0 r = 0)
    ∧ (∃ (r : MbReq) (s : State), (∀ u : MbRun, s.sec.run = some u → u.pass = 0) ∧ s.goDiscarded = false ∧ s.mbRefusal 4 0 r = 0)
    ∧ (∃ (s : State) (u : MbRun), s.sec.run = some u ∧ u.pass ≠ 0 ∧ s.mbQuar = false)
    ∧ (∃ (r : MbReq) (s : State), s.goDiscarded = false ∧ s.mbRefusal 0x10 0 r = 0 ∧ s.sec.owned = false)
    ∧ (∃ (r : MbReq) (s : State), s.goDiscarded = false ∧ s.mbRefusal 0x10 0 r = 0 ∧ s.sec.owned = true)
    ∧ (∃ (r : MbReq) (s : State), s.goDiscarded = false ∧ s.mbRefusal 0x11 2 r = 0)
    ∧ (∃ (r : MbReq) (s : State), s.goDiscarded = false ∧ s.mbRefusal 0x12 2 r = 0)
    ∧ (∃ (r : MbReq) (s : State), s.goDiscarded = false ∧ s.mbRefusal 0x13 2 r = 0)
    ∧ (∃ (r : MbReq) (s : State), s.goDiscarded = false ∧ s.mbRefusal 0x14 2 r = 0)
    ∧ (∃ (r : MbReq) (s : State), s.goDiscarded = false ∧ s.mbRefusal 0x15 2 r = 0)
    ∧ (∃ (r : MbReq) (s : State), s.goDiscarded = false ∧ s.mbRefusal 0x16 2 r = 0)
    ∧ (∃ (r : MbReq) (n : Fin 4097) (s : State), s.goDiscarded = false ∧ s.mbRefusal 5 1 { r with wellFormed := r.wellFormed && n != 0 } = 0)
    ∧ (∃ (r : MbReq) (c : Fin 1024) (a : BitVec 64) (len : Word) (s : State), s.goDiscarded = false ∧ (s.mbRefusal 0x20 1
      { r with wellFormed := r.wellFormed && (decide (80 ≤ len.toNat ∧ len.toNat ≤ 33554432) && s.inWindow c a.toNat len.toNat false) } = 0))
    ∧ (∃ (r : MbReq) (c : Fin 1024) (a : BitVec 64) (s : State), s.goDiscarded = false ∧ s.mbRefusal 0x21 1
      { r with wellFormed := r.wellFormed && s.inWindow c a.toNat (80 + 4 * calBlock.length) true } = 0)
    ∧ (∃ (r : MbReq) (s : State), s.goDiscarded = false ∧ s.mbRefusal 0x22 1 r = 0)
    ∧ (∃ (r : MbReq) (s : State), s.goDiscarded = false ∧ s.mbRefusal 0x30 1 r = 0)
    ∧ (∃ (r : MbReq) (k : Fin 16) (s : State), s.goDiscarded = false ∧ s.mbRefusal 0x13 2 r = 0 ∧ Table.get [] s.sec.lks k ≠ [])
    ∧ (∃ (r : MbReq) (k : Fin 16) (hdr : List Byte) (taps : List Word) (s : State), s.goDiscarded = false ∧ s.mbRefusal 0x22 1 r = 0 ∧ Table.get []
      s.sec.lks k ≠ [] ∧ taps.length = calBlock.length ∧ sealHdrBad hdr 1 k 0 (80 + 4 * calBlock.length) = false ∧ sealDev hdr = 0xFFFFFFFF) :=
  ⟨⟨{ up with sec.quarTo := 1 }, by decide⟩,
   ⟨up, 5, 1, {}, by decide⟩,
   ⟨owned, 5, 1, {}, by decide⟩,
   ⟨{ up with sec.roles := #v[{ fails := 6 }, {}] }, 0, by decide +kernel⟩,
   ⟨{ up with sec.roles := #v[{ fails := 7 }, {}] }, 0, by decide +kernel⟩,
   ⟨{}, up, by decide⟩,
   ⟨{}, up, by decide⟩,
   ⟨{}, up, by decide⟩,
   ⟨{}, up, by decide⟩,
   ⟨{}, up, ⟨fun _ h => (nomatch h), by decide⟩⟩,
   ⟨{ up with sec.run := some { pass := 1 } }, { pass := 1 }, by decide⟩,
   ⟨{}, up, by decide⟩,
   ⟨{}, owned, by decide⟩,
   ⟨{ authOk := true }, owned, by decide⟩,
   ⟨{ authOk := true }, owned, by decide⟩,
   ⟨{ authOk := true }, owned, by decide⟩,
   ⟨{ authOk := true }, owned, by decide⟩,
   ⟨{ authOk := true }, owned, by decide⟩,
   ⟨{ authOk := true }, owned, by decide⟩,
   ⟨{ authOk := true }, 4096, owned, by decide⟩,
   ⟨{ authOk := true }, 0, 0, 80, window0 owned, by decide +kernel⟩,
   ⟨{ authOk := true }, 0, 0, window0 owned, by decide +kernel⟩,
   ⟨{ authOk := true }, owned, by decide⟩,
   ⟨{ authOk := true }, owned, by decide⟩,
   ⟨{ authOk := true }, 15, { owned with sec.lks := [(15, [1])] }, by decide +kernel⟩,
   ⟨{ authOk := true }, 0, sealHdr 1 0 (80 + 4 * calBlock.length), List.replicate calBlock.length 0, { owned with sec.lks := [(0, [1])] },
    by decide +kernel⟩⟩

theorem witness_ServicesTakeEffect :
    (∃ (s : State), (s.sec.run = none ∨ ∃ r : MbRun, s.sec.run = some r ∧ r.pass ≠ 0))
    ∧ (∃ (s : State) (r : MbRun), s.sec.run = some r ∧ r.pass = 0)
    ∧ (∃ (k : Nat) (n : Nat), n ≠ k)
    ∧ (∃ (es : List SealEnt) (s : State), (s.sec.run = none ∨ (∃ r : MbRun, s.sec.run = some r ∧ (r.pass = 0 ∨ (r.pass = 2 ∧ (s.cobblerUp = false ∨
      es.any s.entryInUse = true))))))
    ∧ (∃ (s : State) (r : MbRun), s.sec.run = some r ∧ r.pass = 1)
    ∧ (∃ (hdr : List Byte) (es : List SealEnt) (s : State) (r : MbRun), s.sec.run = some r ∧ r.pass = 1 ∧ sealHdrBad hdr 0 r.slot es.length r.len =
      false ∧ r.len = blobLen es ∧ es.any SealEnt.bad = false ∧ s.blobMine (sealDev hdr) = true ∧ ((es.any fun e => e.regions.any s.builtUses) =
      false))
    ∧ (∃ (es : List SealEnt) (s : State) (r : MbRun), s.sec.run = some r ∧ r.pass = 2 ∧ s.cobblerUp = true ∧ es.any s.entryInUse = false)
    ∧ (∃ (r : MbRun), r.wrote = [] ∧ r.wroteGr = [])
    ∧ (∃ (k : Fin 2) (s : State), (s.sec.roles[k]).lockTo ≠ 0 ∧ (s.sec.roles[k]).lockTo ≤ s.time.now)
    ∧ (∃ (s : State), s.sec.quarTo ≤ s.time.now) :=
  ⟨⟨up, .inl rfl⟩,
   ⟨{ up with sec.run := some {} }, {}, by decide⟩,
   ⟨0, 1, by decide +kernel⟩,
   ⟨[], up, .inl rfl⟩,
   ⟨{ up with sec.run := some { pass := 1 } }, { pass := 1 }, by decide⟩,
   ⟨sealHdr 0 1 112, [{ hdr := List.replicate 32 0 }], { up with sec.run := some { pass := 1, len := 112 } }, { pass := 1, len := 112 },
    by decide +kernel⟩,
   ⟨[], { up with sec.run := some { pass := 2 } }, { pass := 2 }, by decide +kernel⟩,
   ⟨{}, by decide⟩,
   ⟨0, { up with sec.roles := #v[{ lockTo := 1 }, {}], time.now := 1 }, by decide +kernel⟩,
   ⟨up, by decide +kernel⟩⟩

end Sys2Proof.Tests
end

section
/-! PROOFS. The byte memory as numbers (R7), and the host's accesses to the BARs (R447 to R452). -/

/-! ### Little-endian numbers (R7) -/

namespace Sys2Proof

@[simp] theorem leBytes_length (n v : Nat) : (leBytes n v).length = n := by
  induction n generalizing v with
  | zero => rfl
  | succ n ih => rw [leBytes, List.length_cons, ih]

theorem ofBytes_leBytes (n v : Nat) (hv : v < 256 ^ n) : ofBytes (leBytes n v) = v := by
  induction n generalizing v with
  | zero => rw [Nat.pow_zero] at hv; rw [leBytes, ofBytes]; omega
  | succ n ih =>
    have hq : v / 256 < 256 ^ n := Nat.div_lt_of_lt_mul (by rwa [← Nat.pow_succ'])
    rw [leBytes, ofBytes, ih _ hq, BitVec.toNat_ofNat]
    exact Nat.mod_add_div v 256

end Sys2Proof

namespace Sys2Proof.Machine

/-! ### Stores and loads -/

theorem State.readBytes_store (s : State) (a : Nat) (bs : List Byte) :
    Memory.readBytes (s.store a bs).ram a bs.length = bs := Memory.readBytes_writeBytes s.ram a bs

theorem State.load_store_leBytes (s : State) (a n v : Nat) (hv : v < 256 ^ n) : (s.store a (leBytes n v)).load a n = v := by
  have hb := s.readBytes_store a (leBytes n v)
  rw [leBytes_length] at hb
  rw [State.load, hb, ofBytes_leBytes n v hv]

/-- Settles O11: by the memory's read-after-write laws, and by recursion on the bytes of a number. -/
theorem memoryReadAfterWrite : Obligations.MemoryReadAfterWrite :=
  ⟨State.readBytes_store, State.load_store_leBytes, fun s a b bs hb => s.store_outside a b bs hb⟩

/-! ### Which blocks are open (R452) -/

theorem State.blockOpen_of_ready (s : State) (a : Nat) (hr : s.sys.ready = true) : s.blockOpen a = true := by
  rw [State.blockOpen, hr, Bool.true_or, Bool.true_or]

theorem State.blockOpen_before_ready (s : State) (a : Nat) (hr : s.sys.ready = false) (ha : 0x10000 ≤ a)
    (hp : a ≠ regAddr .PWR_CTL []) : s.blockOpen a = false := by
  rw [State.blockOpen, hr, decide_eq_false (by omega), beq_false_of_ne hp]; rfl

/-! ### A word written (R448, R449) -/

theorem State.writeAt_closed (s : State) (a w : Nat) (ho : s.blockOpen a = false) : s.writeAt a w = s := by
  rw [State.writeAt, if_neg (ne_true_of_eq_false ho)]

theorem State.writeAt_unlisted (s : State) (a w : Nat) (hf : regFind a = none) : s.writeAt a w = s := by
  rw [State.writeAt, hf, ite_self]

theorem State.writeAt_listed (s : State) (a w : Nat) (r : RegName) (i : List Nat) (ho : s.blockOpen a = true)
    (hf : regFind a = some (r, i)) : s.writeAt a w = s.regWrite r i w := by
  rw [State.writeAt, if_pos ho, hf]

/-! ### Writes of a BAR (R447, R448, R476, R683) -/

theorem exec_registerWrite (b : HostBar) (a : BitVec 26) (n : Fin 9) (d : BitVec 64) (s : State) :
    exec (.registerWrite ⟨b, a⟩ n d) s = .next (s.hostWrite b a.toNat n d.toNat).modeSync := rfl

theorem State.barWrite_four (s : State) (a v : Nat) (ha : a % 4 = 0) : s.barWrite a 4 v = s.writeAt a (v % 2 ^ 32) := by
  rw [State.barWrite, if_pos ⟨rfl, ha⟩]

theorem exec_registerWrite_bar0 (a : BitVec 26) (n : Fin 9) (d : BitVec 64) (s : State) :
    exec (.registerWrite ⟨.bar0, a⟩ n d) s = .next
    (if n = 4 ∧ a.toNat % 4 = 0 then s.writeAt a.toNat (d.toNat % 2 ^ 32)
     else if n = 8 ∧ a.toNat % 8 = 0 then (s.writeAt a.toNat (d.toNat % 2 ^ 32)).writeAt (a.toNat + 4) (d.toNat / 2 ^ 32)
     else s.violate 738 none 11 9 a.toNat d.toNat).modeSync := by
  rw [exec_registerWrite, State.hostWrite, State.barWrite]
  simp only [Fin.ext_iff]
  rfl

theorem exec_registerWrite_listed (a : BitVec 26) (d : BitVec 64) (r : RegName) (i : List Nat) (s : State)
    (ha : a.toNat % 4 = 0) (hr : s.sys.ready = true) (hf : regFind a.toNat = some (r, i)) :
    exec (.registerWrite ⟨.bar0, a⟩ 4 d) s = .next (s.regWrite r i (d.toNat % 2 ^ 32)).modeSync :=
  calc exec (.registerWrite ⟨.bar0, a⟩ 4 d) s
      = .next (s.barWrite a.toNat 4 d.toNat).modeSync := exec_registerWrite .bar0 a 4 d s
    _ = .next (s.regWrite r i (d.toNat % 2 ^ 32)).modeSync := by
        rw [s.barWrite_four _ _ ha, s.writeAt_listed _ _ r i (s.blockOpen_of_ready _ hr) hf]

theorem exec_registerWrite_bar4_done (d : BitVec 64) (s : State) (hd : bitOf d.toNat 30 = true) :
    exec (.registerWrite ⟨.bar4, 4⟩ 4 d) s = .next ({ s with sec.done := false } : State).modeSync := by
  have hw : s.mbWrite 4 4 d.toNat = { s with sec.done := false } := by
    rw [State.mbWrite, if_pos (.inl ⟨rfl, rfl, hd⟩)]
  rw [← hw]; rfl

/-! ### Reads of a BAR (R13, R448, R456, R476, R683) -/

theorem exec_registerReadClear (b : HostBar) (a : BitVec 26) (n : Fin 9) (bad : BitVec 2) (s : State) :
    exec (.registerReadClear ⟨b, a⟩ n bad) s = .next { (s.hostRead b a.toNat n bad).1 with
      host.readData := BitVec.ofNat 64 (s.hostRead b a.toNat n bad).2 } := rfl

theorem exec_registerReadClear_of_hostRead (b : HostBar) (a : BitVec 26) (n : Fin 9) (bad : BitVec 2) (s t : State) (v : Nat)
    (h : s.hostRead b a.toNat n bad = (t, v)) :
    exec (.registerReadClear ⟨b, a⟩ n bad) s = .next { t with host.readData := BitVec.ofNat 64 v } := by
  rw [exec_registerReadClear, h]

theorem State.barRead_unlisted (s : State) (a n : Nat) (bad : BitVec 2) (h4 : 4 ≤ n)
    (h : ¬ ((n = 4 ∨ n = 8) ∧ a % n = 0)) : s.barRead a n bad = (s, 0) := by
  rw [State.barRead, if_neg (by omega), if_neg h]

theorem State.readAt_listed (s : State) (a : Nat) (bad : Bool) (r : RegName) (i : List Nat) (ho : s.blockOpen a = true)
    (hf : regFind a = some (r, i)) : s.readAt a bad = (s.clearRc r i, s.regValue r i) := by
  rw [State.readAt, if_pos ho, hf]

theorem State.barRead_four (s : State) (a : Nat) (bad : BitVec 2) (ha : a % 4 = 0) :
    s.barRead a 4 bad = s.readAt a (bad.getLsbD 0) := by
  rw [State.barRead, if_neg (by omega), if_pos ⟨.inl rfl, ha⟩]; rfl

theorem exec_registerReadClear_badSize (a : BitVec 26) (n : Fin 9) (bad : BitVec 2) (s : State) (h5 : 5 ≤ n.val) (h8 : n ≠ 8) :
    exec (.registerReadClear ⟨.bar0, a⟩ n bad) s = .next { s with host.readData := 0 } :=
  have h8 : n.val ≠ 8 := fun h => h8 (Fin.ext h)
  exec_registerReadClear_of_hostRead .bar0 a n bad s s 0 (s.barRead_unlisted a.toNat n bad (by omega) (by omega))

theorem exec_registerReadClear_misaligned (a : BitVec 26) (bad : BitVec 2) (s : State) (ha : a.toNat % 4 ≠ 0) :
    exec (.registerReadClear ⟨.bar0, a⟩ 4 bad) s = .next { s with host.readData := 0 } :=
  exec_registerReadClear_of_hostRead .bar0 a 4 bad s s 0 (s.barRead_unlisted a.toNat 4 bad (by omega) fun h => ha h.2)

theorem exec_registerReadClear_listed (a : BitVec 26) (bad : BitVec 2) (r : RegName) (i : List Nat) (s : State)
    (ha : a.toNat % 4 = 0) (hr : s.sys.ready = true) (hf : regFind a.toNat = some (r, i)) :
    exec (.registerReadClear ⟨.bar0, a⟩ 4 bad) s
      = .next { s.clearRc r i with host.readData := BitVec.ofNat 64 (s.regValue r i) } :=
  exec_registerReadClear_of_hostRead .bar0 a 4 bad s _ _ <|
    calc s.barRead a.toNat 4 bad = s.readAt a.toNat (bad.getLsbD 0) := s.barRead_four _ bad ha
      _ = (s.clearRc r i, s.regValue r i) := s.readAt_listed _ _ r i (s.blockOpen_of_ready _ hr) hf

theorem wordsRead_four (f : Nat → Nat) (a : Nat) (ha : a % 4 = 0) : wordsRead f a 4 = f a := by
  rw [wordsRead, if_neg (by omega), if_pos ⟨.inl rfl, ha⟩, if_pos rfl]

theorem exec_registerReadClear_bar4 (a : BitVec 26) (bad : BitVec 2) (s : State) (ha : a.toNat % 4 = 0) :
    exec (.registerReadClear ⟨.bar4, a⟩ 4 bad) s
      = .next { s with host.readData := BitVec.ofNat 64 (s.mbWord (a.toNat % 2 ^ 16)) } :=
  exec_registerReadClear_of_hostRead .bar4 a 4 bad s s _ <|
    congrArg (Prod.mk s) (wordsRead_four s.mbWord (a.toNat % 2 ^ 16) (by omega))

theorem State.clearRc_of_no_rc (s : State) (r : RegName) (i : List Nat) (h : ∀ f ∈ (regSpec r).fields, f.acc ≠ .rc) :
    s.clearRc r i = s := by
  have hany : ((regSpec r).fields.any fun f => f.acc == .rc) = false :=
    List.any_eq_false.mpr fun f hf => by rw [beq_iff_eq]; exact h f hf
  rw [State.clearRc, hany]; rfl

/-! ### TIME_HZN (R80, R452) -/

theorem exec_timeHznWrite (v : Word) (s : State) :
    exec (.timeHznWrite v) s = .next (s.gate (s.regWrite .TIME_HZN [] v.toNat)) := rfl

theorem exec_timeHznWrite_ready (v : Word) (s : State) (hr : s.sys.ready = true) :
    exec (.timeHznWrite v) s = .next ((s.storeFields .TIME_HZN [] v.toNat).writeAction .TIME_HZN [] v.toNat) := by
  rw [exec_timeHznWrite, State.gate, if_pos hr]; rfl

theorem exec_timeHznWrite_before_ready (v : Word) (s : State) (hr : s.sys.ready = false) :
    exec (.timeHznWrite v) s = .next s := by
  rw [exec_timeHznWrite, State.gate, if_neg (ne_true_of_eq_false hr)]

/-- Settles O21: one equation per kind of access, each by the branch of `barWrite`, `barRead`, `writeAt`, `readAt` or
`gate` that the access takes. -/
theorem registerAccesses : Obligations.RegisterAccesses :=
  ⟨exec_registerWrite_bar0, exec_registerWrite_listed, fun a n d s => exec_registerWrite .bar2 a n d s,
   exec_registerWrite_bar4_done,
   fun s a w hr ha hp => s.writeAt_closed a w (s.blockOpen_before_ready a hr ha hp),
   State.writeAt_unlisted,
   fun s a w r i hr hf => s.writeAt_listed a w r i (s.blockOpen_of_ready a hr) hf,
   exec_registerReadClear_badSize, exec_registerReadClear_misaligned, exec_registerReadClear_listed,
   fun a n bad s => exec_registerReadClear_of_hostRead .bar2 a n bad s s 0 rfl,
   exec_registerReadClear_bar4, State.clearRc_of_no_rc,
   exec_timeHznWrite_ready, exec_timeHznWrite_before_ready, fun _ _ => rfl⟩

end Sys2Proof.Machine
end

section
/-! PROOFS. How a shot moves: start ticks (R28 to R31), the start of a job (R18, R484), and the turn of a descriptor
(R480). -/

namespace Sys2Proof.Machine

/-! ### Start ticks (R28 to R31) -/

theorem State.plan_eq (s : State) : ∃ t, s.plan = { s with job.startTick := t } := by
  unfold State.plan
  split
  · exact ⟨s.job.startTick, rfl⟩
  · dsimp only
    split
    · exact ⟨_, rfl⟩
    · exact ⟨_, rfl⟩
    · exact ⟨s.job.startTick, rfl⟩

theorem State.leadNow_eq (s : State) :
    ∃ t, s.leadNow = { s with job := { s.job with leadFrom := s.time.now, startTick := t } } :=
  State.plan_eq { s with job.leadFrom := s.time.now }

theorem State.leadNow_armed (s : State) (j : Job) (hj : s.job.job = some j) (hp : s.job.phase = .armed) :
    s.leadNow = { s with job := { s.job with
      leadFrom := s.time.now
      startTick := match j.start with
        | some d => max (s.time.now + 1000) (s.tickOf d)
        | none => s.time.now + 1000 } } := by
  unfold State.leadNow State.plan
  simp only [hj, hp]
  rfl

theorem State.leadNow_shotBoundary (s : State) (j : Job) (hj : s.job.job = some j) (hp : s.job.phase = .shotBoundary) :
    s.leadNow = { s with job := { s.job with
      leadFrom := s.time.now
      startTick := max (s.time.now + 1000) (s.job.prevStart + j.period) } } := by
  unfold State.leadNow State.plan
  simp only [hj, hp]

theorem State.tickOf_of_le (s : State) (d : Nat) (h : s.time.dev.abs ≤ s.time.now + d) :
    s.tickOf d = s.time.now + d - s.time.dev.abs := by
  unfold State.tickOf
  omega

/-- Settles O26: `leadNow` plans from the present tick, by the phase of the job. -/
theorem startTicksFollowTheLead : Obligations.StartTicksFollowTheLead := by
  refine ⟨fun s j hj hp hs => ?_, fun s j d hj hp hs => ?_, State.tickOf_of_le, State.leadNow_shotBoundary⟩
  · rw [s.leadNow_armed j hj hp, hs]
  · rw [s.leadNow_armed j hj hp, hs]

/-! ### Arming (R18, R28, R33): what keeps the time, and what the job machine holds after it -/

@[simp] theorem State.descClamp_time (s : State) (c idx struct off written used : Nat) :
    (s.descClamp c idx struct off written used).time = s.time := by
  unfold State.descClamp
  rw [State.updCtx_time, State.logClamp_eq]

/-- What no step of a fold changes, the fold leaves as it is. -/
theorem foldl_keeps {α β : Type} (g : State → β) (f : State → α → State) (h : ∀ s a, g (f s a) = g s) (l : List α)
    (s : State) : g (l.foldl f s) = g s :=
  List.foldlRecOn (motive := fun t => g t = g s) l f rfl fun t ht a _ => (h t a).trans ht

@[simp] theorem State.armUnits_time (s : State) : s.armUnits.time = s.time := by
  have hseqs := foldl_keeps State.time _ (fun t e => t.updSeq_time e.1 fun x => { edges := x.edges })
    s.place.inEffect.seqs s
  exact (foldl_keeps State.time State.startDsp (fun t k => t.updDsp_time k _) _ _).trans hseqs

@[simp] theorem State.prepareShot_time (s : State) : s.prepareShot.time = s.time :=
  foldl_keeps State.time _ (fun t _ => t.updSeq_time _ _) _ s

@[simp] theorem State.prepareShot_job (s : State) : s.prepareShot.job = { s.job with prepared := true } :=
  congrArg (fun x : JobSt => { x with prepared := true })
    (foldl_keeps State.job _ (fun t (e : Nat × Nat × Nat) => t.updSeq_job e.1 _) _ s)

theorem State.captureLimit_eq (s : State) : s.captureLimit = { s with rdo := s.captureLimit.rdo } := by
  unfold State.captureLimit
  split <;> rfl

/-- The last three operations of arming leave the job machine as it is but for the lead and the sequencers' stand. -/
theorem State.startLead_job (s : State) : ∃ t, s.captureLimit.prepareShot.leadNow.job
    = { s.job with prepared := true, leadFrom := s.time.now, startTick := t } := by
  obtain ⟨t, ht⟩ := s.captureLimit.prepareShot.leadNow_eq
  refine ⟨t, ?_⟩
  rw [ht, State.prepareShot_job, State.prepareShot_time, State.captureLimit_eq]

/-- The held entry of a ring index, or the given one where none is held, has that index. -/
theorem State.desc_getD_index (s : State) (c : Nat) (d : Desc) : ((s.desc c d.index).getD d).index = d.index := by
  cases hd : s.desc c d.index with
  | none => rfl
  | some e => exact eq_of_beq (List.find?_some (p := fun x : Desc => x.index == d.index) hd)

theorem State.arm_job (s : State) (c : Nat) (d : Desc) : ∃ j : Job,
    (s.arm c d).job.job = some j ∧ (s.arm c d).job.phase = .armed
    ∧ j.ctx = c ∧ j.index = d.index ∧ j.abort = 0 ∧ j.shot = 0 ∧ j.done = 0 ∧ j.late = 0 ∧ j.invalid = 0
    ∧ (s.arm c d).job.leadFrom = s.time.now ∧ (s.arm c d).job.prepared = true ∧ (s.arm c d).job.lastCtx = c + 1 := by
  unfold State.arm
  extract_lets used clamped held begun units src started
  obtain ⟨t, ht⟩ := started.startLead_job
  have hclock : started.time = s.time := by
    have hclamp : clamped.time = s.time := by
      simp only [clamped]
      split
      · rfl
      · exact s.descClamp_time ..
    exact (State.armUnits_time _).trans hclamp
  rw [ht, hclock]
  exact ⟨_, rfl, rfl, rfl, clamped.desc_getD_index c d, rfl, rfl, rfl, rfl, rfl, rfl, rfl, rfl⟩

/-! ### JOB_START (R18, R167, R484, R499) -/

theorem exec_jobStart (w : WorkError) (s t : State) (h : s.jobStart w.err w.at_.toNat = t) :
    exec (.jobStart w) s = .next t.modeSync := by
  rw [← h]; rfl

theorem State.jobStart_arms (s : State) (a c : Nat) (d : Desc) (hn : s.nextJob = some (c, d)) (hm : s.jobMayStart = true)
    (hr : s.ringFault c d = none) (hj : s.jobRefusal d = none) (he : s.extentFault c d = false)
    (hs : s.streamsReady = true) : s.jobStart 0 a = s.arm c d := by
  unfold State.jobStart
  simp [hn, hm, hr, hj, he, hs]

/-- Settles O27: JOB_START is the decision of `jobStart`, and arming keeps the clock and sets the job machine afresh. -/
theorem jobStartArmsOrRefuses : Obligations.JobStartArmsOrRefuses := by
  refine ⟨fun a c d s hn hm hr hj he hs => ?_, fun w a s => ?_, fun s c d => ?_⟩
  · exact exec_jobStart ⟨0, a⟩ s _ (s.jobStart_arms a.toNat c d hn hm hr hj he hs)
  · refine exec_jobStart ⟨w, a⟩ s _ ?_
    unfold State.jobStart
    cases s.nextJob with
    | none => rfl
    | some e =>
      obtain ⟨c, d⟩ := e
      simp only [ne_eq, Fin.ext_iff]
      cases s.ringFault c d with
      | some place => rfl
      | none =>
        cases s.jobRefusal d with
        | some code => rfl
        | none => rfl
  · obtain ⟨j, hjob, hphase, hctx, hidx, habort, hshot, hdone, hlate, hinv, hlead, hprep, hlast⟩ := s.arm_job c d
    obtain ⟨hpend, hram, -, -⟩ := s.arm_kept c d
    exact ⟨j, hjob, hphase, hctx, hidx, habort, hshot, hdone, hlate, hinv, hlead, hprep, hlast, hram, hpend⟩

/-! ### The turn of a RUN (R480) -/

/-- R480: an earlier entry whose read has not completed holds a RUN back, as an earlier fetched descriptor does. -/
theorem State.mayStart_run (s : State) (c : Nat) (d : Desc) (hd : d.op = 5) :
    s.mayStart c d = true ↔ s.earlierReads c d.index = false ∧ s.earlier c d.index = [] := by
  unfold State.mayStart
  simp [hd]

/-- The RUN at ring index 1. -/
def secondRun : Desc := { index := 1, bytes := [5] }

/-- Context 0 has rings of 16 entries; of its submission ring, entries 0 and 1 have been asked for: the read of entry 0 is
outstanding, that of entry 1 has completed and gave a RUN. -/
def firstEntryOutstanding : State :=
  { (({} : State).setLive .CTX_CFG [0] 0x8A100000).setLive .CTX_SIZE [0] 0x421084 with
    sys := { boot := false, ready := true }
    host := { reads := [.entry 0 0 false] }
    ctxs := [(0, { subHead := 2, subTail := 2, fetched := [secondRun] })] }

theorem firstEntryOutstanding_earlier : firstEntryOutstanding.earlier 0 secondRun.index = [] := by decide

theorem firstEntryOutstanding_earlierReads : firstEntryOutstanding.earlierReads 0 secondRun.index = true := by
  decide +kernel

/-- Refutes O50: its clause on the turn of a RUN (as those of FENCE and LOAD_PROGRAM) counts only the descriptors fetched
before it, where R480 and `mayStart` also wait for an earlier entry whose read is outstanding. With the read of entry 0
outstanding, the RUN at index 1 has no earlier fetched descriptor and may not start. -/
theorem not_descriptorsStartAndComplete : ¬ Obligations.DescriptorsStartAndComplete := by
  rintro ⟨-, -, hturn, -⟩
  obtain ⟨-, hrun, -⟩ := hturn firstEntryOutstanding 0 secondRun
  have hstarts : firstEntryOutstanding.mayStart 0 secondRun = true := (hrun rfl).mpr firstEntryOutstanding_earlier
  obtain ⟨hread, -⟩ := (State.mayStart_run _ _ _ rfl).mp hstarts
  rw [firstEntryOutstanding_earlierReads] at hread
  contradiction

end Sys2Proof.Machine
end

section
/-! PROOFS. Device time and the welt: the step of an empty queue (R50, R53, R56), the state right after reset (R697,
R733), and the judging of an event at its queue's entry (R68 to R77). -/

namespace Sys2Proof.Machine

/-! ### What a passing tick leaves as it is -/

/-- The state with everything that a playing output, a record, a link's row, a pairing unit or the watch of a
conversion may change set back to its reset value: what stands still while a tick passes, beside the clock. -/
def State.still (s : State) : State :=
  { s with
    regs.direct := []
    recs := {}
    job := { phase := s.job.phase, startTick := s.job.startTick }
    outs := {}
    sq := { seqs := s.sq.seqs }
    sys := {}
    lace := {}
    awl := []
    mon := {}
    freeCtr := 0 }

theorem State.still_time {s t : State} (h : t.still = s.still) : t.time = s.time := by
  injection h

/-- Equal still parts: every field that `still` does not set back agrees. -/
theorem State.still_fields {s t : State} (h : t.still = s.still) :
    t.pending = s.pending ∧ t.cfg = s.cfg ∧ t.ctxs = s.ctxs ∧ t.host = s.host ∧ t.sq.seqs = s.sq.seqs
    ∧ t.place = s.place ∧ t.rdo = s.rdo ∧ t.dsps = s.dsps ∧ t.planes = s.planes ∧ t.bias = s.bias ∧ t.nv = s.nv
    ∧ t.pwr = s.pwr ∧ t.eng = s.eng ∧ t.cal = s.cal ∧ t.sec = s.sec ∧ t.net = s.net ∧ t.dec = s.dec ∧ t.ram = s.ram
    ∧ t.job.phase = s.job.phase ∧ t.job.startTick = s.job.startTick ∧ t.regs.live = s.regs.live
    ∧ t.regs.shadow = s.regs.shadow := by
  simp only [State.still, State.mk.injEq, RegSt.mk.injEq, JobSt.mk.injEq, SeqSt.mk.injEq] at h
  simp only [h, and_self]

theorem State.still_foldl {α : Type} (f : State → α → State) (h : ∀ s a, (f s a).still = s.still) (l : List α)
    (s : State) : (l.foldl f s).still = s.still :=
  foldl_keeps State.still f h l s

/-! ### The shared operations of a tick keep it -/

@[simp] theorem State.still_count (s : State) (f : Fld) (i : List Nat) : (s.count f i).still = s.still := rfl

@[simp] theorem State.still_draw (s : State) : s.draw.still = s.still := rfl

@[simp] theorem State.still_updChan (s : State) (k : Nat) (f : Chan → Chan) : (s.updChan k f).still = s.still := rfl

@[simp] theorem State.still_updGen (s : State) (q n : Nat) (f : Gen → Gen) : (s.updGen q n f).still = s.still := rfl

@[simp] theorem State.still_updAwl (s : State) (k : Nat) (f : AwlIn → AwlIn) : (s.updAwl k f).still = s.still := rfl

@[simp] theorem State.still_updLink (s : State) (l : Nat) (f : LaceLink → LaceLink) : (s.updLink l f).still = s.still := rfl

@[simp] theorem State.still_markInvalid (s : State) : s.markInvalid.still = s.still := rfl

@[simp] theorem State.still_holdBoot (s : State) (h : Held) : (s.holdBoot h).still = s.still := by
  unfold State.holdBoot
  split <;> rfl

/-- A record goes to the records held, or to those of boot, and may mark the shot invalid. -/
@[simp] theorem State.still_post (s : State) (c : Nat) (ring : Ring) (src kind flags : Nat) (st : Stamp)
    (body : List (Nat × Nat × Nat)) : (s.post c ring src kind flags st body).still = s.still := by
  unfold State.post
  extract_lets b ofJob h src held
  have hheld : held.still = s.still := by
    unfold held
    split
    · exact s.still_holdBoot h
    · rfl
  split
  · exact hheld
  · exact hheld

/-! ### The outputs play (R87, R89, R414) -/

@[simp] theorem State.still_countClip (s : State) (k : Nat) : (s.countClip k).still = s.still := by
  unfold State.countClip
  split <;> exact s.still_count _ _

@[simp] theorem State.still_clipRecord (s : State) (k : Nat) (st : Stamp) (mask : Nat) :
    (s.clipRecord k st mask).still = s.still := by
  unfold State.clipRecord
  extract_lets counted marked
  split
  · exact s.still_countClip k
  · calc _ = marked.still := marked.still_post ..
      _ = s.still := s.still_countClip k

@[simp] theorem State.still_noteGap (q k : Nat) (s : State) (n : Nat) : (State.noteGap q k s n).still = s.still := by
  unfold State.noteGap
  repeat' split
  all_goals rfl

@[simp] theorem State.still_gapRecord (s : State) (p : Pulse) : (s.gapRecord p).still = s.still := by
  unfold State.gapRecord
  repeat' split
  · exact s.still_post ..
  · rfl
  · rfl

@[simp] theorem State.still_dropPulse (q : Nat) (s : State) (n : Nat) : (State.dropPulse q s n).still = s.still := by
  unfold State.dropPulse
  split
  · exact s.still_gapRecord _
  · rfl

@[simp] theorem State.still_freeStream (s : State) (q : Nat) (p : Pulse) (k : Nat) : (s.freeStream q p k).still = s.still := by
  unfold State.freeStream
  split <;> rfl

@[simp] theorem State.still_endPulse (s : State) (q k n : Nat) : (s.endPulse q k n).still = s.still := by
  unfold State.endPulse
  split
  · dsimp only
    split
    · rw [State.still_dropPulse, State.still_freeStream]
    · exact s.still_freeStream ..
  · rfl

@[simp] theorem State.still_endPulses (s : State) (q c k : Nat) : (s.endPulses q c k).still = s.still :=
  State.still_foldl _ (fun t n => t.still_endPulse q k n) _ s

@[simp] theorem State.still_rfSample (s : State) (q c k : Nat) : (s.rfSample q c k).still = s.still := by
  unfold State.rfSample
  extract_lets noted sum y full o on played mask
  have hplayed : played.still = s.still := State.still_foldl _ (State.still_noteGap q k) _ s
  split
  · exact hplayed
  · exact (played.still_clipRecord ..).trans hplayed

@[simp] theorem State.still_renderRf (s : State) (q c k : Nat) : (s.renderRf q c k).still = s.still := by
  unfold State.renderRf
  extract_lets x ended
  have hended : ended.still = s.still := by
    rw [State.still_endPulses]
    exact State.still_foldl _ (fun t i => t.still_rfSample q c _) _ s
  repeat' split
  · exact hended
  · exact hended
  · rfl

@[simp] theorem State.still_fluxSample (s : State) (k n : Nat) : (s.fluxSample k n).still = s.still := by
  unfold State.fluxSample
  extract_lets ch p scale off e
  split
  extract_lets
  split
  · rfl
  · exact State.still_clipRecord ..

@[simp] theorem State.still_renderFlux (s : State) (k n : Nat) : (s.renderFlux k n).still = s.still := by
  unfold State.renderFlux
  dsimp only
  split
  · rfl
  · split
    · exact State.still_foldl _ (fun t i => t.still_fluxSample k _) _ s
    · rfl

@[simp] theorem State.still_playOut (s : State) (ch : Nat) : (s.playOut ch).still = s.still := by
  unfold State.playOut
  split
  · exact s.still_renderRf ..
  · exact s.still_renderFlux ..

/-! ### The pairing units take their edges (R582) -/

@[simp] theorem State.still_awlDrop (s : State) (k : Nat) (st : Stamp) : (s.awlDrop k st).still = s.still := rfl

@[simp] theorem State.still_awlRecord (s : State) (k kind flags : Nat) (st : Stamp) (body : List (Nat × Nat × Nat)) :
    (s.awlRecord k kind flags st body).still = s.still := by
  unfold State.awlRecord
  extract_lets c x closed
  have hclosed : closed.still = s.still := by
    unfold closed
    split
    · rfl
    · exact s.still_post ..
  repeat' split
  · rfl
  · exact hclosed
  · exact (closed.still_post ..).trans hclosed

@[simp] theorem State.still_countUnpair (s : State) (k n : Nat) : (s.countUnpair k n).still = s.still :=
  State.still_foldl _ (fun t _ => t.still_count _ _) _ s

@[simp] theorem State.still_awlInterval (s : State) (k : Nat) (start stop : AwlTag) :
    (s.awlInterval k start stop).still = s.still := s.still_awlRecord ..

@[simp] theorem State.still_awlPair (s : State) (k : Nat) (isStop : Bool) (e : AwlTag) :
    (s.awlPair k isStop e).still = s.still := by
  unfold State.awlPair
  dsimp only
  repeat' split
  all_goals simp only [State.still_awlInterval, State.still_updAwl, State.still_countUnpair]

@[simp] theorem State.still_awlTake (s : State) (k : Nat) : (s.awlTake k).still = s.still :=
  foldl_keeps State.still _ (fun t (o : Bool × AwlTag) => t.still_awlPair k o.1 o.2) _ _

/-! ### The links send their rows (R505) -/

@[simp] theorem State.still_laceOut (s : State) (l : Nat) (o : LaceOut) : (s.laceOut l o).still = s.still := by
  unfold State.laceOut
  split <;> rfl

@[simp] theorem State.still_returnSpace (s : State) (vc : Nat) (e : LaceFrame × Option Nat) :
    (s.returnSpace vc e).still = s.still := by
  unfold State.returnSpace
  repeat' split
  · rfl
  · exact State.still_laceOut ..
  · rfl

@[simp] theorem State.still_lacePump (s : State) (l vc : Nat) : (s.lacePump l vc).still = s.still := by
  unfold State.lacePump
  extract_lets x t
  split
  · split
    dsimp only
    refine (State.still_foldl _ (fun u e => ?_) _ _).trans ?_
    · rw [State.still_returnSpace, State.still_laceOut]
    · split <;> rfl
  · rfl

@[simp] theorem State.still_laceQueue (s : State) (l : Nat) (f : LaceFrame) : (s.laceQueue l f).still = s.still := by
  unfold State.laceQueue State.laceQueueFrom
  split
  · exact State.still_lacePump ..
  · rfl

@[simp] theorem State.still_testFill (s : State) (l : Nat) : (s.testFill l).still = s.still := by
  unfold State.testFill
  dsimp only
  split
  · exact State.still_laceQueue ..
  · rfl

@[simp] theorem State.still_laceRow (s : State) (l : Nat) : (s.laceRow l).still = s.still := by
  unfold State.laceRow
  dsimp only
  repeat' split
  · rfl
  all_goals exact s.still_testFill l

/-! ### One tick (R50, R53, R56) -/

@[simp] theorem State.still_monWatch (s : State) : s.monWatch.still = s.still := by
  unfold State.monWatch
  repeat' split
  all_goals rfl

theorem State.tick_asleep (s : State) (h : s.awake = false) : s.tick = { s with time := s.time.next.lag } :=
  if_neg (ne_true_of_eq_false h)

/-- Of what stands still, a tick moves the clock alone. -/
theorem State.still_tick (s : State) : s.tick.still = ({ s with time := s.time.next.lag } : State).still := by
  unfold State.tick
  extract_lets clocked played
  split
  · rw [State.still_monWatch, State.still_foldl _ State.still_awlTake, State.still_foldl _ State.still_laceRow,
      State.still_foldl _ State.still_playOut]
  · rfl

/-! ### The clock (R50, R53, R63) -/

/-- R63: the value held in the insole follows; the rest of the clock is as it was. -/
theorem TimeSt.lag_eq (t : TimeSt) : t.lag = { t with coarse := t.lag.coarse } := by
  unfold TimeSt.lag
  dsimp only
  split <;> rfl

theorem State.tick_time (s : State) : s.tick.time = { s.time.next with coarse := s.tick.time.coarse } := by
  have h : s.tick.time = s.time.next.lag := State.still_time s.still_tick
  rw [h]
  exact s.time.next.lag_eq

/-- R734: before time lock device time does not run. -/
theorem TimeSt.next_unlocked (t : TimeSt) (h : t.locked = false) : t.next = { t with now := t.now + 1 } := by
  unfold TimeSt.next
  rw [h]
  rfl

/-- R53: in a hold device time stands still, and one of its ticks is used up. -/
theorem TimeSt.next_held (t : TimeSt) (hl : t.locked = true) (hh : t.holding = true) (hp : 0 < t.holdLeft) :
    t.next = { t with now := t.now + 1, holdLeft := t.holdLeft - 1 } := by
  unfold TimeSt.next
  rw [hl, hh, decide_eq_true hp]
  rfl

/-- R50: out of a hold device time advances. -/
theorem TimeSt.next_running (t : TimeSt) (hl : t.locked = true) (hh : ¬ (t.holding = true ∧ 0 < t.holdLeft)) :
    t.next = { t with now := t.now + 1, dev := t.dev.succ } := by
  unfold TimeSt.next
  rw [hl, Bool.not_true, if_neg Bool.false_ne_true, if_neg]
  simpa using hh

theorem step_of_pending_nil (s : State) (h : s.pending = []) : step s = .next s.tick := by
  rw [step, h]

/-- R50, R53, R734: device time after a tick. -/
theorem State.tick_dev (s : State) : s.tick.time.dev
    = if s.time.locked = false ∨ (s.time.holding = true ∧ 0 < s.time.holdLeft) then s.time.dev else s.time.dev.succ := by
  rw [State.tick_time]
  cases hl : s.time.locked with
  | false => rw [TimeSt.next_unlocked _ hl, if_pos (.inl rfl)]
  | true =>
    by_cases hh : s.time.holding = true ∧ 0 < s.time.holdLeft
    · rw [TimeSt.next_held _ hl hh.1 hh.2, if_pos (.inr hh)]
    · rw [TimeSt.next_running _ hl hh, if_neg]
      simpa using hh

/-- R53: the ticks left of a hold after a tick. -/
theorem State.tick_holdLeft (s : State) : s.tick.time.holdLeft
    = if s.time.locked = true ∧ s.time.holding = true then s.time.holdLeft - 1 else s.time.holdLeft := by
  rw [State.tick_time]
  cases hl : s.time.locked with
  | false => rw [TimeSt.next_unlocked _ hl, if_neg (by simp)]
  | true =>
    by_cases hh : s.time.holding = true ∧ 0 < s.time.holdLeft
    · rw [TimeSt.next_held _ hl hh.1 hh.2, if_pos ⟨rfl, hh.1⟩]
    · rw [TimeSt.next_running _ hl hh]
      change s.time.holdLeft = _
      split
      · next h =>
        have hnone : ¬ 0 < s.time.holdLeft := fun hp => hh ⟨h.2, hp⟩
        omega
      · rfl

/-- What a tick leaves of the clock but its counts: one more tick, the domain and the hold. -/
theorem State.tick_clock (s : State) :
    s.tick.time.now = s.time.now + 1 ∧ s.tick.time.domain = s.time.domain ∧ s.tick.time.holding = s.time.holding := by
  rw [State.tick_time]
  unfold TimeSt.next
  repeat' split
  all_goals exact ⟨rfl, rfl, rfl⟩

/-- Settles O2: the step on an empty queue is a tick; the operations of a tick keep `still`, and the clock takes one of
the three ways of R50, R53 and R734. -/
theorem emptyQueueLetsATickPass : Obligations.EmptyQueueLetsATickPass := by
  intro s hs
  obtain ⟨hnow, hdomain, hholding⟩ := s.tick_clock
  refine ⟨s.tick, step_of_pending_nil s hs, hnow, s.tick_dev, s.tick_holdLeft, hdomain, hholding, fun ha => ?_,
    (State.still_fields s.still_tick :)⟩
  rw [s.tick_asleep ha]

/-- Settles O3: out of a hold and after time lock the tick of an empty queue takes device time to its successor, which
at the last nanosecond of the last second is 0. -/
theorem deviceTimeCountsNanoseconds : Obligations.DeviceTimeCountsNanoseconds := by
  have hstep (s : State) (hs : s.pending = []) (hl : s.time.locked = true) (hh : s.time.holding = false) :
      ∃ t, step s = .next t ∧ t.time.dev = s.time.dev.succ := by
    refine ⟨s.tick, step_of_pending_nil s hs, ?_⟩
    rw [s.tick_dev, if_neg (by simp [hl, hh])]
  refine ⟨hstep, fun s hs hl hh hd => ?_⟩
  obtain ⟨t, ht, hdev⟩ := hstep s hs hl hh
  refine ⟨t, ht, ?_⟩
  rw [hdev, hd]
  decide

/-! ### The state right after reset (R697, R733) -/

theorem State.reset_seq (q : Nat) : State.reset.seq q = {} := rfl

theorem State.reset_chan (ch : Nat) : State.reset.chan ch = {} := rfl

theorem State.reset_pin (k : Nat) : State.reset.pin k = {} := rfl

theorem State.reset_last (n : Nat) : State.reset.last n = {} := by
  have hlasts : State.reset.place.lasts[n]? = if n < 4 then some {} else none := Vector.getElem?_replicate
  rw [State.last, hlasts]
  split <;> rfl

/-- Settles O4: the tables of the reset state list nothing, so that every entry is the default one, and the other
fields are their defaults. -/
theorem resetState : Obligations.ResetState := by
  refine ⟨rfl, rfl, rfl, rfl, rfl, rfl, rfl, rfl, rfl, fun src => rfl, rfl, rfl, rfl, fun ch => ?_, fun k => ?_,
    fun q => ?_, rfl, rfl, rfl, fun n => ?_, rfl⟩
  · rw [State.reset_chan]
  · exact congrArg Pin.drive (State.reset_pin k)
  · rw [State.reset_seq]
  · rw [State.reset_last]

/-! ### WELT_EVENT_ENTER (R68 to R77) -/

theorem exec_weltEventEnter (w : Fin 288) (s : State) : exec (.weltEventEnter w) s = .next (s.weltEnter w) := rfl

theorem State.weltEnter_nil (s : State) (w : Nat) (h : (s.queue w).shank = []) : s.weltEnter w = s := by
  rw [State.weltEnter, h]

/-- R68, R69: the oldest event on the shank leaves it, and is judged by its tick and by the last release. -/
theorem State.weltEnter_cons (s : State) (w : Nat) (e : WEvent) (rest : List WEvent) (h : (s.queue w).shank = e :: rest) :
    s.weltEnter w = if s.job.startTick + e.tick < s.time.now + 4 ∨ s.targetSample w e + 1 < (s.queue w).lastRel then
        (s.updQueue w fun q => { q with shank := rest }).lateEvent w e
      else (s.updQueue w fun q => { q with shank := rest }).enqueue w e := by
  rw [State.weltEnter, h]
  rfl

/-- Settles O32: an empty shank gives nothing; of a first event the two conditions of R68 and R69 decide; the policies
are the branches of `lateEvent`. -/
theorem weltJudgesEntries : Obligations.WeltJudgesEntries := by
  refine ⟨fun w s h => ?_, fun w s e rest h htick hlast => ?_, fun w s e rest h hlate => ?_, fun s w e => rfl⟩
  · rw [exec_weltEventEnter, s.weltEnter_nil w h]
  · rw [exec_weltEventEnter, s.weltEnter_cons w e rest h, if_neg (by omega)]
    rfl
  · rw [exec_weltEventEnter, s.weltEnter_cons w e rest h, if_pos hlate]

end Sys2Proof.Machine
end

section
/-! PROOFS. Branches at their deadline: the deadline signal (R150 to R152), the time request (R153, R154, R175), the
segment ends (R142, R143, R146), the results that resolve a branch (R228, R229) and the resuming of a queue (R70). -/

namespace Sys2Proof.Machine

open Host.Outcome (next)

/-! ### DEADLINE_SIGNAL_SEND and DEADLINE_SIGNAL (R150 to R152, R75) -/

theorem State.deadlineSend_none (s : State) (k : Nat) (h : (s.seq k).branch = none) : s.deadlineSend k = s := by
  rw [State.deadlineSend, h]

theorem State.deadlineSend_some (s : State) (k : Nat) (br : Branch) (h : (s.seq k).branch = some br) :
    s.deadlineSend k = if br.segEnd = false ∧ s.job.startTick + br.d ≤ s.time.now + 6 then
      s.updSeq k fun y => { y with branch := some { br with signalSent := true } } else s := by
  rw [State.deadlineSend, h]
  simp only [Bool.and_eq_true, Bool.not_eq_true', decide_eq_true_eq]

theorem State.deadlineSignal_none (s : State) (k : Nat) (h : (s.seq k).branch = none) : s.deadlineSignal k = s := by
  rw [State.deadlineSignal, h]

theorem State.deadlineSignal_some (s : State) (k : Nat) (br : Branch) (h : (s.seq k).branch = some br) :
    s.deadlineSignal k = if br.signalSent = false ∨ br.signalled = true ∨ br.segEnd = true then s
      else if br.voided = true ∨ br.reanchor = false then s.defaultPath k 0
      else s.updSeq k fun y => { y with branch := some { br with signalled := true } } := by
  rw [State.deadlineSignal, h]
  simp only [Bool.or_eq_true, Bool.not_eq_true', or_assoc]

/-! ### TIME_REQUEST and TIME_ANSWER (R153, R154, R175) -/

theorem State.timeRequest_none (s : State) (k : Nat) (frac : Bool) (h : (s.seq k).timeReq = none) :
    s.timeRequest k frac = s := by
  rw [State.timeRequest, h]

theorem State.timeRequest_some (s : State) (k : Nat) (frac : Bool) (r : TimeReq) (h : (s.seq k).timeReq = some r) :
    s.timeRequest k frac = if r.answer.isSome = true then s else s.updSeq k fun y => { y with
      timeReq := some { r with answer := some ((s.time.now : Int) - (s.job.startTick : Int) + (if frac then 1 else 0)) } } := by
  rw [State.timeRequest, h]

theorem State.timeAnswer_trig (s : State) (k : Nat) (a : Int) (h : (s.seq k).timeReq = some ⟨true, some a⟩) :
    s.timeAnswer k = s.resolveTrig k a := by
  unfold State.timeAnswer
  simp only [h]

theorem State.timeAnswer_branch (s : State) (k : Nat) (a : Int) (br : Branch) (h : (s.seq k).timeReq = some ⟨false, some a⟩)
    (hb : (s.seq k).branch = some br) : s.timeAnswer k = s.reanchor k a br (br.chosen.getD false) := by
  unfold State.timeAnswer
  simp only [h, hb]

/-! ### REANCHOR_LIMIT and JUMP_POINT_SIGNAL (R143, R155) -/

theorem State.reanchorLimit_none (s : State) (k : Nat) (h : (s.seq k).branch = none) : s.reanchorLimit k = s := by
  rw [State.reanchorLimit, h]

theorem State.reanchorLimit_some (s : State) (k : Nat) (br : Branch) (h : (s.seq k).branch = some br) :
    s.reanchorLimit k = if br.reanchor = true ∧ br.signalled = true ∧ br.chosen = none
        ∧ s.job.startTick + br.d + s.rd Reg.SEQ_CFG.REANCHOR_MAX [k / 16, k % 16] ≤ s.time.now then s.defaultPath k 1
      else s := by
  rw [State.reanchorLimit, h]
  simp only [Bool.and_eq_true, Option.isNone_iff_eq_none, decide_eq_true_eq, and_assoc]

theorem State.jumpPoint_none (s : State) (k : Nat) (h : (s.seq k).branch = none) : s.jumpPoint k = s := by
  rw [State.jumpPoint, h]

theorem State.jumpPoint_some (s : State) (k : Nat) (br : Branch) (h : (s.seq k).branch = some br) :
    s.jumpPoint k = if br.segEnd = true ∧ s.job.startTick * 16 + br.lastSample < (s.time.now + 1) * 16 then
      s.defaultPath k 2 else s := by
  rw [State.jumpPoint, h]
  simp only [Bool.and_eq_true, decide_eq_true_eq]

/-! ### JUMP_REQUEST and JUMP_REJECT (R142, R143, R146) -/

theorem State.jumpRequest_none (s : State) (k smp : Nat) (h : ((s.seq k).jumps.find? fun j => !j.rejected) = none) :
    s.jumpRequest k smp = s := by
  rw [State.jumpRequest, h]

theorem State.jumpRequest_some (s : State) (k smp : Nat) (j : JumpReq)
    (h : ((s.seq k).jumps.find? fun j => !j.rejected) = some j) :
    s.jumpRequest k smp = if s.time.now * 16 + smp ≤ s.job.startTick * 16 + j.lastSample
        ∧ hasFork j ((s.queue (k / 16 * 72 + j.queue)).events ++ (s.queue (k / 16 * 72 + j.queue)).shank) = true then
        (s.switchFork k j).updSeq k fun y => { y with jumps := y.jumps.erase j }
      else s.updSeq k fun y => { y with jumps := y.jumps.erase j ++ [{ j with rejected := true }] } := by
  rw [State.jumpRequest, h]

theorem State.jumpReject_none (s : State) (k : Nat) (h : ((s.seq k).jumps.find? fun j => j.rejected) = none) :
    s.jumpReject k = s := by
  rw [State.jumpReject, h]

/-- R143, R146: the queue halts, the sequencer stops, the request is done with, and the miss is counted. -/
theorem State.jumpReject_some (s : State) (k : Nat) (j : JumpReq)
    (h : ((s.seq k).jumps.find? fun j => j.rejected) = some j) :
    s.jumpReject k =
      (let t := ((s.haltQueue (k / 16 * 72 + j.queue)).stopSeq k).updSeq k fun y => { y with jumps := y.jumps.erase j }
       t.deadlineMiss k j.stitch j.source 2 (t.sampleStamp 16 (t.job.startTick * 16 + j.lastSample))) := by
  rw [State.jumpReject, h]

/-! ### COMPARE_RESULT and EXTERNAL_EVENT (R228, R229) -/

theorem State.compareResult_slot (s : State) (k : Nat) (h : (s.stitchAt k (s.seq k).pc.toNat).cond = 2) :
    s.compareResult k = s.tryBranch k := by
  rw [State.compareResult, if_pos h]

theorem State.externalEvent_nil (s : State) (k : Nat) (h : (s.seq k).edges = []) : s.externalEvent k = s := by
  rw [State.externalEvent, h]

theorem State.externalEvent_cons (s : State) (k src : Nat) (t : Trig) (rest : List (Nat × Trig))
    (h : (s.seq k).edges = (src, t) :: rest) :
    s.externalEvent k = if s.listens k src (s.atArrival src t) = true then
      (s.updSeq k fun y => { y with edges := rest }).condKnown k true else s := by
  rw [State.externalEvent, h]

/-! ### SEQ_QUEUE_RESUME (R70) -/

theorem State.queueResume_idle (s : State) (k : Nat) (h : (s.seq k).st ≠ .queueWait) : s.queueResume k = s := by
  unfold State.queueResume
  simp only [h, false_and, if_false]

theorem State.queueResume_play (s : State) (k : Nat) (h : (s.seq k).st = .queueWait)
    (hcls : (s.stitchAt k (s.seq k).pc.toNat).cls = 1)
    (hload : s.queueLoad (k / 16 * 72 + (s.stitchAt k (s.seq k).pc.toNat).queue) < 256) :
    s.queueResume k = s.updSeq k fun y => { y with st := .issue } := by
  unfold State.queueResume
  simp [h, hcls, hload]

/-! ### The commands -/

/-- Settles O38: each command by what its sequencer holds (a branch or none, a time request, a jump request, an edge), and
then by the condition that the operation tests. -/
theorem branchesMeetTheirDeadline : Obligations.BranchesMeetTheirDeadline := by
  refine ⟨fun q s => congrArg next ?send, fun q s => congrArg next ?signal, fun q frac s => congrArg next ?request,
    fun q s a h => congrArg next (s.timeAnswer_trig q a h),
    fun q s a br h hb => congrArg next (s.timeAnswer_branch q a br h hb),
    fun s k a br p => rfl,
    fun q s => congrArg next ?limit, fun q s => congrArg next ?jumpPoint,
    fun q smp s h => congrArg next (s.jumpRequest_none q smp h),
    fun q smp s j h hmiss => congrArg next ((s.jumpRequest_some q smp j h).trans (if_neg ?tooLate)),
    fun q smp s j h htime hfork => congrArg next ((s.jumpRequest_some q smp j h).trans (if_pos ⟨htime, hfork⟩)),
    fun q s h => congrArg next (s.jumpReject_none q h),
    fun q s j h => congrArg next (s.jumpReject_some q j h),
    fun q s => rfl,
    fun q s => congrArg next ?edge,
    fun q s h => congrArg next (s.queueResume_idle q h),
    fun q s h hcls hload => congrArg next (s.queueResume_play q h hcls hload),
    fun q br s h hseg hd => congrArg next ((s.deadlineSend_some q br h).trans (if_pos ⟨hseg, hd⟩)),
    fun q br s h hseg hsent hnew hdef => congrArg next ((s.deadlineSignal_some q br h).trans ?default),
    fun q br s h hseg hsent hnew hvoid hre => congrArg next ((s.deadlineSignal_some q br h).trans ?waitsOn),
    fun q frac r s h hans => congrArg next ((s.timeRequest_some q frac r h).trans (if_neg ?unanswered)),
    fun q br s h hre hsig hch hlim => congrArg next ((s.reanchorLimit_some q br h).trans (if_pos ⟨hre, hsig, hch, hlim⟩)),
    fun q br s h hseg hlast => congrArg next ((s.jumpPoint_some q br h).trans (if_pos ⟨hseg, hlast⟩)),
    fun q s h => congrArg next (s.compareResult_slot q h),
    fun q src t rest s h hl => congrArg next ((s.externalEvent_cons q src t rest h).trans (if_pos hl))⟩
  case send =>
    cases h : (s.seq q).branch with
    | none => exact s.deadlineSend_none q h
    | some br => exact s.deadlineSend_some q br h
  case signal =>
    cases h : (s.seq q).branch with
    | none => exact s.deadlineSignal_none q h
    | some br => exact s.deadlineSignal_some q br h
  case request =>
    cases h : (s.seq q).timeReq with
    | none => exact s.timeRequest_none q frac h
    | some r => exact s.timeRequest_some q frac r h
  case limit =>
    cases h : (s.seq q).branch with
    | none => exact s.reanchorLimit_none q h
    | some br => exact s.reanchorLimit_some q br h
  case jumpPoint =>
    cases h : (s.seq q).branch with
    | none => exact s.jumpPoint_none q h
    | some br => exact s.jumpPoint_some q br h
  case edge =>
    cases h : (s.seq q).edges with
    | nil => exact s.externalEvent_nil q h
    | cons e rest =>
      obtain ⟨src, t⟩ := e
      exact s.externalEvent_cons q src t rest h
  case tooLate =>
    rintro ⟨htime, hfork⟩
    obtain hlate | hgone := hmiss
    · exact Nat.not_lt.mpr htime hlate
    · exact ne_true_of_eq_false hgone hfork
  case default => rw [if_neg (by simp [hseg, hsent, hnew]), if_pos hdef]
  case waitsOn => rw [if_neg (by simp [hseg, hsent, hnew]), if_neg (by simp [hvoid, hre])]
  case unanswered => simp [hans]

end Sys2Proof.Machine
end

section
/-! PROOFS. The stitches that control a program: the cursor of a WAIT and its overflow (R216, R217), the counters of a
LOOP (R219), a BRANCH and its fork pair (R140, R145, R223), SYNC (R232) and TRIG (R173, R175). -/

namespace Sys2Proof.Machine

open Host.Outcome (next)

/-! ### A stitch issues (R131, R136) -/

/-- A sequencer that issues a stitch without an error carries out what the stitch of that class and variant does. -/
theorem State.issue_of_issues {s : State} {k cls sub : Nat} {w : Stitch} (act : State → Seq → Stitch → State)
    (h : s.issues k w cls sub) : s.issue k false cls sub act = act s (s.seq k) w := by
  obtain ⟨hst, hhalt, hat, hknown, hcls, hsub⟩ := h
  unfold State.issue
  simp [hst, hhalt, hat, hknown, hcls, hsub]

/-! ### What leaves the sequencers as they are (R77, R105, R179) -/

theorem State.seq_of_still {s t : State} (h : t.still = s.still) (n : Nat) : t.seq n = s.seq n :=
  calc t.seq n = t.still.seq n := rfl
    _ = s.still.seq n := by rw [h]

theorem State.still_silence (s : State) (ch : Nat) : (s.silence ch).still = s.still := by
  unfold State.silence
  split
  · exact State.still_foldl _ (State.still_dropPulse (ch / 40)) _ s
  · rfl

@[simp] theorem State.seq_haltQueue (s : State) (w n : Nat) : (s.haltQueue w).seq n = s.seq n := by
  unfold State.haltQueue
  extract_lets halted held
  have hheld : held.seq n = s.seq n := by
    unfold held
    split <;> rfl
  split
  · next ch _ => exact (State.seq_of_still (held.still_silence ch) n).trans hheld
  · exact hheld

@[simp] theorem State.seq_releaseHolds (s : State) (k n : Nat) : (s.releaseHolds k).seq n = s.seq n := by
  refine foldl_keeps (fun u => u.seq n) _ (fun u w => ?_) _ s
  cases queueChan (w / 72) (w % 72) <;> rfl

@[simp] theorem State.seq_seqRecord (s : State) (k kind flags : Nat) (st : Stamp) (a : Nat)
    (more : List (Nat × Nat × Nat)) (n : Nat) : (s.seqRecord k kind flags st a more).seq n = s.seq n :=
  State.seq_of_still (s.still_post ..) n

/-! ### A program error stops its sequencer (R136) -/

theorem State.stopSeq_stopped (s : State) (k : Nat) : ((s.stopSeq k).seq k).st = .stopped := by
  rw [State.stopSeq, State.seq_releaseHolds, State.seq_updSeq_same]

theorem State.progError_stopped (s : State) (k cause : Nat) : ((s.progError k cause).seq k).st = .stopped := by
  rw [State.progError, State.seq_seqRecord,
    foldl_keeps (fun u => u.seq k) State.haltQueue (fun u w => u.seq_haltQueue w k)]
  exact s.stopSeq_stopped k

/-! ### The cursor of a WAIT (R216, R217) -/

theorem State.setCursor_of_lt (s : State) (k c : Nat) (h : c < 2 ^ 32) :
    s.setCursor k c = s.updSeq k fun x => { x with cursor := c } := by
  rw [State.setCursor, if_neg (by omega)]

theorem State.setCursor_of_overflow (s : State) (k c : Nat) (h : 2 ^ 32 ≤ c) : s.setCursor k c = s.progError k 3 := by
  rw [State.setCursor, if_pos (by omega)]

theorem State.waitCursor_of_lt (s : State) (k c : Nat) (hst : (s.seq k).st ≠ .stopped) (h : c < 2 ^ 32) :
    s.waitCursor k c = (s.updSeq k fun x => { x with cursor := c }).updSeq k fun x => { x with pc := x.pc + 1 } := by
  rw [State.waitCursor, s.setCursor_of_lt k c h, if_neg (by rwa [State.seq_updSeq_same])]
  rfl

/-- Past 32 bits the sequencer stops, and so stays at its stitch. -/
theorem State.waitCursor_of_overflow (s : State) (k c : Nat) (h : 2 ^ 32 ≤ c) : s.waitCursor k c = s.progError k 3 := by
  rw [State.waitCursor, s.setCursor_of_overflow k c h, if_pos (s.progError_stopped k 3)]

theorem State.not_stopped_of_issues {s : State} {k cls sub : Nat} {w : Stitch} (h : s.issues k w cls sub) :
    (s.seq k).st ≠ .stopped := by
  obtain ⟨hst, -⟩ := h
  simp [hst]

/-! ### LOOP_END (R219) -/

theorem State.loopEnd_again {s : State} {k : Nat} {w : Stitch} (h : s.issues k w 6 1)
    (hn : 1 < (s.seq k).loopCnt[bitsOf w.w1 1 0]?.getD 0) :
    s.loopEnd k false = s.updSeq k fun y => { y with
      loopCnt := y.loopCnt.set! (bitsOf w.w1 1 0) ((s.seq k).loopCnt[bitsOf w.w1 1 0]?.getD 0 - 1)
      pc := BitVec.ofNat 12 ((s.seq k).loopStart[bitsOf w.w1 1 0]?.getD 0) } :=
  (State.issue_of_issues _ h).trans (if_pos hn)

theorem State.loopEnd_last {s : State} {k : Nat} {w : Stitch} (h : s.issues k w 6 1)
    (hn : (s.seq k).loopCnt[bitsOf w.w1 1 0]?.getD 0 ≤ 1) :
    s.loopEnd k false = s.updSeq k fun y => { y with
      loopCnt := y.loopCnt.set! (bitsOf w.w1 1 0) 0
      pc := y.pc + 1 } :=
  (State.issue_of_issues _ h).trans (if_neg (Nat.not_lt.mpr hn))

/-! ### BRANCH (R223) and BRANCH_SEGMENT_END (R140, R145) -/

theorem State.branch_jumps {s : State} {k : Nat} {w : Stitch} (h : s.issues k w 5 0) (hc : w.cond = 0) :
    s.branch k false = s.goto k w.target :=
  (State.issue_of_issues _ h).trans (if_pos hc)

theorem State.branch_waits {s : State} {k : Nat} {w : Stitch} (h : s.issues k w 5 0) (hc : w.cond ≠ 0) :
    s.branch k false = (s.updSeq k fun y => { y with
      st := .branchWait
      branch := some { d := (s.seq k).cursor + w.dline, listenFrom := s.job.startTick + (s.seq k).cursor
                       reanchor := w.policy } }).tryBranch k :=
  (State.issue_of_issues _ h).trans (if_neg hc)

/-- The fork pair goes to the queue with the first pulses of both paths, and the branch waits for the segment's end. -/
theorem State.branchSegEnd_waits {s : State} {k : Nat} {w : Stitch} {f t : Pulse} (h : s.issues k w 5 1)
    (hf : s.forkPulse k w ((s.seq k).pc.toNat + 1) = some f) (ht : s.forkPulse k w w.target = some t)
    (hseg : 0 < Table.get 0 (s.seq k).segEnds (w.bqueue * 16 + w.bgen))
    (hload : s.queueLoad (k / 16 * 72 + w.bqueue) < 256) (hc : w.cond ≠ 0) :
    s.branchSegEnd k false = ((s.sendEvent (k / 16 * 72 + w.bqueue)
        { tick := Table.get 0 (s.seq k).segEnds (w.bqueue * 16 + w.bgen) / 16
          off := Table.get 0 (s.seq k).segEnds (w.bqueue * 16 + w.bgen) % 16
          act := .fork w.bgen f t, seq := k, stitch := (s.seq k).pc.toNat }).updSeq k fun y => { y with
          st := .branchWait
          branch := some { segEnd := true, lastSample := Table.get 0 (s.seq k).segEnds (w.bqueue * 16 + w.bgen) - 1
                           listenFrom := s.job.startTick + (s.seq k).cursor } }).tryBranch k := by
  rw [State.branchSegEnd, State.issue_of_issues _ h]
  simp only [hf, ht]
  rw [if_neg (Nat.ne_of_gt hseg), if_neg (Nat.not_le.mpr hload), if_neg hc]

/-! ### TRIG (R173, R175) -/

theorem State.trig_waits {s : State} {k : Nat} {w : Stitch} (h : s.issues k w 10 0) (hl : (s.seq k).latch = none) :
    s.trig k false = s.updSeq k fun y => { y with st := .trigWait } := by
  rw [State.trig, State.issue_of_issues _ h, hl]

theorem State.trig_takes {s : State} {k : Nat} {w : Stitch} {t : Trig} (h : s.issues k w 10 0)
    (hl : (s.seq k).latch = some t) :
    s.trig k false = s.updSeq k fun y => { y with st := .trigWait, latch := none, timeReq := some { forTrig := true } } := by
  rw [State.trig, State.issue_of_issues _ h, hl]

/-! ### The commands -/

/-- Settles O37: each command issues its stitch; what an issued stitch does is the branch that the cursor, the loop
counter, the condition, the fork paths or the latched trigger takes. -/
theorem stitchesControlTheProgram : Obligations.StitchesControlTheProgram := by
  refine ⟨fun q bad s => rfl, fun q bad s => rfl, State.waitCursor_of_lt, State.waitCursor_of_overflow,
    fun q bad s => rfl, fun q bad s => rfl, fun q bad s => rfl, fun q bad s => rfl, fun q bad s => rfl,
    fun q bad s => rfl, fun q bad s => rfl,
    fun q w s h hc => congrArg next ?waitRel, fun q w s h hc => congrArg next ?waitAbs,
    fun q w s h => congrArg next (State.issue_of_issues _ h), fun q w s h => congrArg next (State.issue_of_issues _ h),
    fun q w s h hn => congrArg next (State.loopEnd_again h hn), fun q w s h hn => congrArg next (State.loopEnd_last h hn),
    fun q w s h hc => congrArg next (State.branch_jumps h hc), fun q w s h hc => congrArg next (State.branch_waits h hc),
    fun q w f t s h hf ht hseg hload hc => congrArg next (State.branchSegEnd_waits h hf ht hseg hload hc),
    fun q w s h => congrArg next (State.issue_of_issues _ h),
    fun q w s h hl => congrArg next (State.trig_waits h hl), fun q w t s h hl => congrArg next (State.trig_takes h hl)⟩
  case waitRel =>
    exact (State.issue_of_issues _ h).trans (s.waitCursor_of_lt q _ (State.not_stopped_of_issues h) hc)
  case waitAbs =>
    exact (State.issue_of_issues _ h).trans (s.waitCursor_of_lt q _ (State.not_stopped_of_issues h) hc)

end Sys2Proof.Machine
end

section
/-! PROOFS. The doorbells of a context (R476, R497, R498, R501), the fetching of its submission entries (R479) and the
reads of host memory they lead to (R482, R494, R495), the arrival of stream data (R166), and the controls of a context
(R475, R489, R502). -/

namespace Sys2Proof.Machine

open Host.Outcome (next)

/-- A command that can change the mode ends with the mode record of the state it makes (R698). -/
theorem next_modeSync_congr {s t : State} (h : s = t) :
    (next s.modeSync : Host.Outcome State Fault Refusal) = next t.modeSync := by
  rw [h]

/-! ### A doorbell write (R497, R498, R501) -/

/-- R501: a quarantined context's doorbell is counted. -/
theorem State.doorbell_quarantined (s : State) (c off v : Nat) (f : Fld) (head : Option (Nat × Nat)) (put : Ctx → Ctx)
    (h : (s.ctx c).quar = true) : s.doorbell c off f head v put = s.count Reg.PCIE_CNT.VIO_CNT [] :=
  if_pos h

/-- The causes in the order in which they are tested. -/
theorem State.doorbell_judged (s : State) (c off v : Nat) (f : Fld) (head : Option (Nat × Nat)) (put : Ctx → Ctx)
    (h : (s.ctx c).quar = false) :
    s.doorbell c off f head v put =
      (if s.flag Reg.CTX_CFG.ENABLE [c] = false then s.violate 737 (some c) 10 8 off v
       else if s.ringSize c f = 0 then s.violate 737 (some c) 12 8 off v
       else if s.ringSize c f ≤ v then s.violate 737 (some c) 7 8 off v
       else match head with
         | none => (s.updCtx c put).writeStatus c
         | some (prod, old) =>
           if (prod + s.ringSize c f - old) % s.ringSize c f < (v + s.ringSize c f - old) % s.ringSize c f then
             s.violate 737 (some c) 8 8 off v
           else (s.updCtx c put).writeStatus c) := by
  rw [State.doorbell, if_neg (by simp [h])]
  unfold doorbellFault
  cases hen : s.flag Reg.CTX_CFG.ENABLE [c] with
  | false => simp only [Bool.not_false, if_true]
  | true =>
    simp only [Bool.not_true, Bool.false_eq_true, Bool.true_eq_false, if_false]
    by_cases habsent : s.ringSize c f = 0
    · simp only [habsent, if_true]
    · by_cases hout : s.ringSize c f ≤ v
      · simp only [habsent, hout, if_false, if_true]
      · simp only [habsent, hout, if_false]
        rcases head with _ | ⟨prod, old⟩
        · rfl
        · by_cases hpast : (prod + s.ringSize c f - old) % s.ringSize c f < (v + s.ringSize c f - old) % s.ringSize c f
          · simp only [hpast, if_true]
          · simp only [hpast, if_false]

/-- A value within the ring moves a tail. -/
theorem State.doorbell_moves_tail (s : State) (c off v : Nat) (f : Fld) (put : Ctx → Ctx) (hq : (s.ctx c).quar = false)
    (hen : s.flag Reg.CTX_CFG.ENABLE [c] = true) (hv : v < s.ringSize c f) :
    s.doorbell c off f none v put = (s.updCtx c put).writeStatus c := by
  rw [s.doorbell_judged c off v f none put hq, if_neg (by simp [hen]), if_neg (by omega), if_neg (by omega)]

/-- A value within the ring and not past the producer moves a head. -/
theorem State.doorbell_moves_head (s : State) (c off v : Nat) (f : Fld) (prod old : Nat) (put : Ctx → Ctx)
    (hq : (s.ctx c).quar = false) (hen : s.flag Reg.CTX_CFG.ENABLE [c] = true) (hv : v < s.ringSize c f)
    (hp : (v + s.ringSize c f - old) % s.ringSize c f ≤ (prod + s.ringSize c f - old) % s.ringSize c f) :
    s.doorbell c off f (some (prod, old)) v put = (s.updCtx c put).writeStatus c := by
  rw [s.doorbell_judged c off v f _ put hq, if_neg (by simp [hen]), if_neg (by omega), if_neg (by omega)]
  exact if_neg (Nat.not_lt.mpr hp)

/-! ### An access that is no listed doorbell write (R476, R497) -/

theorem unlistedDoorbell_iff (off : Nat) (n : Fin 9) :
    unlistedDoorbell off n = true ↔ n ≠ 4 ∨ off % 4 ≠ 0 ∨ 16 < off % 4096 := by
  simp [unlistedDoorbell, Fin.ext_iff]

theorem exec_doorbellUnlistedWrite (off : BitVec 22) (n : Fin 9) (v : BitVec 64) (s : State) :
    exec (.doorbellUnlistedWrite off n v) s = next (State.modeSync
      (if unlistedDoorbell off.toNat n = true then s.doorbellUnlisted off.toNat v.toNat else s)) := rfl

theorem exec_doorbellUnlistedWrite_judged (off : BitVec 22) (n : Fin 9) (v : BitVec 64) (s : State) :
    exec (.doorbellUnlistedWrite off n v) s = next (State.modeSync
      (if n = 4 ∧ off.toNat % 4 = 0 ∧ off.toNat % 4096 ≤ 16 then s
       else if (s.ctx (off.toNat / 4096)).quar = true then s.count Reg.PCIE_CNT.VIO_CNT []
       else s.violate 737 (some (off.toNat / 4096)) 9 8 (off.toNat % 4096) v.toNat)) := by
  rw [exec_doorbellUnlistedWrite]
  by_cases h : n = 4 ∧ off.toNat % 4 = 0 ∧ off.toNat % 4096 ≤ 16
  · rw [if_pos h, if_neg]
    rw [unlistedDoorbell_iff]
    omega
  · rw [if_neg h, if_pos]
    · rfl
    · rw [unlistedDoorbell_iff]
      omega

/-! ### Fetching (R479) -/

/-- The read of the next entry is issued, and the head moves past it. -/
theorem State.fetch_of_mayFetch (s : State) (c : Nat) (h : s.mayFetch c = true) :
    s.fetch c = ((({ s with host.reads := s.host.reads ++ [ReadFor.entry c (s.ctx c).subHead false] } : State).emit
      (.read (s.baseOf .SUB_BASE_LO .SUB_BASE_HI c + (s.ctx c).subHead * 64) 64)).updCtx c fun y =>
        { y with subHead := ((s.ctx c).subHead + 1) % s.ringSize c Reg.CTX_SIZE.SUB }).writeStatus c :=
  if_pos h

theorem State.fetch_of_not_mayFetch (s : State) (c : Nat) (h : s.mayFetch c = false) : s.fetch c = s :=
  if_neg (by simp [h])

theorem exec_submissionFetch_idle (c : Fin 1024) (w : WorkError) (s : State) (h : s.cobblerUp = false) :
    exec (.submissionFetch c w) s = next s :=
  if_pos (by simp [h])

theorem exec_submissionFetch_fetches (c : Fin 1024) (a : BitVec 16) (s : State) (h : s.cobblerUp = true) :
    exec (.submissionFetch c ⟨0, a⟩) s = next (s.fetch c) :=
  (if_neg (by simp [h])).trans (if_pos rfl)

theorem exec_submissionFetch_fails (c : Fin 1024) (e : Fin 3) (a : BitVec 16) (s : State) (h : s.cobblerUp = true)
    (he : e ≠ 0) : exec (.submissionFetch c ⟨e, a⟩) s = next (s.workError e a.toNat).modeSync :=
  (if_neg (by simp [h])).trans (if_neg he)

/-! ### An entry is held in ring order (R342, R479) -/

/-- A fetched descriptor `e` stands before one of ring index `i`: its index is not further along the ring. -/
def State.standsBefore (s : State) (c i : Nat) (e : Desc) : Bool := decide (s.ringAge c i ≤ s.ringAge c e.index)

theorem State.holdEntry_fetched (s : State) (c : Nat) (d : Desc) :
    ((s.holdEntry c d).ctx c).fetched = (s.ctx c).fetched.takeWhile (s.standsBefore c d.index)
      ++ d :: (s.ctx c).fetched.dropWhile (s.standsBefore c d.index) :=
  congrArg Ctx.fetched (State.ctx_updCtx_same ..)

theorem State.holdEntry_ctx_other (s : State) (c n : Nat) (d : Desc) (h : n ≠ c) : (s.holdEntry c d).ctx n = s.ctx n :=
  State.ctx_updCtx_other _ c n _ h

theorem State.holdEntry_of_none_held (s : State) (c : Nat) (d : Desc) (h : (s.ctx c).fetched = []) :
    ((s.holdEntry c d).ctx c).fetched = [d] := by
  rw [s.holdEntry_fetched, h, List.takeWhile_nil, List.dropWhile_nil, List.nil_append]

theorem State.holdEntry_of_all_before (s : State) (c : Nat) (d : Desc)
    (h : ∀ e ∈ (s.ctx c).fetched, s.ringAge c d.index ≤ s.ringAge c e.index) :
    ((s.holdEntry c d).ctx c).fetched = (s.ctx c).fetched ++ [d] := by
  have hall : ∀ e ∈ (s.ctx c).fetched, s.standsBefore c d.index e = true := fun e he => decide_eq_true (h e he)
  rw [s.holdEntry_fetched, List.takeWhile_eq_self_iff.mpr hall, List.dropWhile_eq_nil_iff.mpr hall]

/-! ### The data of a read comes (R482, R494) -/

theorem exec_hostReadCompletion_entry (c i : Nat) (retry : Bool) (data : List Byte) (s : State) :
    exec (.hostReadCompletion (.entry c i retry) data) s = next (State.modeSync
      (if s.host.reads.contains (.entry c i retry) = true then
        (s.dropRead (.entry c i retry)).entryArrives c i data else s)) := rfl

theorem exec_hostReadCompletion_data (c i : Nat) (retry : Bool) (data : List Byte) (s : State) :
    exec (.hostReadCompletion (.data c i retry) data) s = next (State.modeSync
      (if s.host.reads.contains (.data c i retry) = true then
        (s.dropRead (.data c i retry)).dataArrives c i data else s)) := rfl

/-- R482: an entry of a listed opcode is held; a CALIBRATE entry would also wait its turn (R641). -/
theorem State.entryArrives_listed (s : State) (c i : Nat) (data : List Byte) (hop : fieldAt data 0 1 ≤ 0x0B)
    (hcal : fieldAt data 0 1 ≠ 7) : s.entryArrives c i data = s.holdEntry c { index := i, bytes := data } := by
  unfold State.entryArrives
  simp only [Desc.op, hcal, Nat.not_lt.mpr hop, if_false]

/-- R499: an entry of an unknown opcode is refused with cause 1. -/
theorem State.entryArrives_unknown (s : State) (c i : Nat) (data : List Byte) (hop : 0x0B < fieldAt data 0 1) :
    s.entryArrives c i data =
      (s.holdEntry c { index := i, bytes := data }).refuseDesc c { index := i, bytes := data } 1 0 0 := by
  have hcal : fieldAt data 0 1 ≠ 7 := by omega
  unfold State.entryArrives
  simp only [Desc.op, hcal, hop, if_false, if_true]

theorem State.dataArrives_reading (s : State) (c i : Nat) (data : List Byte) (d : Desc) (hd : s.desc c i = some d)
    (hr : d.phase = .reading) : s.dataArrives c i data = s.setDesc c { d with phase := .loaded, data := data } := by
  unfold State.dataArrives
  simp only [hd, hr, if_true]

/-! ### A read fails (R494, R495, R703) -/

theorem State.postCoarse_host (s : State) (c src kind flags : Nat) (body : List (Nat × Nat × Nat)) :
    (s.postCoarse c src kind flags body).host = s.host := by
  rw [State.postCoarse, State.post_eq]

/-- A record without INVALID leaves the job alone. -/
theorem State.postCoarse_job (s : State) (c src kind : Nat) (body : List (Nat × Nat × Nat)) :
    (s.postCoarse c src kind 0 body).job = s.job :=
  s.post_job c .event src kind 1 _ body (by decide)

/-- The error of the inbound buffer, or the host error, of a failed read. -/
def State.readError (s : State) (r : ReadFor) (cause addr : Nat) : State :=
  if cause = 0 then s.eccError 6 0 0 (addr % 2 ^ 32) false else s.hostError r cause addr

/-- What reports a failed read leaves the reads, the memory and the job alone. -/
theorem State.readError_frame (s : State) (r : ReadFor) (cause addr : Nat) :
    (s.readError r cause addr).host = s.host ∧ (s.readError r cause addr).ram = s.ram
      ∧ (s.readError r cause addr).job = s.job := by
  obtain ⟨-, hecc, -⟩ := s.eccError_kept 6 0 0 (addr % 2 ^ 32) false
  obtain ⟨-, hherr, -⟩ := s.hostError_kept r cause addr
  unfold State.readError
  split
  · exact ⟨State.postCoarse_host .., hecc, State.postCoarse_job ..⟩
  · exact ⟨State.postCoarse_host .., hherr, State.postCoarse_job ..⟩

theorem exec_hostReadFailure_entry (c i : Nat) (retry : Bool) (x : Fin 5) (a : BitVec 64) (s : State)
    (h : ReadFor.entry c i retry ∈ s.host.reads) :
    exec (.hostReadFailure (.entry c i retry) x a) s = next (s.readFails (.entry c i retry) x a.toNat).modeSync :=
  next_modeSync_congr (if_pos (by simp [h]))

/-- Neither an entry read nor a data read that is not outstanding can fail. -/
theorem exec_hostReadFailure_stray (r : ReadFor) (x : Fin 5) (a : BitVec 64) (s : State) (h : r ∉ s.host.reads)
    (hr : s.streamBound r = false) : exec (.hostReadFailure r x a) s = next s.modeSync :=
  next_modeSync_congr (if_neg (by simp [h, hr]))

/-- A first failure is reported, and the entry is read once more. -/
theorem State.readFails_first_eq (s : State) (c i cause addr : Nat) :
    s.readFails (.entry c i false) cause addr =
      { (s.dropRead (.entry c i false)).readError (.entry c i false) cause addr with
        host.reads := ((s.dropRead (.entry c i false)).readError (.entry c i false) cause addr).host.reads
          ++ [.entry c i true] } := rfl

theorem State.readFails_first (s : State) (c i cause addr : Nat) :
    (s.readFails (.entry c i false) cause addr).host.reads = s.host.reads.erase (.entry c i false) ++ [.entry c i true]
      ∧ (s.readFails (.entry c i false) cause addr).job = s.job := by
  obtain ⟨hhost, -, hjob⟩ := (s.dropRead (.entry c i false)).readError_frame (.entry c i false) cause addr
  rw [s.readFails_first_eq]
  exact ⟨congrArg (fun h => HostSt.reads h ++ [.entry c i true]) hhost, hjob⟩

/-- R494: the second failure completes the entry with HOST_ERROR. -/
theorem State.readFails_again (s : State) (c i cause addr : Nat) (h : cause ≠ 0) :
    s.readFails (.entry c i true) cause addr =
      (((s.dropRead (.entry c i true)).hostError (.entry c i true) cause addr).holdEntry c
        { index := i, bytes := [] }).completeNow c { index := i, bytes := [] } 5 0 0 := by
  unfold State.readFails
  simp only [h, if_false]

/-! ### Stream data arrives (R166) -/

theorem State.streamReads_eq (s : State) (t : Stream) (shot per fuel pos n : Nat) :
    s.streamReads t shot per fuel pos n = { s with recs := (s.streamReads t shot per fuel pos n).recs } := by
  induction fuel generalizing s pos n with
  | zero => rfl
  | succ k ih =>
    unfold State.streamReads
    split
    · rfl
    · dsimp only
      rw [ih]
      rfl

theorem State.putSamples_eq (s : State) (q first len pos : Nat) (l : List Byte) (i : Nat) :
    s.putSamples q first len pos l i = { s with ram := (s.putSamples q first len pos l i).ram } := by
  induction l generalizing s i with
  | nil => rfl
  | cons b bs ih =>
    unfold State.putSamples
    dsimp only
    rw [ih]
    rfl

theorem State.streamArrives_unbound (s : State) (q n : Nat) (data : List Byte)
    (h : (Table.get {} s.sq.streams (q * 16 + n)).bound = false) : s.streamArrives q n data = s := by
  unfold State.streamArrives
  simp only [h, Bool.not_false, Bool.true_or, if_true]

/-- Samples that the buffer has room for and the job still reads count as arrived, and beside them the reads issued and
the buffer's bytes are all that changes. -/
theorem State.streamArrives_room (s : State) (q n : Nat) (data : List Byte) (t : Stream)
    (ht : Table.get {} s.sq.streams (q * 16 + n) = t) (hb : t.bound = true) (hu : t.under = false)
    (hfree : data.length / 4 ≤ s.streamFree q n) (hlim : t.arrived + data.length / 4 ≤ s.streamLimit q n) :
    s.streamArrives q n data = { s with
      recs := (s.streamArrives q n data).recs
      ram := (s.streamArrives q n data).ram
      sq.streams := Table.set {} s.sq.streams (q * 16 + n) { t with arrived := t.arrived + data.length / 4 } } := by
  have hroom : ¬ s.streamFree q n < data.length / 4 := Nat.not_lt.mpr hfree
  have hread : ¬ s.streamLimit q n < t.arrived + data.length / 4 := Nat.not_lt.mpr hlim
  unfold State.streamArrives
  simp only [ht, hb, hu, hroom, hread, Bool.not_true, decide_false, Bool.or_self, Bool.false_eq_true, if_false]
  rw [State.putSamples_eq, State.streamReads_eq]

/-! ### The controls of a context (R475, R489, R502) -/

theorem State.gate_of_ready (s t : State) (h : s.sys.ready = true) : s.gate t = t := if_pos h

theorem exec_ctxPause (c : Fin 1024) (p : Bool) (s : State) :
    exec (.ctxPause c p) s = next (State.modeSync (s.gate (s.pause c p))) := rfl

theorem State.pause_set (s : State) (c : Nat) :
    s.pause c true = ((s.wr Reg.CTX_CTL.PAUSE [c] 1).pauseDiscard c).writeStatus c := rfl

theorem State.pause_cleared (s : State) (c : Nat) :
    s.pause c false = (s.wr Reg.CTX_CTL.PAUSE [c] 0).writeStatus c := rfl

theorem exec_ctxAbort (c : Fin 1024) (s : State) : exec (.ctxAbort c) s = next (s.gate (s.ctxAbort c)) := rfl

/-- R489: the running job of the context ends with cause 2. -/
theorem State.ctxAbort_running (s : State) (c : Nat) (j : Job) (hj : s.job.job = some j) (hc : j.ctx = c) :
    s.ctxAbort c = s.abortJob 2 := by
  unfold State.ctxAbort
  simp only [hj, hc, if_true]

/-! ### The commands -/

/-- Settles O48: each command by the test it makes of its context, of the reads outstanding or of its stream. -/
theorem doorbellsAndHostReads : Obligations.DoorbellsAndHostReads := by
  refine ⟨fun c v s => ⟨rfl, rfl, rfl, rfl, rfl⟩,
    fun s c off v f head put h => s.doorbell_quarantined c off v f head put h,
    fun s c off v f head put h => s.doorbell_judged c off v f head put h,
    exec_doorbellUnlistedWrite_judged,
    fun c e a s hup he hmay => ?fetched, fun c e a s h => ?notFetched,
    fun c e a s hup he => exec_submissionFetch_fails c e a s hup he,
    fun c i retry data s hr hop hcal => ?held,
    fun s c d h => ⟨s.holdEntry_of_none_held c d h, rfl, rfl, rfl, fun n hn => s.holdEntry_ctx_other c n d hn⟩,
    fun s c d h => s.holdEntry_of_all_before c d h,
    fun c i retry data s hr hop => ?refused, fun c i retry data s d hr hd hph => ?loaded,
    fun c i retry data x a s => ?stray,
    fun c i x a s hr => ⟨_, exec_hostReadFailure_entry c i false x a s hr, ?readAgain⟩,
    fun c i x a s hr hx => (exec_hostReadFailure_entry c i true x a s hr).trans ?hostErr,
    fun q n data s h => congrArg next (s.streamArrives_unbound q n data h),
    fun q n data s hb hu hfree hlim => ⟨_, rfl, ?streamed⟩,
    fun c p s => ?pause, fun c s => rfl, fun c s => rfl,
    fun c v s hq hen hv => next_modeSync_congr (s.doorbell_moves_tail c _ _ _ _ hq hen hv),
    fun c v s hq hen hv hp => next_modeSync_congr (s.doorbell_moves_head c _ _ _ _ _ _ hq hen hv hp),
    fun c v s hq hen hv hp => next_modeSync_congr (s.doorbell_moves_head c _ _ _ _ _ _ hq hen hv hp),
    fun c v s hq hen hv hp => next_modeSync_congr (s.doorbell_moves_head c _ _ _ _ _ _ hq hen hv hp),
    fun c v s hq hen hv hp => next_modeSync_congr (s.doorbell_moves_head c _ _ _ _ _ _ hq hen hv hp),
    fun off n v s h hq => ?unlisted,
    fun c s hr => ⟨?paused, ?resumed⟩, fun c s j hr hj hc => ?aborted,
    fun c s hr => congrArg next (s.gate_of_ready _ hr)⟩
  case fetched =>
    rw [he, exec_submissionFetch_fetches c a s hup, s.fetch_of_mayFetch c hmay]
  case notFetched =>
    cases hup : s.cobblerUp with
    | false => exact exec_submissionFetch_idle c ⟨e, a⟩ s hup
    | true =>
      obtain ⟨he, hmay⟩ : e = 0 ∧ s.mayFetch c = false := h.resolve_left (by simp [hup])
      rw [he, exec_submissionFetch_fetches c a s hup, s.fetch_of_not_mayFetch c hmay]
  case held =>
    rw [exec_hostReadCompletion_entry, if_pos (List.contains_iff_mem.mpr hr), State.entryArrives_listed _ c i data hop hcal]
    rfl
  case refused =>
    rw [exec_hostReadCompletion_entry, if_pos (List.contains_iff_mem.mpr hr), State.entryArrives_unknown _ c i data hop]
    rfl
  case loaded =>
    have hdrop : (s.dropRead (.data c i retry)).desc c i = some d := hd
    rw [exec_hostReadCompletion_data, if_pos (List.contains_iff_mem.mpr hr), State.dataArrives_reading _ c i data d hdrop hph]
    rfl
  case stray =>
    refine ⟨fun hr => ⟨?_, exec_hostReadFailure_stray _ x a s hr rfl⟩,
      fun hr => ⟨?_, exec_hostReadFailure_stray _ x a s hr rfl⟩, rfl⟩
    · rw [exec_hostReadCompletion_entry, if_neg (by simp [hr])]
    · rw [exec_hostReadCompletion_data, if_neg (by simp [hr])]
  case readAgain =>
    obtain ⟨hreads, hjob⟩ := s.readFails_first c i x a.toNat
    obtain ⟨-, hram, -⟩ := s.readFails_kept (.entry c i false) x a.toNat
    exact ⟨hreads, hram, hjob⟩
  case hostErr =>
    rw [s.readFails_again c i x a.toNat (fun h0 => hx (Fin.ext h0))]
    rfl
  case streamed =>
    rw [s.streamArrives_room q n data _ rfl hb hu hfree hlim]
    exact ⟨Table.get_set_same .., rfl, rfl, rfl⟩
  case pause => cases p <;> rfl
  case unlisted =>
    rw [exec_doorbellUnlistedWrite_judged, if_neg (by omega), if_neg (by simp [hq])]
  case paused => rw [exec_ctxPause, s.gate_of_ready _ hr, s.pause_set]
  case resumed => rw [exec_ctxPause, s.gate_of_ready _ hr, s.pause_cleared]
  case aborted => rw [exec_ctxAbort, s.gate_of_ready _ hr, s.ctxAbort_running c j hj hc]

end Sys2Proof.Machine
end

section
/-! PROOFS. The byte memory (R188, log 9): which commands can change it, and the canonical form that every step keeps. -/

namespace Sys2Proof.Machine

/-! ### The commands that write the memory -/

/-- The commands that can change the memory. A load (R101, R180, R424) and stream data (R166) fill it; a window writes its
words to a processor's X memory (R283), and ST a word to X or Y (R292); sealed items are written by UNSEAL_LOAD and cleared by a
service or at a job boundary (R691, R695); the resets, which a register write can ask for and the end of an NV write can
start, and the Deep rung lose it (R450, R653, R731). -/
inductive WritesMemory : Instr → Prop
  | loadProgram (c : Fin 1024) (i : BitVec 16) (bad : Bool) : WritesMemory (.loadProgram c i bad)
  | loadEnvelope (c : Fin 1024) (i : BitVec 16) (bad : Bool) : WritesMemory (.loadEnvelope c i bad)
  | biasSet (c : Fin 1024) (i : BitVec 16) (bad : Bool) : WritesMemory (.biasSet c i bad)
  | loadDeferredApply (c : Fin 1024) (i : BitVec 16) : WritesMemory (.loadDeferredApply c i)
  | streamDataArrive (q : Fin 4) (strm : Fin 16) (data : List Byte) : WritesMemory (.streamDataArrive q strm data)
  | streamRead (q strm : Nat) (data : List Byte) : WritesMemory (.hostReadCompletion (.stream q strm) data)
  | windowEnd (q : Fin 4) (t : Fin 128) (codes : List (BitVec 12)) (kerr : Option Word) :
      WritesMemory (.windowEnd q t codes kerr)
  | dspSt (k : Fin 16) (bad : BitVec 3) : WritesMemory (.dspSt k bad)
  | unsealPassEnd (tagOk : Bool) (hdr : List Byte) (ents : List SealEnt) : WritesMemory (.unsealPassEnd tagOk hdr ents)
  | zeroize (r : MbReq) (full : Bool) : WritesMemory (.zeroize r full)
  | serviceDone (bad : Bool) : WritesMemory (.serviceDone bad)
  | shotEnd : WritesMemory .shotEnd
  | orderlyStopTimeout : WritesMemory .orderlyStopTimeout
  | registerWrite (a : HostAddr) (n : Fin 9) (d : BitVec 64) : WritesMemory (.registerWrite a n d)
  | nvWriteDone (what : Fin 3) : WritesMemory (.nvWriteDone what)
  | deviceReset : WritesMemory .deviceReset
  | powerUpReset (aon : Bool) : WritesMemory (.powerUpReset aon)
  | rungChange : WritesMemory .rungChange

/-! ### What leaves the memory as it is -/

@[simp] theorem State.done_eq_next_iff (s t : State) : s.done = .next t ↔ s.modeSync = t :=
  ⟨Host.Outcome.next.inj, congrArg Host.Outcome.next⟩

/-- `go` is given a descriptor of the opcode only, so it need keep the memory for those alone. -/
theorem State.startDesc_ram_of_op (s : State) (c i op : Nat) (go : State → Desc → State)
    (hgo : ∀ d, d.op = op → (go s d).ram = s.ram) : (s.startDesc c i op go).ram = s.ram := by
  unfold State.startDesc
  split
  · rfl
  next d _ =>
    split
    · rfl
    next hstart =>
      have hop : d.op = op := not_not.mp fun h => hstart (.inl h)
      (repeat' split) <;> simp [hgo d hop]

/-- R361 to R363: a graph goes to the planes, not to the byte memory. -/
theorem State.applyLoad_decoder_ram (s : State) (c : Nat) (d : Desc) (bad : Bool) (h : d.op = 3) :
    (s.applyLoad c d bad).ram = s.ram := by
  unfold State.applyLoad
  rw [h]
  cases bad <;> simp

theorem State.load_decoder_ram (s : State) (c i : Nat) (bad : Bool) : (s.load_ c i 3 bad).ram = s.ram := by
  unfold State.load_
  split
  · split
    next d _ hd => split <;> simp [State.applyLoad_decoder_ram _ _ _ _ hd.1]
    · refine State.startDesc_ram_of_op _ _ _ _ _ fun d hop => ?_
      rw [State.beginLoad]
      (repeat' split) <;> simp [State.applyLoad_decoder_ram _ _ _ _ hop]
  · rfl

/-- R80: the write sets the period and restarts the count of TIME_HZN. -/
@[simp] theorem State.hznReg_ram (s : State) (w : Nat) : (s.hznReg w).ram = s.ram := by
  obtain ⟨-, hram, -⟩ := State.storeFields_kept s .TIME_HZN [] w
  exact hram

/-- R448: a read of a BAR may clear fields, but it writes no memory. -/
theorem exec_registerReadClear_ram (a : HostAddr) (n : Fin 9) (bad : BitVec 2) (s t : State)
    (h : exec (.registerReadClear a n bad) s = .next t) : t.ram = s.ram := by
  obtain ⟨b, a⟩ := a
  rw [exec_registerReadClear] at h
  rw [← Host.Outcome.next.inj h]
  obtain ⟨-, hram, -⟩ := s.hostRead_kept b a.toNat n bad
  exact hram

/-- The frame of `exec`: a command that is none of `WritesMemory` leaves the memory as it is. -/
theorem exec_ram_of_not_writesMemory (c : Instr) (s t : State) (hc : ¬ WritesMemory c) (h : exec c s = .next t) :
    t.ram = s.ram := by
  cases c
  case loadProgram | loadEnvelope | biasSet | loadDeferredApply | streamDataArrive | windowEnd | dspSt | unsealPassEnd
      | zeroize | serviceDone | shotEnd | orderlyStopTimeout | registerWrite | nvWriteDone | deviceReset | powerUpReset
      | rungChange => exact absurd (by constructor) hc
  case hostReadCompletion r data =>
    cases r with
    | stream q strm => exact absurd (.streamRead q strm data) hc
    | other => rw [← Host.Outcome.next.inj h]
    | entry | data =>
      rw [← Host.Outcome.next.inj h]
      split <;> simp
  case registerReadClear a n bad => exact exec_registerReadClear_ram a n bad s t h
  case loadDecoder c i bad =>
    rw [← Host.Outcome.next.inj h]
    simp [State.load_decoder_ram]
  -- the commands that choose among operations
  case submissionFetch | calibrate | ack | nak | cobblerRepairDone | scrubPass | scrubPassEnd | timeLock =>
    simp only [exec, execSubmissionFetch, execCalibrate, execAck, execNak, execCobblerRepairDone, execScrubPass,
      execScrubPassEnd, execTimeLock] at h
    (repeat' split at h) <;> simp at h <;> simp [← h]
  -- each of the others is one operation, of which Laws/Kept1 to Kept6 say that it leaves the memory alone
  all_goals
    rw [← Host.Outcome.next.inj h]
    simp

/-! ### The canonical form -/

theorem State.modeSync_wf (s : State) (h : Memory.wf s.ram = true) : Memory.wf s.modeSync.ram = true := by
  simp [h]

/-- The commands of `WritesMemory` change the memory through operations that keep its form, or lose it all. -/
theorem exec_wf_of_writesMemory (c : Instr) (s : State) (hc : WritesMemory c) (hs : Memory.wf s.ram = true) :
    ∃ t, exec c s = .next t ∧ Memory.wf t.ram = true := by
  cases hc with
  | loadProgram c i bad => exact ⟨_, rfl, State.modeSync_wf _ (s.load__wf c i.toNat 1 bad hs)⟩
  | loadEnvelope c i bad => exact ⟨_, rfl, State.modeSync_wf _ (s.load__wf c i.toNat 2 bad hs)⟩
  | biasSet c i bad => exact ⟨_, rfl, State.modeSync_wf _ (s.load__wf c i.toNat 8 bad hs)⟩
  | loadDeferredApply c i => exact ⟨_, rfl, State.modeSync_wf _ (s.deferredApply_wf c i.toNat hs)⟩
  | streamDataArrive q strm data => exact ⟨_, rfl, s.streamArrives_wf q strm data hs⟩
  | streamRead q strm data => exact ⟨_, rfl, s.streamArrives_wf q strm data hs⟩
  | windowEnd q t codes kerr => exact ⟨_, rfl, s.windowEnd_wf q t codes kerr hs⟩
  | dspSt k bad => exact ⟨_, rfl, s.dspSt_wf k bad hs⟩
  | unsealPassEnd tagOk hdr ents => exact ⟨_, rfl, s.passEnd_wf tagOk hdr ents hs⟩
  | zeroize r full => exact ⟨_, rfl, s.zeroize_wf r full hs⟩
  | serviceDone bad => exact ⟨_, rfl, State.modeSync_wf _ (s.serviceDone_wf bad hs)⟩
  | shotEnd => exact ⟨_, rfl, State.modeSync_wf _ (s.shotEnd_wf hs)⟩
  | orderlyStopTimeout => exact ⟨_, rfl, State.modeSync_wf _ (s.stopTimeout_wf hs)⟩
  | registerWrite a n d => exact ⟨_, rfl, State.modeSync_wf _ (s.hostWrite_wf a.bar a.off.toNat n d.toNat hs)⟩
  | nvWriteDone what => exact ⟨_, rfl, State.modeSync_wf _ (s.nvDone_wf what hs)⟩
  | deviceReset => exact ⟨_, rfl, State.modeSync_wf _ (s.deviceReset_wf hs)⟩
  | powerUpReset aon => exact ⟨_, rfl, State.modeSync_wf _ (s.powerUpReset_wf aon)⟩
  | rungChange => exact ⟨_, rfl, State.modeSync_wf _ (s.rungChange_wf hs)⟩

theorem exec_memoryOk (c : Instr) (s t : State) (hs : s.memoryOk) (h : exec c s = .next t) : t.memoryOk := by
  by_cases hc : WritesMemory c
  · obtain ⟨u, hu, hwf⟩ := exec_wf_of_writesMemory c s hc hs
    have htu : t = u := Host.Outcome.next.inj (h.symm.trans hu)
    rw [htu]
    exact hwf
  · rw [State.memoryOk, exec_ram_of_not_writesMemory c s t hc h]
    exact hs

theorem State.still_ram {s t : State} (h : t.still = s.still) : t.ram = s.ram := by
  injection h

/-- The memory is among what stands still while a tick passes. -/
theorem State.tick_ram (s : State) : s.tick.ram = s.ram := by
  have h : s.tick.ram = ({ s with time := s.time.next.lag } : State).ram := State.still_ram s.still_tick
  exact h

theorem State.tick_memoryOk (s : State) (hs : s.memoryOk) : s.tick.memoryOk := by
  rw [State.memoryOk, s.tick_ram]
  exact hs

/-- Settles O7: nothing is listed at reset. -/
theorem resetMemoryIsCanonical : Obligations.ResetMemoryIsCanonical :=
  wf_nil

/-- Settles O8: a tick moves no byte, and taking a command off the queue moves none before the command is carried out. -/
theorem everyStepKeepsMemoryCanonical : Obligations.EveryStepKeepsMemoryCanonical := by
  intro s t hs h
  rw [step] at h
  split at h
  · rw [← Host.Outcome.next.inj h]
    exact s.tick_memoryOk hs
  next c rest _ => exact exec_memoryOk c (s.withPending rest) t hs h

end Sys2Proof.Machine
end

section
/-! PROOFS. The instructions of the readout signal processors (R291, R297 to R303). -/

/-! ### Saturated and wrapped integers (R302) -/

namespace Sys2Proof

theorem toInt_ofInt_satInt {n : Nat} (hn : 0 < n) (v : Int) : (BitVec.ofInt n (satInt n v)).toInt = satInt n v := by
  have hpow : (0 : Int) < 2 ^ (n - 1) := by positivity
  have hsat : -2 ^ (n - 1) ≤ satInt n v ∧ satInt n v < 2 ^ (n - 1) := by
    simp only [satInt, clampInt, Nat.cast_pow, Nat.cast_ofNat]
    split
    · omega
    · split <;> omega
  exact BitVec.toInt_ofInt_eq_self hn hsat.1 hsat.2

theorem ofInt_toInt_add {n : Nat} (a b : BitVec n) : BitVec.ofInt n (a.toInt + b.toInt) = a + b := by
  rw [BitVec.ofInt_add, BitVec.ofInt_toInt, BitVec.ofInt_toInt]

theorem ofInt_toInt_sub {n : Nat} (a b : BitVec n) : BitVec.ofInt n (a.toInt - b.toInt) = a - b := by
  rw [Int.sub_eq_add_neg, BitVec.ofInt_add, BitVec.ofInt_neg, BitVec.ofInt_toInt, BitVec.ofInt_toInt, BitVec.sub_eq_add_neg]

theorem setBits_high_half (v x : Nat) (hv : v < 2 ^ 32) (hx : x < 65536) : setBits v 31 16 x = v % 65536 + x * 65536 := by
  simp only [setBits, bitsOf]
  omega

end Sys2Proof

namespace Sys2Proof.Machine

/-! ### The registers of a processor -/

theorem Dsp.loopEnds_eq (pc : Nat) (ls : List Nat) (d : Dsp) : d.loopEnds pc ls = { d with
    reps := (d.loopEnds pc ls).reps, act := (d.loopEnds pc ls).act, pc := (d.loopEnds pc ls).pc } := by
  induction ls generalizing d with
  | nil => rfl
  | cons l ls ih =>
    rw [Dsp.loopEnds]
    split
    · rfl
    · split
      · rfl
      · rw [ih]

/-- A completion moves the program counter, the repeat levels (R295) and the rings whose lengths were pending (R293). -/
theorem Dsp.complete_eq (d : Dsp) : d.complete = { d with
    p := d.complete.p, reps := d.complete.reps, act := d.complete.act, pc := d.complete.pc } := by
  unfold Dsp.complete
  dsimp only
  split
  · rw [Dsp.loopEnds_eq]; rfl
  · rw [Dsp.loopEnds_eq]

theorem Dsp.complete_p_of_no_level (d : Dsp) (h : d.act = []) : d.complete.p = d.p := by
  simp [Dsp.complete, h, Dsp.loopEnds]

theorem Dsp.setAcc_a0_toInt (d : Dsp) (x y : Int) : (d.setAcc x y).a0.toInt = satInt 40 x := toInt_ofInt_satInt (by decide) x

theorem Dsp.setAcc_a1_toInt (d : Dsp) (x y : Int) : (d.setAcc x y).a1.toInt = satInt 40 y := toInt_ofInt_satInt (by decide) y

theorem Dsp.detect_blk_toNat (d : Dsp) (w : Word) :
    (d.detect w).blk.toNat = min d.blk.toNat (min (redundant (half0 w)) (redundant (half1 w))) :=
  (BitVec.toNat_ofNat _ _).trans (Nat.mod_eq_of_lt ((Nat.min_le_left _ _).trans_lt d.blk.isLt))

/-! ### Issue (R297, R298) -/

theorem State.dspIssue_of_issues {s : State} {k : Nat} {bad : BitVec 3} {cls op : Nat} (h : s.dspIssues k bad cls op)
    (act : State → Dsp → Nat → State) : s.dspIssue k bad cls op act = act s (s.dsp k) (s.dspNow k) := by
  obtain ⟨hrun, hfetch, hcls, hop⟩ := h
  rw [State.dspIssue, if_neg (not_not.mpr hrun), hfetch, if_neg Bool.false_ne_true, if_pos ⟨hcls, hop⟩]

/-- The outcome of an issued instruction that only changes its processor. -/
theorem next_dspSimple_of_issues {s : State} {k : Nat} {bad : BitVec 3} {cls op n : Nat} {use : Nat → DspUse}
    {f : Dsp → Nat → Dsp} (h : s.dspIssues k bad cls op) :
    (.next (s.dspSimple k bad cls op n use f) : Host.Outcome State Fault Refusal)
      = .next (s.updDsp k fun _ => (f ((s.dsp k).count (use (s.dspNow k)) n) (s.dspNow k)).complete) :=
  congrArg Host.Outcome.next (State.dspIssue_of_issues h _)

theorem State.dspSimple_congr (s : State) (k : Nat) (bad : BitVec 3) (cls op n : Nat) (use : Nat → DspUse)
    {f g : Dsp → Nat → Dsp} (h : ∀ d w, f d w = g d w) :
    s.dspSimple k bad cls op n use f = s.dspSimple k bad cls op n use g :=
  congrArg (s.dspSimple k bad cls op n use) (funext₂ h)

/-! ### Class A (R291, R299, R302, R303) -/

theorem exec_dspAdd (k : Fin 16) (bad : BitVec 3) (s : State) : exec (.dspAdd k bad) s =
    .next (s.dspSimple k bad 2 0 1 (fun w => { regs := [aSrc1 w, aSrc2 w] }) fun d w =>
      (d.arith ((d.greg (aSrc1 w)).toInt + (d.greg (aSrc2 w)).toInt)).1.setG (aDst w) (d.greg (aSrc1 w) + d.greg (aSrc2 w))) :=
  congrArg Host.Outcome.next (s.dspSimple_congr _ _ _ _ _ _ fun _ _ => congrArg (Dsp.setG _ _) (ofInt_toInt_add _ _))

theorem exec_dspSub (k : Fin 16) (bad : BitVec 3) (s : State) : exec (.dspSub k bad) s =
    .next (s.dspSimple k bad 2 1 1 (fun w => { regs := [aSrc1 w, aSrc2 w] }) fun d w =>
      (d.arith ((d.greg (aSrc1 w)).toInt - (d.greg (aSrc2 w)).toInt)).1.setG (aDst w) (d.greg (aSrc1 w) - d.greg (aSrc2 w))) :=
  congrArg Host.Outcome.next (s.dspSimple_congr _ _ _ _ _ _ fun _ _ => congrArg (Dsp.setG _ _) (ofInt_toInt_sub _ _))

theorem exec_addi (k : Fin 16) (bad : BitVec 3) (s : State) : exec (.addi k bad) s =
    .next (s.dspSimple k bad 2 5 1 (fun w => { regs := [aSrc1 w] }) fun d w =>
      (d.arith ((d.greg (aSrc1 w)).toInt + signedOf 16 w)).1.setG (aDst w)
        (d.greg (aSrc1 w) + BitVec.ofInt 32 (signedOf 16 w))) :=
  congrArg Host.Outcome.next (s.dspSimple_congr _ _ _ _ _ _ fun d w => congrArg (Dsp.setG _ _) (by
    rw [BitVec.ofInt_add, BitVec.ofInt_toInt]; rfl))

theorem exec_ldih (k : Fin 16) (bad : BitVec 3) (s : State) : exec (.ldih k bad) s =
    .next (s.dspSimple k bad 2 7 1 (fun w => { regs := [aDst w] }) fun d w =>
      d.setG (aDst w) (BitVec.ofNat 32 ((d.greg (aDst w)).toNat % 65536 + bitsOf w 15 0 * 65536))) :=
  congrArg Host.Outcome.next (s.dspSimple_congr _ _ _ _ _ _ fun d w => congrArg (fun x => d.setG (aDst w) (BitVec.ofNat 32 x))
    (setBits_high_half _ _ (BitVec.isLt _) (Nat.mod_lt _ (by decide))))

theorem exec_lda (k : Fin 16) (bad : BitVec 3) (s : State) : exec (.lda k bad) s =
    .next (s.dspSimple k bad 2 12 1 (fun w => { regs := [aSrc1 w] }) fun d w =>
      { d.setAcc (half0 (d.greg (aSrc1 w)) * 2 ^ bitsOf w 4 0) (half1 (d.greg (aSrc1 w)) * 2 ^ bitsOf w 4 0) with busy := {} }) :=
  congrArg Host.Outcome.next (s.dspSimple_congr _ _ _ _ _ _ fun d w => by rw [Nat.cast_pow, Nat.cast_ofNat])

/-- GETA reads the pair, and changes DST, SAT and BLK. -/
theorem exec_geta_of_issues (k : Fin 16) (bad : BitVec 3) (s : State) (h : s.dspIssues k bad 2 11) :
    let d := s.dsp k
    let x := asrInt d.a0.toInt d.ash.toNat
    let y := asrInt d.a1.toInt d.ash.toNat
    ∃ t : State, exec (.geta k bad) s = .next t
      ∧ (t.dsp k).g = d.g.set! (aDst (s.dspNow k)) (BitVec.ofNat 32 (pairWord (satInt 16 x) (satInt 16 y)))
      ∧ (t.dsp k).sat = (d.sat || decide (satInt 16 x ≠ x ∨ satInt 16 y ≠ y))
      ∧ (t.dsp k).a0 = d.a0 ∧ (t.dsp k).a1 = d.a1 ∧ (t.dsp k).u = d.u ∧ (t.dsp k).z = d.z
      ∧ (t.dsp k).n = d.n ∧ (t.dsp k).v = d.v ∧ (t.dsp k).ov = d.ov ∧ t.ram = s.ram
      ∧ ∀ m : Nat, m ≠ k.val → t.dsp m = s.dsp m := by
  refine ⟨_, next_dspSimple_of_issues h, ?_⟩
  rw [State.dsp_updDsp_same, Dsp.complete_eq]
  exact ⟨rfl, rfl, rfl, rfl, rfl, rfl, rfl, rfl, rfl, rfl, fun m hm => s.dsp_updDsp_other k m _ hm⟩

theorem exec_lda_of_issues (k : Fin 16) (bad : BitVec 3) (s : State) (h : s.dspIssues k bad 2 12) :
    ∃ t : State, exec (.lda k bad) s = .next t
      ∧ (t.dsp k).a0.toInt = satInt 40 (half0 ((s.dsp k).greg (aSrc1 (s.dspNow k))) * 2 ^ bitsOf (s.dspNow k) 4 0)
      ∧ (t.dsp k).a1.toInt = satInt 40 (half1 ((s.dsp k).greg (aSrc1 (s.dspNow k))) * 2 ^ bitsOf (s.dspNow k) 4 0)
      ∧ (t.dsp k).g = (s.dsp k).g ∧ (t.dsp k).u = (s.dsp k).u ∧ (t.dsp k).sat = (s.dsp k).sat ∧ t.ram = s.ram
      ∧ ∀ m : Nat, m ≠ k.val → t.dsp m = s.dsp m := by
  refine ⟨_, (exec_lda k bad s).trans (next_dspSimple_of_issues h), ?_⟩
  rw [State.dsp_updDsp_same, Dsp.complete_eq]
  exact ⟨toInt_ofInt_satInt (by decide) _, toInt_ofInt_satInt (by decide) _, rfl, rfl, rfl, rfl,
    fun m hm => s.dsp_updDsp_other k m _ hm⟩

/-! ### Class M (R298, R299, R302) -/

/-- R298: what a move of an M-class word reads: the X or Y word at pointer `q`, when the move is there. -/
def State.moveRead (s : State) (k : Nat) (d : Dsp) (on : Bool) (q : Nat) (bad : Bool) : State × Word :=
  if on = true then s.dspRead k q (d.ptr q).val bad else (s, 0)

/-- R298: what a move of an M-class word writes: U register `r`, and pointer `q` by its MOD code. -/
def Dsp.move (d : Dsp) (on : Bool) (r : Nat) (v : Word) (q m : Nat) : Dsp :=
  if on = true then (d.setU r v).updPtr q fun p => p.modify m else d

/-- R298: an M-class word takes its operands and both pointers from before it, and then moves. -/
theorem State.dspM_of_issues {s : State} {k : Nat} {bad : BitVec 3} {op : Nat} (h : s.dspIssues k bad 3 op)
    (f : Dsp → Word → Word → Dsp) :
    let w := s.dspNow k
    let d := s.dsp k
    let x := s.moveRead k d (bitOf w 20) (bitsOf w 19 18) (bad.getLsbD 1)
    let y := x.1.moveRead k d (bitOf w 12) (4 + bitsOf w 11 10) (bad.getLsbD 2)
    s.dspM k bad op f = y.1.updDsp k fun _ => ((f (d.count {} 1) (d.ureg (bitsOf w 26 24)) (d.ureg (bitsOf w 23 21))
      |>.move (bitOf w 20) (bitsOf w 15 13) x.2 (bitsOf w 19 18) (bitsOf w 17 16))
      |>.move (bitOf w 12) (bitsOf w 7 5) y.2 (4 + bitsOf w 11 10) (bitsOf w 9 8)).complete :=
  State.dspIssue_of_issues h _

@[simp] theorem State.postCoarse_dsps (s : State) (c src kind flags : Nat) (body : List (Nat × Nat × Nat)) :
    (s.postCoarse c src kind flags body).dsps = s.dsps := by
  rw [State.postCoarse, State.post_eq]

@[simp] theorem State.eccError_dsps (s : State) (cls unit scrub addr : Nat) (invalid : Bool) :
    (s.eccError cls unit scrub addr invalid).dsps = s.dsps :=
  State.postCoarse_dsps _ _ _ _ _ _

@[simp] theorem State.dspError_dsps (s : State) (k code : Nat) : (s.dspError k code).dsps = s.dsps :=
  State.postCoarse_dsps _ _ _ _ _ _

/-- R307: a read, with or without an error, leaves the processors as they are. -/
@[simp] theorem State.dspRead_dsps (s : State) (k p : Nat) (a : BitVec 14) (bad : Bool) :
    (s.dspRead k p a bad).1.dsps = s.dsps := by
  cases bad with
  | false => rfl
  | true => exact (State.dspError_dsps _ _ _).trans (State.eccError_dsps _ _ _ _ _ _)

theorem State.moveRead_dsps (s : State) (k : Nat) (d : Dsp) (on : Bool) (q : Nat) (bad : Bool) :
    (s.moveRead k d on q bad).1.dsps = s.dsps := by
  cases on with
  | false => rfl
  | true => exact s.dspRead_dsps k q (d.ptr q).val bad

theorem Dsp.move_eq (d : Dsp) (on : Bool) (r : Nat) (v : Word) (q m : Nat) : d.move on r v q m = { d with
    u := (d.move on r v q m).u, p := (d.move on r v q m).p } := by
  cases on <;> rfl

/-- An M-class word leaves its processor as its operation makes it, but for the registers that its moves and its
completion write. -/
theorem State.dspM_dsp {s : State} {k : Nat} {bad : BitVec 3} {op : Nat} (h : s.dspIssues k bad 3 op)
    (f : Dsp → Word → Word → Dsp) : ∃ u p reps act pc, (s.dspM k bad op f).dsp k =
      { f ((s.dsp k).count {} 1) ((s.dsp k).ureg (bitsOf (s.dspNow k) 26 24)) ((s.dsp k).ureg (bitsOf (s.dspNow k) 23 21)) with
        u := u, p := p, reps := reps, act := act, pc := pc } := by
  rw [State.dspM_of_issues h, State.dsp_updDsp_same, Dsp.complete_eq, Dsp.move_eq, Dsp.move_eq]
  exact ⟨_, _, _, _, _, rfl⟩

theorem State.dspM_dsp_other {s : State} {k : Nat} {bad : BitVec 3} {op : Nat} (h : s.dspIssues k bad 3 op)
    (f : Dsp → Word → Word → Dsp) (m : Nat) (hm : m ≠ k) : (s.dspM k bad op f).dsp m = s.dsp m := by
  rw [State.dspM_of_issues h, State.dsp_updDsp_other _ _ _ _ hm, State.dsp, State.moveRead_dsps, State.moveRead_dsps]
  rfl

/-- R298: what a word of class M leaves as it is: the general registers, Z, N, V, SAT, BLK, ASH, the memory, and every
other processor. -/
def State.mFrame (s t : State) (k : Nat) : Prop :=
  (t.dsp k).g = (s.dsp k).g ∧ (t.dsp k).z = (s.dsp k).z ∧ (t.dsp k).n = (s.dsp k).n ∧ (t.dsp k).v = (s.dsp k).v
    ∧ (t.dsp k).sat = (s.dsp k).sat ∧ (t.dsp k).blk = (s.dsp k).blk ∧ (t.dsp k).ash = (s.dsp k).ash ∧ t.ram = s.ram
    ∧ ∀ m : Nat, m ≠ k → t.dsp m = s.dsp m

theorem State.dspM_ram (s : State) (k : Nat) (bad : BitVec 3) (op : Nat) (f : Dsp → Word → Word → Dsp) :
    (s.dspM k bad op f).ram = s.ram := by
  obtain ⟨-, hram, -⟩ := s.dspM_kept k bad op f
  exact hram

theorem exec_dspMove_of_issues (k : Fin 16) (bad : BitVec 3) (s : State) (h : s.dspIssues k bad 3 0) :
    ∃ t : State, exec (.dspMove k bad) s = .next t ∧ (t.dsp k).a0 = (s.dsp k).a0 ∧ (t.dsp k).a1 = (s.dsp k).a1
      ∧ (t.dsp k).ov = (s.dsp k).ov ∧ s.mFrame t k := by
  refine ⟨s.dspM k bad 0 fun d _ _ => d, rfl, ?_⟩
  obtain ⟨u, p, reps, act, pc, hd⟩ := State.dspM_dsp h fun d _ _ => d
  rw [State.mFrame, hd]
  exact ⟨rfl, rfl, rfl, rfl, rfl, rfl, rfl, rfl, rfl, rfl, s.dspM_ram _ _ _ _, State.dspM_dsp_other h _⟩

/-- The operations of class M but MOVE: `x` and `y` are the exact results that the pair takes. -/
theorem exec_classM_of_issues {c : Instr} {s : State} {k : Nat} {bad : BitVec 3} {op : Nat} (h : s.dspIssues k bad 3 op)
    (x y : Dsp → Word → Word → Int)
    (hc : exec c s = .next (s.dspM k bad op fun d a b => d.setAcc (x d a b) (y d a b))) :
    let e := (s.dsp k).count {} 1
    let a := e.ureg (bitsOf (s.dspNow k) 26 24)
    let b := e.ureg (bitsOf (s.dspNow k) 23 21)
    ∃ t : State, exec c s = .next t ∧ (t.dsp k).a0.toInt = satInt 40 (x e a b) ∧ (t.dsp k).a1.toInt = satInt 40 (y e a b)
      ∧ s.mFrame t k := by
  refine ⟨_, hc, ?_⟩
  obtain ⟨u, p, reps, act, pc, hd⟩ := State.dspM_dsp h fun d a b => d.setAcc (x d a b) (y d a b)
  rw [State.mFrame, hd]
  exact ⟨toInt_ofInt_satInt (by decide) _, toInt_ofInt_satInt (by decide) _, rfl, rfl, rfl, rfl, rfl, rfl, rfl,
    s.dspM_ram _ _ _ _, State.dspM_dsp_other h _⟩

/-! ### The moves of class M without a read error (R292, R298) -/

theorem dspAddr_x (k w : Nat) (a : BitVec 14) : dspAddr k (bitsOf w 19 18) a = xBase k + a.toNat * 4 := by
  have hx : bitsOf w 19 18 < 4 := Nat.mod_lt _ (by decide)
  rw [dspAddr, if_pos hx]

theorem dspAddr_y (k w : Nat) (a : BitVec 14) : dspAddr k (4 + bitsOf w 11 10) a = yBase k + a.toNat * 4 := by
  rw [dspAddr, if_neg (by omega)]

theorem State.moveRead_good_state (s : State) (k : Nat) (d : Dsp) (on : Bool) (q : Nat) :
    (s.moveRead k d on q false).1 = s := by
  cases on <;> rfl

theorem Dsp.move_moveRead_good (e d : Dsp) (s : State) (k : Nat) (on : Bool) (r q p m : Nat) :
    e.move on r (s.moveRead k d on q false).2 p m
      = e.move on r (BitVec.ofNat 32 (s.load (dspAddr k q (d.ptr q).val) 4)) p m := by
  cases on <;> rfl

theorem Dsp.move_u (d : Dsp) (on : Bool) (r : Nat) (v : Word) (q m : Nat) :
    (d.move on r v q m).u = if on = true then d.u.set! r v else d.u := by
  cases on <;> rfl

theorem Dsp.move_act (d : Dsp) (on : Bool) (r : Nat) (v : Word) (q m : Nat) : (d.move on r v q m).act = d.act := by
  rw [Dsp.move_eq]

theorem Dsp.move_p_congr {d e : Dsp} (h : d.p = e.p) (on : Bool) (r : Nat) (v : Word) (q m : Nat) :
    (d.move on r v q m).p = (if on = true then e.updPtr q fun p => p.modify m else e).p := by
  cases on
  · exact h
  · simp only [Dsp.move, if_true, Dsp.updPtr, Dsp.setU, Dsp.ptr, h]

theorem State.dspM_moves (k : Nat) (bad : BitVec 3) (s : State) (op : Nat) (f : Dsp → Word → Word → Dsp)
    (h : s.dspIssues k bad 3 op) (hx : bad.getLsbD 1 = false) (hy : bad.getLsbD 2 = false)
    (hf : ∀ (d : Dsp) (a b : Word), (f d a b).u = d.u ∧ (f d a b).p = d.p ∧ (f d a b).act = d.act) :
    let w := s.dspNow k
    let d := s.dsp k
    let x := bitsOf w 19 18
    let y := 4 + bitsOf w 11 10
    let ux := if bitOf w 20 = true then
      d.u.set! (bitsOf w 15 13) (BitVec.ofNat 32 (s.load (xBase k + (d.ptr x).val.toNat * 4) 4)) else d.u
    let px := if bitOf w 20 = true then d.updPtr x fun p => p.modify (bitsOf w 17 16) else d
    ((s.dspM k bad op f).dsp k).u =
        (if bitOf w 12 = true then
          ux.set! (bitsOf w 7 5) (BitVec.ofNat 32 (s.load (yBase k + (d.ptr y).val.toNat * 4) 4)) else ux)
      ∧ (d.act = [] → ((s.dspM k bad op f).dsp k).p =
          (if bitOf w 12 = true then px.updPtr y (fun p => p.modify (bitsOf w 9 8)) else px).p) := by
  intro w d x y ux px
  obtain ⟨hu, hp, hact⟩ := hf (d.count {} 1) (d.ureg (bitsOf w 26 24)) (d.ureg (bitsOf w 23 21))
  rw [State.dspM_of_issues h, State.dsp_updDsp_same, hx, hy, State.moveRead_good_state, Dsp.move_moveRead_good,
    Dsp.move_moveRead_good, dspAddr_x, dspAddr_y]
  constructor
  · rw [Dsp.complete_eq]
    dsimp only
    rw [Dsp.move_u, Dsp.move_u, hu]
    rfl
  · intro hd
    rw [Dsp.complete_p_of_no_level]
    · exact Dsp.move_p_congr (e := px) (Dsp.move_p_congr (e := d) hp _ _ _ _ _) _ _ _ _ _
    · rw [Dsp.move_act, Dsp.move_act, hact]
      exact hd

/-- Settles O41. That an instruction is its operation holds by definition, but for the two sums, ADDI, LDIH and LDA, whose
results are restated; the clauses for a running processor are `next_dspSimple_of_issues` (class A) and
`exec_classM_of_issues` (class M) at each operation. -/
theorem processorArithmetic : Obligations.ProcessorArithmetic :=
  ⟨fun _ _ _ => ⟨rfl, rfl, rfl, rfl, rfl, rfl, rfl⟩,
   fun _ _ => ⟨rfl, rfl, rfl, rfl⟩,
   fun d x y => ⟨d.setAcc_a0_toInt x y, d.setAcc_a1_toInt x y, rfl, rfl, rfl, rfl, rfl⟩,
   fun k bad s => ⟨exec_dspAdd k bad s, exec_dspSub k bad s, exec_addi k bad s, rfl⟩,
   fun _ _ => ⟨rfl, rfl⟩,
   fun _ _ _ => ⟨rfl, rfl, rfl, rfl, rfl⟩,
   fun k bad s => ⟨rfl, exec_ldih k bad s, rfl, exec_lda k bad s, rfl, rfl⟩,
   fun _ _ _ => ⟨rfl, rfl, rfl, rfl⟩,
   Dsp.detect_blk_toNat,
   -- ADD, SUB, AND, OR, XOR, ADDI, LDI, LDIH
   fun _ _ _ => next_dspSimple_of_issues, fun _ _ _ => next_dspSimple_of_issues, fun _ _ _ => next_dspSimple_of_issues,
   fun _ _ _ => next_dspSimple_of_issues, fun _ _ _ => next_dspSimple_of_issues, fun _ _ _ => next_dspSimple_of_issues,
   fun _ _ _ => next_dspSimple_of_issues, fun k bad s h => (exec_ldih k bad s).trans (next_dspSimple_of_issues h),
   -- SHL, ASR, CMP, GETA, LDA, CLRA
   fun _ _ _ => next_dspSimple_of_issues, fun _ _ _ => next_dspSimple_of_issues, fun _ _ _ => next_dspSimple_of_issues,
   exec_geta_of_issues, exec_lda_of_issues, fun _ _ _ => next_dspSimple_of_issues,
   -- MOVS, MOVT, MAG2, UMOV, GMOV
   fun _ _ _ => next_dspSimple_of_issues, fun _ _ _ => next_dspSimple_of_issues, fun _ _ _ => next_dspSimple_of_issues,
   fun _ _ _ => next_dspSimple_of_issues, fun _ _ _ => next_dspSimple_of_issues,
   -- MOVE, CMUL, CMAC, CMACJ, CMSU, DMAC, DMUL
   fun k bad s =>
    ⟨exec_dspMove_of_issues k bad s,
     fun h => exec_classM_of_issues h (fun _ => cmulRe) (fun _ => cmulIm) rfl,
     fun h => exec_classM_of_issues h (fun d a b => d.acc0 + cmulRe a b) (fun d a b => d.acc1 + cmulIm a b) rfl,
     fun h => exec_classM_of_issues h (fun d a b => d.acc0 + cmuljRe a b) (fun d a b => d.acc1 + cmuljIm a b) rfl,
     fun h => exec_classM_of_issues h (fun d a b => d.acc0 - cmulRe a b) (fun d a b => d.acc1 - cmulIm a b) rfl,
     fun h => exec_classM_of_issues h (fun d a b => d.acc0 + half0 a * half0 b) (fun d a b => d.acc1 + half1 a * half1 b) rfl,
     fun h => exec_classM_of_issues h (fun _ a b => half0 a * half0 b) (fun _ a b => half1 a * half1 b) rfl⟩,
   fun k => State.dspM_moves k⟩

end Sys2Proof.Machine
end

section
/-! PROOFS. Frames and beacons of a lace link: acknowledgement and resending (R524, R529, R530), the blocks of a frame and
how a receiver takes them (R503, R505, R525 to R532, R537), beacons, and the time aligned over lace (R540 to R543). -/

/-! ### Blocks and their payloads (R503, R508, R527 to R529) -/

namespace Sys2Proof

theorem frameOf_start (f : LaceFrame) : frameOf f.start f.data = f := by
  obtain ⟨vc, ftype, len, seq, hop, route, hops, data⟩ := f
  simp only [frameOf, LaceFrame.start, LaceFrame.mk.injEq, and_true]
  refine ⟨?_, ?_, ?_, ?_, ?_, ?_, ?_⟩
  -- each field holds its own bits of the payload
  all_goals
    ext i hi
    simp
    grind

theorem header_ctrlBlock (v : BitVec 64) : (ctrlBlock v).extractLsb' 0 2 = 2#2 := BitVec.extractLsb'_append_eq_right

theorem header_ctrlBlock_ne (v : BitVec 64) : (ctrlBlock v).extractLsb' 0 2 ≠ 1#2 := by
  rw [header_ctrlBlock]; decide

theorem header_dataBlock (v : BitVec 64) : (dataBlock v).extractLsb' 0 2 = 1#2 := BitVec.extractLsb'_append_eq_right

theorem payloadOf_ctrlBlock (v : BitVec 64) : payloadOf (ctrlBlock v) = v := BitVec.extractLsb'_append_eq_left

theorem payloadOf_dataBlock (v : BitVec 64) : payloadOf (dataBlock v) = v := BitVec.extractLsb'_append_eq_left

theorem ctrlType_ctrlBlock (v : BitVec 64) : ctrlType (ctrlBlock v) = some (v.extractLsb' 0 8).toNat := by
  have hlow : (ctrlBlock v).extractLsb' 2 8 = v.extractLsb' 0 8 := BitVec.extractLsb'_append_eq_of_le (Nat.le_refl 2)
  rw [ctrlType, if_pos (header_ctrlBlock v), hlow]

theorem ctrlType_of_header_ne (b : LaceBlock) (h : b.extractLsb' 0 2 ≠ 2#2) : ctrlType b = none := if_neg h

theorem ctrlType_dataBlock (v : BitVec 64) : ctrlType (dataBlock v) = none :=
  ctrlType_of_header_ne _ (by rw [header_dataBlock]; decide)

theorem ctrlType_start (f : LaceFrame) : ctrlType (ctrlBlock f.start) = some 0x78 :=
  (ctrlType_ctrlBlock _).trans (congrArg (fun t => some (BitVec.toNat t)) BitVec.extractLsb'_append_eq_right)

theorem ctrlType_fin (f : LaceFrame) : ctrlType (ctrlBlock f.fin) = some 0x87 :=
  (ctrlType_ctrlBlock _).trans (congrArg (fun t => some (BitVec.toNat t)) BitVec.extractLsb'_append_eq_right)

theorem LaceFrame.fin_crc (f : LaceFrame) : f.fin.extractLsb' 8 32 = f.crc :=
  (BitVec.extractLsb'_append_eq_of_le (Nat.le_refl 8)).trans BitVec.extractLsb'_append_eq_right

theorem LaceFrame.fin_reserved (f : LaceFrame) : f.fin.extractLsb' 40 24 = 0 :=
  (BitVec.extractLsb'_append_eq_of_le (by decide)).trans BitVec.extractLsb'_append_eq_left

theorem linkctl_seq (b : LaceBlock) : (payloadOf b).extractLsb' 11 12 = BitVec.ofNat 12 (blockField b 22 11) := by
  apply BitVec.eq_of_toNat_eq
  rw [BitVec.extractLsb'_toNat, BitVec.toNat_ofNat, blockField, bitsOf, Nat.shiftRight_eq_div_pow, Nat.mod_mod]

/-! ### Tables -/

theorem Table.put_put {α : Type} (t : Table α) (n : Nat) (v w : α) :
    Table.put (Table.put t n v) n w = Table.put t n w := by
  induction t with
  | nil => simp [Table.put]
  | cons e t ih =>
    obtain ⟨k, u⟩ := e
    by_cases heq : n = k
    · simp [Table.put, heq]
    · by_cases hlt : n < k <;> simp [Table.put, heq, hlt, ih]

/-- Two changes of one key are one, where both values are listed. -/
theorem Table.upd_upd {α : Type} [DecidableEq α] {d : α} {t : Table α} {n : Nat} {f g : α → α}
    (hf : f (Table.get d t n) ≠ d) (hg : g (f (Table.get d t n)) ≠ d) :
    Table.upd d (Table.upd d t n f) n g = Table.upd d t n fun x => g (f x) := by
  simp only [Table.upd, Table.get_set_same]
  rw [Table.set, if_neg hg, Table.set, if_neg hf, Table.put_put, Table.set, if_neg hg]

end Sys2Proof

namespace Sys2Proof.Machine

/-! ### Acknowledgement and resending (R529, R530) -/

theorem linkctlOf_of_fields (nak : Nat) (b : LaceBlock) (ht : ctrlType b = some 0x4B) (hn : blockField b 10 10 = nak)
    (hv : blockField b 9 8 < 3) : linkctlOf nak b =
      some (blockField b 9 8, BitVec.ofNat 12 (blockField b 22 11), blockField b 33 23, blockField b 37 34) := by
  rw [linkctlOf, if_pos ⟨ht, hn, hv⟩, linkctl_seq]

theorem exec_ack_of_none {l : Fin 8} {h : BitVec 2} {ty : BitVec 8} {v : BitVec 56} {s : State}
    (hb : linkctlOf 0 (blockParts h ty v) = none) : exec (.ack l h ty v) s = .next s := by
  simp only [exec, execAck, hb]

theorem exec_nak_of_none {l : Fin 8} {h : BitVec 2} {ty : BitVec 8} {v : BitVec 56} {bad : Bool} {s : State}
    (hb : linkctlOf 1 (blockParts h ty v) = none) : exec (.nak l h ty v bad) s = .next s := by
  simp only [exec, execNak, hb]

theorem exec_ack_of_linkctl {l : Fin 8} {h : BitVec 2} {ty : BitVec 8} {v : BitVec 56} {vc cr c : Nat} {q : BitVec 12}
    {s : State} (hb : linkctlOf 0 (blockParts h ty v) = some (vc, q, cr, c)) :
    exec (.ack l h ty v) s = .next (s.ackBlock l vc q cr) := by
  simp only [exec, execAck, hb]

theorem exec_nak_of_linkctl {l : Fin 8} {h : BitVec 2} {ty : BitVec 8} {v : BitVec 56} {bad : Bool} {vc cr c : Nat}
    {q : BitVec 12} {s : State} (hb : linkctlOf 1 (blockParts h ty v) = some (vc, q, cr, c)) :
    exec (.nak l h ty v bad) s = .next (s.nakBlock l vc q cr c bad) := by
  simp only [exec, execNak, hb]

theorem LaceLink.tx_getD (x : LaceLink) (vc : Fin 3) : (x.tx[vc.val]?).getD {} = x.tx[vc] := by
  simp

theorem State.resendTimeout_of_none {s : State} {l : Nat} {vc : Fin 3} (h : ((s.lnk l).tx[vc]).sent = []) (bad : Bool) :
    s.resendTimeout l vc bad = s := by
  simp only [State.resendTimeout, LaceLink.tx_getD, h]

theorem State.resendTimeout_of_oldest {s : State} {l : Nat} {vc : Fin 3} {e : LaceFrame × Nat × Nat}
    {rest : List (LaceFrame × Nat × Nat)} (h : ((s.lnk l).tx[vc]).sent = e :: rest) (bad : Bool) :
    s.resendTimeout l vc bad =
      if (s.lnk l).up = true ∧ e.2.1 + 2000 ≤ s.time.now then s.resendFrom l vc (fun _ => true) bad else s := by
  simp only [State.resendTimeout, LaceLink.tx_getD, h]

theorem State.resendFrom_single {s : State} {l : Nat} {vc : Fin 3} {e : LaceFrame × Nat × Nat}
    (h : ((s.lnk l).tx[vc]).sent = [e]) (he : e.2.2 < 8) : s.resendFrom l vc (fun _ => true) false =
      ((s.updTx l vc fun t => { t with sent := [(e.1, s.time.now, e.2.2 + 1)] }).laceOut l (.frame e.1)).count
        Reg.LC_CNT.REPLAY [l] := by
  simp only [State.resendFrom, LaceLink.tx_getD, h]
  simp [Nat.not_le.mpr he]

/-! ### A receiver takes the blocks of a frame (R505, R525, R527, R528) -/

theorem State.updLink_updLink {s : State} {l : Nat} {f g : LaceLink → LaceLink} (hf : f (s.lnk l) ≠ {})
    (hg : g (f (s.lnk l)) ≠ {}) : (s.updLink l f).updLink l g = s.updLink l fun x => g (f x) := by
  have hlinks := Table.upd_upd (d := {}) (t := s.lace.links) (n := l) hf hg
  simp only [State.updLink, hlinks]

theorem LaceLink.ne_default_of_up {x : LaceLink} (h : x.up = true) : x ≠ {} := by
  rintro rfl
  exact absurd h (by decide)

theorem State.setOpens_setOpens {s : State} {l : Nat} (hup : (s.lnk l).up = true) (os os' : List LaceOpen) :
    (s.setOpens l os).setOpens l os' = s.setOpens l os' :=
  State.updLink_updLink (LaceLink.ne_default_of_up (x := { s.lnk l with opens := os }) hup)
    (LaceLink.ne_default_of_up (x := { s.lnk l with opens := os' }) hup)

@[simp] theorem State.lnk_setOpens (s : State) (l : Nat) (os : List LaceOpen) :
    (s.setOpens l os).lnk l = { s.lnk l with opens := os } := s.lnk_updLink_same l _

theorem State.openFrame_of_no_opens {s : State} {l : Nat} (h : (s.lnk l).opens = []) (p : BitVec 64) :
    s.openFrame l p = s.setOpens l [{ start := p }] := by
  simp [State.openFrame, h]

theorem State.frameData_of_opens {s : State} {l : Nat} {o : LaceOpen} {os : List LaceOpen} (h : (s.lnk l).opens = o :: os)
    (v : BitVec 64) : s.frameData l v = s.setOpens l ({ o with data := o.data ++ [v] } :: os) := by
  simp only [State.frameData, h]

theorem State.closeFrame_of_opens {s : State} {l : Nat} {o : LaceOpen} {os : List LaceOpen} (h : (s.lnk l).opens = o :: os)
    (hbad : o.bad = 0) (fin : BitVec 64) (k : LaceFrame → State → State) : s.closeFrame l fin false k =
      (s.setOpens l os).rxFrame l (frameOf o.start o.data) (o.err fin) (k (frameOf o.start o.data)) := by
  simp [State.closeFrame, h, hbad]

theorem State.badBlock_of_opens {s : State} {l : Nat} {o : LaceOpen} {os : List LaceOpen} (h : (s.lnk l).opens = o :: os)
    (hlen : o.data.length < (frameOf o.start []).len.toNat) (why : Nat) : s.badBlock l why =
      s.setOpens l ({ o with data := o.data ++ [0], bad := if o.bad = 0 then why else o.bad } :: os) := by
  have hroom : ¬ (frameOf o.start []).len.toNat < (o.data ++ [0#64]).length := by
    rw [List.length_append, List.length_singleton]; omega
  simp only [State.badBlock, h]
  exact if_neg hroom

section
variable (s : State) (l lane : Nat) (w : LaceBlocks) (k : LaceFrame → State → State)

theorem State.rxBlock_data (v : BitVec 64) : s.rxBlock l lane w (dataBlock v) k = s.frameData l v := by
  rw [State.rxBlock, if_pos (header_dataBlock v), payloadOf_dataBlock]

theorem State.rxBlock_start (f : LaceFrame) : s.rxBlock l lane w (ctrlBlock f.start) k = s.openFrame l f.start := by
  rw [State.rxBlock, if_neg (header_ctrlBlock_ne _), ctrlType_start, payloadOf_ctrlBlock]
  rfl

theorem State.rxBlock_fin (f : LaceFrame) : s.rxBlock l lane w (ctrlBlock f.fin) k = s.closeFrame l f.fin w.mem k := by
  rw [State.rxBlock, if_neg (header_ctrlBlock_ne _), ctrlType_fin, payloadOf_ctrlBlock]
  rfl

theorem State.rxBlock_bad_header (b : LaceBlock) (h1 : b.extractLsb' 0 2 ≠ 1#2) (h2 : b.extractLsb' 0 2 ≠ 2#2) :
    s.rxBlock l lane w b k = s.badBlock l (if w.lost.getLsbD lane = true then 11 else 1) := by
  rw [State.rxBlock, if_neg h1, ctrlType_of_header_ne b h2]

end

theorem LaceOpen.err_of_crc_ne {o : LaceOpen} {fin : BitVec 64} (hbad : o.bad = 0)
    (hcrc : fin.extractLsb' 8 32 ≠ (frameOf o.start o.data).crc) : o.err fin = 2 := by
  simp [LaceOpen.err, hbad, hcrc]

/-- A frame's own END shows nothing but an uncorrectable token half. -/
theorem LaceOpen.err_fin {o : LaceOpen} {f : LaceFrame} (hf : frameOf o.start o.data = f) (hbad : o.bad = 0) :
    o.err f.fin = if f.ftype = 1 ∧ f.tokenBits = none then 9 else 0 := by
  simp [LaceOpen.err, hf, hbad, f.fin_crc, f.fin_reserved]

theorem State.closeFrame_fin {s : State} {l : Nat} {o : LaceOpen} {os : List LaceOpen} {f : LaceFrame}
    (h : (s.lnk l).opens = o :: os) (hstart : o.start = f.start) (hdata : o.data = f.data) (hbad : o.bad = 0)
    (k : LaceFrame → State → State) : s.closeFrame l f.fin false k =
      (s.setOpens l os).rxFrame l f (if f.ftype = 1 ∧ f.tokenBits = none then 9 else 0) (k f) := by
  have hf : frameOf o.start o.data = f := by rw [hstart, hdata, frameOf_start]
  rw [State.closeFrame_of_opens h hbad, hf, LaceOpen.err_fin hf hbad]

/-! ### All the blocks of a frame -/

/-- R505: the blocks from a place `n` of the stream on, each from its lane. -/
def State.rxBlocksFrom (s : State) (l : Nat) (w : LaceBlocks) (k : LaceFrame → State → State) (n : Nat)
    (bs : List LaceBlock) : State :=
  (bs.zipIdx n).foldl (fun s e => s.rxBlock l (laneAt (s.lnk l).rxMask e.2) w e.1 k) s

theorem State.rxBlocks_eq_rxBlocksFrom (s : State) (l : Nat) (w : LaceBlocks) (k : LaceFrame → State → State) :
    s.rxBlocks l w k = s.rxBlocksFrom l w k w.first.val w.blocks := rfl

theorem State.rxBlocksFrom_cons (s : State) (l : Nat) (w : LaceBlocks) (k : LaceFrame → State → State) (n : Nat)
    (b : LaceBlock) (bs : List LaceBlock) : s.rxBlocksFrom l w k n (b :: bs) =
      (s.rxBlock l (laneAt (s.lnk l).rxMask n) w b k).rxBlocksFrom l w k (n + 1) bs := rfl

/-- The data blocks and the END of a frame, after its START and the data `d`. -/
theorem State.rxBlocksFrom_data_fin {s : State} {l : Nat} {w : LaceBlocks} {f : LaceFrame} (hup : (s.lnk l).up = true)
    (hmem : w.mem = false) (k : LaceFrame → State → State) (n : Nat) (d vs : List (BitVec 64)) (hd : d ++ vs = f.data) :
    (s.setOpens l [{ start := f.start, data := d }]).rxBlocksFrom l w k n (vs.map dataBlock ++ [ctrlBlock f.fin]) =
      (s.setOpens l []).rxFrame l f (if f.ftype = 1 ∧ f.tokenBits = none then 9 else 0) (k f) := by
  induction vs generalizing n d with
  | nil =>
    rw [List.append_nil] at hd
    rw [List.map_nil, List.nil_append, State.rxBlocksFrom_cons, State.rxBlock_fin, hmem,
      State.closeFrame_fin (congrArg LaceLink.opens (s.lnk_setOpens l _)) rfl hd rfl, State.setOpens_setOpens hup]
    rfl
  | cons v vs ih =>
    rw [List.map_cons, List.cons_append, State.rxBlocksFrom_cons, State.rxBlock_data,
      State.frameData_of_opens (congrArg LaceLink.opens (s.lnk_setOpens l _)), State.setOpens_setOpens hup]
    exact ih (n + 1) (d ++ [v]) (by rw [List.append_assoc, List.singleton_append, hd])

theorem State.rxBlocks_blocks {s : State} {l : Nat} {w : LaceBlocks} {f : LaceFrame} (hw : w.blocks = f.blocks)
    (hmem : w.mem = false) (hup : (s.lnk l).up = true) (hopens : (s.lnk l).opens = []) (k : LaceFrame → State → State) :
    s.rxBlocks l w k =
      (s.setOpens l []).rxFrame l f (if f.ftype = 1 ∧ f.tokenBits = none then 9 else 0) (k f) := by
  rw [State.rxBlocks_eq_rxBlocksFrom, hw, LaceFrame.blocks, List.cons_append, State.rxBlocksFrom_cons,
    State.rxBlock_start, State.openFrame_of_no_opens hopens]
  exact State.rxBlocksFrom_data_fin hup hmem k _ [] f.data rfl

theorem LaceLink.types_blocks {x : LaceLink} {w : LaceBlocks} {f : LaceFrame} (hw : w.blocks = f.blocks)
    (hopens : x.opens = []) : x.types w = [f.ftype.toNat] := by
  have hstarts : f.blocks.filter (fun b => ctrlType b == some 0x78) = [ctrlBlock f.start] := by
    simp [LaceFrame.blocks, ctrlType_start, ctrlType_fin, ctrlType_dataBlock]
  have hftype : (frameOf f.start []).ftype = f.ftype :=
    (congrArg LaceFrame.ftype (frameOf_start f) : (frameOf f.start f.data).ftype = f.ftype)
  rw [LaceLink.types, hopens, hw, hstarts]
  simp [payloadOf_ctrlBlock, hftype]

theorem State.rxRow_of_down {s : State} {l : Nat} (h : (s.lnk l).up = false) (ft : Nat) (w : LaceBlocks)
    (k : LaceFrame → State → State) : s.rxRow l ft w k = s :=
  if_neg fun hup => absurd (h.symm.trans hup.1) Bool.false_ne_true

/-! ### A frame in its place is accepted (R529 to R532, R537) -/

theorem seqBefore_self (q : BitVec 12) : seqBefore q q = false := by
  rw [seqBefore, BitVec.sub_self]
  rfl

/-- R529, R530: the receiver of a frame's virtual channel expects it and has space for it. -/
def State.inPlace (s : State) (l : Nat) (f : LaceFrame) : Prop :=
  f.vc.toNat < 3 ∧ f.seq = (((s.lnk l).rx[f.vc.toNat]?).getD {}).expect
    ∧ f.data.length + 2 ≤ (((s.lnk l).rx[f.vc.toNat]?).getD {}).free

/-- R529: the receiver expects the next frame. -/
def State.expectNext (s : State) (l : Nat) (f : LaceFrame) : State :=
  (s.updLink l fun x => { x with quietFrom := s.time.now }).updRx l f.vc.toNat fun r =>
    { r with expect := r.expect + 1, dropped := false }

section
variable {s : State} {l : Nat} {f : LaceFrame} (h : s.inPlace l f) (k : State → State)
include h

theorem State.rxFrame_inPlace : s.rxFrame l f 0 k =
    match contentFault f 0 with
    | some c => (((s.expectNext l f).sendAck l f.vc.toNat f.seq.toNat (f.data.length + 2)).sendReject l c f).laceVio l c f
    | none =>
      if (s.expectNext l f).spaceHeld l f = true then
        (((s.expectNext l f).updRx l f.vc.toNat fun r => { r with free := r.free - (f.data.length + 2) }).sendAck l
          f.vc.toNat f.seq.toNat 0).laceRoute l f k
      else ((s.expectNext l f).sendAck l f.vc.toNat f.seq.toNat (f.data.length + 2)).laceRoute l f k := by
  obtain ⟨hvc, hseq, hfree⟩ := h
  simp only [State.rxFrame, Nat.ne_of_lt hvc, Nat.not_lt.mpr hfree, ← hseq, seqBefore_self, ne_eq, not_true,
    Bool.false_eq_true, OfNat.zero_ne_ofNat, zero_ne_one, or_self, if_false]
  cases contentFault f 0 with
  | some c => rfl
  | none =>
    change ((if (s.expectNext l f).spaceHeld l f = true then _ else s.expectNext l f).sendAck l f.vc.toNat f.seq.toNat
      (if (s.expectNext l f).spaceHeld l f = true then 0 else f.data.length + 2)).laceRoute l f k = _
    dsimp only
    split
    · rfl
    · rfl

theorem State.rxFrame_of_content (hc : contentFault f 0 = none) (hheld : (s.expectNext l f).spaceHeld l f = false) :
    s.rxFrame l f 0 k =
      ((s.expectNext l f).sendAck l f.vc.toNat f.seq.toNat (f.data.length + 2)).laceRoute l f k := by
  rw [State.rxFrame_inPlace h, hc, hheld]
  exact if_neg Bool.false_ne_true

end

/-- R531: the route of a frame that is no PROBE ends at the device it names; a TEST frame ends on any. -/
theorem State.laceRoute_of_end {s : State} {f : LaceFrame} (hhop : f.hops.toNat ≤ f.hop.toNat)
    (hdest : f.ftype = 0x10 ∨ f.ftype = 0x12 ∨ f.dest = s.deviceId) (l : Nat) (k : State → State) :
    s.laceRoute l f k = k s := by
  have hend : ¬ f.hop.toNat + 1 < f.hops.toNat + 1 := by omega
  rw [State.laceRoute]
  rcases hdest with hprobe | htest | hhere
  · exact if_pos hprobe
  · simp [htest, hend]
  · simp [hhere, hend]

/-- R524: a frame whose route ends here leaves no space held. -/
theorem State.spaceHeld_of_end {f : LaceFrame} (hhop : f.hops.toNat ≤ f.hop.toNat) (s : State) (l : Nat) :
    s.spaceHeld l f = false := by
  have hend : ¬ f.hop.toNat + 1 < f.hops.toNat + 1 := by omega
  simp [State.spaceHeld, hend]

/-! ### A frame is taken -/

/-- R527 to R532, R537: all the blocks of a frame for this device come, and nothing stands against it. -/
structure State.takes (s : State) (l : Nat) (w : LaceBlocks) (f : LaceFrame) : Prop where
  blocks : w.blocks = f.blocks
  mem : w.mem = false
  up : (s.lnk l).up = true
  opens : (s.lnk l).opens = []
  place : s.inPlace l f
  content : contentFault f 0 = none
  hop : f.hops.toNat ≤ f.hop.toNat
  dest : f.ftype = 0x10 ∨ f.ftype = 0x12 ∨ f.dest = s.deviceId
  token : f.ftype = 1 → f.tokenBits ≠ none

/-- The state that a taken frame finds: no frame is open, the next one is expected, this one is acknowledged. -/
def State.afterFrame (s : State) (l : Nat) (f : LaceFrame) : State :=
  ((s.setOpens l []).expectNext l f).sendAck l f.vc.toNat f.seq.toNat (f.data.length + 2)

theorem State.deviceId_congr {s t : State} (h : t.regs = s.regs) : t.deviceId = s.deviceId := by
  simp only [State.deviceId, State.rd, State.word, h]

@[simp] theorem State.sendAck_regs (s : State) (l vc seq credit : Nat) : (s.sendAck l vc seq credit).regs = s.regs := by
  simp [State.sendAck, State.laceOut]

@[simp] theorem State.expectNext_regs (s : State) (l : Nat) (f : LaceFrame) : (s.expectNext l f).regs = s.regs := by
  simp [State.expectNext, State.updRx]

@[simp] theorem State.setOpens_regs (s : State) (l : Nat) (os : List LaceOpen) : (s.setOpens l os).regs = s.regs :=
  s.updLink_regs l _

theorem State.deviceId_afterFrame (s : State) (l : Nat) (f : LaceFrame) : (s.afterFrame l f).deviceId = s.deviceId :=
  State.deviceId_congr (by simp [State.afterFrame])

theorem State.inPlace_setOpens {s : State} {l : Nat} {f : LaceFrame} (h : s.inPlace l f) (os : List LaceOpen) :
    (s.setOpens l os).inPlace l f := by
  rw [State.inPlace, State.lnk_setOpens]
  exact h

theorem State.rxRow_of_takes {s : State} {l : Nat} {w : LaceBlocks} {f : LaceFrame} (h : s.takes l w f) {ft : Nat}
    (hft : f.ftype.toNat = ft) (k : LaceFrame → State → State) : s.rxRow l ft w k = k f (s.afterFrame l f) := by
  have hrow : (s.lnk l).up = true ∧ ((s.lnk l).types w).all (fun t => t == ft || (frameLen t 1).isNone) = true := by
    simp [h.up, LaceLink.types_blocks h.blocks h.opens, hft]
  have herr : ¬ (f.ftype = 1 ∧ f.tokenBits = none) := fun e => h.token e.1 e.2
  have hdest : f.ftype = 0x10 ∨ f.ftype = 0x12 ∨ f.dest = (s.afterFrame l f).deviceId := by
    rw [State.deviceId_afterFrame]
    exact h.dest
  rw [State.rxRow, if_pos hrow, State.rxBlocks_blocks h.blocks h.mem h.up h.opens, if_neg herr,
    State.rxFrame_of_content (State.inPlace_setOpens h.place []) _ h.content (State.spaceHeld_of_end h.hop _ _),
    ← State.afterFrame, State.laceRoute_of_end h.hop hdest]

/-- R162, R373, R400, R533 to R536, R702: what each type does in the state that it is delivered to. -/
theorem exec_frame_of_takes {l : Fin 8} {w : LaceBlocks} {e : Word} {f : LaceFrame} {s : State} (h : s.takes l w f) :
    let t := s.afterFrame l f
    (f.ftype = 1 → exec (.decisionFrame l w.blocks w.toLaceArrival) s = .next (State.decisionIn f t))
    ∧ (f.ftype = 2 → exec (.triggerFrame l w.blocks w.toLaceArrival) s = .next (State.triggerIn f t))
    ∧ (f.ftype = 3 → exec (.barrierFrame l w.blocks w.toLaceArrival) s = .next (t.holdBarrier f))
    ∧ (f.ftype = 4 → exec (.boundaryFrame l w.blocks w.toLaceArrival) s = .next (t.boundaryFrame f))
    ∧ (f.ftype = 0x10 → exec (.probe l w.blocks w.toLaceArrival) s = .next (t.rxProbe l f))
    ∧ (f.ftype = 0x11 → exec (.reply l w.blocks w.toLaceArrival) s = .next (t.rxReply f))
    ∧ (f.ftype = 0x20 → exec (.summary l w.blocks w.toLaceArrival) s = .next (t.rxSummary f))
    ∧ (f.ftype = 0x21 → exec (.reject l w.blocks w.toLaceArrival) s = .next t)
    ∧ (f.ftype = 0x22 → exec (.timeFrame l w.blocks w.toLaceArrival) s = .next (t.timeIn l f))
    ∧ (f.ftype = 0x12 → e = 0 → exec (.testFrame l w.blocks w.toLaceArrival e) s = .next t)
    ∧ (f.ftype = 0x12 → e ≠ 0 → t.diagnostic = true → exec (.testFrame l w.blocks w.toLaceArrival e) s = .next
      (t.postCoarse t.home 1012 0xA3 0 [(0x14, 1, l.val), (0x18, 4, e.toNat)])) := by
  have hrow {n : BitVec 6} (hn : f.ftype = n) (k : LaceFrame → State → State) :
      (.next (s.rxRow l n.toNat w k) : Host.Outcome State Fault Refusal) = .next (k f (s.afterFrame l f)) :=
    congrArg Host.Outcome.next (State.rxRow_of_takes h (congrArg BitVec.toNat hn) k)
  exact ⟨fun hn => hrow hn _, fun hn => hrow hn _, fun hn => hrow hn fun f s => s.holdBarrier f,
    fun hn => hrow hn fun f s => s.boundaryFrame f, fun hn => hrow hn fun f s => s.rxProbe l f,
    fun hn => hrow hn fun f s => s.rxReply f, fun hn => hrow hn fun f s => s.rxSummary f, fun hn => hrow hn fun _ s => s,
    fun hn => hrow hn fun f s => s.timeIn l f,
    fun hn he => (hrow hn _).trans (congrArg _ (if_neg fun hd => hd.2 he)),
    fun hn he hd => (hrow hn _).trans (congrArg _ (if_pos ⟨hd, he⟩))⟩

/-! ### Beacons (R540, R541) -/

theorem exec_bcn0 (l : Fin 8) (h : BitVec 2) (p : BitVec 64) (arr : BitVec 16) (s : State) : exec (.bcn0 l h p arr) s = .next
    (let b : LaceBlock := p ++ h
     if ctrlType b = some 0x55 ∧ (s.lnk l).up = true then s.updLink l fun x => { x with beat := { x.beat with
       wait := some (blockField b 53 24 * 65536 + blockField b 23 8, s.time.dev.ns.toNat * 65536 + arr.toNat)
       d := some (halfSecond (((s.time.dev.ns.toNat * 65536 + arr.toNat : Nat) : Int)
         - ((blockField b 53 24 * 65536 + blockField b 23 8 : Nat) : Int))) } }
     else s) := by
  simp only [exec, execBcn0, State.bcn0, ite_and]

theorem exec_bcn1_of_ctrlType {l : Fin 8} {h : BitVec 2} {ty : BitVec 8} {d : BitVec 32} {r : BitVec 24} {s : State}
    (ht : ctrlType (blockParts h ty (r ++ d)) = some 0x5A) : exec (.bcn1 l h ty d r) s =
      .next (let b := blockParts h ty (r ++ d)
        s.bcn1 l (blockField b 39 8) (blockField b 57 40) (blockField b 61 58) (blockField b 62 62 == 1)) :=
  congrArg Host.Outcome.next (if_pos ht)

theorem State.bcn1_of_no_wait {s : State} {l : Nat} (h : (s.lnk l).beat.wait = none) (d root rhops : Nat) (align : Bool) :
    s.bcn1 l d root rhops align = s := by
  simp only [State.bcn1, h]

theorem exec_bcn1_of_idle {l : Fin 8} {h : BitVec 2} {ty : BitVec 8} {d : BitVec 32} {r : BitVec 24} {s : State}
    (hidle : ctrlType (blockParts h ty (r ++ d)) ≠ some 0x5A ∨ (s.lnk l).beat.wait = none) :
    exec (.bcn1 l h ty d r) s = .next s := by
  by_cases ht : ctrlType (blockParts h ty (r ++ d)) = some 0x5A
  · rw [exec_bcn1_of_ctrlType ht, State.bcn1_of_no_wait (hidle.resolve_left (not_not.mpr ht))]
  · exact congrArg Host.Outcome.next (if_neg ht)

/-- R541, R542: what a BCN1 makes of a link's measurements: the rank it carries, and a new estimate of each kind. -/
def LaceBeat.estimate (b : LaceBeat) (d back asym : Int) (root rhops : Nat) (align : Bool) : LaceBeat :=
  { b with
    wait := none
    root := root
    rhops := rhops
    ralign := align
    thetas := (rndNearest (d - back - asym) 2 :: b.thetas).take 64
    deltas := (rndNearest (d + back) 2 :: b.deltas).take 64
    theta := meanInt ((rndNearest (d - back - asym) 2 :: b.thetas).take 64)
    delta := meanInt ((rndNearest (d + back) 2 :: b.deltas).take 64) }

theorem State.bcn1_of_wait {s : State} {l t3 t4 : Nat} (h : (s.lnk l).beat.wait = some (t3, t4)) {d : Nat}
    (hd : d ≠ 0x80000000) (root rhops : Nat) (align : Bool) : s.bcn1 l d root rhops align =
      (s.updLink l fun x => { x with
        beat := (s.lnk l).beat.estimate (signedOf 32 d) (halfSecond ((t4 : Int) - (t3 : Int))) (s.laceAsym l) root rhops
          align }).offsetCheck l := by
  simp only [State.bcn1, h, if_neg hd]
  rfl

/-! ### Time over lace (R542, R543) -/

theorem State.laceAlign_of_off {s : State} (h : s.jobBoundary = false ∨ s.time.holding = true) : s.laceAlign = s :=
  if_pos (by rcases h with h | h <;> simp [h])

theorem State.laceAlign_of_followed {s : State} {l : Nat} (hjob : s.jobBoundary = true) (hhold : s.time.holding = false)
    (hchoice : s.followChoice = some l) (hfollow : s.lace.follow = some l) (hdom : s.time.domain ≠ 0) : s.laceAlign =
      State.shiftThetas { (s.correctBy (s.laceOffset l)).1 with
          time.domain := if (s.lnk l).beat.ralign = true then 3 else 0 }
        (s.correctBy (s.laceOffset l)).2 := by
  have hoff : ¬ (!s.jobBoundary || s.time.holding) = true := by simp [hjob, hhold]
  rw [State.laceAlign, if_neg hoff]
  dsimp only
  rw [hchoice, hfollow, if_pos rfl]
  exact if_neg hdom

/-! ### Rows (R505) -/

theorem widthOf_four_lanes : widthOf 15 = 4 := by decide

theorem LaceLink.takeRow_of_stream {x : LaceLink} (hmask : x.txMask = 15) (hbcn : x.bcnWait = []) (hwait : x.txWait ≠ []) :
    x.takeRow.1.length = 4 ∧ x.takeRow.1.head? = (x.txWait.head?.map (·.2))
      ∧ x.takeRow.2 = { x with txWait := x.txWait.drop 4 } := by
  obtain ⟨e, es, he⟩ := List.exists_cons_of_ne_nil hwait
  simp [LaceLink.takeRow, hmask, hbcn, he, widthOf_four_lanes]

/-! ### The commands -/

theorem exec_bcn0_of_up {l : Fin 8} {h : BitVec 2} {p : BitVec 64} (arr : BitVec 16) {s : State}
    (ht : ctrlType (p ++ h : LaceBlock) = some 0x55) (hup : (s.lnk l).up = true) :
    let b : LaceBlock := p ++ h
    ∃ t : State, exec (.bcn0 l h p arr) s = .next t ∧ (t.lnk l).beat.wait =
      some (blockField b 53 24 * 65536 + blockField b 23 8, s.time.dev.ns.toNat * 65536 + arr.toNat) ∧ t.regs = s.regs
      ∧ t.recs = s.recs := by
  refine ⟨_, (exec_bcn0 l h p arr s).trans (congrArg _ (if_pos ⟨ht, hup⟩)), ?_, rfl, rfl⟩
  rw [State.lnk_updLink_same]

theorem exec_bcn1_of_wait {l : Fin 8} {h : BitVec 2} {ty : BitVec 8} {d : BitVec 32} {r : BitVec 24} {s : State} {a b : Nat}
    (ht : ctrlType (blockParts h ty (r ++ d)) = some 0x5A) (hwait : (s.lnk l).beat.wait = some (a, b))
    (hd : blockField (blockParts h ty (r ++ d)) 39 8 ≠ 0x80000000) :
    let blk := blockParts h ty (r ++ d)
    ∃ t : State, exec (.bcn1 l h ty d r) s = .next (t.offsetCheck l)
      ∧ (t.lnk l).beat.wait = none ∧ (t.lnk l).beat.root = blockField blk 57 40
      ∧ (t.lnk l).beat.rhops = blockField blk 61 58
      ∧ (t.lnk l).beat.ralign = (blockField blk 62 62 == 1)
      ∧ (t.lnk l).beat.thetas = (rndNearest (signedOf 32 (blockField blk 39 8) - halfSecond ((b : Int) - (a : Int))
          - s.laceAsym l) 2 :: (s.lnk l).beat.thetas).take 64
      ∧ (t.lnk l).beat.theta = meanInt (t.lnk l).beat.thetas ∧ (∀ n : Nat, n ≠ l.val → t.lnk n = s.lnk n) := by
  refine ⟨_, (exec_bcn1_of_ctrlType ht).trans (congrArg _ (State.bcn1_of_wait hwait hd _ _ _)), ?_⟩
  rw [State.lnk_updLink_same]
  exact ⟨rfl, rfl, rfl, rfl, rfl, rfl, fun n hn => s.lnk_updLink_other l n _ hn⟩

theorem State.decisionIn_of_known {f : LaceFrame} {v : BitVec 64} (hv : f.tokenBits = some v)
    (hk : tokenKnown (Token.ofNat v.toNat) = true) (s : State) :
    State.decisionIn f s = { s with planes.copies := s.planes.copies ++ (seqsOf (f.d 2)).map fun k =>
      (k, { Token.ofNat v.toNat with smp := s.tickLoSample (bitsOf v.toNat 15 0) }) } := by
  simp only [State.decisionIn, hv]
  exact if_pos hk

theorem exec_resendTimeout_of_single {l : Fin 8} {vc : Fin 3} {s : State} {e : LaceFrame × Nat × Nat}
    (h : ((s.lnk l).tx[vc]).sent = [e]) (he : e.2.2 < 8) (hup : (s.lnk l).up = true) (hlate : e.2.1 + 2000 ≤ s.time.now) :
    exec (.resendTimeout ⟨l, vc⟩ false) s = .next
      (((s.updTx l vc fun t => { t with sent := [(e.1, s.time.now, e.2.2 + 1)] }).laceOut l (.frame e.1)).count
        Reg.LC_CNT.REPLAY [l]) :=
  congrArg Host.Outcome.next ((State.resendTimeout_of_oldest h false).trans
    ((if_pos ⟨hup, hlate⟩).trans (State.resendFrom_single h he)))

/-- Settles O52. The acknowledging commands go by what their block spells (`linkctlOf`); a whole frame is an induction on
its data blocks (`State.rxBlocksFrom_data_fin`), and what stands against it is judged once (`State.rxRow_of_takes`). -/
theorem laceFramesAndBeacons : Obligations.LaceFramesAndBeacons :=
  ⟨fun _ _ _ _ _ _ => ⟨exec_ack_of_none, exec_nak_of_none⟩,
   linkctlOf_of_fields,
   fun _ _ _ _ _ _ _ _ _ => exec_ack_of_linkctl,
   fun _ _ _ _ _ _ _ _ _ _ => exec_nak_of_linkctl,
   fun _ _ bad _ h => congrArg Host.Outcome.next (State.resendTimeout_of_none h bad),
   fun _ _ bad _ _ _ h => congrArg Host.Outcome.next (State.resendTimeout_of_oldest h bad),
   fun _ _ _ _ => State.resendFrom_single,
   -- frames and their blocks
   fun _ _ ft w k h => State.rxRow_of_down h ft w k,
   fun _ _ _ k hvc hseq hfree => State.rxFrame_inPlace ⟨hvc, hseq, hfree⟩ k,
   fun _ l _ k _ hhop hdest => State.laceRoute_of_end hhop (.inr (.inr hdest)) l k,
   frameOf_start,
   fun f w lane l s k h => (s.rxBlock_start l lane w k f).trans (State.openFrame_of_no_opens h _),
   fun _ _ v w lane l s k h => (s.rxBlock_data l lane w k v).trans (State.frameData_of_opens h v),
   fun _ _ f w lane l s k h hstart hdata hbad hmem => (s.rxBlock_fin l lane w k f).trans
    (hmem ▸ State.closeFrame_fin h hstart hdata hbad k),
   fun _ _ b w lane l s k h h1 h2 hlen => (s.rxBlock_bad_header l lane w k b h1 h2).trans (State.badBlock_of_opens h hlen _),
   fun _ _ => LaceOpen.err_of_crc_ne,
   -- what a frame command delivers
   fun _ _ _ => ⟨rfl, rfl, rfl, rfl, rfl, rfl, rfl, rfl, rfl⟩,
   fun _ _ _ _ => rfl,
   fun _ _ s hv hk => State.decisionIn_of_known hv hk s,
   fun _ _ => rfl,
   fun _ _ _ => rfl,
   -- time and beacons
   fun _ _ => rfl,
   fun _ _ _ => rfl,
   exec_bcn0,
   fun _ _ _ _ _ _ => exec_bcn1_of_idle,
   fun _ _ _ _ _ _ _ _ => exec_bcn1_of_wait,
   fun _ h => congrArg Host.Outcome.next (State.laceAlign_of_off h),
   fun _ _ hjob hhold hchoice hfollow hdom =>
    congrArg Host.Outcome.next (State.laceAlign_of_followed hjob hhold hchoice hfollow hdom),
   -- the commands where they act
   fun _ _ _ _ _ _ _ _ _ hb hup => (exec_ack_of_linkctl hb).trans (congrArg _ (if_pos hup)),
   fun _ _ _ _ _ _ _ _ _ hb hup => (exec_nak_of_linkctl hb).trans (congrArg _ (if_pos hup)),
   fun _ _ _ _ => exec_resendTimeout_of_single,
   fun _ _ _ _ _ hw hmem hup hopens hvc hseq hfree hcontent hhop hdest htoken =>
    exec_frame_of_takes ⟨hw, hmem, hup, hopens, ⟨hvc, hseq, hfree⟩, hcontent, hhop, hdest, htoken⟩,
   fun _ _ hup hdue => congrArg Host.Outcome.next (if_pos ⟨hup, hdue⟩),
   fun _ _ _ hawake hup hidle hns => congrArg Host.Outcome.next (if_pos ⟨hawake, hup, hidle, hns⟩),
   fun _ _ _ arr _ => exec_bcn0_of_up arr,
   fun _ => LaceLink.takeRow_of_stream⟩

end Sys2Proof.Machine
end

section
/-! PROOFS. The bias outputs: ramps and range sequences (R427, R428), waveforms (R424, R426), the conditions of an output
and the actions they take (R430 to R434), and the preset of a flux chain (R417). -/

namespace Sys2Proof.Machine

open Host.Outcome (next)

/-! ### RAMP_DONE (R427, R428) -/

theorem State.rampDone_of_ramp {s : State} {k : Nat} {t : Int} {since : Nat} (h : (s.biasOut k).move = .ramp t since) :
    s.rampDone k = if since + s.rampLen k (t - (s.biasOut k).code) ≤ s.time.now then
      s.updBias k fun b => { b with code := t, move := .steady } else s := by
  simp only [State.rampDone, h]

theorem State.rampDone_of_toZero {s : State} {k since r : Nat} {c : Int} (h : (s.biasOut k).move = .toZero since r c) :
    s.rampDone k = if since + s.rampLen k (s.biasOut k).code ≤ s.time.now then
      s.updBias k fun b => { b with code := 0, move := .hold s.time.now r c } else s := by
  simp only [State.rampDone, h]

theorem State.rampDone_of_up {s : State} {k : Nat} {t : Int} {since : Nat} (h : (s.biasOut k).move = .up t since) :
    s.rampDone k = if since + s.rampLen k (t - (s.biasOut k).code) ≤ s.time.now then s.rangeDone k t else s := by
  simp only [State.rampDone, h]

theorem State.rampDone_of_steady {s : State} {k : Nat} (h : (s.biasOut k).move = .steady) : s.rampDone k = s := by
  simp only [State.rampDone, h]

/-! ### Range sequences (R427) -/

theorem State.rangeHoldEnd_of_hold {s : State} {k since r : Nat} {c : Int} (h : (s.biasOut k).move = .hold since r c) :
    s.rangeHoldEnd k = if since + 20000 ≤ s.time.now then
      s.updBias k fun b => { b with range := r, code := 0, move := .up c s.time.now } else s := by
  simp only [State.rangeHoldEnd, h]

theorem State.rangeHoldEnd_of_steady {s : State} {k : Nat} (h : (s.biasOut k).move = .steady) : s.rangeHoldEnd k = s := by
  simp only [State.rangeHoldEnd, h]

theorem State.biasFreeze_biasOut_same (s : State) (k : Nat) :
    (s.biasFreeze k).biasOut k = { s.biasOut k with code := s.biasCode k, move := .steady } :=
  s.biasOut_updBias_same k _

theorem State.biasFreeze_biasOut_other (s : State) {k n : Nat} (hn : n ≠ k) : (s.biasFreeze k).biasOut n = s.biasOut n :=
  s.biasOut_updBias_other k n _ hn

/-- R427: the code in the new range, before it is clamped to 20 bits. -/
def State.rescaledCode (s : State) (k : Nat) : Int :=
  rndNearest (s.biasCode k * (4 ^ (s.biasOut k).range : Nat)) (4 ^ s.rd Reg.BIA_CFG.RANGE [k])

/-- R427: the output has begun the ramp to zero of its range sequence. -/
def State.rangeBegun (s : State) (k : Nat) : State :=
  (s.biasFreeze k).updBias k fun b => { b with
    rangeWait := false
    move := .toZero s.time.now (s.rd Reg.BIA_CFG.RANGE [k]) (satInt 20 (s.rescaledCode k))
    seqFrom := s.time.now
    oldRange := b.range }

theorem State.rangeBegun_biasOut_same (s : State) (k : Nat) : (s.rangeBegun k).biasOut k = { s.biasOut k with
    code := s.biasCode k
    rangeWait := false
    move := .toZero s.time.now (s.rd Reg.BIA_CFG.RANGE [k]) (satInt 20 (s.rescaledCode k))
    seqFrom := s.time.now
    oldRange := (s.biasOut k).range } := by
  rw [State.rangeBegun, State.biasOut_updBias_same, State.biasFreeze_biasOut_same]

theorem State.rangeBegun_biasOut_other (s : State) {k n : Nat} (hn : n ≠ k) : (s.rangeBegun k).biasOut n = s.biasOut n :=
  (State.biasOut_updBias_other _ k n _ hn).trans (s.biasFreeze_biasOut_other hn)

/-- R427: a sequence starts from the frozen code; the log takes a rescaled code that was clamped. -/
theorem State.rangeStart_eq (s : State) (k : Nat) :
    s.rangeStart k = if s.rescaledCode k = satInt 20 (s.rescaledCode k) then s.rangeBegun k
      else (s.rangeBegun k).runtimeClamp (256 + k) (wrapInt 32 (s.rescaledCode k))
        (wrapInt 32 (satInt 20 (s.rescaledCode k))) := by
  simp only [State.rangeStart, State.biasFreeze_biasOut_same]
  rfl

/-! ### BIAS_WAVE_POINT (R424, R426) -/

theorem State.biasWavePoint_of_none {s : State} {k : Nat} (h : (s.biasOut k).wave = none) (bad : Bool) :
    s.biasWavePoint k bad = s := by
  simp only [State.biasWavePoint, h]

theorem State.biasWavePoint_of_early {s : State} {k : Nat} {w : BiasWave} (h : (s.biasOut k).wave = some w)
    (hdue : s.time.now < w.due) (bad : Bool) : s.biasWavePoint k bad = s := by
  simp only [State.biasWavePoint, h, if_neg (Nat.not_le.mpr hdue)]

theorem State.biasWavePoint_of_due {s : State} {k : Nat} {w : BiasWave} (h : (s.biasOut k).wave = some w)
    (hdue : w.due ≤ s.time.now) (bad : Bool) : s.biasWavePoint k bad = s.waveStep k bad := by
  simp only [State.biasWavePoint, h, if_pos hdue]

theorem State.waveStep_bad {s : State} {k : Nat} {w : BiasWave} (h : (s.biasOut k).wave = some w) :
    s.waveStep k true = s.waveError k (w.start + w.next) := by
  simp only [State.waveStep, h, if_true]

/-- R424: the waveform after its next point: over, back at point 0, or one point on. -/
def BiasWave.afterPoint (w : BiasWave) : Option BiasWave :=
  if w.next + 1 = w.len ∧ w.loop = false then none
  else some { w with next := if w.next + 1 = w.len then 0 else w.next + 1, due := w.due + w.period * 1000 }

theorem BiasWave.afterPoint_within {w : BiasWave} (hlen : w.next + 1 ≠ w.len) :
    w.afterPoint = some { w with next := w.next + 1, due := w.due + w.period * 1000 } := by
  rw [BiasWave.afterPoint, if_neg (fun hend => hlen hend.1), if_neg hlen]

theorem State.waveStep_good {s : State} {k : Nat} {w : BiasWave} (h : (s.biasOut k).wave = some w) :
    s.waveStep k false = s.updBias k fun b => { b with
      code := s.wavePoint (k / 64) (w.start + w.next), move := .steady, wave := w.afterPoint } := by
  simp [State.waveStep, BiasWave.afterPoint, h]

theorem State.biasWavePoint_of_some {s : State} {k : Nat} {w : BiasWave} (h : (s.biasOut k).wave = some w) (bad : Bool) :
    s.biasWavePoint k bad = if s.time.now < w.due then s
      else if bad = true then s.waveError k (w.start + w.next)
      else s.updBias k fun b => { b with
        code := s.wavePoint (k / 64) (w.start + w.next), move := .steady, wave := w.afterPoint } := by
  by_cases hdue : s.time.now < w.due
  · rw [State.biasWavePoint_of_early h hdue, if_pos hdue]
  · rw [State.biasWavePoint_of_due h (Nat.not_lt.mp hdue), if_neg hdue]
    cases bad with
    | true => exact State.waveStep_bad h
    | false => exact State.waveStep_good h

theorem State.biasWavePoint_within {s : State} {k : Nat} {w : BiasWave} (h : (s.biasOut k).wave = some w)
    (hdue : w.due ≤ s.time.now) (hlen : w.next + 1 ≠ w.len) :
    s.biasWavePoint k false = s.updBias k fun b => { b with
      code := s.wavePoint (k / 64) (w.start + w.next)
      move := .steady
      wave := some { w with next := w.next + 1, due := w.due + w.period * 1000 } } := by
  rw [State.biasWavePoint_of_due h hdue, State.waveStep_good h, BiasWave.afterPoint_within hlen]

/-! ### A bias record (R434) -/

theorem State.biasRecord_biasOut (s : State) (k c a : Nat) (inv : Bool) (n : Nat) :
    (s.biasRecord k c a inv).biasOut n = s.biasOut n := by
  rw [State.biasRecord, State.post_eq]
  rfl

theorem State.biasRecord_biasCode (s : State) (k c a : Nat) (inv : Bool) (n : Nat) :
    (s.biasRecord k c a inv).biasCode n = s.biasCode n := by
  rw [State.biasRecord, State.post_eq]
  rfl

/-- R25: a record flagged INVALID marks the shot that runs. -/
theorem State.post_job_of_invalid (s : State) (c : Nat) (ring : Ring) (src kind : Nat) {flags : Nat} (st : Stamp)
    (body : List (Nat × Nat × Nat)) (h : flags / 8 % 2 = 1) :
    (s.post c ring src kind flags st body).job = s.markInvalid.job := by
  unfold State.post State.holdBoot State.markInvalid State.updJob
  dsimp only
  rw [if_pos h]
  split
  · split <;> rfl
  · rfl

theorem State.biasRecord_job_of_invalid (s : State) (k c a : Nat) : (s.biasRecord k c a true).job = s.markInvalid.job :=
  s.post_job_of_invalid _ _ _ _ _ _ (by decide)

/-! ### The actions REPORT, HOLD and SAFE (R431, R432) -/

theorem State.biasAct_hold_eq (s : State) (k c : Nat) :
    s.biasAct k c 1 = ((s.biasRecord k c 1 (s.job.phase == .inShot)).biasFreeze k).updBias k fun b =>
      { b with st := 2, wave := none } := rfl

theorem State.biasAct_hold_same (s : State) (k c : Nat) :
    (s.biasAct k c 1).biasOut k = { s.biasOut k with code := s.biasCode k, move := .steady, st := 2, wave := none } := by
  rw [State.biasAct_hold_eq, State.biasOut_updBias_same, State.biasFreeze_biasOut_same, State.biasRecord_biasOut,
    State.biasRecord_biasCode]

theorem State.biasAct_hold_other (s : State) (c : Nat) {k n : Nat} (hn : n ≠ k) :
    (s.biasAct k c 1).biasOut n = s.biasOut n := by
  rw [State.biasAct_hold_eq, State.biasOut_updBias_other _ _ _ _ hn, State.biasFreeze_biasOut_other _ hn,
    State.biasRecord_biasOut]

/-- R432: an output goes to its safe value by a ramp, or by a sequence to another range: no other output moves. -/
theorem State.biasSafe_biasOut_other (s : State) {k n : Nat} (hn : n ≠ k) : (s.biasSafe k).biasOut n = s.biasOut n := by
  unfold State.biasSafe State.biasRamp
  dsimp only
  split
  · rw [State.biasOut_updBias_other _ _ _ _ hn, State.biasFreeze_biasOut_other _ hn, State.biasFreeze_biasOut_other _ hn]
  · rw [State.biasOut_updBias_other _ _ _ _ hn, State.biasFreeze_biasOut_other _ hn]

theorem State.biasSafe_job (s : State) (k : Nat) : (s.biasSafe k).job = s.job := by
  unfold State.biasSafe
  dsimp only
  split <;> rfl

theorem State.biasAct_safe_other (s : State) (c : Nat) {k n : Nat} (hn : n ≠ k) :
    (s.biasAct k c 2).biasOut n = s.biasOut n := by
  simp only [State.biasAct]
  rw [State.biasOut_updBias_other _ _ _ _ hn, State.biasSafe_biasOut_other _ hn, State.biasRecord_biasOut]

theorem State.biasAct_safe_same (s : State) (k c : Nat) : ((s.biasAct k c 2).biasOut k).st = 3
    ∧ ((s.biasAct k c 2).biasOut k).wave = none ∧ c ∈ ((s.biasAct k c 2).biasOut k).causes := by
  simp only [State.biasAct, State.biasOut_updBias_same, true_and]
  split
  · exact List.contains_iff_mem.mp ‹_›
  · exact List.mem_cons_self

/-- After its record, an action only moves outputs. -/
theorem State.biasAct_job (s : State) (k c a : Nat) :
    (s.biasAct k c a).job = (s.biasRecord k c a (decide (a ≠ 0) && s.job.phase == .inShot)).job := by
  unfold State.biasAct
  dsimp only
  split
  · rfl
  · rfl
  · exact State.biasSafe_job _ k

theorem State.biasAct_marks_shot {s : State} {k c a : Nat} (ha : a ≠ 0) (hshot : s.job.phase = .inShot) {j : Job}
    (hj : (s.biasAct k c a).job.job = some j) : j.shotInvalid = true := by
  have hinv : (decide (a ≠ 0) && s.job.phase == .inShot) = true := by simp [ha, hshot]
  rw [State.biasAct_job, hinv, State.biasRecord_job_of_invalid] at hj
  obtain ⟨_, -, rfl⟩ := Option.map_eq_some_iff.mp hj
  rfl

/-! ### Conditions (R430, R433) -/

theorem State.biasCompliance_begins {s : State} {k : Nat} (hst : (s.biasOut k).st ≠ 3) (hc : (s.biasOut k).compl = false)
    (ho : (s.biasOut k).openLoad = false) : s.biasCompliance k =
      (s.updBias k fun b => { b with compl := true }).biasAct k 1 (s.rd Reg.BIA_CFG.CACT [k]) := by
  simp only [State.biasCompliance, hst, hc, ho, or_self, Bool.false_eq_true, if_false]
  rfl

theorem State.biasOpenLoad_eq (s : State) (k : Nat) : s.biasOpenLoad k =
    if (s.biasOut k).st = 3 ∨ (s.biasOut k).openLoad = true ∨ (s.biasCode k).natAbs < 8192 then s
    else (s.updBias k fun b => { b with openLoad := true }).biasAct k 3 (s.rd Reg.BIA_CFG.OACT [k]) := by
  simp only [State.biasOpenLoad, openEligible, decide_eq_false_iff_not, Nat.not_le]
  rfl

theorem State.biasOpenLoad_begins {s : State} {k : Nat} (hst : (s.biasOut k).st ≠ 3) (ho : (s.biasOut k).openLoad = false)
    (hcode : 8192 ≤ (s.biasCode k).natAbs) : s.biasOpenLoad k =
      (s.updBias k fun b => { b with openLoad := true }).biasAct k 3 (s.rd Reg.BIA_CFG.OACT [k]) := by
  rw [State.biasOpenLoad_eq, if_neg]
  simp [hst, ho, hcode]

theorem State.biasRearm_of_held {s : State} {k : Nat} (h : (s.biasOut k).st = 2) :
    s.biasRearm k = (s.biasFreeze k).updBias k fun b => { b with st := 0, causes := [], openLoad := false } :=
  if_pos (.inl h)

theorem State.biasRearm_of_normal {s : State} {k : Nat} (h : (s.biasOut k).st = 0) :
    s.biasRearm k = s.updBias k fun b => { b with openLoad := false } := by
  simp [State.biasRearm, h]

/-! ### The commands -/

/-- Settles O47. Each command is the operation of its name: a movement goes by what moves the output, a waveform by its
next point, a condition by the action it takes after its record. -/
theorem biasOutputs : Obligations.BiasOutputs :=
  ⟨fun _ _ _ _ h => congrArg next (State.rampDone_of_ramp h),
   fun _ _ _ _ _ h => congrArg next (State.rampDone_of_toZero h),
   fun _ _ _ _ h => congrArg next (State.rampDone_of_up h),
   fun _ _ h => congrArg next (State.rampDone_of_steady h),
   fun _ _ _ => rfl,
   -- range sequences
   fun _ _ => rfl,
   fun s k =>
    have hout := s.rangeBegun_biasOut_same k
    ⟨s.rangeBegun k, s.rangeStart_eq k, congrArg Bias.move hout, congrArg Bias.rangeWait hout,
      congrArg Bias.seqFrom hout, congrArg Bias.oldRange hout, fun _ => s.rangeBegun_biasOut_other, rfl, rfl⟩,
   fun _ _ _ _ _ h => congrArg next (State.rangeHoldEnd_of_hold h),
   fun _ _ h => congrArg next (State.rangeHoldEnd_of_steady h),
   -- waveforms
   fun _ bad _ h => congrArg next (State.biasWavePoint_of_none h bad),
   fun _ bad _ _ h => congrArg next (State.biasWavePoint_of_some h bad),
   -- conditions, their actions and the flux preset
   fun _ _ => rfl,
   fun _ _ => rfl,
   fun k s => congrArg next (s.biasOpenLoad_eq k),
   fun s k c =>
    have ⟨hst, hwave, hcause⟩ := s.biasAct_safe_same k c
    ⟨rfl, s.biasAct_hold_same k c, hst, hwave, hcause, fun _ hn => ⟨s.biasAct_hold_other c hn, s.biasAct_safe_other c hn⟩⟩,
   fun _ _ => rfl,
   fun _ _ => rfl,
   -- the commands where they act
   fun _ _ _ _ h hdue => congrArg next ((State.rampDone_of_ramp h).trans (if_pos hdue)),
   fun _ _ hwait hst hwork hwhere => congrArg next (if_pos ⟨hwait, hst, hwork, hwhere⟩),
   fun _ _ _ _ _ h hdue => congrArg next ((State.rangeHoldEnd_of_hold h).trans (if_pos hdue)),
   fun _ _ _ h hdue hlen => congrArg next (State.biasWavePoint_within h hdue hlen),
   fun _ _ hst hc ho => congrArg next (State.biasCompliance_begins hst hc ho),
   fun _ _ h => congrArg next (if_pos h),
   fun _ _ hst ho hcode => congrArg next (State.biasOpenLoad_begins hst ho hcode),
   fun _ s hr h => congrArg next ((s.gate_of_ready _ hr).trans (State.biasRearm_of_held h)),
   fun _ s hr h => congrArg next ((s.gate_of_ready _ hr).trans (State.biasRearm_of_normal h)),
   fun _ s hr hshot hwork hpend => congrArg next ((s.gate_of_ready _ hr).trans (if_pos ⟨hshot, hwork, hpend⟩)),
   fun _ _ _ _ ha hshot _ hj => State.biasAct_marks_shot ha hshot hj⟩

end Sys2Proof.Machine
end

section
/-! PROOFS. Event sources and vectors (R467, R468), and the clamp log with its window (R462). -/

namespace Sys2Proof.Machine

/-! ### Vectors (R468) -/

theorem State.signal_of_masked {s : State} {v : Nat} (hm : s.masked v = true) :
    s.signal v = { s with recs.pba := Table.set false s.recs.pba v true } :=
  if_pos hm

theorem State.signal_of_unmasked {s : State} {v : Nat} (hm : s.masked v = false) :
    s.signal v = if s.inHoldoff v then
      { s with recs.heldVec := if s.recs.heldVec.contains v then s.recs.heldVec else v :: s.recs.heldVec }
      else s.sendMsix v :=
  if_neg (ne_true_of_eq_false hm)

theorem State.signal_of_holdoff {s : State} {v : Nat} (hm : s.masked v = false) (hh : s.inHoldoff v = true) :
    s.signal v = { s with
      recs.heldVec := if s.recs.heldVec.contains v then s.recs.heldVec else v :: s.recs.heldVec } :=
  (State.signal_of_unmasked hm).trans (if_pos hh)

theorem State.signal_of_open {s : State} {v : Nat} (hm : s.masked v = false) (hh : s.inHoldoff v = false) :
    s.signal v = s.sendMsix v :=
  (State.signal_of_unmasked hm).trans (if_neg (ne_true_of_eq_false hh))

@[simp] theorem State.sendMsix_pba_same (s : State) (v : Nat) : Table.get false (s.sendMsix v).recs.pba v = false :=
  Table.get_set_same false s.recs.pba v false

theorem State.not_mem_sendMsix_heldVec (s : State) (v : Nat) : v ∉ (s.sendMsix v).recs.heldVec := by
  simp [State.sendMsix]

/-! ### Sources (R467) -/

theorem SameWork.of_recs_direct (s : State) (recs : RecSt) (direct : Table Word) :
    SameWork s { s with recs := recs, regs := { s.regs with direct := direct } } := by
  constructor <;> rfl

theorem State.fire_ctxs (s : State) (src : Nat) : (s.fire src).ctxs = s.ctxs := by rw [State.fire_eq]

theorem State.fire_job (s : State) (src : Nat) : (s.fire src).job = s.job := by rw [State.fire_eq]

theorem State.fire_sameWork (s : State) (src : Nat) : SameWork s (s.fire src) := by
  rw [State.fire_eq]
  exact SameWork.of_recs_direct s _ _

/-- Settles O15. A source sets its bit and signals by definition; a signalled vector goes by its mask, then by its
holdoff. -/
theorem firingSetsThePendingBit : Obligations.FiringSetsThePendingBit := by
  refine ⟨fun _ _ => rfl, fun _ _ => State.signal_of_masked, fun _ _ => State.signal_of_holdoff,
    fun s v hm hh => ?_, fun s src => ⟨s.fire_ctxs src, s.fire_job src, s.fire_sameWork src⟩⟩
  rw [State.signal_of_open hm hh]
  exact ⟨rfl, s.sendMsix_pba_same v, s.not_mem_sendMsix_heldVec v, s.sendMsix_eq v⟩

/-! ### The clamp log (R462) -/

theorem State.logEntry_slot_same (s : State) (id aux written used : Nat) (st : Stamp) :
    Table.get {} (s.logEntry id aux written used st).cfg.clampLog (s.cfg.clampNum.toNat % 256) =
      ⟨BitVec.ofNat 32 id, BitVec.ofNat 32 aux, BitVec.ofNat 64 written, BitVec.ofNat 64 used, st, s.cfg.clampNum⟩ :=
  Table.get_set_same _ _ _ _

theorem State.logEntry_slot_other (s : State) (id aux written used : Nat) (st : Stamp) {k : Nat}
    (hk : k ≠ s.cfg.clampNum.toNat % 256) :
    Table.get {} (s.logEntry id aux written used st).cfg.clampLog k = Table.get {} s.cfg.clampLog k :=
  Table.get_set_other _ _ _ _ _ hk

/-! ### The window of the clamp log (R462) -/

theorem State.shown_clampLog (s : State) (k w : Nat) :
    s.shown .CLAMP_LOG [k, w] = (Table.get {} s.cfg.clampLog k).words.getD w 0 % 2 ^ 32 := rfl

theorem high_word_mod (x : BitVec 64) : x.toNat / 2 ^ 32 % 2 ^ 32 = x.toNat / 2 ^ 32 :=
  Nat.mod_eq_of_lt (Nat.div_lt_of_lt_mul x.isLt)

/-- The window has 16 words an entry, of which R462 gives the first ten a meaning. -/
theorem ClampEntry.words_getD_of_ten_le (e : ClampEntry) {w : Nat} (hw : 10 ≤ w) : e.words.getD w 0 = 0 :=
  List.getD_eq_default _ _ hw

theorem regAddr_clampLog (k w : Nat) : regAddr .CLAMP_LOG [k, w] = 0x11000 + k * 0x40 + w * 4 :=
  (Nat.add_assoc 0x11000 (k * 0x40) (w * 4)).symm

/-- Settles O17. An entry is one write to the table of slots, and the window shows the words of the slot it names. -/
theorem clampLogKeepsTheLast256 : Obligations.ClampLogKeepsTheLast256 := by
  refine ⟨fun s id aux written used st => ?logged, fun s k w _ => ?window, fun k w _ _ => regAddr_clampLog k w⟩
  case logged =>
    exact ⟨s.logEntry_slot_same id aux written used st, fun _ => s.logEntry_slot_other id aux written used st,
      rfl, rfl, s.logEntry_eq id aux written used st⟩
  case window =>
    rw [State.shown_clampLog]
    generalize Table.get {} s.cfg.clampLog k = e
    match w with
    | 0 => exact Nat.mod_eq_of_lt e.id.isLt
    | 1 => exact Nat.mod_eq_of_lt e.aux.isLt
    | 3 => exact high_word_mod e.written
    | 5 => exact high_word_mod e.used
    | 9 => exact Nat.mod_eq_of_lt e.num.isLt
    | 2 | 4 | 6 | 7 | 8 => simp only [ClampEntry.words, List.getD_cons_succ, List.getD_cons_zero]
    | w + 10 => exact congrArg (· % 2 ^ 32) (e.words_getD_of_ten_le (Nat.le_add_left 10 w))

end Sys2Proof.Machine
end

section
/-! PROOFS. The fields of a structure in memory (R7), the status block (R478), and where a numbered record goes
(R450, R471, R490). -/

/-! ### The fields of a structure (R7) -/

namespace Sys2Proof

theorem drop_leBytes (k m v : Nat) : (leBytes m v).drop k = leBytes (m - k) (v / 256 ^ k) := by
  induction m generalizing k v with
  | zero => rw [Nat.zero_sub, leBytes, leBytes, List.drop_nil]
  | succ m ih =>
    cases k with
    | zero => rw [List.drop_zero, Nat.pow_zero, Nat.div_one, Nat.sub_zero]
    | succ k => rw [leBytes, List.drop_succ_cons, ih, Nat.div_div_eq_div_mul, ← Nat.pow_succ', Nat.add_sub_add_right]

theorem take_leBytes {n m : Nat} (hn : n ≤ m) (v : Nat) : (leBytes m v).take n = leBytes n v := by
  induction n generalizing m v with
  | zero => rw [List.take_zero, leBytes]
  | succ n ih =>
    obtain ⟨m, rfl⟩ := Nat.exists_eq_succ_of_ne_zero (Nat.ne_zero_of_lt hn)
    rw [leBytes, leBytes, List.take_succ_cons, ih (Nat.le_of_succ_le_succ hn)]

theorem ofBytes_leBytes_mod (n v : Nat) : ofBytes (leBytes n v) = v % 256 ^ n := by
  induction n generalizing v with
  | zero => rw [leBytes, ofBytes, Nat.pow_zero, Nat.mod_one]
  | succ n ih =>
    rw [leBytes, ofBytes, ih, BitVec.toNat_ofNat, Nat.pow_succ' (m := 256)]
    exact Nat.mod_mul.symm

theorem fieldAt_leBytes {off n m : Nat} (h : off + n ≤ m) (v : Nat) :
    fieldAt (leBytes m v) off n = v / 2 ^ (8 * off) % 2 ^ (8 * n) := by
  rw [fieldAt, drop_leBytes, take_leBytes (Nat.le_sub_of_add_le' h), ofBytes_leBytes_mod, Nat.pow_mul, Nat.pow_mul]

/-- The fields (offset, size, value) of a structure lie in ascending order, none over another. -/
def InOrder (fields : List (Nat × Nat × Nat)) : Prop := fields.Pairwise fun e f => e.1 + e.2.1 ≤ f.1

/-- A field ends before the byte at its end. -/
theorem packed_field_lt (off n v : Nat) : v % 2 ^ (8 * n) * 2 ^ (8 * off) < 2 ^ (8 * (off + n)) := by
  rw [Nat.mul_add, Nat.add_comm, Nat.pow_add]
  exact Nat.mul_lt_mul_of_pos_right (Nat.mod_lt _ (Nat.two_pow_pos _)) (Nat.two_pow_pos _)

theorem dvd_packNat {k : Nat} {fields : List (Nat × Nat × Nat)} (h : ∀ e ∈ fields, k ≤ e.1) :
    2 ^ (8 * k) ∣ packNat fields := by
  induction fields with
  | nil => exact Nat.dvd_zero _
  | cons e r ih =>
    obtain ⟨he, hr⟩ := List.forall_mem_cons.mp h
    exact Nat.dvd_add (Nat.dvd_mul_left_of_dvd (Nat.pow_dvd_pow 2 (Nat.mul_le_mul_left 8 he)) _) (ih hr)

/-- A structure ends with its last field. -/
theorem packNat_lt {k : Nat} {fields : List (Nat × Nat × Nat)} (hord : InOrder fields)
    (h : ∀ e ∈ fields, e.1 + e.2.1 ≤ k) : packNat fields < 2 ^ (8 * k) := by
  induction hord with
  | nil => exact Nat.two_pow_pos _
  | @cons e r hafter _ ih =>
    obtain ⟨he, hr⟩ := List.forall_mem_cons.mp h
    obtain ⟨q, hq⟩ := dvd_packNat hafter
    obtain ⟨p, hp⟩ := Nat.pow_dvd_pow 2 (Nat.mul_le_mul_left 8 he)
    have hhead := packed_field_lt e.1 e.2.1 e.2.2
    have hrest : q < p := Nat.lt_of_mul_lt_mul_left (a := 2 ^ (8 * (e.1 + e.2.1))) (by rw [← hq, ← hp]; exact ih hr)
    calc packNat (e :: r) = e.2.2 % 2 ^ (8 * e.2.1) * 2 ^ (8 * e.1) + 2 ^ (8 * (e.1 + e.2.1)) * q := by rw [packNat, hq]
      _ < 2 ^ (8 * (e.1 + e.2.1)) * (q + 1) := by rw [Nat.mul_succ, Nat.add_comm]; exact Nat.add_lt_add_left hhead _
      _ ≤ 2 ^ (8 * k) := hp ▸ Nat.mul_le_mul_left _ hrest

/-- What lies at a field's place is the field. -/
theorem packNat_field {fields : List (Nat × Nat × Nat)} (hord : InOrder fields) {off n v : Nat}
    (hmem : (off, n, v) ∈ fields) : packNat fields / 2 ^ (8 * off) % 2 ^ (8 * n) = v % 2 ^ (8 * n) := by
  induction hord with
  | nil => exact absurd hmem List.not_mem_nil
  | @cons e r hafter _ ih =>
    obtain ⟨q, hq⟩ := dvd_packNat hafter
    rcases List.mem_cons.mp hmem with rfl | hr
    case inl =>
      rw [packNat, hq, Nat.mul_add, Nat.pow_add, Nat.mul_assoc, Nat.add_comm,
        Nat.mul_add_div (Nat.two_pow_pos _), Nat.mul_div_cancel _ (Nat.two_pow_pos _), Nat.mul_add_mod, Nat.mod_mod]
    case inr =>
      have hsplit : 2 ^ (8 * off) = 2 ^ (8 * (e.1 + e.2.1)) * 2 ^ (8 * (off - (e.1 + e.2.1))) := by
        rw [← Nat.pow_add, ← Nat.mul_add, Nat.add_sub_cancel' (hafter _ hr)]
      have hskip : packNat (e :: r) / 2 ^ (8 * off) = packNat r / 2 ^ (8 * off) := by
        rw [hsplit, ← Nat.div_div_eq_div_mul, ← Nat.div_div_eq_div_mul, packNat, hq, Nat.add_comm,
          Nat.mul_add_div (Nat.two_pow_pos _), Nat.div_eq_of_lt (packed_field_lt _ _ _), Nat.add_zero,
          Nat.mul_div_cancel_left _ (Nat.two_pow_pos _)]
      rw [hskip, ih hr]

theorem fieldAt_packNat {fields : List (Nat × Nat × Nat)} (hord : InOrder fields) {off n v m : Nat} (hm : off + n ≤ m)
    (hmem : (off, n, v) ∈ fields) : fieldAt (leBytes m (packNat fields)) off n = v % 2 ^ (8 * n) := by
  rw [fieldAt_leBytes hm, packNat_field hord hmem]

theorem zeroAt_packNat {fields : List (Nat × Nat × Nat)} (hord : InOrder fields) {off n m : Nat} (hm : off + n ≤ m)
    (hend : ∀ e ∈ fields, e.1 + e.2.1 ≤ off) : zeroAt (leBytes m (packNat fields)) off n = true := by
  rw [zeroAt, fieldAt_leBytes hm, Nat.div_eq_of_lt (packNat_lt hord hend), Nat.zero_mod, beq_self_eq_true]

end Sys2Proof

namespace Sys2Proof.Machine

/-! ### The status block (R478) -/

/-- The fields of the status block, by R478's table. -/
def State.statusFields (s : State) (c : Nat) : List (Nat × Nat × Nat) :=
  [(0, 4, (s.ctx c).subHead), (4, 4, (s.ctx c).cplTail), (8, 4, (s.ctx c).resTail), (12, 4, (s.ctx c).evtTail),
    (16, 4, (s.ctx c).capTail), (20, 4, (s.ctx c).resLost.toNat), (24, 4, (s.ctx c).evtLost.toNat),
    (28, 4, (if s.paused c then 1 else 0) + (if (s.ctx c).quar then 2 else 0))]

theorem State.statusBytes_eq (s : State) (c : Nat) : s.statusBytes c = leBytes 64 (packNat (s.statusFields c)) := rfl

theorem State.statusFields_inOrder (s : State) (c : Nat) : InOrder (s.statusFields c) := by
  simp [InOrder, State.statusFields]

theorem State.fieldAt_statusBytes (s : State) (c : Nat) :
    ∀ e ∈ s.statusFields c, fieldAt (s.statusBytes c) e.1 e.2.1 = e.2.2 % 2 ^ (8 * e.2.1) := by
  have hend : ∀ e ∈ s.statusFields c, e.1 + e.2.1 ≤ 64 := by simp [State.statusFields]
  exact fun e he => fieldAt_packNat (s.statusFields_inOrder c) (hend e he) he

theorem State.zeroAt_statusBytes (s : State) (c : Nat) : zeroAt (s.statusBytes c) 32 32 = true :=
  zeroAt_packNat (s.statusFields_inOrder c) (by decide) (by simp [State.statusFields])

/-- STATE has two bits. -/
theorem stateField_mod (p q : Bool) :
    ((if p then 1 else 0) + (if q then 2 else 0)) % 2 ^ 32 = (if p then 1 else 0) + (if q then 2 else 0) := by
  cases p <;> cases q <;> rfl

/-- Settles O16. The block is the structure of its eight fields, which lie in order and end at byte 32. -/
theorem statusBlockLayout : Obligations.StatusBlockLayout := by
  refine ⟨fun _ _ => rfl, fun s c => ?_⟩
  have hfields := s.fieldAt_statusBytes c
  simp only [State.statusFields, List.forall_mem_cons] at hfields
  obtain ⟨hsub, hcpl, hres, hevt, hcap, hresLost, hevtLost, hstate, -⟩ := hfields
  exact ⟨leBytes_length 64 _, hsub, hcpl, hres, hevt, hcap, hresLost.trans (Nat.mod_eq_of_lt (s.ctx c).resLost.isLt),
    hevtLost.trans (Nat.mod_eq_of_lt (s.ctx c).evtLost.isLt), hstate.trans (stateField_mod _ _), s.zeroAt_statusBytes c⟩

/-! ### The ring of a record (R471) -/

/-- The records lost to a ring of a context. -/
def Ctx.lostOn (x : Ctx) : Ring → Word
  | .result => x.resLost
  | .event => x.evtLost

/-- The producer index of a ring of a context. -/
def Ctx.tailOn (x : Ctx) : Ring → Nat
  | .result => x.resTail
  | .event => x.evtTail

/-- A record is counted lost to a ring. -/
def Ctx.countLost (r : Ring) (x : Ctx) : Ctx :=
  match r with
  | .result => { x with resLost := x.resLost + 1 }
  | .event => { x with evtLost := x.evtLost + 1 }

/-- The producer index of a ring moves. -/
def Ctx.setTail (r : Ring) (t : Nat) (x : Ctx) : Ctx :=
  match r with
  | .result => { x with resTail := t }
  | .event => { x with evtTail := t }

/-- R490: the running descriptor has lost a record. -/
def Ctx.markRecLost (x : Ctx) : Ctx :=
  { x with fetched := x.fetched.map fun d => if d.phase = .running then { d with recLost := true } else d }

/-- The host address of a ring of a context. -/
def State.ringBase (s : State) (c : Nat) : Ring → Nat
  | .result => s.baseOf .RES_BASE_LO .RES_BASE_HI c
  | .event => s.baseOf .EVT_BASE_LO .EVT_BASE_HI c

@[simp] theorem Ctx.countLost_lostOn (r : Ring) (x : Ctx) : (x.countLost r).lostOn r = x.lostOn r + 1 := by
  cases r <;> rfl

@[simp] theorem Ctx.countLost_tailOn (r : Ring) (x : Ctx) : (x.countLost r).tailOn r = x.tailOn r := by
  cases r <;> rfl

@[simp] theorem Ctx.setTail_tailOn (r : Ring) (t : Nat) (x : Ctx) : (x.setTail r t).tailOn r = t := by
  cases r <;> rfl

@[simp] theorem Ctx.markRecLost_lostOn (x : Ctx) (r : Ring) : x.markRecLost.lostOn r = x.lostOn r := by
  cases r <;> rfl

@[simp] theorem Ctx.markRecLost_tailOn (x : Ctx) (r : Ring) : x.markRecLost.tailOn r = x.tailOn r := by
  cases r <;> rfl

/-- The size code of a ring. -/
def Ring.sizeField : Ring → Fld
  | .result => Reg.CTX_SIZE.RES
  | .event => Reg.CTX_SIZE.EVT

theorem State.ringState_size (s : State) (h : Held) : (s.ringState h).1 = s.ringSize h.ctx h.ring.sizeField := by
  unfold State.ringState; cases h.ring <;> rfl

theorem State.ringState_tail (s : State) (h : Held) : (s.ringState h).2.1 = (s.ctx h.ctx).tailOn h.ring := by
  unfold State.ringState; cases h.ring <;> rfl

/-! ### Where a record goes (R450, R490) -/

/-- The number a record takes. -/
def State.recNumber (s : State) (h : Held) : Word := Table.get 0 s.recs.seq h.src + h.skips

/-- R82: the record has taken its number. -/
def State.numbered (s : State) (h : Held) : State :=
  { s with recs.seq := Table.set 0 s.recs.seq h.src (s.recNumber h + 1) }

/-- R471: the record stands in its ring, and the producer index has moved past it. -/
def State.entered (s : State) (h : Held) (q : Word) : State :=
  (s.emit (.write (s.ringBase h.ctx h.ring + (s.ctx h.ctx).tailOn h.ring * 32) (h.bytes q))).updCtx h.ctx
    (Ctx.setTail h.ring (((s.ctx h.ctx).tailOn h.ring + 1) % (s.ringState h).1))

theorem State.numberAndPost_of_silent {s : State} {h : Held} (hs : (h.ofJob && s.job.silent) = true) :
    s.numberAndPost h = s.numbered h :=
  if_pos hs

theorem State.numberAndPost_of_full {s : State} {h : Held} (hs : (h.ofJob && s.job.silent) = false)
    (hfull : (s.ringState h).1 = 0 ∨ ((s.ringState h).2.1 + 1) % (s.ringState h).1 = (s.ringState h).2.2) :
    s.numberAndPost h = (s.numbered h).loseRecord h :=
  (if_neg (ne_true_of_eq_false hs)).trans (if_pos hfull)

theorem State.loseRecord_eq (s : State) (h : Held) : s.loseRecord h =
    ((if h.ofJob then (s.updCtx h.ctx (Ctx.countLost h.ring)).updCtx h.ctx Ctx.markRecLost
      else s.updCtx h.ctx (Ctx.countLost h.ring)).fire h.src).fire 741 := rfl

/-! ### What a lost record leaves -/

theorem State.loseRecord_lostOn (s : State) (h : Held) :
    ((s.loseRecord h).ctx h.ctx).lostOn h.ring = (s.ctx h.ctx).lostOn h.ring + 1 := by
  rw [State.loseRecord_eq]
  cases h.ofJob <;> simp

theorem State.loseRecord_tailOn (s : State) (h : Held) :
    ((s.loseRecord h).ctx h.ctx).tailOn h.ring = (s.ctx h.ctx).tailOn h.ring := by
  rw [State.loseRecord_eq]
  cases h.ofJob <;> simp

theorem State.loseRecord_writes (s : State) (h : Held) (a : Nat) (bs : List Byte) :
    HostOut.write a bs ∈ (s.loseRecord h).recs.out ↔ HostOut.write a bs ∈ s.recs.out := by
  rw [State.loseRecord_eq, State.fire_writes, State.fire_writes]
  cases h.ofJob <;> rfl

/-! ### What a posted record leaves -/

theorem State.noteStamp_ite_ctx (s : State) (b : Bool) (st : Stamp) (c : Nat) :
    (if b then s.noteStamp st else s).ctx c = s.ctx c := by
  cases b <;> rfl

theorem State.noteStamp_ite_recs (s : State) (b : Bool) (st : Stamp) :
    (if b then s.noteStamp st else s).recs = s.recs := by
  cases b <;> rfl

theorem State.entered_tailOn (s : State) (h : Held) (q : Word) : ((s.entered h q).ctx h.ctx).tailOn h.ring =
    ((s.ctx h.ctx).tailOn h.ring + 1) % s.ringSize h.ctx h.ring.sizeField := by
  rw [State.entered, State.ctx_updCtx_same, Ctx.setTail_tailOn, State.ringState_size]

theorem State.entered_write (s : State) (h : Held) (q : Word) :
    HostOut.write (s.ringBase h.ctx h.ring + (s.ctx h.ctx).tailOn h.ring * 32) (h.bytes q) ∈ (s.entered h q).recs.out :=
  List.mem_cons_self

section
variable {s : State} {h : Held} (hs : (h.ofJob && s.job.silent) = false) (hsize : (s.ringState h).1 ≠ 0)
  (hroom : ((s.ringState h).2.1 + 1) % (s.ringState h).1 ≠ (s.ringState h).2.2)
include hs hsize hroom

theorem State.numberAndPost_of_room :
    s.numberAndPost h =
      ((if h.ofJob then ((s.numbered h).entered h (s.recNumber h)).noteStamp h.stamp
        else (s.numbered h).entered h (s.recNumber h)).writeStatus h.ctx).fire h.src := by
  refine ((if_neg (ne_true_of_eq_false hs)).trans (if_neg (not_or.mpr ⟨hsize, hroom⟩))).trans ?_
  cases h with
  | mk c ring => cases ring <;> rfl

theorem State.numberAndPost_tailOn_of_room : ((s.numberAndPost h).ctx h.ctx).tailOn h.ring =
    ((s.ctx h.ctx).tailOn h.ring + 1) % s.ringSize h.ctx h.ring.sizeField := by
  rw [State.numberAndPost_of_room hs hsize hroom, State.fire_ctx, State.writeStatus_ctx, State.noteStamp_ite_ctx]
  exact (s.numbered h).entered_tailOn h _

theorem State.numberAndPost_write_of_room :
    HostOut.write (s.ringBase h.ctx h.ring + (s.ctx h.ctx).tailOn h.ring * 32) (h.bytes (s.recNumber h)) ∈
      (s.numberAndPost h).recs.out := by
  rw [State.numberAndPost_of_room hs hsize hroom, State.fire_writes, State.writeStatus, State.emit_recs,
    State.noteStamp_ite_recs]
  exact List.mem_cons_of_mem _ ((s.numbered h).entered_write h _)

end

/-- Settles O14. A record is silenced, lost or entered in its ring; what follows fires sources, and these send the
host messages only. -/
theorem fullRingLosesTheRecord : Obligations.FullRingLosesTheRecord := by
  refine ⟨fun s h hs hfull => ?lost, fun s h hs hsize hroom => ?posted, fun s h => State.numberAndPost_of_silent⟩
  case lost =>
    have hlost := (s.numbered h).loseRecord_lostOn h
    have htail := (s.numbered h).loseRecord_tailOn h
    rw [State.numberAndPost_of_full hs hfull]
    refine ⟨fun hr => ?_, fun hr => ?_, fun a bs => ((s.numbered h).loseRecord_writes h a bs).mp⟩
    all_goals rw [hr] at hlost htail; exact ⟨hlost, htail⟩
  case posted =>
    have htail := State.numberAndPost_tailOn_of_room hs hsize hroom
    have hwrite := State.numberAndPost_write_of_room hs hsize hroom
    refine ⟨fun hr => ?_, fun hr => ?_⟩
    all_goals rw [hr] at htail hwrite; exact ⟨htail, hwrite⟩

end Sys2Proof.Machine
end

section
/-! PROOFS. What every command leaves as it is: it answers a next state with the same queue (log 1, log 21), and only a reset
or the end of boot ends a latch of the always-on domain (R663, R699). -/

namespace Sys2Proof.Machine

/-! ### The step and the outcome of a command -/

theorem step_of_pending_cons (s : State) (c : Instr) (rest : List Instr) (h : s.pending = c :: rest) :
    step s = exec c { s with pending := rest } := by
  rw [step, h]
  rfl

/-- Settles O1: the front of the queue decides the branch of the step. -/
theorem stepRunsFrontCommand : Obligations.StepRunsFrontCommand :=
  step_of_pending_cons

/-- A command is one operation, or a choice among operations and doing nothing; each of them gives a state. -/
theorem exec_next (c : Instr) (s : State) : ∃ t, exec c s = .next t := by
  cases c
  case submissionFetch | calibrate | ack | nak | cobblerRepairDone | scrubPass | scrubPassEnd | timeLock =>
    simp only [exec, execSubmissionFetch, execCalibrate, execAck, execNak, execCobblerRepairDone, execScrubPass,
      execScrubPassEnd, execTimeLock]
    (repeat' split) <;> exact ⟨_, rfl⟩
  case hostReadCompletion r data => cases r <;> exact ⟨_, rfl⟩
  all_goals exact ⟨_, rfl⟩

/-- Settles O5. -/
theorem everyCommandCompletes : Obligations.EveryCommandCompletes :=
  exec_next

/-! ### The queue (log 1) -/

theorem exec_pending (c : Instr) (s t : State) (h : exec c s = .next t) : t.pending = s.pending := by
  cases c
  case registerReadClear a n bad =>
    obtain ⟨b, a⟩ := a
    rw [exec_registerReadClear] at h
    rw [← Host.Outcome.next.inj h]
    obtain ⟨hpending, -⟩ := s.hostRead_kept b a.toNat n bad
    exact hpending
  case hostReadCompletion r data =>
    cases r with
    | entry | data => rw [← Host.Outcome.next.inj h]; split <;> simp
    | stream => rw [← Host.Outcome.next.inj h]; simp
    | other => rw [← Host.Outcome.next.inj h]
  -- the commands that choose among operations
  case submissionFetch | calibrate | ack | nak | cobblerRepairDone | scrubPass | scrubPassEnd | timeLock =>
    simp only [exec, execSubmissionFetch, execCalibrate, execAck, execNak, execCobblerRepairDone, execScrubPass,
      execScrubPassEnd, execTimeLock] at h
    (repeat' split at h) <;> simp at h <;> simp [← h]
  -- each of the others is one operation, of which Laws/Kept1 to Kept6 say that it leaves the queue alone
  all_goals
    rw [← Host.Outcome.next.inj h]
    simp

/-- Settles O6. -/
theorem commandsLeaveTheQueue : Obligations.CommandsLeaveTheQueue :=
  exec_pending

/-! ### A register write that asks for no device reset (R450) -/

theorem regAt_of_regFindIn (l : List RegName) (a : Nat) (r : RegName) (i : List Nat)
    (h : regFindIn l a = some (r, i)) : regAt r a = some i := by
  induction l with
  | nil => cases h
  | cons x l ih =>
    rw [regFindIn] at h
    split at h
    · next j hj =>
      obtain ⟨rfl, rfl⟩ := Prod.mk.inj (Option.some.inj h)
      exact hj
    · exact ih h

/-- GLB_RESET lies at one address. -/
theorem eq_of_regFind_glbReset (a : Nat) (i : List Nat) (h : regFind a = some (.GLB_RESET, i)) : a = 0xC := by
  have hat : regAt .GLB_RESET a = some i := regAt_of_regFindIn allRegs a .GLB_RESET i h
  have hbase : (regSpec .GLB_RESET).base = 0xC := rfl
  have hdims : (regSpec .GLB_RESET).dims = [] := rfl
  rw [regAt, hbase, hdims] at hat
  split at hat
  · cases hat
  · cases hoff : a - 0xC with
    | zero => omega
    | succ n => rw [hoff] at hat; cases hat

/-- The Safe cause and the latch of the hardware cut are as before. -/
def State.latchesAs (t s : State) : Prop := t.sys.safe = s.sys.safe ∧ t.pwr.cut = s.pwr.cut

theorem State.latchesAs.trans {s t u : State} (h : u.latchesAs t) (g : t.latchesAs s) : u.latchesAs s :=
  ⟨h.1.trans g.1, h.2.trans g.2⟩

theorem State.modeSync_latchesAs (s : State) : s.modeSync.latchesAs s := by
  simp [State.latchesAs]

theorem State.glbReset_latchesAs (s : State) (w : Nat) (h : ¬ asksDeviceReset w) : (s.glbReset w).latchesAs s := by
  unfold State.glbReset
  split
  · exact ⟨rfl, rfl⟩
  · next hkey =>
    split
    · simp [State.latchesAs]
    · next hkind => exact absurd ⟨not_not.mp hkey, hkind⟩ h
    · exact ⟨rfl, rfl⟩

theorem State.writeAction_latchesAs (s : State) (r : RegName) (i : List Nat) (w : Nat)
    (h : r = .GLB_RESET → ¬ asksDeviceReset w) : (s.writeAction r i w).latchesAs s := by
  by_cases hr : r = .GLB_RESET
  · subst hr
    exact s.glbReset_latchesAs w (h rfl)
  · unfold State.writeAction State.latchesAs
    dsimp only
    split
    · exact absurd rfl hr
    all_goals (repeat' split) <;> simp

theorem State.regWrite_latchesAs (s : State) (r : RegName) (i : List Nat) (w : Nat)
    (h : r = .GLB_RESET → ¬ asksDeviceReset w) : (s.regWrite r i w).latchesAs s :=
  (State.writeAction_latchesAs _ r i w h).trans (by split <;> simp [State.latchesAs])

theorem State.writeAt_latchesAs (s : State) (a w : Nat) (h : a = 0xC → ¬ asksDeviceReset w) :
    (s.writeAt a w).latchesAs s := by
  unfold State.writeAt
  split
  · split
    · next r i hf => exact s.regWrite_latchesAs r i w fun hr => h (eq_of_regFind_glbReset a i (hr ▸ hf))
    · exact ⟨rfl, rfl⟩
  · exact ⟨rfl, rfl⟩

/-- A write of 8 bytes is aligned, so that only its upper word can meet GLB_RESET. -/
theorem State.barWrite_latchesAs (s : State) (a n v : Nat) (h4 : n = 4 → a = 0xC → ¬ asksDeviceReset (v % 2 ^ 32))
    (h8 : n = 8 → a = 8 → ¬ asksDeviceReset (v / 2 ^ 32)) : (s.barWrite a n v).latchesAs s := by
  unfold State.barWrite
  split
  · next hn => exact s.writeAt_latchesAs a _ (h4 hn.1)
  · split
    · next hn =>
      have hlow := s.writeAt_latchesAs a (v % 2 ^ 32) fun ha => by omega
      exact (State.writeAt_latchesAs _ (a + 4) (v / 2 ^ 32) fun ha => h8 hn.1 (by omega)).trans hlow
    · simp [State.latchesAs]

theorem State.hostWrite_latchesAs (s : State) (b : HostBar) (a : BitVec 26) (n : Fin 9) (d : BitVec 64)
    (h : ¬ resetsDevice s (.registerWrite ⟨b, a⟩ n d)) : (s.hostWrite b a.toNat n d.toNat).latchesAs s := by
  cases b with
  | bar0 =>
    have hr : ¬ ((n = 4 ∧ a = 0xC ∧ asksDeviceReset (d.toNat % 2 ^ 32))
      ∨ (n = 8 ∧ a = 8 ∧ asksDeviceReset (d.toNat / 2 ^ 32))) := h
    obtain ⟨h4, h8⟩ := not_or.mp hr
    exact s.barWrite_latchesAs a.toNat n.val d.toNat
      (fun hn ha ask => h4 ⟨Fin.ext hn, BitVec.eq_of_toNat_eq ha, ask⟩)
      (fun hn ha ask => h8 ⟨Fin.ext hn, BitVec.eq_of_toNat_eq ha, ask⟩)
  | bar2 => simp [State.hostWrite, State.latchesAs]
  | bar4 => simp [State.hostWrite, State.latchesAs]

/-! ### The end of an NV write that no device reset waits for (R732) -/

/-- Of the modes and of boot, a record changes the list of those held in boot alone. -/
theorem State.post_sys (s : State) (c : Nat) (ring : Ring) (src kind flags : Nat) (st : Stamp)
    (body : List (Nat × Nat × Nat)) : (s.post c ring src kind flags st body).sys =
      { s.sys with bootRecs := (s.post c ring src kind flags st body).sys.bootRecs } := by
  unfold State.post State.holdBoot State.markInvalid State.updJob
  dsimp only
  repeat' split
  all_goals rfl

theorem State.nvFinish_resetWait (s : State) (w : NvWrite) : (s.nvFinish w).sys.resetWait = s.sys.resetWait := by
  unfold State.nvFinish State.nvRecord State.postCoarse
  rw [State.post_sys]

theorem State.nvDone_latchesAs (s : State) (what : Nat) (h : s.sys.resetWait = false) : (s.nvDone what).latchesAs s := by
  unfold State.nvDone
  split
  · exact ⟨rfl, rfl⟩
  · dsimp only
    rw [State.nvFinish_resetWait, h]
    simp [State.latchesAs]

/-! ### The latches under the other commands (R663, R699) -/

/-- A latched Safe cause and a latched cut stay so. -/
def State.keepsLatches (t s : State) : Prop :=
  (s.sys.safe ≠ 0 → t.sys.safe = s.sys.safe) ∧ (s.pwr.cut = true → t.pwr.cut = true)

theorem State.latchesAs.keepsLatches {s t : State} (h : t.latchesAs s) : t.keepsLatches s :=
  ⟨fun _ => h.1, fun hcut => h.2.trans hcut⟩

theorem foldl_safe_of_latched {α : Type} (f : State → α → State)
    (h : ∀ s a, s.sys.safe ≠ 0 → (f s a).sys.safe = s.sys.safe) (l : List α) (s : State) (hs : s.sys.safe ≠ 0) :
    (l.foldl f s).sys.safe = s.sys.safe := by
  induction l generalizing s with
  | nil => rfl
  | cons a l ih =>
    have ha := h s a hs
    rw [List.foldl_cons, ih _ (ha ▸ hs), ha]

@[simp] theorem State.foldl_scrubError_latched (s : State) (l : List ScrubErr) (h : s.sys.safe ≠ 0) :
    (l.foldl State.scrubError s).sys.safe = s.sys.safe :=
  foldl_safe_of_latched _ (fun t e => t.scrubError_latched e) l s h

theorem State.hardwareCut_of_cut (s : State) (tile : Nat) (h : s.pwr.cut = true) : s.hardwareCut tile = s := if_pos h

theorem exec_keepsLatches (c : Instr) (s t : State) (hc : ¬ resetsDevice s c) (he : c ≠ .bootEnd)
    (h : exec c s = .next t) : t.keepsLatches s := by
  cases c
  case deviceReset | powerUpReset => exact absurd trivial hc
  case bootEnd => exact absurd rfl he
  case registerWrite b n d =>
    rw [← Host.Outcome.next.inj h]
    exact ((State.modeSync_latchesAs _).trans (s.hostWrite_latchesAs b.bar b.off n d hc)).keepsLatches
  case timeHznWrite v =>
    have hreg := s.regWrite_latchesAs .TIME_HZN [] v.toNat fun hr => by cases hr
    rw [← Host.Outcome.next.inj h]
    exact State.latchesAs.keepsLatches ⟨s.gate_safe _ hreg.1, s.gate_cut _ hreg.2⟩
  case nvWriteDone what =>
    rw [← Host.Outcome.next.inj h]
    exact ((State.modeSync_latchesAs _).trans (s.nvDone_latchesAs what (eq_false_of_ne_true hc))).keepsLatches
  case registerReadClear a n bad =>
    obtain ⟨b, a⟩ := a
    obtain ⟨-, -, hlatch⟩ := s.hostRead_kept b a.toNat n bad
    rw [exec_registerReadClear] at h
    rw [← Host.Outcome.next.inj h]
    exact State.latchesAs.keepsLatches hlatch
  case hardwareCut tile =>
    rw [← Host.Outcome.next.inj h]
    exact ⟨fun _ => by simp, fun hcut => by simp [s.hardwareCut_of_cut tile hcut, hcut]⟩
  case hostReadCompletion r data =>
    cases r with
    | entry | data => rw [← Host.Outcome.next.inj h]; split <;> simp [State.keepsLatches]
    | stream => rw [← Host.Outcome.next.inj h]; simp [State.keepsLatches]
    | other => rw [← Host.Outcome.next.inj h]; exact ⟨fun _ => rfl, id⟩
  -- the commands that choose among operations
  case submissionFetch | calibrate | ack | nak | cobblerRepairDone | scrubPass | scrubPassEnd | timeLock =>
    simp only [exec, execSubmissionFetch, execCalibrate, execAck, execNak, execCobblerRepairDone, execScrubPass,
      execScrubPassEnd, execTimeLock] at h
    (repeat' split at h) <;> simp at h <;> simp +contextual [← h, State.keepsLatches]
  -- each of the others is one operation, of which Laws/Kept1 to Kept6 and Laws/KeptSafe say that it keeps the latches
  all_goals
    rw [← Host.Outcome.next.inj h]
    simp +contextual [State.keepsLatches]

/-- The end of boot can only set a Safe cause (R618, R735). -/
theorem exec_bootEnd_safe (s t : State) (hs : s.sys.safe ≠ 0) (h : exec .bootEnd s = .next t) : t.sys.safe = s.sys.safe := by
  rw [← Host.Outcome.next.inj h]
  simp [hs]

theorem State.tick_safe (s : State) : s.tick.sys.safe = s.sys.safe := by
  unfold State.tick
  dsimp only
  split <;> simp

theorem State.still_pwr {s t : State} (h : t.still = s.still) : t.pwr = s.pwr := by
  injection h

theorem State.tick_cut (s : State) : s.tick.pwr.cut = s.pwr.cut := by
  have h : s.tick.pwr = ({ s with time := s.time.next.lag } : State).pwr := State.still_pwr s.still_tick
  rw [h]

/-- Settles O9: a command that resets nothing keeps the latches, and the end of boot keeps the Safe cause. -/
theorem safeCauseStaysLatched : Obligations.SafeCauseStaysLatched := by
  refine ⟨fun c s t hs hc h => ?_, State.tick_safe⟩
  by_cases he : c = .bootEnd
  · exact exec_bootEnd_safe s t hs (he ▸ h)
  · exact (exec_keepsLatches c s t hc he h).1 hs

/-- Settles O10. -/
theorem hardwareCutStaysLatched : Obligations.HardwareCutStaysLatched :=
  ⟨fun c s t hs hc he h => (exec_keepsLatches c s t hc he h).2 hs, State.tick_cut⟩

end Sys2Proof.Machine
end

section
/-! PROOFS. The training of a lace link, its width, its electrical idle, and the end of a quarantine (R509 to R522, R539). -/

namespace Sys2Proof.Machine

open Host.Outcome (next)

/-! ### Records that mark no shot -/

/-- A record flagged with its coarse stamp alone changes the records held, those of boot among them. -/
theorem State.postCoarse_eq (s : State) (c src kind : Nat) (body : List (Nat × Nat × Nat)) :
    s.postCoarse c src kind 0 body = { s with
      recs := (s.postCoarse c src kind 0 body).recs
      sys := (s.postCoarse c src kind 0 body).sys } := by
  have hjob := s.postCoarse_job c src kind body
  unfold State.postCoarse at hjob ⊢
  rw [State.post_eq, hjob]

/-! ### Sending and the state of a link -/

@[simp] theorem State.lnk_linkRecord (s : State) (l cause n : Nat) : (s.linkRecord l cause).lnk n = s.lnk n := by
  rw [State.linkRecord, State.postCoarse_eq]
  rfl

theorem State.lnk_setLinkState_same (s : State) (l st cause : Nat) :
    (s.setLinkState l st cause).lnk l = { s.lnk l with st := st } := by
  unfold State.setLinkState
  split
  · next h => rw [← h]
  · rw [State.lnk_linkRecord, State.lnk_updLink_same]

/-- TRAIN blocks go out at once: no link changes. -/
@[simp] theorem State.lnk_laceOut_train (s : State) (l lanes st lmask n : Nat) :
    (s.laceOut l (.train lanes st lmask)).lnk n = s.lnk n := rfl

/-! ### The start of an attempt (R509, R512) -/

/-- R509, R523: what a link holds at the start of its attempt k. -/
def LaceLink.attempting (x : LaceLink) (now k : Nat) : LaceLink :=
  { x.quiet with
    st := 2, attempt := k, attemptFrom := now, waiting := false, sigSeen := x.signal, check := 0
    sawReady := false, txRow := now * 16 }

theorem State.startAttempt_eq (s : State) (l k : Nat) : s.startAttempt l k =
    ((s.updLink l fun x => x.attempting s.time.now k).laceOut l (.train 15 0 0)).linkRecord l 0 := rfl

theorem State.startAttempt_link (s : State) (l k : Nat) : ∃ t : State, s.startAttempt l k = t.linkRecord l 0
    ∧ (t.lnk l).st = 2 ∧ (t.lnk l).attempt = k
    ∧ (t.lnk l).attemptFrom = s.time.now ∧ (t.lnk l).waiting = false ∧ (t.lnk l).ready = false
    ∧ t.lace.out = (l, (lanesOf 15).map fun i => (i, trainBlockOf i l 0 s.lace.idValid s.deviceId 0)) :: s.lace.out
    ∧ (∀ n : Nat, n ≠ l → t.lnk n = s.lnk n) ∧ t.regs = s.regs ∧ t.ctxs = s.ctxs := by
  refine ⟨_, s.startAttempt_eq l k, ?_⟩
  rw [State.lnk_laceOut_train, State.lnk_updLink_same]
  exact ⟨rfl, rfl, rfl, rfl, rfl, rfl,
    fun n hn => (State.lnk_laceOut_train _ l 15 0 0 n).trans (s.lnk_updLink_other l n _ hn), rfl, rfl⟩

/-! ### LANE_SIGNAL_GAIN (R513) -/

/-- R513: a lane of the link has signal. -/
def State.laneSignal (s : State) (l lane : Nat) : State :=
  s.updLink l fun x => { x with signal := setBits x.signal lane lane 1, sigSeen := setBits x.sigSeen lane lane 1 }

theorem State.signalGain_of_running {s : State} {l : Nat} (lane : Nat) (hw : (s.lnk l).waiting = false)
    (hst : (s.lnk l).st ≠ 5) : s.signalGain l lane = s.laneSignal l lane :=
  if_neg fun h => h.1.elim (by simp [hw]) hst

theorem State.signalGain_of_waiting {s : State} {l lane : Nat} (hw : (s.lnk l).waiting = true)
    (hnew : bitOf (s.lnk l).sigEnd lane = false) (hm : s.mayTrain l = true) :
    s.signalGain l lane = (s.laneSignal l lane).startAttempt l 1 :=
  if_pos ⟨.inl hw, hnew, hm⟩

/-! ### LANE_LOCK and LANE_LOCK_LOSS (R507, R516 to R518) -/

/-- R507: a lane of the link is locked. -/
def State.laneLocked (s : State) (l lane : Nat) : State :=
  s.updLink l fun x => { x with lanes := setBits x.lanes lane lane 1 }

theorem State.laneLock_of_down {s : State} {l : Nat} (lane : Nat) (hup : (s.lnk l).up = false)
    (h : (s.lnk l).st ≠ 2 ∨ (s.lnk l).ready = true) : s.laneLock l lane = s.laneLocked l lane := by
  have htrain : ¬ ((s.lnk l).st = 2 ∧ (s.lnk l).ready = false) := by
    rintro ⟨hst, hready⟩
    exact h.elim (· hst) (by simp [hready])
  simp [State.laneLock, hup, htrain, State.laneLocked]

theorem LaceLink.up_of_training {x : LaceLink} (h : x.st = 2) : x.up = false := by
  simp [LaceLink.up, h]

theorem State.laneLock_of_training {s : State} {l : Nat} (lane : Nat) (hst : (s.lnk l).st = 2)
    (hready : (s.lnk l).ready = false) :
    s.laneLock l lane = (s.laneLocked l lane).laceOut l (.train 15 1 (s.lnk l).deskew) := by
  simp [State.laneLock, LaceLink.up_of_training hst, hst, hready, State.laneLocked]

theorem State.laneLock_of_up {s : State} {l lane : Nat} (hup : (s.lnk l).up = true) (hidle : (s.lnk l).idleRx = false)
    (hlane : bitOf (s.lnk l).lanes lane = false) : s.laneLock l lane =
      (let t := s.laneLocked l lane
       let m := widthMask (t.lnk l).lanes
       (if m = (s.lnk l).rxMask then t else t.askWidth l m).laneRecord l lane 0) := by
  simp [State.laneLock, hup, hidle, hlane, State.laneLocked]

theorem State.laneLoss_of_unlocked {s : State} {l lane : Nat} (h : bitOf (s.lnk l).lanes lane = false) :
    s.laneLoss l lane = s := if_pos h

/-! ### TRAIN_BLOCK (R509, R510, R522) -/

theorem trainOf_plain {b : LaceBlock} (h : ctrlType b = some 0x2D) : trainOf b = some (false, b) := if_pos h

theorem trainOf_inverted {b : LaceBlock} (h : ctrlType b ≠ some 0x2D) (hinv : ctrlType (~~~ b) = some 0x2D) :
    trainOf b = some (true, ~~~ b) := (if_neg h).trans (if_pos hinv)

theorem State.trainBlock_of_none {s : State} {l lane drift : Nat} {b : LaceBlock} (h : trainOf b = none) :
    s.trainBlock l lane b drift = s := by
  simp only [State.trainBlock, h]

section
variable {s : State} {l lane : Nat} {b c : LaceBlock} {inv : Bool} (hb : trainOf b = some (inv, c)) (drift : Nat)
include hb

theorem State.trainBlock_of_idle (hidle : (s.lnk l).idleRx = true) (hexit : (s.lnk l).exitFrom = 0) :
    s.trainBlock l lane b drift = s.updLink l fun x => { x with exitFrom := s.time.now + 1, relock := 0 } := by
  simp only [State.trainBlock, hb, hidle, hexit, and_self, if_true]

theorem State.trainBlock_of_other (hidle : (s.lnk l).idleRx = false)
    (h : (s.lnk l).st ≠ 2 ∨ bitOf (s.lnk l).lanes lane = false) : s.trainBlock l lane b drift = s := by
  simp only [State.trainBlock, hb, hidle, Bool.false_eq_true, false_and, if_false, if_pos h]

/-- R509: the link with what a TRAIN block shows of the partner. -/
def LaceLink.trained (x : LaceLink) (lane check : Nat) (inv : Bool) (c : LaceBlock) : LaceLink :=
  (x.trainStep lane check inv c).checkReady

/-- R509: the link has taken the block, and shows READY where it begins to. -/
def State.tookTrain (s : State) (l lane drift : Nat) (inv : Bool) (c : LaceBlock) : State :=
  let y := (s.lnk l).trained lane (s.trainCheck c drift) inv c
  let t := s.updLink l fun _ => y
  if y.ready ∧ (s.lnk l).ready = false then t.laceOut l (.train 15 2 y.lanes) else t

theorem State.trainBlock_of_training (hidle : (s.lnk l).idleRx = false) (hst : (s.lnk l).st = 2)
    (hlane : bitOf (s.lnk l).lanes lane = true) : s.trainBlock l lane b drift =
      (let y := (s.lnk l).trained lane (s.trainCheck c drift) inv c
       if y.ready ∧ (lanesOf y.lanes).all (fun i => 16 ≤ (y.readyCnt[i]?.getD 0)) then
         (s.tookTrain l lane drift inv c).linkUpNow l (blockField c 37 34)
       else s.tookTrain l lane drift inv c) := by
  simp only [State.trainBlock, hb, hidle, Bool.false_eq_true, false_and, if_false, hst, hlane]
  rfl

end

theorem State.tookTrain_lnk_same (s : State) (l lane drift : Nat) (inv : Bool) (c : LaceBlock) :
    (s.tookTrain l lane drift inv c).lnk l = (s.lnk l).trained lane (s.trainCheck c drift) inv c := by
  unfold State.tookTrain
  dsimp only
  split
  · rw [State.lnk_laceOut_train, State.lnk_updLink_same]
  · rw [State.lnk_updLink_same]

theorem State.tookTrain_lnk_other (s : State) {l n : Nat} (lane drift : Nat) (inv : Bool) (c : LaceBlock) (hn : n ≠ l) :
    (s.tookTrain l lane drift inv c).lnk n = s.lnk n := by
  unfold State.tookTrain
  dsimp only
  split
  · rw [State.lnk_laceOut_train, State.lnk_updLink_other _ _ _ _ hn]
  · rw [State.lnk_updLink_other _ _ _ _ hn]

theorem State.tookTrain_recs (s : State) (l lane drift : Nat) (inv : Bool) (c : LaceBlock) :
    (s.tookTrain l lane drift inv c).recs = s.recs := by
  unfold State.tookTrain
  dsimp only
  split <;> rfl

theorem exec_trainBlock_of_training {l : Fin 8} {lane : Fin 4} {b c : LaceBlock} {inv : Bool} (drift : BitVec 16)
    {s : State} (hb : trainOf b = some (inv, c)) (hidle : (s.lnk l).idleRx = false) (hst : (s.lnk l).st = 2)
    (hlane : bitOf (s.lnk l).lanes lane = true) :
    ∃ t : State, (exec (.trainBlock l lane b drift) s = next t
        ∨ exec (.trainBlock l lane b drift) s = next (t.linkUpNow l (blockField c 37 34)))
      ∧ t.lnk l = (s.lnk l).trained lane (s.trainCheck c drift.toNat) inv c
      ∧ (∀ n : Nat, n ≠ l.val → t.lnk n = s.lnk n) ∧ t.recs = s.recs := by
  refine ⟨s.tookTrain l lane drift.toNat inv c, ?_, s.tookTrain_lnk_same .., fun n hn => s.tookTrain_lnk_other _ _ _ _ hn,
    s.tookTrain_recs ..⟩
  have htook := State.trainBlock_of_training hb drift.toNat hidle hst hlane
  dsimp only at htook
  split at htook
  · exact .inr (congrArg next htook)
  · exact .inl (congrArg next htook)

/-- R509: sixteen READY on every locked lane bring a link up that already shows READY. -/
theorem State.trainBlock_of_ready {s : State} {l lane : Nat} {b c : LaceBlock} {inv : Bool} (drift : Nat)
    (hb : trainOf b = some (inv, c)) (hidle : (s.lnk l).idleRx = false) (hst : (s.lnk l).st = 2)
    (hlane : bitOf (s.lnk l).lanes lane = true) (hwas : (s.lnk l).ready = true)
    (hready : ((s.lnk l).trained lane (s.trainCheck c drift) inv c).ready = true)
    (hcount : ∀ i : Nat, i < 4 → bitOf (s.lnk l).lanes i = true →
      16 ≤ (((s.lnk l).trainStep lane (s.trainCheck c drift) inv c).readyCnt[i]?.getD 0)) :
    s.trainBlock l lane b drift =
      (s.updLink l fun x => x.trained lane (s.trainCheck c drift) inv c).linkUpNow l (blockField c 37 34) := by
  have hall : (lanesOf (s.lnk l).lanes).all (fun i =>
      decide (16 ≤ (((s.lnk l).trainStep lane (s.trainCheck c drift) inv c).readyCnt[i]?.getD 0))) = true := by
    refine List.all_eq_true.mpr fun i hi => decide_eq_true ?_
    obtain ⟨hlt, hbit⟩ := List.mem_filter.mp hi
    exact hcount i (List.mem_range.mp hlt) hbit
  rw [State.trainBlock_of_training hb drift hidle hst hlane]
  refine (if_pos ⟨hready, hall⟩).trans ?_
  unfold State.tookTrain
  simp only [hready, hwas, Bool.true_eq_false, and_false, if_false]
  rfl

theorem State.linkUpNow_lnk (s : State) (l m : Nat) : (s.linkUpNow l m).lnk l = { s.lnk l with
    st := 3
    rxMask := widthMask (s.lnk l).lanes
    txMask := widthMask m
    tx := #v[{ credits := 256 }, { credits := 1024 }, { credits := 256 }]
    rx := #v[{ free := 256 }, { free := 1024 }, { free := 256 }]
    quietFrom := s.time.now
    txRow := s.time.now * 16
    rowNo := 0
    lostAt := Vector.replicate 4 s.time.now
    timeAt := s.time.now } := by
  rw [State.linkUpNow, State.lnk_setLinkState_same, State.lnk_updLink_same]

/-! ### WIDTH_BLOCK (R517) -/

theorem exec_widthBlock_of_none {l : Fin 8} {b : LaceBlock} {s : State}
    (h : ctrlType b ≠ some 0x99 ∨ (s.lnk l).up = false ∨ blockField b 11 8 = 0) : exec (.widthBlock l b) s = next s := by
  refine congrArg next ?_
  by_cases ht : ctrlType b = some 0x99
  · rw [if_pos ht, State.widthBlock, if_pos]
    simpa [ht] using h
  · rw [if_neg ht]

section
variable {l : Fin 8} {b : LaceBlock} {s : State} (ht : ctrlType b = some 0x99) (hup : (s.lnk l).up = true)
  (hmask : blockField b 11 8 ≠ 0)
include ht hup hmask

theorem exec_widthBlock_answers (hreq : (s.lnk l).reqMask = some (blockField b 11 8)) :
    exec (.widthBlock l b) s = next (s.updLink l fun x => { x with reqMask := none, rxMask := blockField b 11 8 }) := by
  refine congrArg next ((if_pos ht).trans ?_)
  simp [State.widthBlock, hup, hmask, hreq]

theorem exec_widthBlock_adopts (hreq : (s.lnk l).reqMask ≠ some (blockField b 11 8)) :
    exec (.widthBlock l b) s = next
      (let t := (s.updLink l fun x => { x with txMask := blockField b 11 8 }).laceOut l (.width (blockField b 11 8))
       let left := (lanesOf (s.lnk l).txMask).filter fun i => !bitOf (blockField b 11 8) i
       if left = [] then t else t.laceOut l (.train (left.foldl (fun m i => m + 2 ^ i) 0) 0 (s.lnk l).lanes)) := by
  refine congrArg next ((if_pos ht).trans ?_)
  simp only [State.widthBlock, hup, hreq, List.isEmpty_iff]
  simp [hmask]

end

/-! ### Electrical idle (R520 to R522) -/

theorem exec_eidleBlock (l : Fin 8) (b : LaceBlock) (s : State) : exec (.eidleBlock ⟨l, b⟩) s = next
    (if ctrlType b = some 0x66 ∧ (s.lnk l).up = true then
       (s.updLink l fun x => { x with idleRx := true, exitFrom := 0, relock := 0 }).setLinkState l 4 0 else s) := by
  rw [ite_and]
  rfl

theorem State.idleExit_of_busy {s : State} {l : Nat} (h : (s.lnk l).up = false ∨ (s.lnk l).idleTx = false) :
    s.idleExit l = s := by
  refine if_neg ?_
  rintro ⟨hup, hidle, -⟩
  exact h.elim (by simp [hup]) (by simp [hidle])

theorem State.idleExit_of_waiting {s : State} {l : Nat} (hup : (s.lnk l).up = true) (hidle : (s.lnk l).idleTx = true)
    (h : (s.lnk l).tx.toList.any (fun t => !t.queue.isEmpty) = true ∨ (s.lnk l).txWait ≠ []) : s.idleExit l =
      (((((s.updLink l fun x => { x with idleTx := false, quietFrom := s.time.now, txRow := (s.time.now + 70) * 16 }).laceOut l
        (.train (s.lnk l).txMask 2 (s.lnk l).lanes)).setLinkState l
        (if (s.lnk l).idleRx = true then 4 else 3) 0).lacePump l 0).lacePump l 1).lacePump l 2 := by
  refine if_pos ⟨hup, hidle, ?_⟩
  rcases h with hq | hw
  · rw [hq, Bool.or_true]
  · rw [List.isEmpty_eq_false_iff.mpr hw]
    rfl

/-! ### The commands -/

/-- R511: an attempt that has run for 10 ms fails. -/
theorem exec_trainingTimeout_of_late {l : Fin 8} (sig : BitVec 4) {s : State} (hst : (s.lnk l).st = 2)
    (hlate : (s.lnk l).attemptFrom + 10000000 ≤ s.time.now) :
    ∃ t : State, exec (.trainingTimeout l sig) s = next t ∧ t.lnk l = { s.lnk l with
        signal := sig.toNat
        sigEnd := sig.toNat
        ready := false
        waiting := decide ((s.lnk l).attempt < 8)
        waitTo := s.time.now + 10000000 * 2 ^ ((s.lnk l).attempt - 1)
        st := if (s.lnk l).attempt < 8 then 1 else 5 } ∧ ∀ n : Nat, n ≠ l.val → t.lnk n = s.lnk n := by
  refine ⟨_, congrArg next (if_pos ⟨hst, .inl hlate⟩), ?_, fun n hn => ?_⟩
  · rw [State.lnk_linkRecord, State.lnk_updLink_same]
  · rw [State.lnk_linkRecord, State.lnk_updLink_other _ _ _ _ hn]

theorem exec_trainingTimeout_waits {l : Fin 8} (sig : BitVec 4) {s : State} (hst : (s.lnk l).st = 2)
    (hlate : (s.lnk l).attemptFrom + 10000000 ≤ s.time.now) (hleft : (s.lnk l).attempt < 8) :
    ∃ t : State, exec (.trainingTimeout l sig) s = next t ∧ (t.lnk l).st = 1 ∧ (t.lnk l).waiting = true
      ∧ (t.lnk l).waitTo = s.time.now + 10000000 * 2 ^ ((s.lnk l).attempt - 1) ∧ ∀ n : Nat, n ≠ l.val → t.lnk n = s.lnk n := by
  obtain ⟨t, ht, hlnk, hother⟩ := exec_trainingTimeout_of_late sig hst hlate
  refine ⟨t, ht, ?_, ?_, ?_, hother⟩ <;> simp [hlnk, hleft]

theorem exec_trainingTimeout_gives_up {l : Fin 8} (sig : BitVec 4) {s : State} (hst : (s.lnk l).st = 2)
    (hlate : (s.lnk l).attemptFrom + 10000000 ≤ s.time.now) (hlast : 8 ≤ (s.lnk l).attempt) :
    ∃ t : State, exec (.trainingTimeout l sig) s = next t ∧ (t.lnk l).st = 5 ∧ (t.lnk l).waiting = false
      ∧ ∀ n : Nat, n ≠ l.val → t.lnk n = s.lnk n := by
  obtain ⟨t, ht, hlnk, hother⟩ := exec_trainingTimeout_of_late sig hst hlate
  refine ⟨t, ht, ?_, ?_, hother⟩ <;> simp [hlnk, Nat.not_lt.mpr hlast]

theorem exec_alignBlock_of_training {l : Fin 8} {b : LaceBlock} {skew : BitVec 16} {s : State} (hst : (s.lnk l).st = 2)
    (ht : ctrlType b = some 0x33) (hskew : skew.toNat ≤ 16000) :
    ∃ t : State, exec (.alignBlock l ⟨b, skew⟩) s = next t ∧ (t.lnk l).deskew = (s.lnk l).lanes
      ∧ (∀ n : Nat, n ≠ l.val → t.lnk n = s.lnk n) ∧ t.regs = s.regs ∧ t.recs = s.recs := by
  refine ⟨_, congrArg next (if_pos ⟨hst, ht, hskew⟩), ?_, fun n hn => ?_, rfl, rfl⟩
  · rw [State.lnk_laceOut_train, State.lnk_updLink_same]
    rfl
  · rw [State.lnk_laceOut_train, State.lnk_updLink_other _ _ _ _ hn]

/-- LC_RETRAIN (R513). -/
theorem State.lcRetrain_of_down {s : State} {l : Nat} (hm : s.mayTrain l = true) (hst : (s.lnk l).st ≠ 6)
    (hup : (s.lnk l).up = false) : s.lcRetrain l = s.startAttempt l 1 := by
  simp [State.lcRetrain, hm, hst, hup]

theorem LaceLink.not_quarantined_of_up {x : LaceLink} (h : x.up = true) : x.st ≠ 6 := by
  intro hst
  simp [LaceLink.up, hst] at h

theorem State.lcRetrain_of_up {s : State} {l : Nat} (hm : s.mayTrain l = true) (hup : (s.lnk l).up = true) :
    s.lcRetrain l = (s.linkDown l 1 10).startAttempt l 1 := by
  simp [State.lcRetrain, hm, LaceLink.not_quarantined_of_up hup, hup]

theorem exec_laneLockLoss (l : Fin 8) (lane : Fin 4) (s : State) : exec (.laneLockLoss l lane) s = next
    (if bitOf (s.lnk l).lanes lane = false then s
     else
       let t := (s.updLink l fun x => { x with lanes := setBits x.lanes lane lane 0, lostAt := x.lostAt.set! lane s.time.now }).count Reg.LC_CNT.LOCKLOSS [l]
       let m := widthMask (t.lnk l).lanes
       if (s.lnk l).up = false then t
       else if m = 0 then t.linkDown l 1 8
       else (if m = (s.lnk l).rxMask then t else (t.updLink l fun x => { x with rxMask := m }).askWidth l m).laneRecord l lane 1) := by
  refine congrArg next ?_
  simp only [State.laneLoss, Bool.not_eq_true']

/-- Settles O51. Each command is the operation of its name, which asks for the state of the link; what a TRAIN block leaves
of the link is said once (`State.trainBlock_of_training`). -/
theorem laceTrainingWidthAndIdle : Obligations.LaceTrainingWidthAndIdle :=
  ⟨fun _ _ _ => rfl,
   State.startAttempt_link,
   fun _ lane _ hw hst => congrArg next (State.signalGain_of_running lane hw hst),
   fun _ _ _ hw hnew hm => congrArg next (State.signalGain_of_waiting hw hnew hm),
   fun _ lane _ hup h => congrArg next (State.laneLock_of_down lane hup h),
   fun _ lane _ hst hready => congrArg next (State.laneLock_of_training lane hst hready),
   fun _ _ _ hup hidle hlane => congrArg next (State.laneLock_of_up hup hidle hlane),
   exec_laneLockLoss,
   -- training
   fun _ _ _ _ _ h => congrArg next (State.trainBlock_of_none h),
   fun _ => ⟨trainOf_plain, trainOf_inverted⟩,
   fun _ _ _ _ _ drift _ hb hidle h => congrArg next (State.trainBlock_of_other hb drift.toNat hidle h),
   fun _ _ _ _ _ drift _ hb hidle hexit => congrArg next (State.trainBlock_of_idle hb drift.toNat hidle hexit),
   fun _ _ _ _ _ drift _ hb hidle hst hlane => exec_trainBlock_of_training drift hb hidle hst hlane,
   fun _ _ _ _ _ drift _ hb hidle hst hlane hwas hready hcount =>
    congrArg next (State.trainBlock_of_ready drift.toNat hb hidle hst hlane hwas hready hcount),
   fun _ _ _ => rfl,
   fun _ _ _ _ _ => ⟨rfl, rfl, rfl⟩,
   fun s l m => by rw [State.linkUpNow_lnk]; exact ⟨rfl, rfl, rfl, by simp, by simp⟩,
   fun _ _ _ _ => rfl,
   fun _ _ _ => rfl,
   fun _ _ => rfl,
   fun _ _ _ => rfl,
   -- width
   fun _ _ _ h => exec_widthBlock_of_none h,
   fun _ _ _ ht hup hmask hreq => exec_widthBlock_answers ht hup hmask hreq,
   fun _ _ _ ht hup hmask hreq => exec_widthBlock_adopts ht hup hmask hreq,
   fun _ _ => rfl,
   fun _ _ => ⟨rfl, rfl⟩,
   fun _ _ => rfl,
   -- electrical idle
   fun _ _ => rfl,
   exec_eidleBlock,
   fun _ _ h => congrArg next (State.idleExit_of_busy h),
   fun _ _ hup hidle h => congrArg next (State.idleExit_of_waiting hup hidle h),
   fun _ _ => rfl,
   -- the commands where they act
   fun _ _ _ hst hw hm hready => congrArg next (if_pos ⟨hst, hw, hm, hready⟩),
   fun l lane s hlane hup => by
    rw [exec_laneLockLoss, if_neg (ne_false_of_eq_true hlane)]
    exact congrArg next (if_pos hup),
   fun _ _ _ _ hst ht hskew => exec_alignBlock_of_training hst ht hskew,
   fun _ sig _ hst hlate hleft => exec_trainingTimeout_waits sig hst hlate hleft,
   fun _ sig _ hst hlate hlast => exec_trainingTimeout_gives_up sig hst hlate hlast,
   fun _ _ hw hto hm => congrArg next (if_pos ⟨hw, hto, hm⟩),
   fun _ _ _ hup hlane hlost => congrArg next (if_pos ⟨hup, hlane, hlost⟩),
   fun _ _ hready hm hst hup => congrArg next ((State.gate_of_ready _ _ hready).trans (State.lcRetrain_of_down hm hst hup)),
   fun _ _ hready hm hup => congrArg next ((State.gate_of_ready _ _ hready).trans (State.lcRetrain_of_up hm hup)),
   fun _ _ hready hst => congrArg next ((State.gate_of_ready _ _ hready).trans (if_pos hst)),
   fun _ _ hst hto => congrArg next (if_pos ⟨hst, hto⟩),
   fun _ _ hup hidle hen hquiet hfollow hjob => congrArg next (if_pos ⟨hup, hidle, hen, hquiet, hfollow, hjob⟩),
   fun l b s ht hup => (exec_eidleBlock l b s).trans (congrArg next (if_pos ⟨ht, hup⟩)),
   fun _ _ hidle hexit hto => congrArg next (if_pos ⟨hidle, hexit, hto⟩)⟩

end Sys2Proof.Machine
end

section
/-! PROOFS. ORDERLY_STOP_TIMEOUT (R670, R672): a stop's trigger and its end. That a job boundary leaves no job running is
followed through the operations that `jobEnd` ends with: none of them starts a job. -/

namespace Sys2Proof.Machine

/-! ### Records and completions start and end no job -/

@[simp] theorem State.inJob_updJob (s : State) (f : Job → Job) : (s.updJob f).inJob = s.inJob := by
  simp [State.inJob]

@[simp] theorem State.inJob_post (s : State) (c : Nat) (ring : Ring) (src kind flags : Nat) (st : Stamp)
    (body : List (Nat × Nat × Nat)) : (s.post c ring src kind flags st body).inJob = s.inJob := by
  unfold State.post State.holdBoot State.markInvalid
  dsimp only
  repeat' split
  all_goals simp [State.inJob]

@[simp] theorem State.inJob_fire (s : State) (src : Nat) : (s.fire src).inJob = s.inJob := by
  unfold State.inJob
  rw [State.fire_job]

@[simp] theorem State.inJob_loseRecord (s : State) (h : Held) : (s.loseRecord h).inJob = s.inJob := by
  rw [State.loseRecord_eq, State.inJob_fire, State.inJob_fire]
  cases h.ofJob <;> rfl

@[simp] theorem State.inJob_writeStatus (s : State) (c : Nat) : (s.writeStatus c).inJob = s.inJob := rfl

@[simp] theorem State.inJob_noteStamp (s : State) (st : Stamp) : (s.noteStamp st).inJob = s.inJob := by
  simp [State.noteStamp, State.inJob]

@[simp] theorem State.inJob_noteStamp_ite (s : State) (b : Bool) (st : Stamp) :
    (if b then s.noteStamp st else s).inJob = s.inJob := by
  cases b
  · rfl
  · exact s.inJob_noteStamp st

@[simp] theorem State.inJob_numberAndPost (s : State) (h : Held) : (s.numberAndPost h).inJob = s.inJob := by
  by_cases hsilent : (h.ofJob && s.job.silent) = true
  · rw [State.numberAndPost_of_silent hsilent]
    rfl
  have hs : (h.ofJob && s.job.silent) = false := Bool.eq_false_of_not_eq_true hsilent
  by_cases hfull : (s.ringState h).1 = 0 ∨ ((s.ringState h).2.1 + 1) % (s.ringState h).1 = (s.ringState h).2.2
  · rw [State.numberAndPost_of_full hs hfull, State.inJob_loseRecord]
    rfl
  · obtain ⟨hsize, hroom⟩ := not_or.mp hfull
    rw [State.numberAndPost_of_room hs hsize hroom, State.inJob_fire, State.inJob_writeStatus,
      State.inJob_noteStamp_ite]
    rfl

@[simp] theorem State.inJob_releaseAll (p : Held → Bool) (n : Nat) (s : State) :
    (State.releaseAll p n s).inJob = s.inJob := by
  induction n generalizing s with
  | zero => rfl
  | succ n ih =>
    rw [State.releaseAll]
    split
    · rfl
    · rw [ih, State.inJob_numberAndPost]
      rfl

@[simp] theorem State.inJob_complete (s : State) (c : Nat) (d : Desc) (status detail aux : Nat) (st : Stamp)
    (cflags : Nat) : (s.complete c d status detail aux st cflags).inJob = s.inJob := by
  rw [State.complete_eq]
  rfl

/-! ### Nor does the work at a job boundary -/

@[simp] theorem State.inJob_postGap (s : State) (inp : Nat) : (s.postGap inp).inJob = s.inJob := by
  unfold State.postGap State.releaseUpTo
  split
  · rfl
  · rw [State.inJob_numberAndPost, State.inJob_releaseAll]
    rfl

@[simp] theorem State.inJob_finishJob (s : State) : s.finishJob.inJob = s.inJob := by
  unfold State.finishJob
  split
  · rfl
  split
  · rfl
  · next c _ _ =>
    extract_lets gaps freed free last jobs rdos closed
    have hfreed : freed.inJob = gaps.inJob := State.inJob_releaseAll ..
    have hgaps : gaps.inJob = s.inJob := foldl_keeps State.inJob State.postGap State.inJob_postGap (List.range 32) s
    clear_value freed
    have hclosed : closed.inJob = s.inJob := hfreed.trans hgaps
    clear_value closed
    split
    · exact hclosed
    split
    · exact hclosed
    · exact (closed.inJob_complete ..).trans hclosed

@[simp] theorem State.inJob_fluxPresets (s : State) : s.fluxPresets.inJob = s.inJob :=
  foldl_keeps State.inJob _ (fun s k => by split <;> rfl) _ s

@[simp] theorem State.inJob_biasStep (s : State) (k : Nat) (code : Int) : (s.biasStep k code).inJob = s.inJob := by
  unfold State.biasStep
  dsimp only
  split
  · rfl
  · split <;> rfl

@[simp] theorem State.inJob_biasJobEnd (s : State) : s.biasJobEnd.inJob = s.inJob :=
  foldl_keeps State.inJob _ (fun s k => by
    dsimp only
    split
    · exact State.inJob_biasStep ..
    · rfl) _ s

@[simp] theorem State.inJob_faultClear (s : State) (cause k : Nat) : (s.faultClear cause k).inJob = s.inJob := by
  unfold State.faultClear
  dsimp only
  split <;> rfl

@[simp] theorem State.inJob_recoverRf (s : State) : s.recoverRf.inJob = s.inJob :=
  foldl_keeps State.inJob _
    (fun s q => foldl_keeps State.inJob (fun s k => s.faultClear 5 k) (fun s k => s.inJob_faultClear 5 k) (quarterOuts q) s)
    s.pwr.recovered _

@[simp] theorem State.inJob_emuteRecover (s : State) : s.emuteRecover.inJob = s.inJob :=
  foldl_keeps State.inJob _ (fun s k => by split <;> simp) _ s

@[simp] theorem State.inJob_clearMark (s : State) (x : SealMark) : (s.clearMark x).inJob = s.inJob := by
  unfold State.clearMark
  extract_lets cleared
  have hclear (a n : Nat) : (s.clear a n).inJob = s.inJob := rfl
  have hcleared : cleared.inJob = s.inJob := by
    unfold cleared
    split
    · exact hclear ..
    · exact hclear ..
  exact hcleared

@[simp] theorem State.inJob_clearDoomed (s : State) : s.clearDoomed.inJob = s.inJob :=
  foldl_keeps State.inJob State.clearMark State.inJob_clearMark _ s

@[simp] theorem State.inJob_standbyMode (s : State) : s.standbyMode.inJob = s.inJob := by
  unfold State.standbyMode
  dsimp only
  repeat' split
  all_goals rfl

/-! ### The end of a job, and of a stop -/

theorem State.inJob_jobEnd (s : State) : s.jobEnd.inJob = false := by
  unfold State.jobEnd
  split
  · next h => rw [State.inJob, h]; rfl
  · extract_lets thr flushed c disarmed jobs ended finished
    have hpresets : (if ended.workDue then ended else ended.fluxPresets).inJob = false := by
      split
      · rfl
      · exact ended.inJob_fluxPresets
    simp only [State.inJob_standbyMode, State.inJob_clearDoomed, State.inJob_emuteRecover, State.inJob_recoverRf,
      State.inJob_biasJobEnd]
    exact (State.inJob_finishJob _).trans hpresets

theorem State.job_none_of_inJob {s : State} (h : s.inJob = false) : s.job.job = none :=
  Option.isNone_iff_eq_none.mp (by simpa [State.inJob] using h)

theorem State.inJob_stopJob (s : State) : s.stopJob.inJob = false := by
  unfold State.stopJob
  split
  · exact State.inJob_jobEnd _
  · next h => exact Bool.eq_false_of_not_eq_true h

theorem State.pwr_postCoarse (s : State) (c src kind flags : Nat) (body : List (Nat × Nat × Nat)) :
    (s.postCoarse c src kind flags body).pwr = s.pwr :=
  State.still_pwr (s.still_post ..)

theorem State.stopDone_pwr (s : State) (p : StopSt) :
    (s.stopDone p).pwr.stop = none ∧ (s.stopDone p).pwr.clocksOff = true := by
  unfold State.stopDone
  dsimp only
  rw [State.pwr_postCoarse]
  exact ⟨rfl, rfl⟩

theorem State.stopTimeout_of_none {s : State} (h : s.pwr.stop = none) : s.stopTimeout = s := by
  rw [State.stopTimeout, h]

theorem State.stopTimeout_of_early {s : State} {p : StopSt} (h : s.pwr.stop = some p)
    (ht : s.time.now < p.t0 + 1000000) : s.stopTimeout = s := by
  rw [State.stopTimeout, h]
  exact if_pos ht

theorem State.stopTimeout_of_due {s : State} {p : StopSt} (h : s.pwr.stop = some p)
    (ht : p.t0 + 1000000 ≤ s.time.now) : s.stopTimeout =
      match s.stopJob.pwr.stop with
      | some r => if s.stopJob.nv.writes = [] then s.stopJob.stopDone r else s.stopJob
      | none => s.stopJob := by
  rw [State.stopTimeout, h]
  exact if_neg (Nat.not_lt.mpr ht)

/-- Settles O31: the branches of the timeout, and that the job has ended when the stop has. -/
theorem orderlyStopEnds : Obligations.OrderlyStopEnds :=
  ⟨fun _ h => congrArg State.done (State.stopTimeout_of_none h),
   fun _ _ h ht => congrArg State.done (State.stopTimeout_of_early h ht),
   fun _ _ h ht => congrArg State.done (State.stopTimeout_of_due h ht),
   State.stopDone_pwr,
   fun s _ _ => State.job_none_of_inJob s.inJob_stopJob⟩

end Sys2Proof.Machine
end

section
/-! PROOFS. Network time messages (R549 to R556, R570, R571): the checks of a received message, then what each
message means in the port's mode, and what a port sends. -/

namespace Sys2Proof.Machine
open Host.Outcome (next)

/-! ### The checks of a received message (R550, R570) -/

theorem ptpReserved_iff (t : Nat) : ptpReserved t = true ↔ (4 ≤ t ∧ t ≤ 7) ∨ 14 ≤ t := by
  simp [ptpReserved]

theorem ptpSkips_iff (s : State) (n : Nat) (m : PtpMsg) :
    (!s.flag Reg.TP_CFG.EN [n] || !(s.port n).link || (s.port n).quarantined m.id) = true ↔
      s.flag Reg.TP_CFG.EN [n] = false ∨ (s.port n).link = false ∨ (s.port n).quarantined m.id = true := by
  simp [or_assoc]

theorem State.ptpRx_eq (s : State) (n t : Nat) (m : PtpMsg) (frac : BitVec 16) (k : Nat → Nat → State) :
    s.ptpRx n t m frac k =
      if s.flag Reg.TP_CFG.EN [n] = false ∨ (s.port n).link = false ∨ (s.port n).quarantined m.id = true then s
      else if m.major ≠ 2 then s.ptpVio n 1 m frac
      else if m.badLen = true then s.ptpVio n 2 m frac
      else if (4 ≤ m.mtype.toNat ∧ m.mtype.toNat ≤ 7) ∨ 14 ≤ m.mtype.toNat then s.ptpVio n 3 m frac
      else if m.mtype.toNat ≠ t then s
      else match s.ptpDomain m with
        | none => s.count Reg.TP_CNT.IGN [n]
        | some d =>
          if s.ptpMode n d = 0 then s
          else if 1000000000 ≤ m.ns.toNat then s.ptpVio n 4 m frac
          else if ptpWrongDelay t (s.peerDelay n d) = true then s.ptpVio n 5 m frac
          else k d (s.ptpMode n d) :=
  if_congr (ptpSkips_iff s n m) rfl
    (if_congr Iff.rfl rfl (if_congr Iff.rfl rfl (if_congr (ptpReserved_iff _) rfl rfl)))

/-- A message of a type that is not reserved, which the port takes, has its own meaning. -/
theorem State.ptpRx_of_takes {s : State} {n t d : Nat} {m : PtpMsg} (h : s.ptpTakes n t m d) (frac : BitVec 16)
    (k : Nat → Nat → State) (ht : ptpReserved t = false) : s.ptpRx n t m frac k = k d (s.ptpMode n d) := by
  obtain ⟨hen, hlink, hquar, hmajor, hlen, htype, hdom, hmode, hns, hdelay⟩ := h
  subst htype
  have hskip : (!s.flag Reg.TP_CFG.EN [n] || !(s.port n).link || (s.port n).quarantined m.id) = false := by
    simp [hen, hlink, hquar]
  rw [State.ptpRx, hskip, hlen, ht, hdom]
  simp [hmajor, hmode, Nat.not_le.mpr hns, hdelay]

/-! ### Sync and its Follow_Up (R555, R556) -/

theorem State.ptpForward_eq (s : State) (n d : Nat) (m : PtpMsg) : s.ptpForward n d m =
    if s.flag Reg.TP_CFG.EN [1 - n] = true ∧ (s.port (1 - n)).link = true then s.ptpOut (1 - n) d m else s :=
  if_congr (Bool.and_eq_true_iff) rfl rfl

theorem State.syncPair_of_delay {s : State} {n d : Nat} {t2 dev t1 x : Int}
    (h : ((s.updPortDom n d fun p => { p with pair := some (t2, t1 + s.ptpAsym n), sync := none }).portDom n d).delay
      = some x) : s.syncPair n d t2 dev t1 =
      (s.updPortDom n d fun p => { p with pair := some (t2, t1 + s.ptpAsym n), sync := none }).addSample n d
        (dev - (t1 + signedOf 32 (s.rd Reg.TP_ASYM.ASYM [n])) - x) := by
  rw [State.syncPair]
  rw [h]
  rfl

section
variable {s : State} {n d : Nat} {m : PtpMsg}

theorem State.ptpSync_tc_oneStep (h : m.twoStep = false) (frac : BitVec 16) (res : Nat) :
    s.ptpSync n m frac res d 3 = s.ptpForward n d { m with corr := m.corr + res } := by
  rw [State.ptpSync, h]
  rfl

theorem State.ptpSync_tc_twoStep (h : m.twoStep = true) (frac : BitVec 16) (res : Nat) :
    s.ptpSync n m frac res d 3 =
      (s.updPortDom n d fun p => { p with resid := some (m.id, m.seq.toNat, res) }).ptpForward n d m := by
  rw [State.ptpSync, h]
  rfl

theorem State.ptpSync_slave (h : (s.portDom n d).master = some m.id) (frac : BitVec 16) (res : Nat) :
    s.ptpSync n m frac res d 1 =
      if m.twoStep = true then (s.syncHeard d).updPortDom n d fun p => { p with
        sync := some (m.seq.toNat, (s.syncHeard d).tickTime frac, (s.syncHeard d).devTime frac, m.corr) }
      else (s.syncHeard d).syncPair n d ((s.syncHeard d).tickTime frac) ((s.syncHeard d).devTime frac)
        (m.stamp + m.corr) :=
  if_pos ⟨rfl, h⟩

theorem State.followUp_slave {q : Nat} {t2 dev c : Int} (hmaster : (s.portDom n d).master = some m.id)
    (hsync : (s.portDom n d).sync = some (q, t2, dev, c)) : s.followUp n m d 1 =
      if q = m.seq.toNat then s.syncPair n d t2 dev (m.stamp + c + m.corr) else s := by
  rw [State.followUp]
  rw [hmaster, hsync]
  exact (if_neg (by decide)).trans (if_pos ⟨rfl, rfl⟩)

theorem State.followUp_tc_none (h : (s.portDom n d).resid = none) : s.followUp n m d 3 = s.ptpForward n d m := by
  rw [State.followUp]
  rw [h]
  rfl

theorem State.followUp_tc_some {q : Nat} {r : Int} (h : (s.portDom n d).resid = some (m.id, q, r)) :
    s.followUp n m d 3 =
      if q = m.seq.toNat then
        (s.updPortDom n d fun p => { p with resid := none }).ptpForward n d { m with corr := m.corr + r }
      else s.ptpForward n d m := by
  rw [State.followUp]
  rw [h]
  exact (if_pos rfl).trans (if_congr (and_iff_right rfl) rfl rfl)

/-! ### Path delay (R551, R554, R556) -/

theorem State.pathDelay_eq (frac : BitVec 16) (twice : Int) : s.pathDelay n d m frac twice =
    if 0 ≤ twice ∧ twice ≤ 2 * 1000000 * 65536 then
      s.updPortDom n d fun p => { p with delay := some (rndNearest twice 2), req := none, presp := none }
    else s.ptpVio n 6 m frac := by
  by_cases h : 0 ≤ twice ∧ twice ≤ 2 * 1000000 * 65536
  · rw [if_pos h]
    exact if_neg (by omega)
  · rw [if_neg h]
    exact if_pos (by omega)

theorem State.delayResp_slave {t3 t2 t1 : Int} (hmaster : (s.portDom n d).master = some m.id)
    (hours : s.ours n d m = some t3) (hpair : (s.portDom n d).pair = some (t2, t1)) :
    s.delayResp n m d 1 = s.pathDelay n d m 0 ((t2 - t3) + (m.stamp - t1) - m.corr) := by
  rw [State.delayResp, hours, hpair]
  exact (if_neg (by decide)).trans (if_pos ⟨rfl, hmaster⟩)

theorem State.pdelayResp_of_ours {t1 : Int} (h : s.ours n d m = some t1) (frac : BitVec 16) :
    s.pdelayResp n m frac d =
      if m.twoStep = true then
        s.updPortDom n d fun p => { p with presp := some (s.tickTime frac, m.stamp, m.corr + s.ptpAsym n) }
      else s.pathDelay n d m frac (s.tickTime frac - t1 - (m.corr + s.ptpAsym n)) := by
  rw [State.pdelayResp, h]

theorem State.pdelayFollow_of_ours {t1 t4 t2 c : Int} (hours : s.ours n d m = some t1)
    (hpresp : (s.portDom n d).presp = some (t4, t2, c)) :
    s.pdelayFollow n m d = s.pathDelay n d m 0 ((t4 - t1) - (m.stamp - t2) - c - m.corr) := by
  rw [State.pdelayFollow, hours, hpresp]

/-! ### Announce (R551) -/

theorem State.announce_slave_none (h : (s.portDom n d).master = none) : s.announce n m d 1 =
    if (m.id, (m.seq - 1).toNat) ∈ (s.portDom n d).cands then s.updPortDom n d fun p => { p with
      master := some m.id
      cands := []
      lastAnn := s.time.now
      parent := some m
      delay := if s.peerDelay n d = true then p.delay else none
      pair := none
      req := none }
    else s.updPortDom n d fun p => { p with cands := (m.id, m.seq.toNat) :: p.cands.filter fun c => c.1 ≠ m.id } := by
  rw [State.announce]
  rw [h]
  exact (if_neg (by decide)).trans ((if_neg (by decide)).trans (if_congr List.contains_iff_mem rfl rfl))

theorem State.announce_slave_master (h : (s.portDom n d).master = some m.id) : s.announce n m d 1 =
    s.updPortDom n d fun p => { p with lastAnn := s.time.now, parent := some m } := by
  rw [State.announce, h]
  exact (if_neg (by decide)).trans ((if_neg (by decide)).trans (if_pos rfl))

end

/-! ### Sent messages (R550, R551, R553) -/

/-- A Sync message `m` goes out, with its Follow_Up on a port of two steps. -/
def State.syncOut (s : State) (n d : Nat) (m : PtpMsg) : State :=
  let t := s.updPortDom n d fun p => { p with nextSeq := p.nextSeq + 1, syncAt := some s.time.now }
  if s.flag Reg.TP_CFG.ONE_STEP [n] = true then t.ptpOut n d m
  else (t.ptpOut n d { m with twoStep := true, corr := 0 }).ptpOut n d { m with mtype := 8 }

theorem State.syncSend_of_due {s : State} {n d : Nat} (hsends : s.sends n d 2 = true)
    (hdue : s.intervalOver (s.portDom n d).syncAt (s.rd Reg.DOM_CFG.LOG_SYNC [d]) = true) (frac : BitVec 16) :
    s.syncSend n d frac =
      s.syncOut n d ((s.ptpMsg n d 0 (s.portDom n d).nextSeq.toNat).withTime (s.devTime frac + s.estimate d)) :=
  if_pos (Bool.and_eq_true_iff.mpr ⟨hsends, hdue⟩)

theorem State.announceSend_of_due {s : State} {n d : Nat} (hsends : s.sends n d 2 = true)
    (hdue : s.intervalOver (s.portDom n d).annAt (s.rd Reg.DOM_CFG.LOG_ANN [d]) = true) :
    s.announceSend n d = (s.ptpOut n d (s.announceMsg n d)).updPortDom n d fun p =>
      { p with annSeq := p.annSeq + 1, annAt := some s.time.now } :=
  if_pos (Bool.and_eq_true_iff.mpr ⟨hsends, hdue⟩)

theorem delayReqDue_iff (sends peer master due : Bool) :
    (sends && (peer || master) && due) = true ↔ sends = true ∧ (peer = true ∨ master = true) ∧ due = true := by
  simp [and_assoc]

theorem reportDue_iff (s : State) (n : Nat) :
    (s.flag Reg.TP_CFG.EN [n] && (!(s.port n).link || decide ((s.port n).reportAt + 60000000000 ≤ s.time.now))) = true ↔
      s.flag Reg.TP_CFG.EN [n] = true ∧ ((s.port n).link = false ∨ (s.port n).reportAt + 60000000000 ≤ s.time.now) := by
  simp

/-- The report of a link that comes up goes by the UDP transports only. -/
theorem State.membership_eq (s : State) (n : Nat) : s.membership n =
    if s.flag Reg.TP_CFG.EN [n] = true ∧ ((s.port n).link = false ∨ (s.port n).reportAt + 60000000000 ≤ s.time.now) then
      (match s.rd Reg.TP_CFG.TRANS [n] with
       | 1 => (s.updPort n fun p => { p with link := true, reportAt := s.time.now }).netOut n (.report 0)
       | 2 => (s.updPort n fun p => { p with link := true, reportAt := s.time.now }).netOut n (.report 1)
       | _ => s.updPort n fun p => { p with link := true, reportAt := s.time.now })
    else s :=
  if_congr (reportDue_iff s n) rfl rfl

/-- R571: where the hold of each is over, all are freed. -/
theorem freed_peers {l : List PtpPeer} {id now : Nat}
    (h : (l.all fun x => x.id == id && x.quarTo != 0 && decide (x.quarTo ≤ now)) = true) :
    (l.map fun x => if x.id = id ∧ x.quarTo ≠ 0 ∧ x.quarTo ≤ now then { x with quarTo := 0, vios := [] } else x) =
      l.map fun x => { x with quarTo := 0, vios := [] } := by
  refine List.map_congr_left fun x hx => if_pos ?_
  have hx' := List.all_eq_true.mp h x hx
  simpa [and_assoc] using hx'

theorem State.ptpQuarEnd_of_over {s : State} {n id : Nat}
    (h : ((s.port n).peers.all fun x => x.id == id && x.quarTo != 0 && decide (x.quarTo ≤ s.time.now)) = true) :
    s.ptpQuarEnd n id =
      s.updPort n fun p => { p with peers := p.peers.map fun x => { x with quarTo := 0, vios := [] } } := by
  rw [State.ptpQuarEnd, State.updPort, freed_peers h]
  rfl

/-- Settles O53: the checks and each message's meaning, then the messages that pass the checks. -/
theorem networkTimeMessages : Obligations.NetworkTimeMessages :=
  ⟨State.ptpRx_eq,
   -- Sync and Follow_Up
   fun _ _ _ _ _ => rfl,
   fun _ _ _ => rfl,
   fun _ _ _ _ _ _ _ _ => State.followUp_slave,
   fun _ _ _ _ => State.followUp_tc_none,
   fun _ _ _ _ _ _ => State.followUp_tc_some,
   State.ptpForward_eq,
   fun _ _ _ _ _ _ _ => State.syncPair_of_delay,
   -- delays and Announce
   fun _ _ _ _ _ => rfl,
   fun _ _ _ => rfl,
   fun _ _ _ _ => State.pathDelay_eq,
   fun _ _ _ _ _ => rfl,
   fun _ _ _ _ => rfl,
   fun _ _ _ => rfl,
   fun _ _ _ => rfl,
   fun _ _ _ _ => State.announce_slave_none,
   fun _ _ _ => rfl,
   -- what a port sends
   fun _ _ _ _ => congrArg next (if_congr Bool.and_eq_true_iff rfl rfl),
   fun _ _ _ => congrArg next (if_congr Bool.and_eq_true_iff rfl rfl),
   fun _ _ _ _ => congrArg next (if_congr (delayReqDue_iff ..) rfl rfl),
   fun n s => ⟨congrArg next (s.membership_eq n), rfl⟩,
   fun _ _ _ => rfl,
   -- messages that the port takes
   fun n m frac res d s h => by
     have hrx : exec (.ptpSync n m frac res) s = next (s.ptpSync n m frac res.toNat d (s.ptpMode n d)) :=
       congrArg next (State.ptpRx_of_takes h frac _ rfl)
     refine ⟨fun hm h1 => ?_, fun hm h2 => ?_, fun hm hmaster h1 => ?_, fun hm hmaster h2 => ?_⟩
     · rw [hrx, hm, State.ptpSync_tc_oneStep h1]
     · rw [hrx, hm, State.ptpSync_tc_twoStep h2]
     · rw [hrx, hm, State.ptpSync_slave hmaster, h1]
       rfl
     · rw [hrx, hm, State.ptpSync_slave hmaster, if_pos h2],
   fun n m d t2 dev c s h hm hmaster hsync =>
     congrArg next ((State.ptpRx_of_takes h 0 _ rfl).trans
       (by rw [hm, State.followUp_slave hmaster hsync, if_pos rfl])),
   fun n m d r s h hm hresid =>
     congrArg next ((State.ptpRx_of_takes h 0 _ rfl).trans (by rw [hm, State.followUp_tc_some hresid, if_pos rfl])),
   fun n m frac res d s h =>
     ⟨fun hm => congrArg next ((State.ptpRx_of_takes h frac _ rfl).trans (if_pos hm)),
      fun hm => congrArg next ((State.ptpRx_of_takes h frac _ rfl).trans
        ((if_neg (by omega)).trans (if_pos hm)))⟩,
   fun n m d s h =>
     ⟨fun hm => congrArg next ((State.ptpRx_of_takes h 0 _ rfl).trans (if_pos hm)),
      fun _ _ _ hm hmaster hours hpair => congrArg next ((State.ptpRx_of_takes h 0 _ rfl).trans
        (by rw [hm, State.delayResp_slave hmaster hours hpair]))⟩,
   fun n m frac turn d s h =>
     ⟨fun h1 => congrArg next ((State.ptpRx_of_takes h frac _ rfl).trans (if_pos h1)),
      fun h2 => congrArg next ((State.ptpRx_of_takes h frac _ rfl).trans (if_neg (ne_true_of_eq_false h2)))⟩,
   fun n m frac d t1 s h hours =>
     ⟨fun h2 => congrArg next ((State.ptpRx_of_takes h frac _ rfl).trans
        ((State.pdelayResp_of_ours hours frac).trans (if_pos h2))),
      fun h1 => congrArg next ((State.ptpRx_of_takes h frac _ rfl).trans
        ((State.pdelayResp_of_ours hours frac).trans (if_neg (ne_true_of_eq_false h1))))⟩,
   fun n m d t1 t4 t2 c s h hours hpresp => congrArg next ((State.ptpRx_of_takes h 0 _ rfl).trans
     (State.pdelayFollow_of_ours hours hpresp)),
   fun n m d s h =>
     ⟨fun hm => congrArg next ((State.ptpRx_of_takes h 0 _ rfl).trans (by rw [hm]; rfl)),
      fun hm hmaster => congrArg next ((State.ptpRx_of_takes h 0 _ rfl).trans
        (by rw [hm, State.announce_slave_master hmaster])),
      fun hm hnone hcand => congrArg next ((State.ptpRx_of_takes h 0 _ rfl).trans
        (by rw [hm, State.announce_slave_none hnone, if_pos hcand]))⟩,
   fun _ _ _ hen => congrArg next (if_pos hen),
   -- messages that are due
   fun _ _ frac _ hsends hdue => congrArg next (State.syncSend_of_due hsends hdue frac),
   fun _ _ _ hsends hdue => congrArg next (State.announceSend_of_due hsends hdue),
   fun _ _ _ _ hsends hpeer hdue => congrArg next (if_pos ((delayReqDue_iff ..).mpr ⟨hsends, hpeer, hdue⟩)),
   fun n s hen hdue => congrArg next ((s.membership_eq n).trans (if_pos ⟨hen, hdue⟩)),
   fun _ _ _ _ hover => congrArg next (State.ptpQuarEnd_of_over hover)⟩

end Sys2Proof.Machine
end

section
/-! PROOFS. Domains, the 1 PPS input and the pulse timers (R551, R558 to R573): what a record leaves of network time
and the clock, the branches of each command, and a pulse timer from its fire time to the next. -/

namespace Sys2Proof.Machine
open Host.Outcome (next)

/-! ### Network time and the clock, which records and edges leave alone -/

/-- What the pulse timers read beside the registers. -/
def State.netTime (s : State) : NetSt × TimeSt := (s.net, s.time)

theorem State.net_of_netTime {s t : State} (h : t.netTime = s.netTime) : t.net = s.net := congrArg Prod.fst h

theorem State.time_of_netTime {s t : State} (h : t.netTime = s.netTime) : t.time = s.time := congrArg Prod.snd h

theorem State.timer_of_netTime {s t : State} (h : t.netTime = s.netTime) (n : Nat) : t.timer n = s.timer n := by
  rw [State.timer, State.net_of_netTime h]
  rfl

@[simp] theorem State.netTime_post (s : State) (c : Nat) (ring : Ring) (src kind flags : Nat) (st : Stamp)
    (body : List (Nat × Nat × Nat)) : (s.post c ring src kind flags st body).netTime = s.netTime := by
  rw [State.post_eq]
  rfl

theorem State.regs_post (s : State) (c : Nat) (ring : Ring) (src kind flags : Nat) (st : Stamp)
    (body : List (Nat × Nat × Nat)) : (s.post c ring src kind flags st body).regs = s.regs := by
  rw [State.post_eq]

@[simp] theorem State.netTime_timerRecord (s : State) (i : Nat) (st : Stamp) (what v : Nat) :
    (s.timerRecord i st what v).netTime = s.netTime :=
  s.netTime_post ..

@[simp] theorem State.netTime_sendEdge (s : State) (ks : List Nat) (src : Nat) (t : Trig) :
    (s.sendEdge ks src t).netTime = s.netTime :=
  foldl_keeps State.netTime _ (fun s k => by split <;> rfl) ks s

@[simp] theorem State.netTime_monTrigger (s : State) (t : MonTrig) (coarse : Bool) :
    (s.monTrigger t coarse).netTime = s.netTime := by
  have hcount (f : Fld) (i : List Nat) : (s.count f i).netTime = s.netTime := rfl
  unfold State.monTrigger
  extract_lets start
  have hstart (u : State) : (start u).netTime = u.netTime := rfl
  clear_value start
  split
  · rfl
  split
  · split
    · split
      · rfl
      · exact (State.netTime_post ..).trans (hcount ..)
    · split
      · exact hstart _
      · exact hstart s
  · exact hstart s

@[simp] theorem State.netTime_monSource (s : State) (tsrc : Nat) (st : Stamp) :
    (s.monSource tsrc st).netTime = s.netTime := by
  unfold State.monSource
  split
  · exact State.netTime_monTrigger ..
  · rfl

@[simp] theorem State.netTime_timerPin (s : State) (pin : Nat) (level : Option Bool) :
    (s.timerPin pin level).netTime = s.netTime := by
  unfold State.timerPin
  split <;> rfl

/-! ### Loss, corrections and the switch (R551, R558 to R562) -/

theorem State.timeCorrect_of_not {s : State} (h : s.net.active = 0 ∨ s.time.domain = 0
    ∨ (s.domSt (s.net.active - 1)).st ≠ 2 ∨ s.jobBoundary = false ∨ s.time.holding = true) : s.timeCorrect = s :=
  if_pos (by simpa using h)

section
variable {s : State} (ha : s.net.active ≠ 0) (hd : s.time.domain ≠ 0) (hst : (s.domSt (s.net.active - 1)).st = 2)
  (hb : s.jobBoundary = true) (hh : s.time.holding = false)
include ha hd hst hb hh

theorem State.timeCorrect_of_may : s.timeCorrect =
    if s.rd Reg.TM_SERVO.CMIN [] * 65536 ≤ (s.estimate (s.net.active - 1)).natAbs * 1000
        ∧ (s.job.phase = .armed ∨ (s.domSt (s.net.active - 1)).fresh = true) then
      (s.updDom (s.net.active - 1) fun m => { m with
        fresh := decide ((splitCorr (-s.estimate (s.net.active - 1))).1 < -1000) }).applyEstimate
          (s.estimate (s.net.active - 1))
    else s :=
  (if_neg (by simpa [ha, hst, hb, hh] using hd)).trans (if_congr (and_congr_left' decide_eq_true_iff) rfl rfl)

end

theorem State.domainSwitch_of_not {s : State} (h : s.jobBoundary = false ∨ s.time.holding = true) :
    s.domainSwitch = s :=
  if_pos (by simpa using h)

section
variable {s : State} (hb : s.jobBoundary = true) (hh : s.time.holding = false)
include hb hh

theorem switchMay : ¬ (!s.jobBoundary || s.time.holding) = true := by
  simp [hb, hh]

/-- R561: SRC 0 releases the active domain. -/
theorem State.domainSwitch_of_release (hreq : s.net.switchReq = true) (hsrc : s.rd Reg.TM_CFG.SRC [] = 0) :
    s.domainSwitch =
      if s.net.active = 0 then { s with net.active := 0, net.switchReq := false, net.ppsPhase := false }
      else { s with net.active := 0, net.switchReq := false, net.ppsPhase := false }.switchRecord s.net.active 0 0 0 :=
  (if_neg (switchMay hb hh)).trans (if_pos ⟨hreq, hsrc⟩)

theorem State.domainSwitch_of_due (hno : ¬ (s.net.switchReq = true ∧ s.rd Reg.TM_CFG.SRC [] = 0)) {a c : Nat}
    (hdue : s.switchDue = some (a, c)) (hmay : s.time.domain ≠ 0 ∨ s.idle = true) :
    s.domainSwitch = s.switchTo a c := by
  rw [State.domainSwitch, if_neg (switchMay hb hh), if_neg hno, hdue]
  exact if_pos hmay

end

theorem State.netTime_switchRecord (s : State) (a b c : Nat) (ps : Int) :
    (s.switchRecord a b c ps).netTime = s.netTime :=
  s.netTime_post ..

theorem State.regs_switchRecord (s : State) (a b c : Nat) (ps : Int) : (s.switchRecord a b c ps).regs = s.regs :=
  s.regs_post ..

theorem exec_domainSwitch_of_release {s : State} (hb : s.jobBoundary = true) (hh : s.time.holding = false)
    (hreq : s.net.switchReq = true) (hsrc : s.rd Reg.TM_CFG.SRC [] = 0) : ∃ t : State,
      exec .domainSwitch s = next t ∧ t.net.active = 0 ∧ t.net.switchReq = false ∧ t.net.ppsPhase = false
      ∧ t.time = s.time ∧ t.net.ports = s.net.ports ∧ t.net.timers = s.net.timers ∧ t.regs = s.regs := by
  refine ⟨_, congrArg next (State.domainSwitch_of_release hb hh hreq hsrc), ?_⟩
  split
  · exact ⟨rfl, rfl, rfl, rfl, rfl, rfl, rfl⟩
  · rw [State.net_of_netTime (State.netTime_switchRecord ..), State.time_of_netTime (State.netTime_switchRecord ..),
      State.regs_switchRecord]
    exact ⟨rfl, rfl, rfl, rfl, rfl, rfl, rfl⟩

/-! ### The 1 PPS input (R564, R565) -/

/-- R564: an edge has been noted, with its offset. -/
def State.ppsNoted (s : State) (x : Int) : State := { s with net.ppsOfs := x }

/-- R564, R565: a noted edge has been accepted. -/
def State.ppsAccepted (s : State) : State :=
  { s with net.ppsOk := true, net.ppsMiss := false, net.ppsLast := s.time.now }

theorem State.ppsAccepted_ppsNoted (s : State) (x : Int) : (s.ppsNoted x).ppsAccepted =
    { s with net.ppsOfs := x, net.ppsOk := true, net.ppsMiss := false, net.ppsLast := s.time.now } := rfl

theorem exec_ppsEdge_of_other {falling : Bool} {frac : BitVec 16} {s : State}
    (h : s.flag Reg.TM_PPS.EDGE [] ≠ falling ∨ s.rd Reg.TM_PPS.MODE [] = 0) :
    exec (.ppsEdge ⟨falling, frac⟩) s = next s := by
  refine congrArg next ?_
  split
  · next he => exact if_pos (h.resolve_left (not_not.mpr he))
  · rfl

/-- What an edge of offset `x` does, with the input on. -/
def State.ppsTaken (s : State) (x : Int) (frac : BitVec 16) : State :=
  let s := { s with net.ppsOfs := x }
  if 65536000 < x.natAbs then s
  else
    let was := s.net.ppsMiss
    let s := { s with net.ppsOk := true, net.ppsMiss := false, net.ppsLast := s.time.now }
    let s := if was then s.ppsRecord { s.nowStamp with frac := frac } 0 1 else s
    s.ppsSample x

theorem State.ppsEdge_eq (s : State) (frac : BitVec 16) : s.ppsEdge frac =
    if s.rd Reg.TM_PPS.MODE [] = 0 then s else s.ppsTaken (s.ppsOffset frac) frac := rfl

theorem State.ppsTaken_eq (s : State) (x : Int) (frac : BitVec 16) : s.ppsTaken x frac =
    if 65536000 < x.natAbs then s.ppsNoted x
    else (if s.net.ppsMiss then (s.ppsNoted x).ppsAccepted.ppsRecord { s.nowStamp with frac := frac } 0 1
      else (s.ppsNoted x).ppsAccepted).ppsSample x := rfl

section
variable {falling : Bool} {frac : BitVec 16} {s : State} (he : s.flag Reg.TM_PPS.EDGE [] = falling)
  (hm : s.rd Reg.TM_PPS.MODE [] ≠ 0)
include he hm

theorem exec_ppsEdge_of_selected : exec (.ppsEdge ⟨falling, frac⟩) s = next
    (if 65536000 < (s.ppsOffset frac).natAbs then s.ppsNoted (s.ppsOffset frac)
     else (if s.net.ppsMiss then (s.ppsNoted (s.ppsOffset frac)).ppsAccepted.ppsRecord { s.nowStamp with frac := frac } 0 1
       else (s.ppsNoted (s.ppsOffset frac)).ppsAccepted).ppsSample (s.ppsOffset frac)) :=
  congrArg next ((if_pos he).trans ((s.ppsEdge_eq frac).trans ((if_neg hm).trans (s.ppsTaken_eq _ frac))))

section
variable (hnear : (s.ppsOffset frac).natAbs ≤ 65536000)
include hnear

theorem exec_ppsEdge_of_near (hmiss : s.net.ppsMiss = false) : exec (.ppsEdge ⟨falling, frac⟩) s = next
    (State.ppsSample { s with net.ppsOfs := s.ppsOffset frac, net.ppsOk := true, net.ppsMiss := false
                              net.ppsLast := s.time.now } (s.ppsOffset frac)) := by
  rw [exec_ppsEdge_of_selected he hm, if_neg (Nat.not_lt.mpr hnear), if_neg (ne_true_of_eq_false hmiss),
    State.ppsAccepted_ppsNoted]

theorem exec_ppsEdge_of_return (hmiss : s.net.ppsMiss = true) : exec (.ppsEdge ⟨falling, frac⟩) s = next
    ((State.ppsRecord { s with net.ppsOfs := s.ppsOffset frac, net.ppsOk := true, net.ppsMiss := false
                               net.ppsLast := s.time.now } { s.nowStamp with frac := frac } 0 1).ppsSample
      (s.ppsOffset frac)) := by
  rw [exec_ppsEdge_of_selected he hm, if_neg (Nat.not_lt.mpr hnear), if_pos hmiss, State.ppsAccepted_ppsNoted]

end

end

theorem State.ppsMissing_of_not {s : State} (h : s.rd Reg.TM_PPS.MODE [] = 0 ∨ s.net.ppsMiss = true
    ∨ s.time.now < s.net.ppsLast + 1500000000) : s.ppsMissing = s := by
  refine if_neg fun ⟨hm, hmiss, hlast⟩ => ?_
  obtain h | h | h := h
  · exact hm h
  · rw [h] at hmiss
    cases hmiss
  · omega

/-- R565: the input is lost. -/
def State.ppsLost (s : State) : State :=
  (List.range 2).foldl (fun s d => s.updDom d fun m => { m with pps := [] })
    { s with net.ppsOk := false, net.ppsMiss := true, net.ppsPhase := false }

theorem State.ppsMissing_of_due {s : State} (hm : s.rd Reg.TM_PPS.MODE [] ≠ 0) (hmiss : s.net.ppsMiss = false)
    (hlast : s.net.ppsLast + 1500000000 ≤ s.time.now) :
    s.ppsMissing = s.ppsLost.ppsRecord s.ppsLost.coarseStamp 1 0 :=
  if_pos ⟨hm, hmiss, hlast⟩

theorem State.domSt_updDom (s : State) (k d : Nat) (f : DomSt → DomSt) :
    (s.updDom k f).domSt d = if d = k ∧ k < 2 then f (s.domSt k) else s.domSt d := by
  unfold State.domSt State.updDom
  by_cases hd : d = k
  · subst hd
    by_cases hk : d < 2 <;> simp [hk, State.domSt]
  · simp [hd, Ne.symm hd]

theorem State.domSt_of_two_le {d : Nat} (h : 2 ≤ d) (s : State) : s.domSt d = {} := by
  rw [State.domSt, Vector.getElem?_eq_none h]
  rfl

theorem State.ppsLost_pps (s : State) (d : Nat) : (s.ppsLost.domSt d).pps = [] := by
  by_cases h : d < 2
  · have hd : d = 0 ∨ d = 1 := by omega
    unfold State.ppsLost
    obtain rfl | rfl := hd <;> simp [List.range_succ, State.domSt_updDom]
  · rw [State.domSt_of_two_le (Nat.not_lt.mp h)]

theorem exec_ppsMissing_of_due {s : State} (hm : s.rd Reg.TM_PPS.MODE [] ≠ 0) (hmiss : s.net.ppsMiss = false)
    (hlast : s.net.ppsLast + 1500000000 ≤ s.time.now) : ∃ t : State, exec .ppsMissing s = next t
      ∧ t.net.ppsOk = false ∧ t.net.ppsMiss = true ∧ t.net.ppsPhase = false
      ∧ (∀ d : Nat, (t.domSt d).pps = []) ∧ t.net.active = s.net.active ∧ t.regs = s.regs := by
  refine ⟨_, congrArg next (State.ppsMissing_of_due hm hmiss hlast), ?_⟩
  have hnet : (s.ppsLost.ppsRecord s.ppsLost.coarseStamp 1 0).net = s.ppsLost.net :=
    State.net_of_netTime (State.netTime_post ..)
  have hregs : (s.ppsLost.ppsRecord s.ppsLost.coarseStamp 1 0).regs = s.ppsLost.regs := State.regs_post ..
  simp only [State.domSt, hnet, hregs]
  exact ⟨rfl, rfl, rfl, s.ppsLost_pps, rfl, rfl⟩

/-! ### Skipping past times (R568) -/

/-- The least number of steps of `p` from `n` that reaches `b`. -/
theorem skipCount_spec {n b p : Nat} (hp : 0 < p) (hn : n < b) :
    b ≤ n + (b - n + p - 1) / p * p ∧ n + (b - n + p - 1) / p * p < b + p := by
  have hdiv := Nat.div_add_mod (b - n + p - 1) p
  have hmod := Nat.mod_lt (b - n + p - 1) hp
  rw [Nat.mul_comm] at hdiv
  omega

theorem State.timerSkip_of_not {s : State} {i b : Nat}
    (h : ¬ ((s.timer i).armed = true ∧ (s.timer i).periodic = true ∧ (s.timer i).next < b)) : s.timerSkip i b = s :=
  if_neg h

theorem State.timerSkip_timer_other {s : State} {i n : Nat} (h : n ≠ i) (b : Nat) :
    (s.timerSkip i b).timer n = s.timer n := by
  unfold State.timerSkip
  extract_lets t m skipped
  split
  · exact (State.timer_of_netTime (State.netTime_timerRecord ..) n).trans (s.timer_updTimer_other _ _ _ h)
  · rfl

theorem State.timerSkip_timer_of_past {s : State} {i b : Nat} (harmed : (s.timer i).armed = true)
    (hper : (s.timer i).periodic = true) (hnext : (s.timer i).next < b) : (s.timerSkip i b).timer i = { s.timer i with
      next := (s.timer i).next + (b - (s.timer i).next + (s.timer i).per - 1) / (s.timer i).per * (s.timer i).per } := by
  unfold State.timerSkip
  rw [if_pos ⟨harmed, hper, hnext⟩]
  exact (State.timer_of_netTime (State.netTime_timerRecord ..) i).trans (s.timer_updTimer_same ..)

theorem State.timerSkip_next_of_past {s : State} {i b : Nat} (harmed : (s.timer i).armed = true)
    (hper : (s.timer i).periodic = true) (hnext : (s.timer i).next < b) (hp : 0 < (s.timer i).per) :
    b ≤ ((s.timerSkip i b).timer i).next ∧ ((s.timerSkip i b).timer i).next < b + (s.timer i).per := by
  rw [State.timerSkip_timer_of_past harmed hper hnext]
  exact skipCount_spec hp hnext

/-- R568: a periodic timer goes on, armed, at a time that has not passed. -/
theorem State.timerSkip_periodic {s : State} {i : Nat} (harmed : (s.timer i).armed = true)
    (hper : (s.timer i).periodic = true) (hp : 0 < (s.timer i).per) (b : Nat) :
    ((s.timerSkip i b).timer i).cnt = (s.timer i).cnt ∧ ((s.timerSkip i b).timer i).armed = true
    ∧ b ≤ ((s.timerSkip i b).timer i).next ∧ (s.timer i).next ≤ ((s.timerSkip i b).timer i).next := by
  by_cases h : (s.timer i).next < b
  · obtain ⟨hreach, -⟩ := State.timerSkip_next_of_past harmed hper h hp
    refine ⟨?_, ?_, hreach, ?_⟩
    · rw [State.timerSkip_timer_of_past harmed hper h]
    · rw [State.timerSkip_timer_of_past harmed hper h]
      exact harmed
    · omega
  · rw [State.timerSkip_of_not fun hs => h hs.2.2]
    exact ⟨rfl, harmed, Nat.not_lt.mp h, le_rfl⟩

/-! ### A timer fires (R566, R567) -/

/-- What firing makes of a timer, before a periodic one skips past times. -/
def Timer.fired (t : Timer) (now : Nat) : Timer :=
  { t with
    late := t.late || t.lateAt.isSome
    cnt := t.cnt + 1
    armed := t.periodic
    lateAt := none
    next := t.next + (if t.periodic then t.per else 0)
    pulseTo := if t.pin = 0 then 0 else now + t.wid }

theorem State.time_timerLate (s : State) (i : Nat) : (s.timerLate i).time = s.time := by
  unfold State.timerLate
  extract_lets t
  split
  · exact (State.time_of_netTime (State.netTime_timerRecord ..)).trans rfl
  · rfl

theorem State.timerLate_timer_same (s : State) (i : Nat) : (s.timerLate i).timer i =
    { s.timer i with late := (s.timer i).late || (s.timer i).lateAt.isSome } := by
  unfold State.timerLate
  extract_lets t
  split
  · next h =>
    rw [State.timer_of_netTime (State.netTime_timerRecord ..), State.timer_updTimer_same, h, Bool.or_true]
  · next h => rw [Bool.eq_false_of_not_eq_true h, Bool.or_false]

theorem State.timerLate_timer_other {s : State} {i n : Nat} (h : n ≠ i) : (s.timerLate i).timer n = s.timer n := by
  unfold State.timerLate
  extract_lets t
  split
  · rw [State.timer_of_netTime (State.netTime_timerRecord ..), State.timer_updTimer_other _ _ _ _ h]
  · rfl

/-- The edge of a timer that fires: to the sequencers, the converter and its pin. -/
def State.timerEdge (s : State) (i : Nat) : State :=
  ((((s.timerLate i).sendEdge (List.range 64) (17 + i)
    ⟨s.stampOf (s.timer i).next, (s.timerLate i).tickOf (s.timer i).next⟩).monSource (65 + i)
      (s.stampOf (s.timer i).next)).timerPin (s.timer i).pin (some (!(s.timer i).polLow)))

theorem State.netTime_timerEdge (s : State) (i : Nat) : (s.timerEdge i).netTime = (s.timerLate i).netTime := by
  rw [State.timerEdge, State.netTime_timerPin, State.netTime_monSource, State.netTime_sendEdge]

/-- The timer's own part: it counts, and its next fire time and its pulse's end are set. -/
def State.timerFired (s : State) (i : Nat) : State :=
  (s.timerEdge i).updTimer i fun t => { t with
    cnt := t.cnt + 1, armed := t.periodic, lateAt := none, next := t.next + (if t.periodic then t.per else 0)
    pulseTo := if t.pin = 0 then 0 else (s.timerEdge i).time.now + t.wid }

theorem State.time_timerFired (s : State) (i : Nat) : (s.timerFired i).time = s.time :=
  (State.time_of_netTime (s.netTime_timerEdge i)).trans (s.time_timerLate i)

theorem State.timerFired_timer_same (s : State) (i : Nat) : (s.timerFired i).timer i = (s.timer i).fired s.time.now := by
  rw [State.timerFired, State.timer_updTimer_same, State.timer_of_netTime (s.netTime_timerEdge i),
    State.time_of_netTime (s.netTime_timerEdge i), State.time_timerLate, State.timerLate_timer_same]
  rfl

theorem State.timerFired_timer_other {s : State} {i n : Nat} (h : n ≠ i) : (s.timerFired i).timer n = s.timer n := by
  rw [State.timerFired, State.timer_updTimer_other _ _ _ _ h, State.timer_of_netTime (s.netTime_timerEdge i),
    State.timerLate_timer_other h]

theorem State.timerFire_of_due {s : State} {i : Nat} (h : s.timerDue i = true) :
    s.timerFire i = (s.timerFired i).timerSkip i s.time.dev.abs := by
  rw [← s.time_timerFired i]
  exact if_pos h

theorem State.timerDue_armed {s : State} {i : Nat} (h : s.timerDue i = true) : (s.timer i).armed = true := by
  rw [State.timerDue] at h
  exact (Bool.and_eq_true_iff.mp h).1

theorem State.timerFire_of_disarmed {s : State} {i : Nat} (h : (s.timer i).armed = false) : s.timerFire i = s :=
  if_neg fun hdue => ne_true_of_eq_false h (State.timerDue_armed hdue)

theorem State.timerFire_timer_other {s : State} {i n : Nat} (hdue : s.timerDue i = true) (h : n ≠ i) :
    (s.timerFire i).timer n = s.timer n := by
  rw [State.timerFire_of_due hdue, State.timerSkip_timer_other h, State.timerFired_timer_other h]

theorem State.timerFire_ram (s : State) (i : Nat) : (s.timerFire i).ram = s.ram := by
  simp

/-- A one-shot is disarmed, so that it skips nothing. -/
theorem State.timerFire_timer_of_oneShot {s : State} {i : Nat} (hdue : s.timerDue i = true)
    (hper : (s.timer i).periodic = false) : (s.timerFire i).timer i = (s.timer i).fired s.time.now := by
  rw [State.timerFire_of_due hdue, State.timerSkip_of_not, State.timerFired_timer_same]
  rw [State.timerFired_timer_same]
  exact fun h => ne_true_of_eq_false hper h.1

theorem exec_timerFire_of_oneShot {i : Fin 8} {s : State} (hdue : s.timerDue i = true)
    (hper : (s.timer i).periodic = false) : ∃ t : State, exec (.timerFire i) s = next t
      ∧ (t.timer i).cnt = (s.timer i).cnt + 1 ∧ (t.timer i).armed = false ∧ (t.timer i).next = (s.timer i).next
      ∧ (t.timer i).pulseTo = (if (s.timer i).pin = 0 then 0 else s.time.now + (s.timer i).wid)
      ∧ (t.timer i).late = ((s.timer i).late || (s.timer i).lateAt.isSome) ∧ (∀ n : Nat, n ≠ i.val → t.timer n = s.timer n)
      ∧ t.ram = s.ram := by
  refine ⟨s.timerFire i, rfl, ?_⟩
  rw [State.timerFire_timer_of_oneShot hdue hper]
  refine ⟨rfl, hper, ?_, rfl, rfl, fun n hn => State.timerFire_timer_other hdue hn, s.timerFire_ram i⟩
  simp [Timer.fired, hper]

theorem exec_timerFire_of_periodic {i : Fin 8} {s : State} (hdue : s.timerDue i = true)
    (hper : (s.timer i).periodic = true) (hp : 0 < (s.timer i).per) : ∃ t : State,
      exec (.timerFire i) s = next t ∧ (t.timer i).cnt = (s.timer i).cnt + 1 ∧ (t.timer i).armed = true
      ∧ s.time.dev.abs ≤ (t.timer i).next ∧ (s.timer i).next + (s.timer i).per ≤ (t.timer i).next
      ∧ (∀ n : Nat, n ≠ i.val → t.timer n = s.timer n) ∧ t.ram = s.ram := by
  refine ⟨s.timerFire i, rfl, ?_⟩
  have hfired := s.timerFired_timer_same i
  have hnext : ((s.timerFired i).timer i).next = (s.timer i).next + (s.timer i).per := by
    simp [hfired, Timer.fired, hper]
  have hper' : ((s.timerFired i).timer i).periodic = true := by rw [hfired]; exact hper
  have hp' : 0 < ((s.timerFired i).timer i).per := by rw [hfired]; exact hp
  have harmed : ((s.timerFired i).timer i).armed = true := by rw [hfired]; exact hper
  obtain ⟨hcnt, hstill, hreach, hlater⟩ := State.timerSkip_periodic harmed hper' hp' s.time.dev.abs
  rw [← State.timerFire_of_due hdue] at hcnt hstill hreach hlater
  refine ⟨?_, hstill, hreach, hnext ▸ hlater, fun n hn => State.timerFire_timer_other hdue hn, s.timerFire_ram i⟩
  rw [hcnt, hfired]
  rfl

/-! ### Arming (R567, R572, R573) -/

theorem oneShotLate_iff (per : Bool) (first bound : Nat) :
    (!per && decide (first < bound)) = true ↔ per = false ∧ first < bound := by
  simp

/-- The registers that an arming takes are those after the clamps of WID and PIN. -/
theorem State.timerArm_eq (s : State) (i : Nat) :
    let a := ((s.timerPin (s.timer i).pin none).timerWid i).timerClash i
    let first := (a.rd Reg.TMR_SEC_LO.SEC [i] + a.rd Reg.TMR_SEC_HI.SEC [i] * 2 ^ 32) * 1000000000 + a.rd Reg.TMR_NS.NS [i]
    s.timerArm i = ((a.updTimer i fun t => { t with
      armed := true
      late := false
      periodic := a.flag Reg.TMR_CFG.MODE [i]
      polLow := a.flag Reg.TMR_CFG.POL [i]
      pin := a.rd Reg.TMR_CFG.PIN [i]
      next := first
      per := max 8 (a.rd Reg.TMR_PER.PER [i])
      wid := max 1 (a.rd Reg.TMR_WID.WID [i])
      pulseTo := 0
      lateAt := if a.flag Reg.TMR_CFG.MODE [i] = false ∧ first < a.time.dev.abs + 8 then some (a.time.now + 8) else none }).timerPin
        (a.rd Reg.TMR_CFG.PIN [i]) (some (a.flag Reg.TMR_CFG.POL [i]))).timerSkip i (a.time.dev.abs + 8) := by
  intro a first
  have hlate : (if (!a.flag Reg.TMR_CFG.MODE [i] && decide (first < a.time.dev.abs + 8)) = true then some (a.time.now + 8)
      else none) = if a.flag Reg.TMR_CFG.MODE [i] = false ∧ first < a.time.dev.abs + 8 then some (a.time.now + 8) else none :=
    if_congr (oneShotLate_iff ..) rfl rfl
  rw [← hlate]
  rfl

/-- Settles O54: the servo, the 1 PPS input, then the pulse timers, whose periodic ones skip past times. -/
theorem servoPpsAndTimers : Obligations.ServoPpsAndTimers :=
  ⟨fun _ _ _ => rfl,
   fun _ _ => rfl,
   ⟨rfl, rfl, rfl, rfl⟩,
   fun _ h => congrArg next (State.timeCorrect_of_not h),
   fun _ ha hd hst hb hh => congrArg next (State.timeCorrect_of_may ha hd hst hb hh),
   fun _ _ => rfl,
   fun _ h => congrArg next (State.domainSwitch_of_not h),
   fun _ => exec_domainSwitch_of_release,
   fun _ _ _ hb hh hno hdue hmay => congrArg next (State.domainSwitch_of_due hb hh hno hdue hmay),
   -- the 1 PPS input
   fun _ _ _ => exec_ppsEdge_of_other,
   fun _ _ _ he hm hfar => (exec_ppsEdge_of_selected he hm).trans (congrArg next (if_pos hfar)),
   fun _ _ _ => exec_ppsEdge_of_near,
   fun _ _ _ => exec_ppsEdge_of_return,
   fun _ h => congrArg next (State.ppsMissing_of_not h),
   fun _ => exec_ppsMissing_of_due,
   -- the pulse timers
   fun _ _ h => ⟨congrArg next (if_neg (ne_true_of_eq_false h)), congrArg next (if_neg (ne_true_of_eq_false h))⟩,
   fun i s h => congrArg next ((State.gate_of_ready _ _ h).trans (s.timerArm_eq i)),
   fun _ _ h => congrArg next (State.gate_of_ready _ _ h),
   fun _ _ _ => State.timerSkip_next_of_past,
   fun _ _ h => congrArg next (State.timerFire_of_disarmed h),
   fun _ _ => exec_timerFire_of_oneShot,
   fun _ _ => rfl,
   -- the losses, a correction and a switch that are due
   fun _ _ _ hm hlast => congrArg next (if_pos ⟨hm, hlast⟩),
   fun _ _ hst hlast => congrArg next (if_pos ⟨hst, hlast⟩),
   fun _ ha hd hst hb hh hmin hmay =>
     congrArg next ((State.timeCorrect_of_may ha hd hst hb hh).trans (if_pos ⟨hmin, hmay⟩)),
   fun _ => rfl,
   fun _ _ => exec_timerFire_of_periodic,
   fun _ _ hto hover => congrArg next (if_pos ⟨hto, hover⟩)⟩

end Sys2Proof.Machine
end

section
/-! PROOFS. The control engines and the background work (R624 to R650): a cobbler's failure, switch-over, images and
repair; then calibration steps, scrubbing and telemetry. -/

namespace Sys2Proof.Machine
open Host.Outcome (next)

/-! ### What a coarse record and a mode record leave alone -/

/-- A coarse record that invalidates nothing stands beside the work of the device. -/
@[simp] theorem State.postCoarse_work (s : State) (c src kind : Nat) (body : List (Nat × Nat × Nat)) :
    (s.postCoarse c src kind 0 body).eng = s.eng ∧ (s.postCoarse c src kind 0 body).ctxs = s.ctxs
    ∧ (s.postCoarse c src kind 0 body).job = s.job ∧ (s.postCoarse c src kind 0 body).pwr = s.pwr
    ∧ (s.postCoarse c src kind 0 body).nv = s.nv ∧ (s.postCoarse c src kind 0 body).cal = s.cal
    ∧ (s.postCoarse c src kind 0 body).regs = s.regs ∧ (s.postCoarse c src kind 0 body).sec = s.sec
    ∧ (s.postCoarse c src kind 0 body).time = s.time := by
  rw [State.postCoarse_eq]
  exact ⟨rfl, rfl, rfl, rfl, rfl, rfl, rfl, rfl, rfl⟩

/-- R698: so does the record of a change of mode. -/
@[simp] theorem State.modeSync_work (s : State) : s.modeSync.eng = s.eng ∧ s.modeSync.ctxs = s.ctxs
    ∧ s.modeSync.job = s.job ∧ s.modeSync.pwr = s.pwr ∧ s.modeSync.nv = s.nv ∧ s.modeSync.cal = s.cal
    ∧ s.modeSync.regs = s.regs ∧ s.modeSync.sec = s.sec ∧ s.modeSync.time = s.time := by
  unfold State.modeSync
  extract_lets was now sys shown
  split
  · exact ⟨rfl, rfl, rfl, rfl, rfl, rfl, rfl, rfl, rfl⟩
  split
  · exact ⟨rfl, rfl, rfl, rfl, rfl, rfl, rfl, rfl, rfl⟩
  · rw [State.post_eq, State.post_job _ _ _ _ _ _ _ _ (by decide)]
    exact ⟨rfl, rfl, rfl, rfl, rfl, rfl, rfl, rfl, rfl⟩

/-! ### The failure of a cobbler (R626, R634) -/

theorem standby_ne (a : Nat) : a ≠ 1 - a := by omega

theorem getElem!_set!_of_ne {α : Type} [Inhabited α] {m : Nat} (v : Vector α m) {i j : Nat} (h : i ≠ j) (x : α) :
    (v.set! i x)[j]! = v[j]! := by
  simp [getElem!_def, h]

@[simp] theorem State.count_work (s : State) (f : Fld) (i : List Nat) : (s.count f i).eng = s.eng
    ∧ (s.count f i).ctxs = s.ctxs ∧ (s.count f i).job = s.job ∧ (s.count f i).cal = s.cal
    ∧ (s.count f i).time = s.time ∧ (s.count f i).sys = s.sys :=
  ⟨rfl, rfl, rfl, rfl, rfl, rfl⟩

@[simp] theorem State.cobblerRecord_work (s : State) (n state cause : Nat) :
    (s.cobblerRecord n state cause).eng = s.eng ∧ (s.cobblerRecord n state cause).ctxs = s.ctxs
    ∧ (s.cobblerRecord n state cause).job = s.job ∧ (s.cobblerRecord n state cause).pwr = s.pwr
    ∧ (s.cobblerRecord n state cause).time = s.time := by
  simp [State.cobblerRecord]

theorem State.cobblerFail_of_failed {s : State} (h : s.eng.st[s.eng.active]! ≠ 0) (cause : Nat) :
    s.cobblerFail cause = s :=
  if_pos h

/-- The active cobbler has failed, and its record is posted. -/
def State.activeFailed (s : State) : State :=
  (s.setCobbler s.eng.active 2).cobblerRecord s.eng.active 2 0

theorem State.activeFailed_standby (s : State) :
    s.activeFailed.eng.st[1 - s.eng.active]! = s.eng.st[1 - s.eng.active]! := by
  simpa [State.activeFailed] using getElem!_set!_of_ne s.eng.st (standby_ne s.eng.active) 2

/-- R626, R629: cobbler b takes over, and the gap of the switch-over begins. -/
def State.takeOver (s : State) (b cause : Nat) : State :=
  let warm := s.eng.warm && s.eng.sync
  let taken := { s.setCobbler b 0 with
    eng.active := b
    eng.sync := false
    eng.gap := some { cause := cause, warm := warm, lastRetired := s.time.now } }
  (taken.postCoarse taken.home 882 0x74 0 [(0x14, 1, b), (0x15, 1, cause), (0x16, 1, if warm then 1 else 0),
    (0x18, 4, (Config.freeWord taken.freeCtr).toNat)]).draw

theorem State.cobblerFail_eq (s : State) (cause : Nat) : s.cobblerFail cause =
    if s.eng.st[s.eng.active]! ≠ 0 then s
    else if s.activeFailed.eng.st[1 - s.eng.active]! = 1 then
      (s.activeFailed.count Reg.ENG_CNT.SWITCH []).takeOver (1 - s.eng.active) cause
    else if s.activeFailed.eng.st[1 - s.eng.active]! = 2 then s.activeFailed.orderlyStop 5 0
    else s.activeFailed := rfl

theorem State.takeOver_work (s : State) (b cause : Nat) :
    (s.takeOver b cause).eng = { s.eng with
      active := b
      st := s.eng.st.set! b 0
      sync := false
      gap := some { cause := cause, warm := s.eng.warm && s.eng.sync, lastRetired := s.time.now } }
    ∧ (s.takeOver b cause).ctxs = s.ctxs ∧ (s.takeOver b cause).job = s.job := by
  unfold State.takeOver
  simp only [State.draw_eng, State.draw_ctxs, State.draw_job, State.postCoarse_work]
  exact ⟨rfl, rfl, rfl⟩

section
variable {s : State} (ha : s.eng.st[s.eng.active]! = 0)
include ha

theorem State.cobblerFail_of_standby (hb : s.eng.st[1 - s.eng.active]! = 1) (cause : Nat) :
    (s.cobblerFail cause).eng = { s.eng with
      active := 1 - s.eng.active
      st := (s.eng.st.set! s.eng.active 2).set! (1 - s.eng.active) 0
      sync := false
      gap := some { cause := cause, warm := s.eng.warm && s.eng.sync, lastRetired := s.time.now } }
    ∧ (s.cobblerFail cause).ctxs = s.ctxs ∧ (s.cobblerFail cause).job = s.job := by
  obtain ⟨heng, hctxs, hjob, -, htime⟩ := (s.setCobbler s.eng.active 2).cobblerRecord_work s.eng.active 2 0
  rw [State.cobblerFail_eq, if_neg (not_not.mpr ha), if_pos (s.activeFailed_standby.trans hb)]
  obtain ⟨teng, tctxs, tjob⟩ :=
    (s.activeFailed.count Reg.ENG_CNT.SWITCH []).takeOver_work (1 - s.eng.active) cause
  obtain ⟨ceng, cctxs, cjob, -, ctime, -⟩ := s.activeFailed.count_work Reg.ENG_CNT.SWITCH []
  refine ⟨?_, tctxs.trans (cctxs.trans hctxs), tjob.trans (cjob.trans hjob)⟩
  rw [teng, ceng, ctime, State.activeFailed, heng, htime]
  rfl

/-- R634: the device stops when the standby has failed already. -/
theorem State.cobblerFail_of_both_failed (hb : s.eng.st[1 - s.eng.active]! = 2) (cause : Nat) :
    s.cobblerFail cause = s.activeFailed.orderlyStop 5 0 := by
  have hb' : s.activeFailed.eng.st[1 - s.eng.active]! = 2 := s.activeFailed_standby.trans hb
  rw [State.cobblerFail_eq, if_neg (not_not.mpr ha), if_neg (by rw [hb']; decide), if_pos hb']

end

theorem State.takeOver_safe (s : State) (b cause : Nat) : (s.takeOver b cause).sys.safe = s.sys.safe := by
  simp [State.takeOver]

theorem State.activeFailed_safe (s : State) : s.activeFailed.sys.safe = s.sys.safe := by
  simp [State.activeFailed]

theorem exec_cobblerWatchdog_of_standby {s : State} (ha : s.eng.st[s.eng.active]! = 0)
    (hb : s.eng.st[1 - s.eng.active]! = 1) : ∃ t : State, exec .cobblerWatchdog s = next t
      ∧ t.eng.active = 1 - s.eng.active ∧ t.eng.st = (s.eng.st.set! s.eng.active 2).set! (1 - s.eng.active) 0
      ∧ t.eng.gap = some { cause := 2, warm := s.eng.warm && s.eng.sync, lastRetired := s.time.now } ∧ t.eng.sync = false
      ∧ t.eng.image = s.eng.image ∧ t.sys.safe = s.sys.safe ∧ t.ctxs = s.ctxs ∧ t.job = s.job ∧ t.ram = s.ram := by
  obtain ⟨heng, hctxs, hjob⟩ := State.cobblerFail_of_standby ha hb 2
  have hsafe : (s.cobblerFail 2).sys.safe = s.sys.safe := by
    rw [State.cobblerFail_eq, if_neg (not_not.mpr ha), if_pos (s.activeFailed_standby.trans hb), State.takeOver_safe]
    obtain ⟨-, -, -, -, -, hsys⟩ := s.activeFailed.count_work Reg.ENG_CNT.SWITCH []
    rw [hsys, State.activeFailed_safe]
  refine ⟨(s.cobblerFail 2).modeSync, rfl, ?_⟩
  simp [heng, hctxs, hjob, hsafe]

theorem State.orderlyStop_of_safe_zero {s : State} (h : s.sys.safe = 0) (cause unit : Nat) :
    s.orderlyStop cause unit = { s with
      sys.safe := cause
      pwr.stop := some { cause := cause, unit := unit, t0 := s.time.now }
      nv.refuse := true
      nv.done := 0
      sec.run := s.sec.run.map MbRun.interrupt } :=
  if_neg (not_not.mpr h)

theorem exec_cobblerWatchdog_of_both_failed {s : State} (ha : s.eng.st[s.eng.active]! = 0)
    (hb : s.eng.st[1 - s.eng.active]! = 2) (hsafe : s.sys.safe = 0) : ∃ t : State, exec .cobblerWatchdog s = next t
      ∧ t.eng.active = s.eng.active ∧ t.eng.st = s.eng.st.set! s.eng.active 2 ∧ t.eng.gap = s.eng.gap
      ∧ t.sys.safe = 5 ∧ t.pwr.stop = some { cause := 5, unit := 0, t0 := s.time.now } ∧ t.nv.refuse = true
      ∧ t.job = s.job := by
  have hfail := State.cobblerFail_of_both_failed ha hb 2
  rw [State.orderlyStop_of_safe_zero (s.activeFailed_safe.trans hsafe)] at hfail
  refine ⟨(s.cobblerFail 2).modeSync, rfl, ?_⟩
  simp [hfail, State.activeFailed]

/-! ### Switch-over (R629) -/

/-- R629: the gap is over; a shot whose start it has passed starts late. -/
def State.gapEnded (s : State) : State :=
  { s with
    eng.gap := none
    job.gapLate := s.job.gapLate || (s.job.prepared && s.job.phase != .inShot && decide (s.job.startTick < s.time.now)) }

/-- R629: one context's descriptors are fetched again, and counted. -/
def refetchStep (acc : State × Nat × Nat) (c : Nat) : State × Nat × Nat :=
  ((acc.1.refetch c).1, acc.2.1 + (acc.1.refetch c).2.1, acc.2.2 + (acc.1.refetch c).2.2)

def State.refetchAll (s : State) : State × Nat × Nat := (s.ctxs.map (·.1)).foldl refetchStep (s, 0, 0)

theorem State.resume_of_none {s : State} (h : s.eng.gap = none) : s.resume = s := by
  rw [State.resume, h]

theorem State.resume_of_warm {s : State} {g : EngGap} (h : s.eng.gap = some g) (hwarm : g.warm = true) :
    s.resume = s.gapEnded := by
  rw [State.resume, h]
  exact if_pos hwarm

theorem State.resume_of_cold {s : State} {g : EngGap} (h : s.eng.gap = some g) (hcold : g.warm = false) :
    s.resume = s.gapEnded.refetchAll.1.postCoarse s.gapEnded.refetchAll.1.home 882 0x77 0
      [(0x14, 4, s.gapEnded.refetchAll.2.1), (0x18, 4, s.gapEnded.refetchAll.2.2)] := by
  rw [State.resume, h]
  exact if_neg (ne_true_of_eq_false hcold)

/-- The state without its records and messages. -/
def State.bare (s : State) : State := { s with recs := {} }

/-- Reads sent to the host are messages. -/
theorem State.bare_foldl_emit {α : Type} (f : State → α → HostOut) (l : List α) (s : State) :
    (l.foldl (fun s a => s.emit (f s a)) s).bare = s.bare :=
  foldl_keeps State.bare (fun s a => s.emit (f s a)) (fun _ _ => rfl) l s

/-- The descriptors of a context that a cold standby fetches again. -/
def State.fetchedAgain (s : State) (c : Nat) : List Desc :=
  (s.ctx c).fetched.filter fun d => (s.sinceImage c).contains d.index && d.phase != .running

/-- The state that asks the host for the entries again. -/
def State.forgotten (s : State) (c : Nat) : State :=
  let ids := (s.fetchedAgain c).map Desc.index
  let s := s.updCtx c fun x => { x with fetched := x.fetched.filter fun d => !(ids.contains d.index) }
  { s with
    host.reads := (s.host.reads.filter fun r => match r with
      | .data cc i _ => !(cc == c && ids.contains i)
      | _ => true) ++ ids.map fun i => ReadFor.entry c i false
    place.build := match s.place.build with
      | some b => if b.ctx = c ∧ ids.contains b.index then none else some b
      | none => none
    cal.run := match s.cal.run with
      | some r => if r.ctx = c ∧ ids.contains r.index then none else some r
      | none => none
    cal.waiting := s.cal.waiting.filter fun w => !(w.1 == c && ids.contains w.2) }

theorem State.refetch_state (s : State) (c : Nat) : (s.refetch c).1 = ((s.fetchedAgain c).map Desc.index).foldl
    (fun s i => s.emit (.read (s.baseOf .SUB_BASE_LO .SUB_BASE_HI c + i * 64) 64)) (s.forgotten c) := rfl

theorem State.refetch_bare (s : State) (c : Nat) :
    (s.refetch c).1.bare = (s.forgotten c).bare := by
  rw [State.refetch_state]
  exact State.bare_foldl_emit _ _ _

theorem State.fields_of_bare {s t : State} (h : t.bare = s.bare) :
    t.eng = s.eng ∧ t.ctxs = s.ctxs ∧ t.host = s.host ∧ t.job = s.job ∧ t.ram = s.ram := by
  simp only [State.bare, State.mk.injEq] at h
  simp only [h, and_self]

theorem State.refetch_work (s : State) (c : Nat) : (s.refetch c).1.eng = s.eng
    ∧ (s.refetch c).1.ctxs = (s.forgotten c).ctxs ∧ (s.refetch c).1.host = (s.forgotten c).host
    ∧ (s.refetch c).1.job = s.job ∧ (s.refetch c).1.ram = s.ram :=
  State.fields_of_bare (s.refetch_bare c)

/-- R629: the entries of `ids` leave what a context has fetched. -/
def Ctx.unfetch (ids : List Nat) (x : Ctx) : Ctx :=
  { x with fetched := x.fetched.filter fun d => !(ids.contains d.index) }

theorem State.refetch_ctx (s : State) (c : Nat) : ((s.refetch c).1.ctx c).fetched =
    (s.ctx c).fetched.filter fun d => !(((s.fetchedAgain c).map Desc.index).contains d.index) := by
  obtain ⟨-, hctxs, -⟩ := s.refetch_work c
  have hctx : (s.refetch c).1.ctx c = (s.updCtx c (Ctx.unfetch ((s.fetchedAgain c).map Desc.index))).ctx c := by
    rw [State.ctx, hctxs]
    rfl
  rw [hctx, State.ctx_updCtx_same]
  rfl

theorem State.refetch_reads {s : State} {c : Nat} {d : Desc} (h : d ∈ s.fetchedAgain c) :
    ReadFor.entry c d.index false ∈ (s.refetch c).1.host.reads := by
  obtain ⟨-, -, hhost, -⟩ := s.refetch_work c
  rw [hhost]
  exact List.mem_append_right _ (List.mem_map_of_mem (List.mem_map_of_mem h))

theorem State.refetchAll_work (s : State) : s.refetchAll.1.eng = s.eng ∧ s.refetchAll.1.job = s.job :=
  List.foldlRecOn (motive := fun acc : State × Nat × Nat => acc.1.eng = s.eng ∧ acc.1.job = s.job) _ refetchStep
    ⟨rfl, rfl⟩ fun acc ⟨heng, hjob⟩ c _ => by
      obtain ⟨reng, -, -, rjob, -⟩ := acc.1.refetch_work c
      exact ⟨reng.trans heng, rjob.trans hjob⟩

theorem State.resume_work {s : State} {g : EngGap} (h : s.eng.gap = some g) :
    s.resume.eng = s.gapEnded.eng ∧ s.resume.job = s.gapEnded.job := by
  cases hw : g.warm
  · rw [State.resume_of_cold h hw]
    obtain ⟨heng, -, hjob, -⟩ := s.gapEnded.refetchAll.1.postCoarse_work s.gapEnded.refetchAll.1.home 882 0x77
      [(0x14, 4, s.gapEnded.refetchAll.2.1), (0x18, 4, s.gapEnded.refetchAll.2.2)]
    obtain ⟨reng, rjob⟩ := s.gapEnded.refetchAll_work
    exact ⟨heng.trans reng, hjob.trans rjob⟩
  · rw [State.resume_of_warm h hw]
    exact ⟨rfl, rfl⟩

theorem exec_switchoverResume_of_gap {s : State} {g : EngGap} (h : s.eng.gap = some g) : ∃ t : State,
    exec .switchoverResume s = next t ∧ t.eng.gap = none ∧ t.job = { s.job with
      gapLate := s.job.gapLate || (s.job.prepared && s.job.phase != .inShot && decide (s.job.startTick < s.time.now)) } := by
  obtain ⟨heng, hjob⟩ := State.resume_work h
  refine ⟨s.resume.modeSync, rfl, ?_⟩
  simp only [State.modeSync_work, heng, hjob]
  exact ⟨rfl, rfl⟩

/-! ### Images and repair (R628, R633) -/

theorem saves_iff (s : State) : (s.cobblerUp && s.jobBoundary && !s.eng.warm && s.saveDue) = true ↔
    s.cobblerUp = true ∧ s.jobBoundary = true ∧ s.eng.warm = false ∧ s.saveDue = true := by
  simp [and_assoc]

theorem State.stateSave_of_not {s : State} (h : s.cobblerUp = false ∨ s.jobBoundary = false ∨ s.eng.warm = true
    ∨ s.saveDue = false) : s.stateSave = s := by
  refine if_neg fun hs => ?_
  obtain ⟨hup, hb, hwarm, hdue⟩ := (saves_iff s).mp hs
  simp [hup, hb, hwarm, hdue] at h

theorem State.engRepair_eq (s : State) :
    s.engRepair = if s.failedCobbler = none then s else { s with eng.repairReq := true } := by
  unfold State.engRepair
  cases s.failedCobbler <;> rfl

theorem State.cobblerRepair_of_failed {s : State} {n : Nat} (h : s.failedCobbler = some n) : s.cobblerRepair =
    if s.jobBoundary ∧ s.eng.repairing = false ∧ (s.flag Reg.ENG_CFG.AUTO_REPAIR [] ∨ s.eng.repairReq = true) then
      { s with eng.st := s.eng.st.set! n 3, eng.repairing := true, eng.repairReq := false }
    else s := by
  rw [State.cobblerRepair, h]
  rfl

theorem State.cobblerRepair_of_not {s : State} (h : s.failedCobbler = none ∨ s.jobBoundary = false
    ∨ s.eng.repairing = true ∨ (s.flag Reg.ENG_CFG.AUTO_REPAIR [] = false ∧ s.eng.repairReq = false)) :
    s.cobblerRepair = s := by
  cases hf : s.failedCobbler with
  | none => rw [State.cobblerRepair, hf]
  | some n =>
    rw [State.cobblerRepair_of_failed hf]
    refine if_neg fun ⟨hb, hrep, hreq⟩ => ?_
    simp only [hf, hb, hrep] at h
    obtain h | h | h | ⟨hauto, hask⟩ := h
    · cases h
    · cases h
    · cases h
    · simp [hauto, hask] at hreq

/-- What a repair of cobbler n makes of the engines; `fails` where the other one runs another version or the
self-test fails. -/
def EngSt.repaired (e : EngSt) (n version : Nat) (fails : Prop) [Decidable fails] (t : EngSt) : Prop :=
  t.repairing = false
  ∧ t.st = e.st.set! n (if fails then 2 else if e.st[1 - n]! = 0 then 1 else 0)
  ∧ t.version = (if fails then e.version else e.version.set! n version)
  ∧ t.active = (if fails ∨ e.st[1 - n]! = 0 then e.active else n)

@[simp] theorem State.standbyMode_eng (s : State) : s.standbyMode.eng.repairing = s.eng.repairing
    ∧ s.standbyMode.eng.st = s.eng.st ∧ s.standbyMode.eng.version = s.eng.version
    ∧ s.standbyMode.eng.active = s.eng.active := by
  unfold State.standbyMode
  extract_lets want
  repeat' split
  all_goals exact ⟨rfl, rfl, rfl, rfl⟩

theorem EngSt.repaired_of_fails {e t : EngSt} {n version : Nat} {fails : Prop} [Decidable fails] (h : fails)
    (hrep : t.repairing = false) (hst : t.st = e.st.set! n 2) (hversion : t.version = e.version)
    (hactive : t.active = e.active) : e.repaired n version fails t := by
  rw [EngSt.repaired, if_pos h, if_pos h, if_pos (.inl h)]
  exact ⟨hrep, hst, hversion, hactive⟩

theorem EngSt.repaired_of_passes {e t : EngSt} {n version : Nat} {fails : Prop} [Decidable fails] (h : ¬ fails)
    (hrep : t.repairing = false) (hst : t.st = e.st.set! n (if e.st[1 - n]! = 0 then 1 else 0))
    (hversion : t.version = e.version.set! n version)
    (hactive : t.active = if e.st[1 - n]! = 0 then e.active else n) : e.repaired n version fails t := by
  rw [EngSt.repaired, if_neg h, if_neg h, if_congr (or_iff_right h) rfl rfl]
  exact ⟨hrep, hst, hversion, hactive⟩

/-- R621: the record of the load, and the repair is over. -/
def State.repairNoted (s : State) (n result tried version : Nat) : State :=
  { s.postCoarse s.home 883 0x76 0 [(0x14, 1, n), (0x15, 1, result), (0x16, 1, tried), (0x18, 2, version)] with
    eng.repairing := false }

/-- R633: what becomes of the cobbler that has loaded. -/
def State.repairJudged (s : State) (n version : Nat) (image : List Byte) (pass : Bool) : State :=
  if version ≠ s.eng.version[1 - n]! then (s.setCobbler n 2).cobblerRecord n 2 3
  else if !pass then (s.setCobbler n 2).cobblerRecord n 2 2
  else if s.eng.st[1 - n]! = 0 then (((s.setPatch n version image).setCobbler n 1).cobblerRecord n 1 1).standbyMode
  else { ((s.setPatch n version image).setCobbler n 0).cobblerRecord n 0 1 with eng.active := n }

theorem State.repairEnd_eq (s : State) (n : Nat) (ok : Nat → Bool) (pass : Bool) : s.repairEnd n ok pass =
    (s.repairNoted n (s.patchLoad ok).1 (s.patchLoad ok).2.1 (s.patchLoad ok).2.2.1).repairJudged n
      (s.patchLoad ok).2.2.1 (s.patchLoad ok).2.2.2 pass := rfl

theorem State.repairNoted_eng (s : State) (n result tried version : Nat) :
    (s.repairNoted n result tried version).eng = { s.eng with repairing := false } := by
  obtain ⟨heng, -⟩ := s.postCoarse_work s.home 883 0x76
    [(0x14, 1, n), (0x15, 1, result), (0x16, 1, tried), (0x18, 2, version)]
  rw [State.repairNoted, heng]

theorem State.repairJudged_repaired (s : State) (n version : Nat) (image : List Byte) (pass : Bool)
    (hrep : s.eng.repairing = false) : s.eng.repaired n version (version ≠ s.eng.version[1 - n]! ∨ pass = false)
      (s.repairJudged n version image pass).eng := by
  have hfailed (cause : Nat) : ((s.setCobbler n 2).cobblerRecord n 2 cause).eng =
      { s.eng with st := s.eng.st.set! n 2 } := by
    obtain ⟨heng, -⟩ := (s.setCobbler n 2).cobblerRecord_work n 2 cause
    exact heng
  unfold State.repairJudged
  split
  · next h =>
    rw [hfailed]
    exact EngSt.repaired_of_fails (.inl h) hrep rfl rfl rfl
  split
  · next h =>
    rw [hfailed]
    exact EngSt.repaired_of_fails (.inr (by simpa using h)) hrep rfl rfl rfl
  next hsame hpass =>
  have hpasses : ¬ (version ≠ s.eng.version[1 - n]! ∨ pass = false) := by
    rintro (h | h)
    · exact hsame h
    · exact hpass (by rw [h]; rfl)
  split
  · next h =>
    have hwork := ((s.setPatch n version image).setCobbler n 1).cobblerRecord_work n 1 1
    refine EngSt.repaired_of_passes hpasses ?_ ?_ ?_ ?_ <;> simp only [State.standbyMode_eng, hwork, if_pos h]
    · exact hrep
    all_goals rfl
  · next h =>
    have hwork := ((s.setPatch n version image).setCobbler n 0).cobblerRecord_work n 0 1
    refine EngSt.repaired_of_passes hpasses ?_ ?_ ?_ ?_ <;> simp only [hwork, if_neg h]
    · exact hrep
    all_goals rfl

theorem State.loadingCobbler_repairEnd {a b p : Bool} {s : State} {n : Nat} (h : s.loadingCobbler = some n) :
    exec (.cobblerRepairDone a b p) s = (s.repairEnd n (fun k => if k = 0 then a else b) p).done := by
  show execCobblerRepairDone a b p s = _
  rw [execCobblerRepairDone, h]

theorem exec_cobblerRepairDone_of_loading {a b p : Bool} {s : State} {n : Nat} (h : s.loadingCobbler = some n) :
    ∃ t : State, exec (.cobblerRepairDone a b p) s = next t ∧ t.eng.repairing = false
      ∧ (let version := (s.patchLoad fun k => if k = 0 then a else b).2.2.1
         let fails := version ≠ s.eng.version[1 - n]! ∨ p = false
         t.eng.st = s.eng.st.set! n (if fails then 2 else if s.eng.st[1 - n]! = 0 then 1 else 0)
         ∧ t.eng.version = (if fails then s.eng.version else s.eng.version.set! n version)
         ∧ t.eng.active = (if fails ∨ s.eng.st[1 - n]! = 0 then s.eng.active else n)) := by
  refine ⟨_, State.loadingCobbler_repairEnd h, ?_⟩
  have hnoted := s.repairNoted_eng n (s.patchLoad fun k => if k = 0 then a else b).1
    (s.patchLoad fun k => if k = 0 then a else b).2.1 (s.patchLoad fun k => if k = 0 then a else b).2.2.1
  have hjudged := State.repairJudged_repaired _ n (s.patchLoad fun k => if k = 0 then a else b).2.2.1
    (s.patchLoad fun k => if k = 0 then a else b).2.2.2 p (congrArg EngSt.repairing hnoted)
  rw [hnoted] at hjudged
  simp only [State.modeSync_work]
  exact hjudged

/-! ### Calibration steps (R638 to R645) -/

theorem State.calStepStart_of_none {s : State} (h : s.cal.run = none) : s.calStepStart = s := by
  rw [State.calStepStart, h]

theorem State.calStepEnd_of_none {s : State} (h : s.cal.run = none) (vs : List Int) : s.calStepEnd vs = s := by
  rw [State.calStepEnd, h]

/-- R642: the step of the unit in hand runs from now. -/
def State.calRunning (s : State) (r : CalRun) : State :=
  { s with cal.run := some { r with
      running := true, since := s.time.now, begun := if r.begun = 0 then s.time.now + 1 else r.begun } }

theorem converterBusy_iff (cur : Option MonConv) (queued : Option MonTrig) :
    (cur.isSome = true ∨ queued.isSome = true) ↔ ¬ (cur = none ∧ queued = none) := by
  cases cur <;> cases queued <;> simp

theorem State.calStepStart_of_run {s : State} {r : CalRun} (h : s.cal.run = some r) : s.calStepStart =
    if s.calMayStart r = false then s
    else if r.curT ≠ 6 then (s.calRunning r).calTerminate r.curT r.curU
    else if s.mon.cur = none ∧ s.mon.queued = none then
      State.monStart { s.calRunning r with mon.calDue := false } 3 0x3FF 0 0 {}
    else { s with mon.calDue := true } := by
  rw [State.calStepStart, h]
  dsimp only
  cases hmay : s.calMayStart r with
  | false => rfl
  | true =>
    refine (if_neg (by decide)).trans (Eq.trans ?_ (if_neg (by decide)).symm)
    by_cases hmon : r.curT = 6
    · refine Eq.trans ?_ (if_neg (not_not.mpr hmon)).symm
      by_cases hfree : s.mon.cur = none ∧ s.mon.queued = none
      · exact (if_neg fun hbusy => (converterBusy_iff ..).mp hbusy.2 hfree).trans ((if_pos hmon).trans (if_pos hfree).symm)
      · exact (if_pos ⟨hmon, (converterBusy_iff ..).mpr hfree⟩).trans (if_neg hfree).symm
    · exact (if_neg fun hbusy => hmon hbusy.1).trans ((if_neg hmon).trans (if_pos hmon).symm)

theorem calIdle_iff (active short : Bool) : (!active || short) = true ↔ active = false ∨ short = true := by
  simp

theorem State.calStepEnd_of_run {s : State} {r : CalRun} (h : s.cal.run = some r) (vs : List Int) : s.calStepEnd vs =
    if r.mode = 2 then s.calResult r vs
    else if s.calOver r = true then (if s.calActive r = true then s.calDelay.calRelease r else s).calUnit r 2 none
    else if s.calActive r = false ∨ s.calShort r = true then s
    else if r.step = 0 ∧ 0 < calBound r.curT r.curU ∧ vs ≠ [] then
      { s with cal.run := some { r with step := 1, running := false, spent := 0 } }
    else (s.calDelay.calRelease r).calResult r vs := by
  rw [State.calStepEnd, h]
  exact if_congr Iff.rfl rfl (if_congr Iff.rfl rfl (if_congr (calIdle_iff ..) rfl rfl))

theorem State.calResult_of_out {r : CalRun} {vs : List Int} (h : calInRange r.curT vs = false) (s : State) :
    s.calResult r vs = s.calUnit r 2 none := by
  rw [State.calResult, h]
  rfl

theorem State.calResult_of_in {r : CalRun} {vs : List Int} (h : calInRange r.curT vs = true) (s : State) :
    s.calResult r vs = if r.mode = 1 then s.calUnit r 1 (calWords r.curT vs).head?
      else (s.stageTaps ((calAddrs r.curT r.curU).zip (calWords r.curT vs))).calUnit r (if r.mode = 2 then 3 else 0)
        (calWords r.curT vs).head? := by
  rw [State.calResult, h]
  rfl

section
variable {s : State} {r : CalRun} {vs : List Int} (h : s.cal.run = some r) (hmode : r.mode ≠ 2)
  (hover : s.calOver r = false) (hactive : s.calActive r = true) (hshort : s.calShort r = false)
include h hmode hover hactive hshort

theorem State.calStepEnd_of_active : s.calStepEnd vs =
    if r.step = 0 ∧ 0 < calBound r.curT r.curU ∧ vs ≠ [] then
      { s with cal.run := some { r with step := 1, running := false, spent := 0 } }
    else (s.calDelay.calRelease r).calResult r vs := by
  rw [State.calStepEnd_of_run h, if_neg hmode, if_neg (ne_true_of_eq_false hover),
    if_neg (by simp [hactive, hshort])]

end

/-! ### Scrubbing and telemetry (R648, R650) -/

theorem exec_scrubPass_of_due {s : State} (h : s.scrubDue = true) (errs : List ScrubErr) :
    exec (.scrubPass errs) s = next (State.modeSync (errs.foldl State.scrubError { s with
      cal.scrubbing := true, cal.scrubFrom := s.time.now, cal.scrubNext := s.time.now + 10000000000 })) :=
  if_pos h

theorem exec_scrubPass_of_not {s : State} (h : s.scrubDue = false) (errs : List ScrubErr) :
    exec (.scrubPass errs) s = next s :=
  if_neg (ne_true_of_eq_false h)

theorem State.foldl_countCe_work (ce : List (Fin 11 × Word)) (s : State) :
    (ce.foldl State.countCe s).cal = s.cal ∧ (ce.foldl State.countCe s).job = s.job
    ∧ (ce.foldl State.countCe s).ram = s.ram :=
  ⟨foldl_keeps State.cal State.countCe (fun _ _ => rfl) ce s, foldl_keeps State.job State.countCe (fun _ _ => rfl) ce s,
    foldl_keeps State.ram State.countCe (fun _ _ => rfl) ce s⟩

theorem exec_scrubPassEnd_of_running {s : State} (hrun : s.cal.scrubbing = true) (hbg : s.bgPaused = false)
    (ce : List (Fin 11 × Word)) : ∃ t : State, exec (.scrubPassEnd ce) s = next t ∧ t.cal.scrubbing = false
      ∧ t.cal.scrubNext = s.cal.scrubNext ∧ t.job = s.job ∧ t.ram = s.ram ∧ t.regs = (ce.foldl State.countCe s).regs := by
  obtain ⟨hcal, hjob, hram⟩ := State.foldl_countCe_work ce s
  refine ⟨_, if_pos ⟨hrun, hbg⟩, ?_⟩
  simp [hcal, hjob, hram]

/-- After boot a record is held behind those that wait. -/
theorem State.post_held_of_booted {s : State} (h : s.sys.boot = false) (c : Nat) (ring : Ring) (src kind flags : Nat)
    (st : Stamp) (body : List (Nat × Nat × Nat)) : ∃ g : Held, g.src = src
      ∧ (s.post c ring src kind flags st body).recs = { s.recs with held := s.recs.held ++ [g] } := by
  unfold State.post
  rw [h]
  extract_lets b ofJob g src' held
  refine ⟨g, rfl, ?_⟩
  split <;> rfl

theorem State.telemetry_of_not {s : State} (h : s.rd Reg.CAL_BG.TEL_PERIOD [] = 0 ∨ s.bgPaused = true
    ∨ s.time.now < s.cal.telNext) : s.telemetry = s :=
  if_pos h

/-- R650: a telemetry record that waits is gone, and has consumed its number. -/
def State.telReplaced (s : State) : State :=
  { s with
    cal.telNext := s.time.now + s.rd Reg.CAL_BG.TEL_PERIOD [] * 1000000
    recs.held := s.recs.held.filter fun h => h.src != 852
    recs.seq := Table.upd 0 s.recs.seq 852 (· + BitVec.ofNat 32 (s.recs.held.filter fun h => h.src == 852).length) }

theorem State.telemetry_of_due {s : State} (hper : s.rd Reg.CAL_BG.TEL_PERIOD [] ≠ 0) (hbg : s.bgPaused = false)
    (hnext : s.cal.telNext ≤ s.time.now) :
    ∃ body, s.telemetry = (s.telReplaced.postCoarse s.telReplaced.home 852 0x7C 0 body).draw :=
  ⟨_, if_neg (not_or.mpr ⟨hper, not_or.mpr ⟨ne_true_of_eq_false hbg, Nat.not_lt.mpr hnext⟩⟩)⟩

theorem exec_telemetry_of_due {s : State} (hper : s.rd Reg.CAL_BG.TEL_PERIOD [] ≠ 0) (hbg : s.bgPaused = false)
    (hnext : s.cal.telNext ≤ s.time.now) (hboot : s.sys.boot = false) : ∃ t : State, exec .telemetry s = next t
      ∧ t.cal.telNext = s.time.now + s.rd Reg.CAL_BG.TEL_PERIOD [] * 1000000
      ∧ (t.recs.held.filter fun h => h.src == 852).length = 1
      ∧ (t.recs.held.filter fun h => h.src != 852) = (s.recs.held.filter fun h => h.src != 852)
      ∧ Table.get 0 t.recs.seq 852 = Table.get 0 s.recs.seq 852
          + BitVec.ofNat 32 (s.recs.held.filter fun h => h.src == 852).length := by
  obtain ⟨body, hbody⟩ := State.telemetry_of_due hper hbg hnext
  obtain ⟨g, hsrc, hrecs⟩ := State.post_held_of_booted (s := s.telReplaced) hboot s.telReplaced.home .event 852 0x7C
    (0 + 1) s.telReplaced.coarseStamp body
  refine ⟨_, congrArg next hbody, ?_⟩
  obtain ⟨-, -, -, -, -, hcal, -⟩ := s.telReplaced.postCoarse_work s.telReplaced.home 852 0x7C body
  rw [State.draw_cal, State.draw_recs, hcal, State.postCoarse, hrecs]
  refine ⟨rfl, ?_, ?_, Table.get_set_same ..⟩
  · simp [State.telReplaced, hsrc]
  · simp [State.telReplaced, hsrc]

/-- Settles O56: the cobblers, their repair, then calibration, scrubbing and telemetry. -/
theorem enginesSwitchOverAndBackground : Obligations.EnginesSwitchOverAndBackground :=
  ⟨fun _ _ => congrArg next (if_congr Bool.and_eq_true_iff rfl rfl),
   fun _ h => congrArg State.done (State.cobblerFail_of_failed h 2),
   fun _ => exec_cobblerWatchdog_of_standby,
   fun _ ha hb hsafe _ => exec_cobblerWatchdog_of_both_failed ha hb hsafe,
   fun _ h => congrArg State.done (State.resume_of_none h),
   fun _ _ h hwarm => congrArg State.done (State.resume_of_warm h hwarm),
   fun _ _ => exec_switchoverResume_of_gap,
   fun s c => by
     obtain ⟨-, -, -, hjob, hram⟩ := s.refetch_work c
     exact ⟨List.length_map .., s.refetch_ctx c, fun _ => State.refetch_reads, hjob, hram⟩,
   -- images, the warm standby and repairs
   fun _ h => congrArg next (State.stateSave_of_not h),
   fun _ => rfl,
   fun s hup hb hwarm hdue => congrArg next (if_pos ((saves_iff s).mpr ⟨hup, hb, hwarm, hdue⟩)),
   fun _ => rfl,
   fun s => congrArg (fun t => next (s.gate t)) s.engRepair_eq,
   fun _ _ h hb hrep hreq => congrArg State.done ((State.cobblerRepair_of_failed h).trans (if_pos ⟨hb, hrep, hreq⟩)),
   fun _ h => congrArg State.done (State.cobblerRepair_of_not h),
   fun a b p s h => by
     show execCobblerRepairDone a b p s = _
     rw [execCobblerRepairDone, h],
   fun _ _ _ _ _ => exec_cobblerRepairDone_of_loading,
   -- calibration
   fun _ h => ⟨congrArg next (State.calStepStart_of_none h), fun vs => congrArg State.done (State.calStepEnd_of_none h vs)⟩,
   fun _ _ h => congrArg next (State.calStepStart_of_run h),
   fun _ _ vs h => congrArg State.done (State.calStepEnd_of_run h vs),
   fun s _ _ h => State.calResult_of_out h s,
   fun s _ _ h => State.calResult_of_in h s,
   -- scrubbing and telemetry
   fun errs _ h => exec_scrubPass_of_not h errs,
   fun errs _ h => exec_scrubPass_of_due h errs,
   fun _ _ h => if_neg (by
     rintro ⟨hrun, hbg⟩
     simp [hrun, hbg] at h),
   fun ce _ hrun hbg => exec_scrubPassEnd_of_running hrun hbg ce,
   fun _ h => congrArg next (State.telemetry_of_not h),
   fun s hper hbg hnext hboot => by
     -- the statement's last filter reaches over the number that the replaced records have consumed
     obtain ⟨t, ht, htel, hone, hrest, hseq⟩ := exec_telemetry_of_due hper hbg hnext hboot
     exact ⟨t, ht, htel, hone, by simpa only [hseq, and_true, Bool.decide_eq_true] using hrest⟩,
   fun _ _ => rfl,
   -- the same operations where their conditions hold
   fun _ hup => congrArg next (if_pos (Bool.and_eq_true_iff.mpr ⟨rfl, hup⟩)),
   fun _ hsync hst => congrArg next (if_pos ⟨hsync, hst⟩),
   fun s hready hfailed => congrArg next ((State.gate_of_ready _ _ hready).trans (s.engRepair_eq.trans (if_neg hfailed))),
   fun _ _ h hmay hmon => congrArg next ((State.calStepStart_of_run h).trans
     ((if_neg (by rw [hmay]; decide)).trans (if_pos hmon))),
   fun _ _ h hmay hmon hcur hqueued => congrArg next ((State.calStepStart_of_run h).trans
     ((if_neg (by rw [hmay]; decide)).trans ((if_neg (not_not.mpr hmon)).trans (if_pos ⟨hcur, hqueued⟩)))),
   fun _ _ vs h hmode => congrArg State.done ((State.calStepEnd_of_run h vs).trans (if_pos hmode)),
   fun _ _ _ h hmode hover hactive hshort hstep hbound hvs => congrArg State.done
     ((State.calStepEnd_of_active h hmode hover hactive hshort).trans (if_pos ⟨hstep, hbound, hvs⟩)),
   fun _ _ _ h hmode hover hactive hshort hstep => congrArg State.done
     ((State.calStepEnd_of_active h hmode hover hactive hshort).trans (if_neg (by omega)))⟩

end Sys2Proof.Machine
end

section
/-! PROOFS. Sensors and throttling (R657 to R668): what a reading makes of its sensor and leaves of the others, and the
steps of the throttle level. -/

namespace Sys2Proof.Machine
open Host.Outcome (next)

/-! ### What stands beside a sample -/

/-- What the conditions of the sensors read, and what a sample leaves of the rest. -/
def State.sensed (s : State) : Table Sensor × RegSt × Table Ctx × TimeSt := (s.pwr.sensors, s.regs, s.ctxs, s.time)

/-- All of it but sensor i. -/
def State.sensedBut (i : Nat) (s : State) : (Nat → Sensor) × RegSt × Table Ctx × TimeSt :=
  (fun n => if n = i then {} else s.sensor n, s.regs, s.ctxs, s.time)

theorem State.sensor_of_sensed {s t : State} (h : t.sensed = s.sensed) (n : Nat) : t.sensor n = s.sensor n :=
  congrArg (fun x : Table Sensor × RegSt × Table Ctx × TimeSt => Table.get ({} : Sensor) x.1 n) h

theorem State.sensedBut_of_sensed {s t : State} (h : t.sensed = s.sensed) (i : Nat) :
    t.sensedBut i = s.sensedBut i :=
  congrArg (fun x => ((fun n => if n = i then {} else Table.get {} x.1 n : Nat → Sensor), x.2.1, x.2.2.1, x.2.2.2)) h

theorem State.fields_of_sensedBut {s t : State} {i : Nat} (h : t.sensedBut i = s.sensedBut i) :
    (∀ n : Nat, n ≠ i → t.sensor n = s.sensor n) ∧ t.regs = s.regs ∧ t.ctxs = s.ctxs ∧ t.time = s.time := by
  obtain ⟨hsensor, hrest⟩ := Prod.mk.inj h
  obtain ⟨hregs, hrest⟩ := Prod.mk.inj hrest
  obtain ⟨hctxs, htime⟩ := Prod.mk.inj hrest
  refine ⟨fun n hn => ?_, hregs, hctxs, htime⟩
  simpa [hn] using congrFun hsensor n

theorem State.sensedBut_updSensor (s : State) (i : Nat) (f : Sensor → Sensor) :
    (s.updSensor i f).sensedBut i = s.sensedBut i := by
  refine Prod.ext (funext fun n => ?_) rfl
  by_cases hn : n = i
  · simp [State.sensedBut, hn]
  · simp only [State.sensedBut, if_neg hn]
    exact Table.get_set_other _ _ _ _ _ hn

theorem State.sensed_postCoarse (s : State) (c src kind : Nat) (body : List (Nat × Nat × Nat)) :
    (s.postCoarse c src kind 0 body).sensed = s.sensed := by
  simp [State.sensed]

theorem State.sensed_modeSync (s : State) : s.modeSync.sensed = s.sensed := by
  simp [State.sensed]

theorem State.sensed_orderlyStop (s : State) (cause unit : Nat) : (s.orderlyStop cause unit).sensed = s.sensed := by
  unfold State.orderlyStop
  split <;> rfl

theorem State.sensed_breakHold (s : State) (i : Nat) : (s.breakHold i).sensed = s.sensed := by
  unfold State.breakHold
  split <;> rfl

theorem State.sensed_throttling (s : State) : s.throttling.sensed = s.sensed := by
  unfold State.throttling
  extract_lets on
  repeat' split
  all_goals rfl

theorem State.sensed_thresholdRecord (s : State) (i which : Nat) (on : Bool) :
    (s.thresholdRecord i which on).sensed = s.sensed :=
  s.sensed_postCoarse ..

/-- R662: a low condition of a quarter changes, with its record. -/
theorem State.lowStep_keeps (s : State) (i n : Nat) (low : BitVec 8) (body : List (Nat × Nat × Nat)) :
    (({ s with pwr.low := low } : State).postCoarse i n 0x84 0 body).sensed = s.sensed
    ∧ (({ s with pwr.low := low } : State).postCoarse i n 0x84 0 body).pwr.stop = s.pwr.stop := by
  refine ⟨State.sensed_postCoarse .., ?_⟩
  simp

theorem State.quarterLow_keeps (s : State) (i : Nat) :
    (s.quarterLow i).sensed = s.sensed ∧ (s.quarterLow i).pwr.stop = s.pwr.stop := by
  unfold State.quarterLow
  split
  · exact ⟨rfl, rfl⟩
  extract_lets q vals
  split
  · exact ⟨rfl, rfl⟩
  next v _ =>
  extract_lets step
  have hstep (u : State) (b : Nat) (onset hyst : Int) :
      (step u b onset hyst).sensed = u.sensed ∧ (step u b onset hyst).pwr.stop = u.pwr.stop := by
    unfold step
    extract_lets was on
    split
    · exact ⟨rfl, rfl⟩
    · exact u.lowStep_keeps ..
  obtain ⟨hsensed, hstop⟩ := hstep s 0 40 24
  obtain ⟨hsensed', hstop'⟩ := hstep (step s 0 40 24) 1 (-40) 40
  exact ⟨hsensed'.trans hsensed, hstop'.trans hstop⟩

/-! ### A reading (R659 to R661) -/

/-- R659: the reading breaks a sensor that works. -/
def State.breaksNow (s : State) (i : Nat) (raw : Int) : Bool := !(s.sensor i).broken && s.breaks i raw

/-- R659: the reading is stored, and may break the sensor. -/
def State.stored (s : State) (i : Nat) (raw : Int) : State :=
  if s.breaksNow i raw then (s.updSensor i fun x => { x with raw := raw, valid := true, at_ := s.time.now }).breakSensor i
  else s.updSensor i fun x => { x with raw := raw, valid := true, at_ := s.time.now }

/-- R660: the effective value is in force. -/
def State.valued (s : State) (i : Nat) : State := s.draw.updSensor i fun x => { x with val := s.effective i }

/-- R661, R662, R664: the conditions that follow a new value. -/
def State.judged (s : State) (i : Nat) : State := ((s.thresholds i).quarterLow i).throttling

theorem State.takeReading_eq (s : State) (i : Nat) (raw : Int) : s.takeReading i raw =
    if s.breaksNow i raw ∧ ((sensorDie i).filter fun k => !((((s.stored i raw).valued i).judged i).sensor k).broken).length < 2 then
      (((s.stored i raw).valued i).judged i).orderlyStop 4 i
    else ((s.stored i raw).valued i).judged i := rfl

theorem State.breakSensor_sensor (s : State) (i : Nat) :
    (s.breakSensor i).sensor i = { s.sensor i with broken := true } := by
  unfold State.breakSensor
  extract_lets near broken v m recorded
  have hrecorded : recorded.draw.sensed = broken.sensed := broken.sensed_postCoarse ..
  rw [State.sensor_of_sensed hrecorded, State.sensor_updSensor_same, State.sensor_of_sensed (s.sensed_breakHold i)]

theorem State.sensedBut_breakSensor (s : State) (i : Nat) : (s.breakSensor i).sensedBut i = s.sensedBut i := by
  unfold State.breakSensor
  extract_lets near broken v m recorded
  have hrecorded : recorded.draw.sensed = broken.sensed := broken.sensed_postCoarse ..
  rw [State.sensedBut_of_sensed hrecorded, State.sensedBut_updSensor, State.sensedBut_of_sensed (s.sensed_breakHold i)]

theorem State.stored_sensor (s : State) (i : Nat) (raw : Int) : (s.stored i raw).sensor i = { s.sensor i with
    raw := raw, valid := true, at_ := s.time.now, broken := (s.sensor i).broken || s.breaks i raw } := by
  unfold State.stored State.breaksNow
  split
  · next h =>
    obtain ⟨-, hbreaks⟩ := Bool.and_eq_true_iff.mp h
    rw [State.breakSensor_sensor, State.sensor_updSensor_same, hbreaks, Bool.or_true]
  · next h =>
    rw [State.sensor_updSensor_same]
    have hsame : ((s.sensor i).broken || s.breaks i raw) = (s.sensor i).broken := by
      revert h
      cases (s.sensor i).broken <;> cases s.breaks i raw <;> decide
    rw [hsame]

theorem State.sensedBut_stored (s : State) (i : Nat) (raw : Int) : (s.stored i raw).sensedBut i = s.sensedBut i := by
  unfold State.stored
  split
  · rw [State.sensedBut_breakSensor, State.sensedBut_updSensor]
  · rw [State.sensedBut_updSensor]

theorem State.valued_sensor (s : State) (i : Nat) : (s.valued i).sensor i = { s.sensor i with val := s.effective i } :=
  State.sensor_updSensor_same ..

theorem State.sensedBut_valued (s : State) (i : Nat) : (s.valued i).sensedBut i = s.sensedBut i :=
  State.sensedBut_updSensor ..

/-- A working sensor's effective value is its reading. -/
theorem State.effective_of_working {s : State} {i : Nat} (h : (s.sensor i).broken = false) :
    s.effective i = (s.sensor i).raw := by
  rw [State.effective, h]
  rfl

/-! ### The conditions of a sample (R661) -/

/-- R661: the conditions of a sensor at its value. -/
def Sensor.conditions (x : Sensor) : Sensor :=
  { x with
    warn := overCond x.warn x.val 760 40
    throt := overCond x.throt x.val 800 40
    shut := overCond x.shut x.val 880 80 }

/-- R661, R674: the conditions are in force, with the records of those that have changed. -/
def State.recorded (s : State) (i : Nat) : State :=
  let x := s.sensor i
  let y := x.conditions
  let s := s.updSensor i fun z => { z with warn := y.warn, throt := y.throt, shut := y.shut }
  let s := if y.warn = x.warn then s else s.thresholdRecord i 1 y.warn
  let s := if y.throt = x.throt then s else s.thresholdRecord i 2 y.throt
  if y.shut = x.shut then s else s.thresholdRecord i 3 y.shut

theorem State.thresholds_eq (s : State) (i : Nat) : s.thresholds i =
    if (s.sensor i).conditions.shut && !(s.sensor i).shut then (s.recorded i).orderlyStop 1 i else s.recorded i := rfl

theorem State.sensed_thresholdRecord_unless (s : State) (p : Prop) [Decidable p] (i which : Nat) (on : Bool) :
    (if p then s else s.thresholdRecord i which on).sensed = s.sensed := by
  split
  · rfl
  · exact s.sensed_thresholdRecord ..

theorem State.sensed_recorded (s : State) (i : Nat) : (s.recorded i).sensed =
    (s.updSensor i fun z => { z with
      warn := (s.sensor i).conditions.warn, throt := (s.sensor i).conditions.throt
      shut := (s.sensor i).conditions.shut }).sensed := by
  unfold State.recorded
  extract_lets x y set warned throttled
  exact ((throttled.sensed_thresholdRecord_unless ..).trans (warned.sensed_thresholdRecord_unless ..)).trans
    (set.sensed_thresholdRecord_unless ..)

theorem State.recorded_safe (s : State) (i : Nat) : (s.recorded i).sys.safe = s.sys.safe := by
  unfold State.recorded
  extract_lets x y set warned throttled
  have hwarned : warned.sys.safe = s.sys.safe := by
    unfold warned
    split <;> simp [set]
  have hthrottled : throttled.sys.safe = s.sys.safe := by
    unfold throttled
    split <;> simp [hwarned]
  split <;> simp [hthrottled]

theorem State.recorded_sensor (s : State) (i : Nat) : (s.recorded i).sensor i = (s.sensor i).conditions := by
  rw [State.sensor_of_sensed (s.sensed_recorded i), State.sensor_updSensor_same]
  rfl

theorem State.sensedBut_recorded (s : State) (i : Nat) : (s.recorded i).sensedBut i = s.sensedBut i := by
  rw [State.sensedBut_of_sensed (s.sensed_recorded i), State.sensedBut_updSensor]

theorem State.sensed_judged (s : State) (i : Nat) : (s.judged i).sensed = (s.recorded i).sensed := by
  obtain ⟨hlow, -⟩ := (s.thresholds i).quarterLow_keeps i
  rw [State.judged, State.sensed_throttling, hlow, State.thresholds_eq]
  split
  · exact (s.recorded i).sensed_orderlyStop 1 i
  · rfl

theorem State.judged_sensor (s : State) (i : Nat) : (s.judged i).sensor i = (s.sensor i).conditions :=
  (State.sensor_of_sensed (s.sensed_judged i) i).trans (s.recorded_sensor i)

theorem State.sensedBut_judged (s : State) (i : Nat) : (s.judged i).sensedBut i = s.sensedBut i :=
  (State.sensedBut_of_sensed (s.sensed_judged i) i).trans (s.sensedBut_recorded i)

theorem State.sensed_takeReading (s : State) (i : Nat) (raw : Int) :
    (s.takeReading i raw).sensed = (((s.stored i raw).valued i).judged i).sensed := by
  rw [State.takeReading_eq]
  split
  · exact State.sensed_orderlyStop ..
  · rfl

theorem State.sensedBut_takeReading (s : State) (i : Nat) (raw : Int) :
    (s.takeReading i raw).sensedBut i = s.sensedBut i := by
  rw [State.sensedBut_of_sensed (s.sensed_takeReading i raw), State.sensedBut_judged, State.sensedBut_valued,
    State.sensedBut_stored]

/-- What a reading makes of its sensor, whose new value is `v`. -/
theorem State.takeReading_sensor (s : State) (i : Nat) (raw : Int) : (s.takeReading i raw).sensor i =
    Sensor.conditions { s.sensor i with
      raw := raw
      valid := true
      at_ := s.time.now
      broken := (s.sensor i).broken || s.breaks i raw
      val := (s.stored i raw).effective i } := by
  rw [State.sensor_of_sensed (s.sensed_takeReading i raw), State.judged_sensor, State.valued_sensor,
    State.stored_sensor]

theorem State.stored_effective {s : State} {i : Nat} {raw : Int}
    (h : ((s.sensor i).broken || s.breaks i raw) = false) : (s.stored i raw).effective i = raw := by
  rw [State.effective_of_working (by rw [State.stored_sensor]; exact h), State.stored_sensor]

theorem exec_sensorSample_of_due {i : Fin 68} {s : State} (h : s.sensorDue i = true) (raw : BitVec 12) :
    exec (.sensorSample i raw) s = next (s.takeReading i raw.toInt).modeSync :=
  congrArg State.done (if_pos h)

theorem exec_sensorSample_takes {i : Fin 68} {s : State} (h : s.sensorDue i = true) (raw : BitVec 12) :
    ∃ t : State, exec (.sensorSample i raw) s = next t
      ∧ (t.sensor i).raw = raw.toInt ∧ (t.sensor i).valid = true ∧ (t.sensor i).at_ = s.time.now
      ∧ (t.sensor i).broken = ((s.sensor i).broken || s.breaks i raw.toInt)
      ∧ ((t.sensor i).broken = false → (t.sensor i).val = raw.toInt)
      ∧ (t.sensor i).warn = overCond (s.sensor i).warn (t.sensor i).val 760 40
      ∧ (t.sensor i).throt = overCond (s.sensor i).throt (t.sensor i).val 800 40
      ∧ (t.sensor i).shut = overCond (s.sensor i).shut (t.sensor i).val 880 80
      ∧ (∀ n : Nat, n ≠ i.val → t.sensor n = s.sensor n) ∧ t.ram = s.ram ∧ t.regs = s.regs ∧ t.ctxs = s.ctxs := by
  have hsync := (s.takeReading i raw.toInt).sensed_modeSync
  obtain ⟨hothers, hregs, hctxs, -⟩ := State.fields_of_sensedBut
    ((State.sensedBut_of_sensed hsync i).trans (s.sensedBut_takeReading i raw.toInt))
  refine ⟨_, exec_sensorSample_of_due h raw, ?_⟩
  rw [State.sensor_of_sensed hsync, State.takeReading_sensor]
  exact ⟨rfl, rfl, rfl, rfl, State.stored_effective, rfl, rfl, rfl, hothers, by simp, hregs, hctxs⟩

/-- R661, R670: a reading over the shutdown onset stops the device. -/
theorem exec_sensorSample_shuts {i : Fin 68} {raw : BitVec 12} {s : State} (hdue : s.sensorDue i = true)
    (hsafe : s.sys.safe = 0) (hshut : (s.sensor i).shut = false) (hworks : (s.sensor i).broken = false)
    (hbreaks : s.breaks i raw.toInt = false) (hhot : 880 ≤ raw.toInt) : ∃ t : State, exec (.sensorSample i raw) s = next t
      ∧ t.sys.safe = 1 ∧ t.pwr.stop = some { cause := 1, unit := i, t0 := s.time.now } := by
  have hnow : s.breaksNow i raw.toInt = false := by rw [State.breaksNow, hbreaks, Bool.and_false]
  have hval : (s.stored i raw.toInt).effective i = raw.toInt := State.stored_effective (by rw [hworks, hbreaks]; rfl)
  have hstored : s.stored i raw.toInt =
      s.updSensor i fun x => { x with raw := raw.toInt, valid := true, at_ := s.time.now } :=
    if_neg (ne_true_of_eq_false hnow)
  have hsensor := (s.stored i raw.toInt).valued_sensor i
  rw [State.stored_sensor, hval] at hsensor
  have hon : (((s.stored i raw.toInt).valued i).sensor i).conditions.shut = true := by
    rw [hsensor, Sensor.conditions]
    simp only [overCond, hshut]
    exact decide_eq_true hhot
  have hwas : (((s.stored i raw.toInt).valued i).sensor i).shut = false := by
    rw [hsensor]
    exact hshut
  have hsafe' : (((s.stored i raw.toInt).valued i).recorded i).sys.safe = 0 := by
    rw [State.recorded_safe, hstored]
    exact hsafe
  obtain ⟨-, -, -, htime⟩ := State.fields_of_sensedBut ((State.sensedBut_recorded _ i.val).trans
    ((State.sensedBut_valued _ i.val).trans (s.sensedBut_stored i raw.toInt)))
  have hstop : ((s.stored i raw.toInt).valued i).thresholds i =
      (((s.stored i raw.toInt).valued i).recorded i).orderlyStop 1 i := by
    rw [State.thresholds_eq, hon, hwas]
    rfl
  have htake : s.takeReading i raw.toInt = ((s.stored i raw.toInt).valued i).judged i := by
    rw [State.takeReading_eq]
    exact if_neg fun hb => ne_true_of_eq_false hnow hb.1
  rw [State.orderlyStop_of_safe_zero hsafe', htime] at hstop
  obtain ⟨-, hlow⟩ := (((s.stored i raw.toInt).valued i).thresholds i).quarterLow_keeps i
  have hthrot (u : State) : u.throttling.pwr.stop = u.pwr.stop := by
    unfold State.throttling
    extract_lets on
    repeat' split
    all_goals rfl
  refine ⟨_, exec_sensorSample_of_due hdue raw, ?_, ?_⟩
  · rw [htake]
    simp [State.judged, hstop]
  · obtain ⟨-, -, -, hpwr, -⟩ := (s.takeReading i raw.toInt).modeSync_work
    rw [hpwr, htake, State.judged, hthrot, hlow, hstop]

/-! ### Throttling (R664 to R668) -/

theorem State.throttleRise_of_not {s : State} (h : s.pwr.throt = false ∨ s.time.now < s.pwr.riseAt) (p : Nat) :
    s.throttleRise p = s := by
  refine if_neg fun ⟨hthrot, hrise⟩ => ?_
  obtain h | h := h
  · exact ne_true_of_eq_false h hthrot
  · omega

theorem State.throttleAct_of_not {s : State} (h : s.pwr.throt = false ∨ s.pwr.power + 100 * s.pwr.level ≤ 1200
    ∨ s.actionBusy = true) (hlevel : s.pwr.level ≤ 12) : s.throttleAct = s := by
  refine if_pos (h.imp_right (Or.imp_left fun hp => ?_))
  rw [State.cap]
  omega

theorem State.measureEnd_of_due {s : State} {a : ThrotAct} {rest : List ThrotAct} (hfrom : s.pwr.measFrom ≠ 0)
    (hdue : s.pwr.measFrom + 1000000 ≤ s.time.now + 1) (hacts : s.pwr.acts = a :: rest) (p : Nat) : s.measureEnd p =
      State.throttleAct (State.throttleRecord { s with
        pwr.measFrom := 0
        pwr.power := p
        pwr.acts := { a with drop := a.before - p } :: rest } a.num 1 (a.before - p)) := by
  unfold State.measureEnd
  rw [if_neg (not_or.mpr ⟨hfrom, Nat.not_lt.mpr hdue⟩)]
  dsimp only
  rw [hacts]

section
variable {s : State} (hthrot : s.pwr.throt = false) (hhold : s.pwr.relHold = false) (hat : s.pwr.releaseAt ≤ s.time.now)
  (p : Nat)
include hthrot hhold hat

/-- R667: the level has gone down. -/
theorem State.releaseStep_of_due (hlevel : ¬ (s.pwr.level = 0 ∧ (s.pwr.acts.filter fun x => !x.gone) = [])) :
    s.releaseStep p =
      (let t : State := { s with
         pwr.level := s.pwr.level - 1, pwr.releaseAt := s.time.now + 10000000, pwr.power := p }
       match s.pwr.acts.filter fun x => !x.gone with
       | a :: _ => if p + a.drop ≤ t.cap then t.undo a else t
       | [] => t.unskip) :=
  if_neg (not_or.mpr ⟨ne_true_of_eq_false hthrot, not_or.mpr ⟨ne_true_of_eq_false hhold,
    not_or.mpr ⟨Nat.not_lt.mpr hat, hlevel⟩⟩⟩)

theorem State.releaseStep_of_none (hlevel : 0 < s.pwr.level) (hacts : (s.pwr.acts.filter fun x => !x.gone) = []) :
    s.releaseStep p = State.unskip { s with
      pwr.level := s.pwr.level - 1
      pwr.releaseAt := s.time.now + 10000000
      pwr.power := p } := by
  rw [State.releaseStep_of_due hthrot hhold hat p fun h => hlevel.ne' h.1]
  dsimp only
  rw [hacts]

theorem State.releaseStep_of_action {a : ThrotAct} {rest : List ThrotAct}
    (hacts : (s.pwr.acts.filter fun x => !x.gone) = a :: rest) : s.releaseStep p =
      (let t : State := { s with
         pwr.level := s.pwr.level - 1, pwr.releaseAt := s.time.now + 10000000, pwr.power := p }
       if p + a.drop ≤ 1200 - 100 * (s.pwr.level - 1) then t.undo a else t) := by
  rw [State.releaseStep_of_due hthrot hhold hat p fun h => by rw [hacts] at h; cases h.2]
  dsimp only
  rw [hacts]
  rfl

end

end Sys2Proof.Machine
end

section
/-! PROOFS. The hardware cut, the rails and the rungs of the power ladder (R653 to R656, R663, R709, R730): what mutes the
outputs leaves of the rest, and where a change of rung leads. -/

namespace Sys2Proof.Machine
open Host.Outcome (next)

/-! ### Muting, and what it leaves (R121, R431) -/

/-- The state without its outputs, records and job. -/
def State.offOutputs (s : State) : State :=
  { s with recs := {}, job := {}, outs := {}, bias := {}, sys := { s.sys with bootRecs := [] } }

theorem State.fields_of_offOutputs {s t : State} (h : t.offOutputs = s.offOutputs) :
    t.regs = s.regs ∧ t.place = s.place ∧ t.pwr = s.pwr ∧ t.ram = s.ram
    ∧ t.sys = { s.sys with bootRecs := t.sys.bootRecs } := by
  simp only [State.offOutputs, State.mk.injEq, SysSt.mk.injEq, true_and] at h
  refine ⟨by simp only [h], by simp only [h], by simp only [h], by simp only [h], ?_⟩
  cases hsys : t.sys
  simp only [hsys] at h
  simp only [h]

@[simp] theorem State.offOutputs_post (s : State) (c : Nat) (ring : Ring) (src kind flags : Nat) (st : Stamp)
    (body : List (Nat × Nat × Nat)) : (s.post c ring src kind flags st body).offOutputs = s.offOutputs := by
  rw [State.post_eq, State.post_sys]
  rfl

@[simp] theorem State.outs_post (s : State) (c : Nat) (ring : Ring) (src kind flags : Nat) (st : Stamp)
    (body : List (Nat × Nat × Nat)) : (s.post c ring src kind flags st body).outs = s.outs := by
  rw [State.post_eq]

/-- The outputs' channels, and all that is none of the outputs. -/
def State.chansOff (s : State) : Table Chan × State := (s.outs.chans, s.offOutputs)

theorem State.chansOff_dropPulse (q : Nat) (s : State) (n : Nat) : (State.dropPulse q s n).chansOff = s.chansOff := by
  have hgap (p : Pulse) : (s.gapRecord p).chansOff = s.chansOff := by
    unfold State.gapRecord
    repeat' split
    · simp [State.chansOff]
    all_goals rfl
  unfold State.dropPulse
  split
  · exact hgap _
  · rfl

theorem State.chansOff_silence (s : State) (k : Nat) : (s.silence k).chansOff = s.chansOff := by
  unfold State.silence
  split
  · exact foldl_keeps State.chansOff _ (State.chansOff_dropPulse _) _ s
  · rfl

/-- R121: a channel that a fault mutes. -/
def Chan.muted (cause : Nat) (c : Chan) : Chan :=
  { c with
    st := 2
    switching := false
    virgin := true
    out := 0
    cause := cause
    causes := if c.causes.contains cause then c.causes else cause :: c.causes }

theorem Chan.mem_muted_causes (cause : Nat) (c : Chan) : cause ∈ (c.muted cause).causes := by
  unfold Chan.muted
  split
  · exact List.contains_iff_mem.mp ‹_›
  · exact List.mem_cons_self

theorem State.chansOff_faultMute (s : State) (cause k : Nat) :
    (s.faultMute cause k).chansOff = ((s.silence k).updChan k (Chan.muted cause)).chansOff := by
  unfold State.faultMute State.chansOff
  simp only [State.outs_post, State.offOutputs_post]
  rfl

theorem State.offOutputs_faultMute (s : State) (cause k : Nat) : (s.faultMute cause k).offOutputs = s.offOutputs :=
  (congrArg Prod.snd (s.chansOff_faultMute cause k)).trans (congrArg Prod.snd (s.chansOff_silence k))

theorem State.chan_of_chansOff {s t : State} (h : t.chansOff = s.chansOff) (n : Nat) : t.chan n = s.chan n :=
  congrArg (fun x : Table Chan × State => Table.get ({} : Chan) x.1 n) h

theorem State.faultMute_chan_same (s : State) (cause k : Nat) :
    (s.faultMute cause k).chan k = (s.chan k).muted cause := by
  rw [State.chan_of_chansOff (s.chansOff_faultMute cause k), State.chan_updChan_same,
    State.chan_of_chansOff (s.chansOff_silence k)]

theorem State.faultMute_chan_other {n k : Nat} (h : n ≠ k) (s : State) (cause : Nat) :
    (s.faultMute cause k).chan n = s.chan n := by
  rw [State.chan_of_chansOff (s.chansOff_faultMute cause k), State.chan_updChan_other _ _ _ _ h,
    State.chan_of_chansOff (s.chansOff_silence k)]

/-- What a fold establishes at one element of its list and keeps at every other holds in the end. -/
theorem foldl_reaches {α : Type} (f : State → α → State) (P : State → Prop) {a : α} (hset : ∀ s, P (f s a))
    (hkeep : ∀ s b, P s → P (f s b)) {l : List α} (ha : a ∈ l) (s : State) : P (l.foldl f s) := by
  induction l generalizing s with
  | nil => cases ha
  | cons b l ih =>
    obtain rfl | ha := List.mem_cons.mp ha
    · exact List.foldlRecOn (motive := P) l f (hset s) fun t ht c _ => hkeep t c ht
    · exact ih ha (f s b)

/-- A channel is in FAULT of a cause, at zero. -/
def Chan.inFault (cause : Nat) (c : Chan) : Prop := c.st = 2 ∧ c.out = 0 ∧ c.cause = cause ∧ cause ∈ c.causes

theorem Chan.muted_inFault (cause : Nat) (c : Chan) : (c.muted cause).inFault cause :=
  ⟨rfl, rfl, rfl, c.mem_muted_causes cause⟩

theorem State.foldl_faultMute_inFault (cause : Nat) {l : List Nat} {ch : Nat} (h : ch ∈ l) (s : State) :
    ((l.foldl (fun s k => s.faultMute cause k) s).chan ch).inFault cause := by
  refine foldl_reaches _ (fun t => (t.chan ch).inFault cause) (fun t => ?_) (fun t k ht => ?_) h s
  · rw [State.faultMute_chan_same]
    exact Chan.muted_inFault cause _
  · by_cases hk : ch = k
    · subst hk
      rw [State.faultMute_chan_same]
      exact Chan.muted_inFault cause _
    · rw [State.faultMute_chan_other hk]
      exact ht

theorem State.foldl_faultMute_other (cause : Nat) {l : List Nat} {ch : Nat} (h : ch ∉ l) (s : State) :
    (l.foldl (fun s k => s.faultMute cause k) s).chan ch = s.chan ch :=
  List.foldlRecOn (motive := fun t => t.chan ch = s.chan ch) l _ rfl fun t ht k hk =>
    (State.faultMute_chan_other (fun he => h (by rwa [he])) t cause).trans ht

theorem State.foldl_faultMute_off (cause : Nat) (l : List Nat) (s : State) :
    (l.foldl (fun s k => s.faultMute cause k) s).offOutputs = s.offOutputs :=
  foldl_keeps State.offOutputs _ (fun s k => s.offOutputs_faultMute cause k) l s

theorem State.muteAll_inFault (s : State) (cause : Nat) (ch : Fin 224) : ((s.muteAll cause).chan ch).inFault cause :=
  State.foldl_faultMute_inFault cause (List.mem_range.mpr ch.isLt) s

theorem State.biasSafe_eq (s : State) (k : Nat) : s.biasSafe k = { s with bias := (s.biasSafe k).bias } := by
  unfold State.biasSafe
  dsimp only
  split <;> rfl

theorem State.biasSafe_off (s : State) (k : Nat) :
    (s.biasSafe k).offOutputs = s.offOutputs ∧ (s.biasSafe k).outs = s.outs := by
  rw [State.biasSafe_eq]
  exact ⟨rfl, rfl⟩

theorem State.biasAct_off (s : State) (k cause : Nat) :
    (s.biasAct k cause 2).offOutputs = s.offOutputs ∧ (s.biasAct k cause 2).outs = s.outs := by
  simp only [State.biasAct]
  obtain ⟨hoff, houts⟩ := (s.biasRecord k cause 2 (decide (2 ≠ 0) && s.job.phase == .inShot)).biasSafe_off k
  exact ⟨hoff.trans (State.offOutputs_post ..), houts.trans (State.outs_post ..)⟩

theorem State.offOutputs_allBiasSafe (s : State) (cause : Nat) : (s.allBiasSafe cause).offOutputs = s.offOutputs :=
  foldl_keeps State.offOutputs _ (fun s k => (s.biasAct_off k cause).1) _ s

theorem State.outs_allBiasSafe (s : State) (cause : Nat) : (s.allBiasSafe cause).outs = s.outs :=
  foldl_keeps State.outs _ (fun s k => (s.biasAct_off k cause).2) _ s

/-- A bias output is in SAFE of a cause. -/
def Bias.inSafe (cause : Nat) (b : Bias) : Prop := b.st = 3 ∧ b.wave = none ∧ cause ∈ b.causes

theorem State.allBiasSafe_inSafe (s : State) (cause : Nat) (k : Fin 256) :
    ((s.allBiasSafe cause).biasOut k).inSafe cause := by
  refine foldl_reaches (fun s k => s.biasAct k cause 2) (fun t => (t.biasOut k).inSafe cause)
    (fun t => t.biasAct_safe_same k cause) (fun t j ht => ?_) (List.mem_range.mpr k.isLt) s
  by_cases hj : k.val = j
  · rw [← hj]
    exact t.biasAct_safe_same k cause
  · rw [State.biasAct_safe_other t cause hj]
    exact ht

/-! ### The hardware cut (R663) -/

theorem State.modeSync_eq (s : State) : s.modeSync = { s with recs := s.modeSync.recs, sys := s.modeSync.sys } := by
  unfold State.modeSync
  extract_lets was now sys shown
  split
  · rfl
  split
  · rfl
  · have hpost := shown.post_eq shown.home .event 1008 0xA0 0 shown.nowStamp (shown.modeBody was now)
    rw [State.post_job _ _ _ _ _ _ _ _ (by decide)] at hpost
    exact hpost.trans rfl

/-- R663: the record that the cut holds until the reset. -/
def State.cutRecord (s : State) (tile : Nat) : Held :=
  { ctx := s.home, ring := .event, src := 955, kind := 0x86, flags := 8 + s.timeFlags,
    stamp := s.nowStamp, body := BitVec.ofNat 96 tile }

theorem State.hardwareCut_of_uncut {s : State} (h : s.pwr.cut = false) (tile : Nat) :
    s.hardwareCut tile = ((s.muteAll 4).allBiasSafe 5).cutOff (s.cutRecord tile) :=
  if_neg (ne_true_of_eq_false h)

/-- R663: every output is muted, with cause 4, and every bias output in SAFE, with cause 5. -/
def State.allOff (s : State) : State := (s.muteAll 4).allBiasSafe 5

theorem State.allOff_off (s : State) : s.allOff.offOutputs = s.offOutputs :=
  ((s.muteAll 4).offOutputs_allBiasSafe 5).trans (State.foldl_faultMute_off 4 _ s)

theorem State.allOff_chan (s : State) (ch : Fin 224) : (s.allOff.chan ch).inFault 4 := by
  have hchan : s.allOff.chan ch = (s.muteAll 4).chan ch := by
    rw [State.chan, State.allOff, State.outs_allBiasSafe]
    rfl
  rw [hchan]
  exact s.muteAll_inFault 4 ch

theorem State.allOff_biasOut (s : State) (k : Fin 256) : (s.allOff.biasOut k).inSafe 5 :=
  (s.muteAll 4).allBiasSafe_inSafe 5 k

theorem State.cutOff_chan (s : State) (h : Held) (n : Nat) : (s.cutOff h).chan n = s.chan n := rfl

theorem State.cutOff_biasOut (s : State) (h : Held) (n : Nat) : (s.cutOff h).biasOut n = s.biasOut n := rfl

theorem exec_hardwareCut_eq {s : State} (h : s.pwr.cut = false) (n : Fin 17) : ∃ recs sys,
    exec (.hardwareCut n) s = next { s.allOff.cutOff (s.cutRecord n) with recs := recs, sys := sys } := by
  have hcut : s.hardwareCut n = s.allOff.cutOff (s.cutRecord n) := State.hardwareCut_of_uncut h n
  rw [← hcut]
  exact ⟨_, _, congrArg next (s.hardwareCut n).modeSync_eq⟩

/-- R663: what the cut at a tile leaves of a state. -/
def State.cutAt (s : State) (n : Nat) (t : State) : Prop :=
  t.pwr.cut = true ∧ t.pwr.clocksOff = true ∧ t.job = {} ∧ t.sq = {} ∧ t.ctxs = [] ∧ t.host.reads = [] ∧ t.place.build = none
  ∧ t.place.lasts = s.place.lasts ∧ t.ram = s.ram ∧ t.regs = s.regs
  ∧ (∃ h : Held, t.pwr.cutRec = some h ∧ h.src = 955 ∧ h.kind = 0x86 ∧ h.stamp = s.nowStamp ∧ h.body = BitVec.ofNat 96 n)
  ∧ (∀ ch : Fin 224, (t.chan ch).st = 2 ∧ (t.chan ch).out = 0 ∧ 4 ∈ (t.chan ch).causes)
  ∧ (∀ k : Fin 256, (t.biasOut k).st = 3 ∧ (t.biasOut k).wave = none ∧ 5 ∈ (t.biasOut k).causes)

theorem State.cutOff_cutAt {s off : State} (hregs : off.regs = s.regs) (hplace : off.place = s.place)
    (hram : off.ram = s.ram) (hchan : ∀ ch : Fin 224, (off.chan ch).inFault 4)
    (hbias : ∀ k : Fin 256, (off.biasOut k).inSafe 5) (n : Nat) (recs : RecSt) (sys : SysSt) :
    s.cutAt n { off.cutOff (s.cutRecord n) with recs := recs, sys := sys } := by
  have hlasts : off.place.lasts = s.place.lasts := congrArg PlaceSt.lasts hplace
  refine ⟨rfl, rfl, rfl, rfl, rfl, rfl, rfl, hlasts, hram, hregs,
    ⟨s.cutRecord n, rfl, rfl, rfl, rfl, rfl⟩, fun ch => ?_, hbias⟩
  obtain ⟨hst, hout, -, hcause⟩ := hchan ch
  exact ⟨hst, hout, hcause⟩

theorem exec_hardwareCut_of_uncut {s : State} (h : s.pwr.cut = false) (n : Fin 17) :
    ∃ t : State, exec (.hardwareCut n) s = next t ∧ s.cutAt n t := by
  obtain ⟨hregs, hplace, -, hram, -⟩ := State.fields_of_offOutputs s.allOff_off
  obtain ⟨recs, sys, hexec⟩ := exec_hardwareCut_eq h n
  exact ⟨_, hexec, State.cutOff_cutAt hregs hplace hram s.allOff_chan s.allOff_biasOut n recs sys⟩

/-! ### Rails (R709, R730) -/

theorem State.coreRail_of_low {s : State} {rail : Nat} (h : s.pwr.rails.contains rail = true) (mv : Nat) :
    s.coreRail rail mv = s :=
  if_pos h

theorem State.supplyRecord_eq (s : State) (rail : Nat) (on : Bool) (mv : Nat) :
    s.supplyRecord rail on mv = { s with
      recs := (s.supplyRecord rail on mv).recs, sys := (s.supplyRecord rail on mv).sys } :=
  s.postCoarse_eq ..

theorem State.orderlyStop_latch (s : State) (cause unit : Nat) :
    (s.orderlyStop cause unit).sys.safe = (if s.sys.safe = 0 then cause else s.sys.safe)
    ∧ (s.orderlyStop cause unit).pwr.stop =
      (if s.sys.safe = 0 then some { cause := cause, unit := unit, t0 := s.time.now } else s.pwr.stop)
    ∧ (s.orderlyStop cause unit).pwr.rails = s.pwr.rails ∧ (s.orderlyStop cause unit).job = s.job
    ∧ (s.orderlyStop cause unit).regs = s.regs := by
  by_cases h : s.sys.safe = 0
  · rw [State.orderlyStop_of_safe_zero h, if_pos h, if_pos h]
    exact ⟨rfl, rfl, rfl, rfl, rfl⟩
  · rw [if_neg h, if_neg h, State.orderlyStop, if_pos h]
    exact ⟨rfl, rfl, rfl, rfl, rfl⟩

theorem exec_coreRailLow_of_good {r : Fin 3} {s : State} (h : s.pwr.rails.contains r.val = false) (mv : BitVec 16) :
    ∃ t : State, exec (.coreRailLow r mv) s = next t
      ∧ t.pwr.rails = r.val :: s.pwr.rails ∧ t.sys.safe = (if s.sys.safe = 0 then 3 else s.sys.safe)
      ∧ t.pwr.stop = (if s.sys.safe = 0 then some { cause := 3, unit := r, t0 := s.time.now } else s.pwr.stop)
      ∧ t.ram = s.ram ∧ t.job = s.job ∧ t.regs = s.regs := by
  have hlow : s.coreRail r.val mv.toNat =
      (({ s with pwr.rails := r.val :: s.pwr.rails } : State).supplyRecord r.val true mv.toNat).orderlyStop 3 r.val :=
    if_neg (ne_true_of_eq_false h)
  have hrecord := ({ s with pwr.rails := r.val :: s.pwr.rails } : State).supplyRecord_eq r.val true mv.toNat
  have hsafe : (({ s with pwr.rails := r.val :: s.pwr.rails } : State).supplyRecord r.val true mv.toNat).sys.safe =
      s.sys.safe := by
    simp
  obtain ⟨lsafe, lstop, lrails, ljob, lregs⟩ :=
    (({ s with pwr.rails := r.val :: s.pwr.rails } : State).supplyRecord r.val true mv.toNat).orderlyStop_latch 3 r.val
  rw [← hlow, hsafe] at lsafe lstop
  rw [← hlow, hrecord] at lrails ljob lregs
  refine ⟨(s.coreRail r.val mv.toNat).modeSync, rfl, ?_⟩
  obtain ⟨-, -, hjob, hpwr, -, -, hregs, -⟩ := (s.coreRail r.val mv.toNat).modeSync_work
  rw [hjob, hpwr, hregs, lstop, hrecord]
  exact ⟨lrails, by simp [lsafe], rfl, by simp, ljob, lregs⟩

theorem mem_quarterOuts (q : Fin 4) (ch : Fin 224) : ch.val ∈ quarterOuts q ↔
    (ch.val < 160 ∧ ch.val / 40 = q.val ∨ 160 ≤ ch.val ∧ (ch.val - 160) / 16 = q.val) := by
  simp only [quarterOuts, List.mem_append, List.mem_map, List.mem_range]
  constructor
  · rintro (⟨a, ha, he⟩ | ⟨a, ha, he⟩)
    · exact .inl (by omega)
    · exact .inr (by omega)
  · rintro (⟨hlt, hq⟩ | ⟨hle, hq⟩)
    · exact .inl ⟨ch.val - q.val * 40, by omega, by omega⟩
    · exact .inr ⟨ch.val - 160 - q.val * 16, by omega, by omega⟩

theorem exec_rfRailFault_of_good {q : Fin 4} {s : State} (h : s.pwr.rails.contains (4 + q.val) = false) :
    ∃ t : State, exec (.rfRailFault q) s = next t ∧ t.pwr.rails = (4 + q.val) :: s.pwr.rails
      ∧ (∀ ch : Fin 224, (ch.val < 160 ∧ ch.val / 40 = q.val ∨ 160 ≤ ch.val ∧ (ch.val - 160) / 16 = q.val) →
          (t.chan ch).st = 2 ∧ (t.chan ch).out = 0 ∧ (t.chan ch).cause = 5 ∧ 5 ∈ (t.chan ch).causes)
      ∧ (∀ ch : Fin 224, ¬ (ch.val < 160 ∧ ch.val / 40 = q.val ∨ 160 ≤ ch.val ∧ (ch.val - 160) / 16 = q.val) → t.chan ch = s.chan ch)
      ∧ t.ram = s.ram ∧ t.sys = { s.sys with bootRecs := t.sys.bootRecs } ∧ t.regs = s.regs := by
  refine ⟨_, congrArg next (if_neg (ne_true_of_eq_false h)), ?_⟩
  obtain ⟨hregs, -, hpwr, hram, hsys⟩ := State.fields_of_offOutputs (State.foldl_faultMute_off 5 (quarterOuts q)
    { s with pwr.rails := (4 + q.val) :: s.pwr.rails, pwr.recovered := s.pwr.recovered.filter (· ≠ q.val) })
  refine ⟨congrArg PwrSt.rails hpwr, fun ch hch => ?_, fun ch hch => ?_, hram, hsys, hregs⟩
  · exact State.foldl_faultMute_inFault 5 ((mem_quarterOuts q ch).mpr hch) _
  · exact State.foldl_faultMute_other 5 (fun hmem => hch ((mem_quarterOuts q ch).mp hmem)) _

theorem State.railRecover_of_good {s : State} {rail : Nat} (h : s.pwr.rails.contains rail = false) (mv : Nat) :
    s.railRecover rail mv = s :=
  if_neg (ne_true_of_eq_false h)

theorem State.railRecover_of_low {s : State} {rail : Nat} (h : s.pwr.rails.contains rail = true) (mv : Nat) :
    s.railRecover rail mv =
      (let t : State := { s with pwr.rails := s.pwr.rails.filter (· ≠ rail) }
       if rail < 3 then t.supplyRecord rail false mv
       else if rail = 8 then t.allBiasClear 6
       else if s.job.phase = .idle then State.recoverRf { t with pwr.recovered := (rail - 4) :: s.pwr.recovered }
       else { t with pwr.recovered := (rail - 4) :: s.pwr.recovered }) :=
  (if_pos h).trans (if_congr Iff.rfl rfl (if_congr Iff.rfl rfl (if_congr beq_iff_eq rfl rfl)))

theorem State.vbiasIn_of_down {s : State} (h : s.vbiasUp = false) : s.vbiasIn =
    (let t : State := { s with pwr.vbiasFrom := s.time.now + 1 }
     if s.sys.ready = true ∨ 7 ∈ s.sys.steps then t.biasUp else t) := by
  have hiff : (s.sys.ready || s.sys.steps.contains 7) = true ↔ s.sys.ready = true ∨ 7 ∈ s.sys.steps := by
    simp
  exact (if_neg (ne_true_of_eq_false h)).trans (if_congr hiff rfl rfl)

/-! ### A request for a rung (R654) -/

/-- R654: a rung is noted as requested. -/
def State.requested (s : State) (r : Nat) : State := { s.wr Reg.PWR_CTL.RUNG [] r with pwr.rungReq := some r }

/-- R458: the record of a rung that the clamp changes. -/
def State.rungClamped (s : State) (r c : Nat) : State :=
  if c = r then s else s.logClamp s.home (fieldId 0 Reg.PWR_CTL.RUNG []) 0 r c s.coarseStamp true

theorem State.rungRequest_eq (s : State) (v : Nat) : s.rungRequest v =
    (s.rungClamped (bitsOf v 2 0) (min (bitsOf v 2 0) 4)).requested (min (bitsOf v 2 0) 4) := rfl

theorem State.rungRequest_of_rung {v : Nat} (h : bitsOf v 2 0 ≤ 4) (s : State) :
    s.rungRequest v = s.requested (bitsOf v 2 0) := by
  rw [State.rungRequest_eq, Nat.min_eq_left h, State.rungClamped, if_pos rfl]

theorem State.rungRequest_of_above {v : Nat} (h : 4 < bitsOf v 2 0) (s : State) :
    s.rungRequest v = (s.rungClamped (bitsOf v 2 0) 4).requested 4 := by
  rw [State.rungRequest_eq, Nat.min_eq_right h.le]

theorem State.rungClamped_work (s : State) (r c : Nat) :
    (s.rungClamped r c).pwr = s.pwr ∧ (s.rungClamped r c).job = s.job := by
  unfold State.rungClamped State.logClamp
  split
  · exact ⟨rfl, rfl⟩
  · rw [State.post_eq, State.post_job _ _ _ _ _ _ _ _ (by decide)]
    exact ⟨rfl, rfl⟩

theorem exec_rungRequest_of_up {s : State} (h : s.ladderUp = true) (v : Word) :
    exec (.rungRequest v) s = next (s.rungRequest v.toNat) :=
  congrArg next (if_pos h)

theorem exec_rungRequest_of_above {v : Word} {s : State} (h : s.ladderUp = true) (hv : 4 < bitsOf v.toNat 2 0) :
    ∃ t : State, exec (.rungRequest v) s = next t
      ∧ t.pwr.rungReq = some 4 ∧ t.pwr.rung = s.pwr.rung ∧ t.job = s.job ∧ t.ram = s.ram := by
  obtain ⟨hpwr, hjob⟩ := s.rungClamped_work (bitsOf v.toNat 2 0) 4
  have hram : (s.rungRequest v.toNat).ram = s.ram := by simp
  rw [State.rungRequest_of_above hv] at hram
  refine ⟨_, (exec_rungRequest_of_up h v).trans (congrArg next (State.rungRequest_of_above hv s)), ?_⟩
  generalize s.rungClamped (bitsOf v.toNat 2 0) 4 = clamped at *
  have hrung : clamped.pwr.rung = s.pwr.rung := congrArg PwrSt.rung hpwr
  exact ⟨rfl, hrung, hjob, hram⟩

/-! ### A change of rung (R653 to R656) -/

theorem State.rungChange_of_awake {s : State} (h : s.pwr.toDeep = false) : s.rungChange =
    if s.job.phase ≠ .idle ∨ s.job.work = true ∨ s.pwr.stop.isSome = true ∨ s.sys.boot = true then s
    else match s.rungDue.or s.wakeDue with
      | none => s
      | some (dst, cause) =>
        let s := if cause = 0 then { s with pwr.rungReq := none } else s
        if s.pwr.rung = 4 then s.leaveDeep dst
        else if dst < s.pwr.rung then s.startRise dst cause
        else if dst = 4 then s.startDeep
        else s.enterRung dst cause :=
  if_neg (ne_true_of_eq_false h)

theorem State.rungChange_of_not {s : State} (hdeep : s.pwr.toDeep = false) (h : s.job.phase ≠ .idle ∨ s.job.work = true
    ∨ s.pwr.stop ≠ none ∨ s.sys.boot = true ∨ (s.rungDue = none ∧ s.wakeDue = none)) : s.rungChange = s := by
  rw [State.rungChange_of_awake hdeep]
  split
  · rfl
  · next hopen =>
    obtain ⟨hphase, hwork, hstop, hboot⟩ : s.job.phase = .idle ∧ s.job.work = false ∧ s.pwr.stop = none ∧ s.sys.boot = false := by
      simpa using hopen
    obtain ⟨hdue, hwake⟩ : s.rungDue = none ∧ s.wakeDue = none := by
      simpa [hphase, hwork, hstop, hboot] using h
    rw [hdue, hwake]
    rfl

section
variable {s : State} (hdeep : s.pwr.toDeep = false) (hphase : s.job.phase = .idle) (hwork : s.job.work = false)
  (hstop : s.pwr.stop = none) (hboot : s.sys.boot = false)
include hdeep hphase hwork hstop hboot

theorem State.rungChange_of_open : s.rungChange =
    match s.rungDue.or s.wakeDue with
    | none => s
    | some (dst, cause) =>
      let s := if cause = 0 then { s with pwr.rungReq := none } else s
      if s.pwr.rung = 4 then s.leaveDeep dst
      else if dst < s.pwr.rung then s.startRise dst cause
      else if dst = 4 then s.startDeep
      else s.enterRung dst cause :=
  (State.rungChange_of_awake hdeep).trans (if_neg (by simp [hphase, hwork, hstop, hboot]))

theorem State.rungChange_of_due {r : Nat} (hdue : s.rungDue = some (r, 0)) : s.rungChange =
    (let t : State := { s with pwr.rungReq := none }
     if s.pwr.rung = 4 then t.leaveDeep r
     else if r < s.pwr.rung then
       { t with job.work := true, job.workRung := true, pwr.toRung := some (r, 0), pwr.rungFrom := s.time.now }
     else if r = 4 then t.startDeep
     else t.enterRung r 0) := by
  rw [State.rungChange_of_open hdeep hphase hwork hstop hboot, hdue]
  rfl

theorem State.rungChange_of_lower {r : Nat} (hdue : s.rungDue = some (r, 0)) (hlt : s.pwr.rung < r)
    (hrung : s.pwr.rung ≠ 4) (hr : r ≠ 4) :
    s.rungChange = State.enterRung { s with pwr.rungReq := none } r 0 := by
  rw [State.rungChange_of_due hdeep hphase hwork hstop hboot hdue]
  exact (if_neg hrung).trans ((if_neg (Nat.not_lt.mpr hlt.le)).trans (if_neg hr))

theorem State.rungChange_of_wake (hdue : s.rungDue = none) (hwake : s.wakeDue = some (0, 1)) (hrung : s.pwr.rung ≠ 4) :
    s.rungChange = s.startRise 0 1 := by
  have hpos : 0 < s.pwr.rung := by
    rw [State.wakeDue] at hwake
    split at hwake
    · next h => exact h.1
    · cases hwake
  rw [State.rungChange_of_open hdeep hphase hwork hstop hboot, hdue, hwake]
  exact (if_neg hrung).trans (if_pos hpos)

end

theorem State.enterRung_rung (s : State) (r c : Nat) : (s.enterRung r c).pwr.rung = r := by
  unfold State.enterRung State.rungRecord
  extract_lets from_ held rested slept
  rw [(State.postCoarse_work ..).2.2.2.1]

/-- R656: every bias output is on its way to its safe value. -/
def State.allRamped (s : State) : State := (List.range 256).foldl (fun s k => s.biasSafe k) s

theorem State.pwr_allRamped (s : State) : s.allRamped.pwr = s.pwr :=
  foldl_keeps State.pwr (fun s k => s.biasSafe k) (fun s k => by rw [State.biasSafe_eq]) _ s

theorem State.startDeep_eq (s : State) : s.startDeep =
    { s.allRamped with pwr.toDeep := true, pwr.rungFrom := s.allRamped.time.now } := rfl

theorem State.startDeep_rung (s : State) : s.startDeep.pwr.toDeep = true ∧ s.startDeep.pwr.rung = s.pwr.rung := by
  rw [State.startDeep_eq, ← s.pwr_allRamped]
  exact ⟨rfl, rfl⟩

/-! ### Into Deep (R653, R656) -/

theorem State.time_fire (s : State) (src : Nat) : (s.fire src).time = s.time := by
  rw [State.fire_eq]

theorem State.time_writeStatus (s : State) (c : Nat) : (s.writeStatus c).time = s.time := rfl

theorem State.time_noteStamp_ite (s : State) (b : Bool) (st : Stamp) :
    (if b then s.noteStamp st else s).time = s.time := by
  cases b <;> rfl

theorem State.time_numberAndPost (s : State) (h : Held) : (s.numberAndPost h).time = s.time := by
  by_cases hsilent : (h.ofJob && s.job.silent) = true
  · rw [State.numberAndPost_of_silent hsilent]
    rfl
  have hs : (h.ofJob && s.job.silent) = false := Bool.eq_false_of_not_eq_true hsilent
  by_cases hfull : (s.ringState h).1 = 0 ∨ ((s.ringState h).2.1 + 1) % (s.ringState h).1 = (s.ringState h).2.2
  · rw [State.numberAndPost_of_full hs hfull, State.loseRecord_eq, State.time_fire, State.time_fire]
    cases h.ofJob <;> rfl
  · obtain ⟨hsize, hroom⟩ := not_or.mp hfull
    rw [State.numberAndPost_of_room hs hsize hroom, State.time_fire, State.time_writeStatus, State.time_noteStamp_ite]
    rfl

theorem State.time_releaseAll (p : Held → Bool) (n : Nat) (s : State) : (State.releaseAll p n s).time = s.time := by
  induction n generalizing s with
  | zero => rfl
  | succ n ih =>
    rw [State.releaseAll]
    split
    · rfl
    · rw [ih, State.time_numberAndPost]
      rfl

theorem State.rungChange_of_ramping {s : State} (hdeep : s.pwr.toDeep = true)
    (h : s.biasStill = false ∨ s.pwr.stop ≠ none) : s.rungChange = s := by
  refine (if_pos hdeep).trans (if_neg ?_)
  cases hstop : s.pwr.stop with
  | none => simpa [hstop] using h
  | some p => simp

/-- R653: the records held have been posted. -/
def State.posted (s : State) : State := State.releaseAll (fun _ => true) s.recs.held.length s

/-- R653: what Deep keeps of a state whose records are posted. -/
def State.deepOf (s : State) : State :=
  let t := s.dropVolatile true
  let outs := s.bias.outs.map fun e => (e.1, ({ code := e.2.code, range := e.2.range } : Bias))
  { t with
    time := { s.time with holding := false, holdLeft := 0, holdLen := 0, snap := {}, hznNext := 0 }
    bias.outs := outs
    sec.marks := []
    sys := { s.sys with boot := false, ready := false, bootRecs := [] }
    pwr := { s.pwr with toDeep := false, rung := 4, acts := [], measFrom := 0 }
    regs.direct := Table.set (resetWord .PWR_CTL []) [] (regAddr .PWR_CTL []) (s.word .PWR_CTL []) }

theorem State.enterDeep_eq (s : State) : s.enterDeep = s.posted.deepOf := rfl

theorem State.deepOf_spec (s : State) : s.deepOf.pwr.rung = 4 ∧ s.deepOf.pwr.toDeep = false ∧ s.deepOf.sys.ready = false
    ∧ s.deepOf.ram = [] ∧ s.deepOf.ctxs = [] ∧ s.deepOf.job = {} ∧ s.deepOf.time.dev = s.time.dev
    ∧ s.deepOf.time.now = s.time.now ∧ s.deepOf.pending = s.pending :=
  ⟨rfl, rfl, rfl, rfl, rfl, rfl, rfl, rfl, rfl⟩

theorem exec_rungChange_of_still {s : State} (hdeep : s.pwr.toDeep = true) (hstill : s.biasStill = true)
    (hstop : s.pwr.stop = none) : ∃ t : State, exec .rungChange s = next t.modeSync
      ∧ t.pwr.rung = 4 ∧ t.pwr.toDeep = false ∧ t.sys.ready = false ∧ t.ram = [] ∧ t.ctxs = [] ∧ t.job = {} ∧ t.time.dev = s.time.dev
      ∧ t.time.now = s.time.now ∧ t.pending = s.pending := by
  have hchange : s.rungChange =
      (s.rungRecord s.pwr.rung 4 0 ((s.time.now - s.pwr.rungFrom) / 1000)).posted.deepOf := by
    rw [State.rungChange, if_pos hdeep, if_pos (by rw [hstill, hstop]; rfl), State.enterDeep_eq]
  have htime : (s.rungRecord s.pwr.rung 4 0 ((s.time.now - s.pwr.rungFrom) / 1000)).posted.time = s.time := by
    rw [State.posted, State.time_releaseAll, State.rungRecord, State.postCoarse_eq]
  have hpending : (s.rungRecord s.pwr.rung 4 0 ((s.time.now - s.pwr.rungFrom) / 1000)).posted.pending = s.pending := by
    simp [State.posted]
  obtain ⟨hrung, hdeep', hready, hram, hctxs, hjob, hdev, hnow, hpend⟩ :=
    (s.rungRecord s.pwr.rung 4 0 ((s.time.now - s.pwr.rungFrom) / 1000)).posted.deepOf_spec
  rw [htime] at hdev hnow
  exact ⟨_, congrArg State.done hchange, hrung, hdeep', hready, hram, hctxs, hjob, hdev, hnow, hpend.trans hpending⟩

/-- Settles O57: the sensors and throttling, then the cut, the rails and the ladder. -/
theorem sensorsThrottlingRailsAndRungs : Obligations.SensorsThrottlingRailsAndRungs :=
  ⟨fun _ _ _ h => congrArg State.done (if_neg (ne_true_of_eq_false h)),
   fun _ _ => rfl,
   fun _ raw _ h => exec_sensorSample_takes h raw,
   fun _ _ _ => exec_sensorSample_shuts,
   -- throttling
   fun p _ h => congrArg State.done (State.throttleRise_of_not h p.toNat),
   fun _ _ hthrot hrise => congrArg State.done (if_pos ⟨hthrot, hrise⟩),
   fun _ => State.throttleAct_of_not,
   fun _ _ h => congrArg State.done (if_pos h),
   fun p _ _ _ hfrom hdue hacts => congrArg State.done (State.measureEnd_of_due hfrom hdue hacts p.toNat),
   fun _ _ h => congrArg next (if_pos h),
   fun p _ hthrot hhold hat hlevel hacts => congrArg next (State.releaseStep_of_none hthrot hhold hat p.toNat hlevel hacts),
   fun p _ _ _ hthrot hhold hat hacts => congrArg next (State.releaseStep_of_action hthrot hhold hat p.toNat hacts),
   fun _ => rfl,
   -- the hardware cut and the rails
   fun n _ h => congrArg State.done (State.hardwareCut_of_cut _ n h),
   fun n _ h => exec_hardwareCut_of_uncut h n,
   fun _ mv _ h => congrArg State.done (State.coreRail_of_low h mv.toNat),
   fun _ mv _ h => exec_coreRailLow_of_good h mv,
   fun _ _ h => congrArg next (if_pos h),
   fun _ _ => exec_rfRailFault_of_good,
   fun _ => rfl,
   fun _ mv _ h => congrArg next (State.railRecover_of_good h mv.toNat),
   fun _ mv _ h => congrArg next (State.railRecover_of_low h mv.toNat),
   fun _ h => congrArg next (if_pos h),
   fun _ h => congrArg next (State.vbiasIn_of_down h),
   -- the ladder
   fun v s h hv => (exec_rungRequest_of_up h v).trans (congrArg next (s.rungRequest_of_rung hv)),
   fun _ _ => exec_rungRequest_of_above,
   fun _ _ h => congrArg next (if_neg (ne_true_of_eq_false h)),
   fun _ hdeep h => congrArg State.done (State.rungChange_of_not hdeep h),
   fun _ _ hdeep hphase hwork hstop hboot hdue =>
     congrArg State.done (State.rungChange_of_due hdeep hphase hwork hstop hboot hdue),
   State.enterRung_rung,
   State.startDeep_rung,
   fun _ hdeep h => congrArg State.done (State.rungChange_of_ramping hdeep h),
   fun _ => exec_rungChange_of_still,
   -- the same operations where their conditions hold
   fun _ hhold hto => congrArg next (if_pos ⟨hhold, hto⟩),
   fun _ hwatched hrail => congrArg next (if_pos ⟨hwatched, hrail⟩),
   fun _ _ hdeep hphase hwork hstop hboot hdue hlt hrung hr =>
     congrArg State.done (State.rungChange_of_lower hdeep hphase hwork hstop hboot hdue hlt hrung hr),
   fun _ hdeep hphase hwork hstop hboot hdue hwake hrung =>
     congrArg State.done (State.rungChange_of_wake hdeep hphase hwork hstop hboot hdue hwake hrung)⟩

end Sys2Proof.Machine
end

section
/-! PROOFS. The steps of boot (R733, R737): when one takes its effect, and what that is. -/

namespace Sys2Proof.Machine
open Host.Outcome (next)

/-! ### What records leave alone in boot -/

theorem State.steps_post (s : State) (c : Nat) (ring : Ring) (src kind flags : Nat) (st : Stamp)
    (body : List (Nat × Nat × Nat)) : (s.post c ring src kind flags st body).sys.steps = s.sys.steps := by
  rw [State.post_sys]

theorem State.steps_postCoarse (s : State) (c src kind flags : Nat) (body : List (Nat × Nat × Nat)) :
    (s.postCoarse c src kind flags body).sys.steps = s.sys.steps :=
  State.steps_post ..

theorem State.steps_orderlyStop (s : State) (cause unit : Nat) : (s.orderlyStop cause unit).sys.steps = s.sys.steps := by
  unfold State.orderlyStop
  split <;> rfl

/-! ### BOOT_STEP_END (R733, R737) -/

theorem State.stepDone_iff (s : State) (n : Nat) : s.stepDone n = true ↔ n ∈ s.sys.steps := List.contains_iff_mem

theorem State.bootStep_of_not {s : State} {b : BootStep} (h : s.sys.boot = false ∨ s.sys.porHeld = true
    ∨ bootStepNo b ∈ s.sys.steps ∨ s.stepReady b = false) : s.bootStep b = s := by
  refine if_neg fun hdue => ?_
  simp only [Bool.and_eq_true, Bool.not_eq_true', ← Bool.not_eq_true, State.stepDone_iff] at hdue
  obtain ⟨⟨⟨hboot, hpor⟩, hdone⟩, hready⟩ := hdue
  rcases h with h | h | h | h
  · exact absurd hboot (by simp [h])
  · exact hpor h
  · exact hdone h
  · exact absurd hready (by simp [h])

theorem State.bootStep_of_due {s : State} {b : BootStep} (hboot : s.sys.boot = true) (hpor : s.sys.porHeld = false)
    (hdone : ¬ bootStepNo b ∈ s.sys.steps) (hready : s.stepReady b = true) : s.bootStep b =
      { s.stepEffect b with sys.steps := (s.stepEffect b).sys.steps ++ [bootStepNo b] } := by
  refine if_pos ?_
  rw [← State.stepDone_iff, Bool.not_eq_true] at hdone
  simp [hboot, hpor, hdone, hready]

/-! ### The cobblers' steps (R618, R733) -/

theorem State.patchBoot_sys (s : State) (ok : Nat → Bool) : (s.patchBoot ok).sys = s.sys := rfl

theorem State.patchBoot_version (s : State) (ok : Nat → Bool) : (s.patchBoot ok).eng.version =
    (s.eng.version.set! 0 (s.patchLoad ok).2.2.1).set! 1 (s.patchLoad ok).2.2.1 := rfl

theorem State.patchBoot_result (s : State) (ok : Nat → Bool) : (s.patchBoot ok).eng.result = (s.patchLoad ok).1 := rfl

theorem State.patchLoad_none (s : State) : (s.patchLoad fun _ => false).1 = 2 := by
  have hnone : s.patchOrder.find? (fun _ => false) = none := List.find?_eq_none.mpr fun _ _ => Bool.false_ne_true
  rw [State.patchLoad, hnone]

theorem State.bootPatch_of_error {s : State} (h : s.sec.err = true) (a b : Bool) : s.bootPatch a b =
    { s.patchBoot fun _ => false with eng.tried := 0, eng.st := #v[0, 1], eng.active := 0 } := by
  simp [State.bootPatch, h]

theorem State.bootPatch_of_tested {s : State} (h : s.sec.err = false) (a b : Bool) : s.bootPatch a b =
    { s.patchBoot fun n => if n = 0 then a else b with eng.st := #v[0, 1], eng.active := 0 } := by
  simp [State.bootPatch, h]

theorem State.bootPatch_steps (s : State) (a b : Bool) : (s.bootPatch a b).sys = s.sys := by
  cases h : s.sec.err with
  | false =>
    simp [State.bootPatch_of_tested h, State.patchBoot_sys]
  | true =>
    simp [State.bootPatch_of_error h, State.patchBoot_sys]

theorem State.bootPatch_spec (a b : Bool) (s : State) : (s.bootPatch a b).eng.st = #v[0, 1]
    ∧ (s.bootPatch a b).eng.active = 0
    ∧ (s.sec.err = false → (s.bootPatch a b).eng.version =
        (s.eng.version.set! 0 (s.patchLoad fun n => if n = 0 then a else b).2.2.1).set! 1
          (s.patchLoad fun n => if n = 0 then a else b).2.2.1)
    ∧ (s.sec.err = true → (s.bootPatch a b).eng.result = 2 ∧ (s.bootPatch a b).eng.tried = 0) := by
  refine ⟨rfl, rfl, fun h => ?_, fun h => ?_⟩
  · simp only [State.bootPatch_of_tested h, State.patchBoot_version]
  · simp only [State.bootPatch_of_error h, State.patchBoot_result, State.patchLoad_none, and_self]

theorem State.bootSelftest_of_pass (s : State) (n : Nat) : s.bootSelftest n true = s := rfl

/-- R733: cobbler n has failed its self-test. -/
def State.bootFailed (s : State) (n : Nat) : State := (s.setCobbler n 2).cobblerRecord n 2 0

theorem State.bootFailed_eng (s : State) (n : Nat) : (s.bootFailed n).eng = { s.eng with st := s.eng.st.set! n 2 } := by
  simp [State.bootFailed]

theorem State.bootFailed_steps (s : State) (n : Nat) : (s.bootFailed n).sys.steps = s.sys.steps :=
  State.steps_postCoarse ..

theorem State.bootSelftest_of_fail (s : State) (n : Nat) : s.bootSelftest n false =
    if n = 0 ∧ (s.bootFailed n).eng.st[1] = 1 then { (s.bootFailed n).setCobbler 1 0 with eng.active := 1 }
    else s.bootFailed n := rfl

theorem State.bootSelftest_steps (s : State) (n : Nat) (pass : Bool) :
    (s.bootSelftest n pass).sys.steps = s.sys.steps := by
  cases pass with
  | true => rw [State.bootSelftest_of_pass]
  | false =>
    rw [State.bootSelftest_of_fail]
    split
    · exact s.bootFailed_steps n
    · exact s.bootFailed_steps n

theorem State.bootSelftest_spec {s : State} (h : s.eng.st = #v[0, 1]) :
    (s.bootSelftest 0 false).eng.st = #v[2, 0] ∧ (s.bootSelftest 0 false).eng.active = 1
    ∧ (s.bootSelftest 1 false).eng.st = #v[0, 2] ∧ (s.bootSelftest 1 false).eng.active = s.eng.active := by
  have h0 : (s.bootFailed 0).eng.st = #v[2, 1] := by rw [State.bootFailed_eng, h]; rfl
  have h1 : (s.bootFailed 1).eng.st = #v[0, 2] := by rw [State.bootFailed_eng, h]; rfl
  rw [State.bootSelftest_of_fail s 0, State.bootSelftest_of_fail s 1, if_pos ⟨rfl, by rw [h0]; rfl⟩,
    if_neg fun hn => absurd hn.1 (by decide)]
  refine ⟨?_, rfl, h1, by rw [State.bootFailed_eng]⟩
  change (s.bootFailed 0).eng.st.set! 1 0 = #v[2, 0]
  rw [h0]
  rfl

/-! ### The NV read (R436, R547, R646) -/

/-- What the NV read leaves as it was, once the taps are read. -/
def State.sysCal (s : State) : SysSt × CalSt := (s.sys, s.cal)

theorem State.sysCal_bootField (s : State) (f : Fld) (idx : List Nat) (v : Nat) :
    (s.bootField f idx v).sysCal = s.sysCal := rfl

theorem State.sysCal_biasUp (s : State) : s.biasUp.sysCal = s.sysCal := by
  unfold State.biasUp
  split
  · exact foldl_keeps State.sysCal _ (fun s k => by rw [State.biasSafe_eq]; rfl) _ s
  · rfl

/-- R436: the range and the ramp of bias output k. -/
def State.bootRange (chans : Table (Nat × Nat × Int)) (s : State) (k : Nat) : State :=
  (s.bootField Reg.BIA_CFG.RANGE [k] (Table.get (0, 1, 0) chans k).1).bootField Reg.BIA_CFG.RAMP [k]
    (Table.get (0, 1, 0) chans k).2.1

theorem State.sysCal_bootRange (chans : Table (Nat × Nat × Int)) (s : State) (k : Nat) :
    (s.bootRange chans k).sysCal = s.sysCal :=
  (State.sysCal_bootField ..).trans (State.sysCal_bootField ..)

theorem State.readBias_eq (s : State) : s.readBias =
    match s.nvBias with
    | none => s
    | some r => if r.t2 then
        ((List.range 256).foldl (State.bootRange r.chans) (s.bootField Reg.BIAS_GCTL.T2MODE [] 1)).biasUp
      else s := rfl

theorem State.sysCal_readBias (s : State) : s.readBias.sysCal = s.sysCal := by
  rw [State.readBias_eq]
  split
  · rfl
  split
  · rw [State.sysCal_biasUp, foldl_keeps State.sysCal _ (State.sysCal_bootRange _), State.sysCal_bootField]
  · rfl

theorem State.sysCal_readId (s : State) : s.readId.sysCal = s.sysCal := by
  unfold State.readId
  split
  · rfl
  · rfl

theorem State.sysCal_nvRead (s : State) : s.readTaps.readBias.readId.sysCal = s.readTaps.sysCal :=
  (State.sysCal_readId _).trans (State.sysCal_readBias _)

theorem State.nvRead_steps (s : State) : s.readTaps.readBias.readId.sys.steps = s.sys.steps :=
  congrArg (fun p => p.1.steps) s.sysCal_nvRead

theorem State.nvRead_taps (s : State) : s.readTaps.readBias.readId.cal.live =
    match s.nvNewest 1 with
    | some ⟨_, _, some (.cal t)⟩ => t
    | _ => [] :=
  congrArg (fun p => p.2.live) s.sysCal_nvRead

/-! ### The check of the planes' tables (R338, R339) -/

theorem State.planeQuarantine_steps (s : State) (p : Fin 2) (cause : Nat) :
    (s.planeQuarantine p cause).sys.steps = s.sys.steps := by
  unfold State.planeQuarantine
  split
  · rfl
  extract_lets out told _ freed
  have htold : told.sys.steps = s.sys.steps := State.steps_postCoarse ..
  have hfreed : freed.sys.steps = s.sys.steps := by
    simp only [freed]
    split
    · exact (State.steps_post ..).trans htold
    · exact htold
  split
  · exact (State.steps_orderlyStop ..).trans hfreed
  · exact hfreed

theorem State.checkOutcome_steps (s : State) (f0 f1 : Bool) : (s.checkOutcome f0 f1).sys.steps = s.sys.steps := by
  unfold State.checkOutcome
  split
  · split
    · rfl
    · exact State.planeQuarantine_steps ..
    · exact State.planeQuarantine_steps ..
    · exact State.planeQuarantine_steps ..
  · rfl
  · rfl
  · rfl

theorem State.bootPlanes_steps (s : State) (f0 f1 : Nat) : (s.bootPlanes f0 f1).sys.steps = s.sys.steps :=
  (State.checkOutcome_steps ..).trans ((State.steps_postCoarse ..).trans (State.steps_postCoarse ..))

/-! ### Every step of boot -/

/-- No step of boot notes itself: BOOT_STEP_END does. -/
theorem State.stepEffect_steps (b : BootStep) (s : State) : (s.stepEffect b).sys.steps = s.sys.steps := by
  cases b with
  | tmode level => rfl
  | sensors => rfl
  | tests failed alg => exact State.steps_postCoarse ..
  | patch a b => exact congrArg SysSt.steps (s.bootPatch_steps a b)
  | selftest n pass => exact s.bootSelftest_steps n pass
  | nvRead => exact s.nvRead_steps
  | planes f0 f1 => exact s.bootPlanes_steps f0.toNat f1.toNat

theorem State.selftestEnd_sec (s : State) (f : Fin 5) (alg : Nat) :
    (s.selftestEnd f alg).sec = { s.sec with testing := false, err := decide (f ≠ 0) } := by
  have herr : (f.val != 0) = decide (f ≠ 0) := by
    rw [Bool.eq_iff_iff]
    simp
  simp [State.selftestEnd, herr]

theorem State.stepReady_selftest (n : Fin 2) (p : Bool) (s : State) :
    s.stepReady (.selftest n p) = true ↔ 4 ∈ s.sys.steps ∧ s.sys.fromDeep = false := by
  simp [State.stepReady, State.stepDone_iff]

end Sys2Proof.Machine
end

section
/-! PROOFS. The end of boot, and the resets (R729 to R738). -/

namespace Sys2Proof.Machine
open Host.Outcome (next)

/-! ### BOOT_END (R735 to R738) -/

theorem State.bootOver_iff (s : State) : s.bootOver = true ↔ s.sys.boot = true ∧ s.sys.porHeld = false
    ∧ s.stepsEnded = true ∧ s.bootCool = true
    ∧ (s.lockIn = true ∨ s.bothFailed = true ∨ s.sys.release + 50000000 ≤ s.time.now) := by
  simp [State.bootOver, and_assoc, or_assoc]

/-- What the records and the links that come with the end of boot leave as it was. -/
def State.bootFrame (s : State) : EngSt × CalSt × List (Nat × Byte) × TimeSt × Bool × SysSt :=
  (s.eng, s.cal, s.ram, s.time, s.pwr.cut, { s.sys with bootRecs := [], shown := 0 })

theorem State.bootFrame_holdBoot (s : State) (h : Held) : (s.holdBoot h).bootFrame = s.bootFrame := by
  unfold State.holdBoot
  split <;> rfl

theorem State.bootFrame_post (s : State) (c : Nat) (ring : Ring) (src kind flags : Nat) (st : Stamp)
    (body : List (Nat × Nat × Nat)) : (s.post c ring src kind flags st body).bootFrame = s.bootFrame := by
  rw [State.post_eq, State.post_sys]
  rfl

theorem State.bootFrame_startAttempt (s : State) (l k : Nat) : (s.startAttempt l k).bootFrame = s.bootFrame := by
  rw [State.startAttempt_eq]
  exact State.bootFrame_post ..

theorem State.bootFrame_bootLinks (s : State) : s.bootLinks.bootFrame = s.bootFrame :=
  foldl_keeps State.bootFrame _ (fun s l => by
    split
    · exact s.bootFrame_startAttempt l 1
    · rfl) _ s

theorem State.bootFrame_bootMode (s : State) : s.bootMode.bootFrame = s.bootFrame := by
  unfold State.bootMode
  dsimp only
  split
  · rfl
  · exact State.bootFrame_holdBoot ..

theorem State.bootFrame_modeSync (s : State) : s.modeSync.bootFrame = s.bootFrame := by
  unfold State.modeSync
  dsimp only
  split
  · rfl
  split
  · rfl
  · exact State.bootFrame_post ..

theorem State.bootFrame_deepLeft (s : State) : s.deepLeft.bootFrame = s.bootFrame := by
  unfold State.deepLeft
  split
  · exact State.bootFrame_post ..
  · rfl

theorem State.bootFrame_clearCut (s : State) : s.clearCut.bootFrame = { s with pwr.cut := false }.bootFrame := by
  unfold State.clearCut
  dsimp only
  split
  · exact State.bootFrame_holdBoot ..
  · rfl

/-- R701: without time lock, the reference counts as lost. -/
theorem State.bootFrame_bootLock (s : State) : s.bootLock.bootFrame =
    if s.lockIn then s.bootFrame
    else { s with sys.refLost := true, time.holdover := s.time.locked, time.lostAt := s.time.now }.bootFrame := by
  unfold State.bootLock
  split
  · rfl
  · exact State.bootFrame_post ..

/-! The stages of BOOT_END. -/

def State.bootUncut (s : State) : State := if s.pwr.cut then s.clearCut else s

def State.bootSafe (s : State) : State := if s.bothFailed then s.orderlyStop 5 0 else s

theorem State.bootEnd_of_not {s : State} (h : s.bootOver = false) : s.bootEnd = s := if_neg (by simp [h])

theorem State.bootEnd_of_over {s : State} (h : s.bootOver = true) : s.bootEnd =
    { s.bootUncut.bootLock.deepLeft.bootSafe.bootLinks with sys.boot := false, sys.ready := true }.bootMode := if_pos h

theorem State.bootFrame_bootUncut (s : State) : s.bootUncut.bootFrame = { s with pwr.cut := false }.bootFrame := by
  unfold State.bootUncut
  split
  · exact s.bootFrame_clearCut
  · next h =>
    rw [Bool.not_eq_true] at h
    rw [State.bootFrame, State.bootFrame, h]

/-- What BOOT_END leaves and sets, from a state `s`, in the state `t`. -/
def State.bootedFrom (t s : State) : Prop :=
  t.pwr.cut = s.pwr.cut ∧ t.sys.steps = s.sys.steps ∧ t.sys.refLost = s.sys.refLost ∧ t.sys.safe = s.sys.safe
  ∧ t.eng = s.eng ∧ t.cal = s.cal ∧ t.ram = s.ram ∧ t.time = s.time ∧ t.sys.fromDeep = s.sys.fromDeep
  ∧ t.sys.boot = s.sys.boot ∧ t.sys.ready = s.sys.ready

theorem State.bootedFrom_of_bootFrame {s t : State} (h : t.bootFrame = s.bootFrame) : t.bootedFrom s := by
  simp only [State.bootFrame, Prod.mk.injEq, SysSt.mk.injEq] at h
  obtain ⟨heng, hcal, hram, htime, hcut, hboot, hready, hdeep, hsteps, -, -, -, hsafe, -, hlost, -⟩ := h
  exact ⟨hcut, hsteps, hlost, hsafe, heng, hcal, hram, htime, hdeep, hboot, hready⟩

/-- R701: time lock, and with it the loss of the reference. -/
theorem State.bootLock_spec (s : State) : s.bootLock.pwr.cut = s.pwr.cut ∧ s.bootLock.sys.steps = s.sys.steps
    ∧ s.bootLock.sys.refLost = (s.sys.refLost || !s.lockIn) ∧ s.bootLock.sys.safe = s.sys.safe
    ∧ s.bootLock.eng = s.eng ∧ s.bootLock.cal = s.cal ∧ s.bootLock.ram = s.ram
    ∧ s.bootLock.time.dev = s.time.dev := by
  have hframe := s.bootFrame_bootLock
  cases h : s.lockIn with
  | true =>
    rw [h, if_pos rfl] at hframe
    obtain ⟨hcut, hsteps, hlost, hsafe, heng, hcal, hram, htime, -⟩ := State.bootedFrom_of_bootFrame hframe
    exact ⟨hcut, hsteps, by simp [hlost], hsafe, heng, hcal, hram, congrArg TimeSt.dev htime⟩
  | false =>
    rw [h, if_neg Bool.false_ne_true] at hframe
    obtain ⟨hcut, hsteps, hlost, hsafe, heng, hcal, hram, htime, -⟩ := State.bootedFrom_of_bootFrame hframe
    exact ⟨hcut, hsteps, by simp [hlost], hsafe, heng, hcal, hram, by rw [htime]⟩

theorem State.bootSafe_spec (s : State) :
    s.bootSafe.sys.safe = (if s.bothFailed = true ∧ s.sys.safe = 0 then 5 else s.sys.safe)
    ∧ s.bootSafe.pwr.cut = s.pwr.cut ∧ s.bootSafe.sys.steps = s.sys.steps ∧ s.bootSafe.sys.refLost = s.sys.refLost
    ∧ s.bootSafe.eng = s.eng ∧ s.bootSafe.cal = s.cal ∧ s.bootSafe.ram = s.ram ∧ s.bootSafe.time = s.time := by
  unfold State.bootSafe State.orderlyStop
  by_cases hfail : s.bothFailed = true <;> by_cases hsafe : s.sys.safe = 0 <;> simp [hfail, hsafe]

theorem State.lockIn_congr {s t : State} (htime : t.time = s.time) (hdeep : t.sys.fromDeep = s.sys.fromDeep)
    (hsteps : t.sys.steps = s.sys.steps) : t.lockIn = s.lockIn := by
  rw [State.lockIn, State.lockIn, State.stepDone, State.stepDone, hsteps, htime, hdeep]

theorem State.bootEnd_spec {s : State} (h : s.bootOver = true) : s.bootEnd.bootedFrom
    { s.bootUncut.bootLock.deepLeft.bootSafe with sys.boot := false, sys.ready := true } := by
  rw [State.bootEnd_of_over h]
  refine State.bootedFrom_of_bootFrame ((State.bootFrame_bootMode _).trans ?_)
  generalize s.bootUncut.bootLock.deepLeft.bootSafe = t
  have hframe := t.bootFrame_bootLinks
  simp only [State.bootFrame, Prod.mk.injEq, SysSt.mk.injEq] at hframe ⊢
  simp [hframe]

theorem exec_bootEnd_of_over {s : State} (h : s.bootOver = true) : ∃ t : State, exec .bootEnd s = next t
    ∧ t.sys.boot = false ∧ t.sys.ready = true ∧ t.pwr.cut = false ∧ t.sys.steps = s.sys.steps
    ∧ t.sys.refLost = (s.sys.refLost || !s.lockIn)
    ∧ t.sys.safe = (if s.bothFailed = true ∧ s.sys.safe = 0 then 5 else s.sys.safe)
    ∧ t.eng = s.eng ∧ t.cal = s.cal ∧ t.ram = s.ram ∧ t.time.dev = s.time.dev := by
  refine ⟨s.bootEnd.modeSync, rfl, ?_⟩
  obtain ⟨scut, ssteps, slost, ssafe, seng, scal, sram, stime, -, sboot, sready⟩ :=
    State.bootedFrom_of_bootFrame (State.bootFrame_modeSync s.bootEnd)
  obtain ⟨ecut, esteps, elost, esafe, eeng, ecal, eram, etime, -, eboot, eready⟩ := State.bootEnd_spec h
  obtain ⟨fsafe, fcut, fsteps, flost, feng, fcal, fram, ftime⟩ := State.bootSafe_spec s.bootUncut.bootLock.deepLeft
  obtain ⟨dcut, dsteps, dlost, dsafe, deng, dcal, dram, dtime, -⟩ :=
    State.bootedFrom_of_bootFrame (State.bootFrame_deepLeft s.bootUncut.bootLock)
  obtain ⟨lcut, lsteps, llost, lsafe, leng, lcal, lram, ldev⟩ := State.bootLock_spec s.bootUncut
  obtain ⟨ucut, usteps, ulost, usafe, ueng, ucal, uram, utime, udeep, -⟩ :=
    State.bootedFrom_of_bootFrame s.bootFrame_bootUncut
  have hlock : s.bootUncut.lockIn = s.lockIn := State.lockIn_congr utime udeep usteps
  have heng : s.bootUncut.bootLock.deepLeft.eng = s.eng := deng.trans (leng.trans ueng)
  have hsafe : s.bootUncut.bootLock.deepLeft.sys.safe = s.sys.safe := dsafe.trans (lsafe.trans usafe)
  have hfail : s.bootUncut.bootLock.deepLeft.bothFailed = s.bothFailed := by
    rw [State.bothFailed, State.bothFailed, heng]
  rw [hfail, hsafe] at fsafe
  refine ⟨sboot.trans eboot, sready.trans eready,
    scut.trans (ecut.trans (fcut.trans (dcut.trans (lcut.trans ucut)))),
    ssteps.trans (esteps.trans (fsteps.trans (dsteps.trans (lsteps.trans usteps)))), ?_,
    ssafe.trans (esafe.trans fsafe), seng.trans (eeng.trans (feng.trans heng)),
    scal.trans (ecal.trans (fcal.trans (dcal.trans (lcal.trans ucal)))),
    sram.trans (eram.trans (fram.trans (dram.trans (lram.trans uram)))), ?_⟩
  · calc s.bootEnd.modeSync.sys.refLost = s.bootUncut.bootLock.sys.refLost :=
          slost.trans (elost.trans (flost.trans dlost))
      _ = (s.sys.refLost || !s.lockIn) := by rw [llost, hlock, ulost]
  · calc s.bootEnd.modeSync.time.dev = s.bootUncut.bootLock.time.dev :=
          congrArg TimeSt.dev (stime.trans (etime.trans (ftime.trans dtime)))
      _ = s.time.dev := ldev.trans (congrArg TimeSt.dev utime)

/-! ### The device reset (R731, R732) -/

theorem State.clearCut_eq (s : State) : s.clearCut = { s with
    pwr.cut := false, pwr.cutRec := none
    recs := s.clearCut.recs, sys.bootRecs := s.clearCut.sys.bootRecs } := by
  unfold State.clearCut State.holdBoot
  dsimp only
  split
  · split <;> rfl
  · rfl

/-- R731, R732: the device outside the always-on domain anew, before the cut is looked at. -/
def State.anew (s : State) (pcie : Bool) : State :=
  { s.dropVolatile pcie with
    sec := s.sec.restart
    sys.release := s.time.now
    pwr.cut := s.pwr.cut
    pwr.cutRec := s.pwr.cutRec }

/-- R663: the cut goes with the reset when every sensor is cool. -/
theorem State.restart_eq (s : State) (pcie : Bool) : s.restart pcie = { s.anew pcie with
    pwr.cut := s.pwr.cut && !s.coolAll, pwr.cutRec := (s.restart pcie).pwr.cutRec
    recs := (s.restart pcie).recs, sys.bootRecs := (s.restart pcie).sys.bootRecs } := by
  have hsplit : s.restart pcie = if s.pwr.cut && s.coolAll then (s.anew pcie).clearCut else s.anew pcie := rfl
  by_cases h : (s.pwr.cut && s.coolAll) = true
  · have hcut : (s.pwr.cut && !s.coolAll) = false := by
      rw [Bool.and_eq_true] at h
      simp [h.2]
    rw [if_pos h] at hsplit
    rw [hsplit, hcut]
    generalize s.anew pcie = t
    rw [State.clearCut_eq]
  · have hcut : (s.pwr.cut && !s.coolAll) = (s.anew pcie).pwr.cut := by
      change _ = s.pwr.cut
      cases hc : s.pwr.cut <;> simp [hc] at h ⊢
      exact h
    rw [if_neg h] at hsplit
    rw [hsplit, hcut]

theorem State.deviceReset_of_idle {s : State} (h : s.nv.writes = []) : s.deviceReset = s.restart true := if_pos h

theorem State.deviceReset_of_writing {s : State} (h : s.nv.writes ≠ []) :
    s.deviceReset = { s with sys.resetWait := true } := if_neg h

/-- What a start of the device from `s` leaves in `t`, with or without PCI Express. -/
def State.startedFrom (t s : State) : Prop :=
  t.sys.boot = true ∧ t.sys.ready = false ∧ t.sys.safe = 0 ∧ t.sys.release = s.time.now
  ∧ t.sys.porHeld = s.sys.porHeld ∧ t.time.dev = ⟨0, 0⟩ ∧ t.time.now = s.time.now ∧ t.ram = [] ∧ t.ctxs = []
  ∧ t.job = {} ∧ t.regs = State.reset.regs ∧ t.pending = s.pending ∧ t.nv.slots = s.nv.slots
  ∧ t.nv.writes = s.nv.writes ∧ t.sec.owned = s.sec.owned ∧ t.sec.opk = s.sec.opk ∧ t.sec.lks = s.sec.lks
  ∧ t.sec.rollback = s.sec.rollback ∧ t.sec.slots = s.sec.slots ∧ t.sec.marks = [] ∧ t.host.reads = []
  ∧ t.pwr.cut = (s.pwr.cut && !s.coolAll)

theorem State.restart_startedFrom (s : State) (pcie : Bool) : (s.restart pcie).startedFrom s := by
  rw [State.restart_eq, State.startedFrom]
  generalize s.restart pcie = t
  refine ⟨rfl, rfl, rfl, rfl, rfl, rfl, rfl, rfl, rfl, rfl, rfl, rfl, rfl, rfl, rfl, rfl, rfl, rfl, rfl, rfl, ?_, rfl⟩
  cases pcie <;> rfl

theorem exec_deviceReset_of_idle {s : State} (h : s.nv.writes = []) : ∃ t : State,
    exec .deviceReset s = next t.modeSync ∧ t.startedFrom s := by
  refine ⟨s.restart true, ?_, s.restart_startedFrom true⟩
  rw [← State.deviceReset_of_idle h]
  rfl

theorem exec_deviceReset_of_writing {s : State} (h : s.nv.writes ≠ []) :
    exec .deviceReset s = next (State.modeSync { s with sys.resetWait := true }) := by
  rw [← State.deviceReset_of_writing h]
  rfl

/-! ### The power-up reset (R729, R731) -/

theorem State.powerUpReset_off (s : State) : s.powerUpReset true =
    { s.restart false with sys.porHeld := true, nv.writes := [], pwr.cut := false, pwr.cutRec := none } := rfl

theorem State.powerUpReset_on (s : State) : s.powerUpReset false = { s.restart false with sys.porHeld := true } := rfl

theorem exec_powerUpReset_spec (aon : Bool) (s : State) : ∃ t : State, exec (.powerUpReset aon) s = next t.modeSync
    ∧ t.sys.porHeld = true ∧ t.sys.boot = true
    ∧ t.sys.ready = false ∧ t.sys.safe = 0 ∧ t.sys.release = s.time.now ∧ t.time.dev = ⟨0, 0⟩ ∧ t.time.now = s.time.now
    ∧ t.ram = [] ∧ t.ctxs = [] ∧ t.job = {} ∧ t.regs = State.reset.regs ∧ t.nv.slots = s.nv.slots
    ∧ t.nv.writes = (if aon = true then [] else s.nv.writes) ∧ t.sec.owned = s.sec.owned ∧ t.sec.opk = s.sec.opk
    ∧ t.sec.lks = s.sec.lks ∧ t.sec.rollback = s.sec.rollback ∧ t.sec.slots = s.sec.slots ∧ t.sec.marks = []
    ∧ (aon = true → t.pwr.cut = false) ∧ (aon = false → t.pwr.cut = (s.pwr.cut && !s.coolAll)) := by
  refine ⟨s.powerUpReset aon, rfl, ?_⟩
  obtain ⟨hboot, hready, hsafe, hrel, -, hdev, hnow, hram, hctxs, hjob, hregs, -, hslots, hwrites, howned, hopk, hlks,
    hroll, hpatch, hmarks, -, hcut⟩ := s.restart_startedFrom false
  cases aon with
  | true =>
    rw [State.powerUpReset_off]
    exact ⟨rfl, hboot, hready, hsafe, hrel, hdev, hnow, hram, hctxs, hjob, hregs, hslots, rfl, howned, hopk, hlks,
      hroll, hpatch, hmarks, fun _ => rfl, fun h => absurd h (by decide)⟩
  | false =>
    rw [State.powerUpReset_on]
    exact ⟨rfl, hboot, hready, hsafe, hrel, hdev, hnow, hram, hctxs, hjob, hregs, hslots, hwrites, howned, hopk, hlks,
      hroll, hpatch, hmarks, fun h => absurd h (by decide), fun _ => hcut⟩

theorem State.railsUp_iff (s : State) : s.railsUp = true ↔ ∀ r ∈ s.pwr.rails, r = 8 := by
  simp [State.railsUp]

theorem exec_powerUpResetRelease_eq (s : State) : exec .powerUpResetRelease s = next (State.modeSync
    (if s.sys.porHeld = true ∧ s.railsUp = true then
      { s with sys.porHeld := false, sys.release := s.time.now } else s)) := by
  simp only [← Bool.and_eq_true]
  rfl

/-! ### The obligation -/

/-- Settles O58: the steps of boot, its end, and the resets. -/
theorem bootStepsAndPowerUpReset : Obligations.BootStepsAndPowerUpReset := by
  refine ⟨fun b s h => ?_, fun b s hboot hpor hdone hready => ?_, State.stepEffect_steps, fun l s => ⟨rfl, rfl⟩,
    fun f alg s => s.selftestEnd_sec f alg, fun a b s => s.bootPatch_spec a b, fun n s => s.bootSelftest_of_pass n,
    fun s h => State.bootSelftest_spec h, fun s => ⟨rfl, s.nvRead_taps⟩, fun f0 f1 s => rfl, State.bootOver_iff,
    fun s h => ?_, fun s h => exec_bootEnd_of_over h, exec_powerUpReset_spec, exec_powerUpResetRelease_eq,
    State.railsUp_iff, fun s hpor hrails => ?_, State.stepReady_selftest, fun s h => ?_,
    fun s h => exec_deviceReset_of_writing h⟩
  · exact congrArg (fun t => next t.modeSync) (State.bootStep_of_not h)
  · exact congrArg (fun t => next t.modeSync) (State.bootStep_of_due hboot hpor hdone hready)
  · exact congrArg (fun t => next t.modeSync) (State.bootEnd_of_not h)
  · rw [exec_powerUpResetRelease_eq, if_pos ⟨hpor, hrails⟩]
  · obtain ⟨t, hexec, hboot, hready, hsafe, hrel, hpor, hdev, hnow, hram, hctxs, hjob, hregs, hpend, hslots, -, howned, -,
      hlks, -, hpatch, hmarks, hreads, hcut⟩ := exec_deviceReset_of_idle h
    exact ⟨t, hexec, hboot, hready, hsafe, hrel, hpor, hdev, hnow, hram, hctxs, hjob, hregs, hpend, hslots, howned, hlks,
      hpatch, hmarks, hreads, hcut⟩

end Sys2Proof.Machine
end

section
/-! PROOFS. The security module's mailbox (R680 to R695): what becomes of a request, and what each service answers. -/

namespace Sys2Proof.Machine
open Host.Outcome (next)

/-! ### A request (R681, R683, R684) -/

theorem State.go_of_discarded {s : State} (h : s.goDiscarded = true) (cmd : Nat) (role : MbRole) (r : MbReq)
    (work : State → MbRun → State) : s.go cmd role r work = s.mbViolation 0xFF cmd :=
  if_pos h

section
variable {s : State} {cmd : Nat} {role : MbRole} {r : MbReq} (h : s.goDiscarded = false)
include h

theorem State.go_of_taken (work : State → MbRun → State) : s.go cmd role r work =
    match s.mbRefusal cmd role r with
    | 0 => work (if role = 0 then s else s.authPass role)
        { cmd := cmd, tag := r.tag, ind := true, detail := (Config.freeWord s.freeCtr).toNat }
    | 1 => (s.authFail role).answerOnly { cmd := cmd, tag := r.tag } 1
    | n => s.answerOnly { cmd := cmd, tag := r.tag } n := by
  unfold State.go
  rw [h]
  rfl

theorem State.go_of_refused (hr : 2 ≤ s.mbRefusal cmd role r) (work : State → MbRun → State) : s.go cmd role r work =
    { s with sec.run := some { cmd := cmd, tag := r.tag, status := s.mbRefusal cmd role r } } := by
  rw [State.go_of_taken h]
  split
  · next h0 => omega
  · next h1 => omega
  · rfl

theorem State.go_of_unauthorised (hr : s.mbRefusal cmd role r = 1) (work : State → MbRun → State) :
    s.go cmd role r work = { s.authFail role with sec.run := some { cmd := cmd, tag := r.tag, status := 1 } } := by
  rw [State.go_of_taken h, hr]
  rfl

theorem State.go_of_anyone (hr : s.mbRefusal cmd 0 r = 0) (work : State → MbRun → State) : s.go cmd 0 r work =
    work s { cmd := cmd, tag := r.tag, ind := true, detail := (Config.freeWord s.freeCtr).toNat } := by
  rw [State.go_of_taken h, hr]
  rfl

theorem State.go_of_role (hrole : role ≠ 0) (hr : s.mbRefusal cmd role r = 0) (work : State → MbRun → State) :
    s.go cmd role r work = work (s.authPass role)
      { cmd := cmd, tag := r.tag, ind := true, detail := (Config.freeWord s.freeCtr).toNat } := by
  rw [State.go_of_taken h, hr, if_neg hrole]
  rfl

end

theorem State.roleLocked_iff (s : State) (role : MbRole) :
    s.roleLocked role = true ↔ s.time.now < (s.sec.roles[role - 1]?.getD {}).lockTo := decide_eq_true_iff

theorem State.mbRefusal_eq (s : State) (cmd : Nat) (role : MbRole) (r : MbReq) : s.mbRefusal cmd role r =
    if r.wellFormed = false then 3
    else if s.sec.err = true ∧ cmd ≠ 1 ∧ cmd ≠ 3 ∧ cmd ≠ 4 then 7
    else if role = 0 then 0
    else if s.sec.owned = false then 6
    else if s.time.now < (s.sec.roles[role - 1]?.getD {}).lockTo then 2
    else if r.authOk = true ∧ s.sec.nonce ≠ none then 0 else 1 := by
  simp only [State.mbRefusal, State.roleLocked_iff, Bool.and_eq_true, Option.isSome_iff_ne_none]

/-! ### Authentication (R681) -/

/-- Role 1 is the User, role 2 the CO: the role of index k is k + 1. -/
theorem State.role_state (s : State) (k : Fin 2) : s.sec.roles[k.val + 1 - 1]?.getD {} = s.sec.roles[k] := by
  rw [Nat.add_sub_cancel, Vector.getElem?_eq_getElem k.isLt]
  rfl

theorem roles_set! (v : Vector RoleSt 2) (k : Fin 2) (x : RoleSt) : v.set! (k.val + 1 - 1) x = v.set k x := by
  rw [Nat.add_sub_cancel, Vector.set!_eq_setIfInBounds]
  refine Vector.ext fun i hi => ?_
  rw [Vector.getElem_setIfInBounds]
  exact (Vector.getElem_set ..).symm

theorem State.authFail_of_few {s : State} {k : Fin 2} (h : (s.sec.roles[k]).fails < 7) :
    (s.authFail (k.val + 1)).sec.roles =
      s.sec.roles.set k { s.sec.roles[k] with fails := (s.sec.roles[k]).fails + 1 } := by
  have hfew : (s.sec.roles[k]).fails + 1 < 8 := by omega
  unfold State.authFail
  simp only [State.role_state, roles_set!, if_pos hfew, State.postCoarse_work]

theorem State.authFail_of_eight {s : State} {k : Fin 2} (h : 7 ≤ (s.sec.roles[k]).fails) : ∃ n : Nat,
    n = (if (s.sec.roles[k]).lockS = 0 then 10 else min 1280 (2 * (s.sec.roles[k]).lockS))
    ∧ (s.authFail (k.val + 1)).sec.roles =
      s.sec.roles.set k { fails := 0, lockS := n, lockTo := s.time.now + n * 1000000000 } := by
  have height : ¬ (s.sec.roles[k]).fails + 1 < 8 := by omega
  refine ⟨_, rfl, ?_⟩
  unfold State.authFail
  simp only [State.role_state, roles_set!, if_neg height, State.postCoarse_work]

theorem State.authPass_eq (s : State) (k : Fin 2) : s.authPass (k.val + 1) =
    { s with sec.nonce := none, sec.roles := s.sec.roles.set k {} } := by
  rw [State.authPass, roles_set!]

/-! ### Key slots (R679) -/

theorem State.hasLk_iff (s : State) (k : Nat) : s.hasLk k = true ↔ Table.get [] s.sec.lks k ≠ [] := bne_iff_ne

/-- An accepted authentication leaves the key slots as they were. -/
theorem State.ite_hasLk {α : Sort _} (s : State) (role : MbRole) (k : Nat) (a b : α) :
    (if (s.authPass role).hasLk k = true then a else b) = if Table.get [] s.sec.lks k ≠ [] then a else b :=
  if_congr (State.hasLk_iff (s.authPass role) k) rfl rfl

/-! ### ZEROIZE ends a pass of UNSEAL_LOAD (R695) -/

theorem State.sec_fire (s : State) (src : Nat) : (s.fire src).sec = s.sec := by
  rw [State.fire_eq]

theorem State.run_mbViolation (s : State) (code cmd : Nat) : (s.mbViolation code cmd).sec.run = s.sec.run := by
  unfold State.mbViolation
  dsimp only
  split <;> simp

/-- R684: the response is written, and source 913 is yet to fire. -/
def State.responded (s : State) (r : MbRun) : State :=
  { s with
    freeCtr := s.freeCtr + 48
    sec.run := none
    sec.done := true
    sec.nonce := some (s.drbg 48)
    sec.resp := r.response (s.drbg 48) }

theorem State.respond_eq (s : State) (r : MbRun) : s.respond r =
    if r.status = 3 then ((s.responded r).fire 913).mbViolation 3 r.cmd else (s.responded r).fire 913 := rfl

theorem State.run_respond (s : State) (r : MbRun) : (s.respond r).sec.run = none := by
  have hfired (n : Nat) : ((s.responded r).fire n).sec.run = none := congrArg SecSt.run (State.sec_fire ..)
  rw [State.respond_eq]
  split
  · rw [State.run_mbViolation, hfired]
  · exact hfired 913

theorem State.serviceDone_of_run {s : State} {r : MbRun} (h : s.sec.run = some r) (hpass : r.pass = 0) :
    s.serviceDone false = (s.mbEffect r.effect).respond r := by
  simp [State.serviceDone, h, hpass]

theorem State.unsealFail_run (s : State) (u : MbRun) :
    (s.unsealFail u).sec.run = some { u with status := 4, ind := false, pass := 0 } := rfl

/-- The pass in hand is ended and answered. -/
theorem State.run_unsealEnded (s : State) (u : MbRun) : ((s.unsealFail u).serviceDone false).sec.run = none := by
  rw [State.serviceDone_of_run (s.unsealFail_run u) rfl, State.run_respond]

/-- GO of ZEROIZE once no pass is in hand. -/
def State.zeroizeGo (s : State) (r : MbReq) (full : Bool) : State :=
  s.go 4 0 r fun s x => s.serve x [] (.zeroize full (if full then 1 else 0))

theorem State.zeroize_of_pass {s : State} {u : MbRun} (hu : s.sec.run = some u) (hpass : u.pass ≠ 0)
    (hquar : s.mbQuar = false) (r : MbReq) (full : Bool) :
    s.zeroize r full = ((s.unsealFail u).serviceDone false).zeroizeGo r full := by
  unfold State.zeroize
  rw [hu]
  dsimp only
  rw [if_pos ⟨hpass, hquar⟩]
  rfl

theorem State.zeroize_of_none {s : State} (h : s.sec.run = none) (r : MbReq) (full : Bool) :
    s.zeroize r full = s.zeroizeGo r full := by
  unfold State.zeroize
  rw [h]
  rfl

theorem State.run_of_go {s : State} (h : s.goDiscarded = false) : s.sec.run = none := by
  rw [State.goDiscarded, Bool.or_eq_false_iff] at h
  exact Option.isNone_iff_eq_none.mp (by simpa using h.1)

/-! ### The services that weigh more than one condition (R645, R682, R685, R688, R692) -/

theorem State.installPatch_eq (s : State) (x : MbRun) (v rom : Nat) (im : List Byte) (ok : Bool) :
    (s.authPass 2).installPatch x v rom im ok =
      let t := if s.eng.result = 0 then 1 else 0
      if ok = false ∨ rom ≠ romVersion ∨ s.sec.otpGone = true then (s.authPass 2).decline x 4 (.patchRefused t v)
      else if v < s.sec.rollback then (s.authPass 2).decline x 5 (.patchRefused t v)
      else if s.nv.refuse = true then (s.authPass 2).decline x 8 (.patchInt t v)
      else State.serve { s.authPass 2 with sec.slots := s.sec.slots.set! t { s.patchSlot t with valid := false } } x []
        (.patch t v rom im) := rfl

theorem State.blobMine_iff (s : State) (d : Nat) :
    s.blobMine d = true ↔ d = 0xFFFFFFFF ∨ d % 2 ^ 18 = s.deviceId := by
  rw [State.blobMine, Bool.or_eq_true, beq_iff_eq, beq_iff_eq]

/-- R645: what IMPORT_CAL answers, once it is accepted. -/
def State.importAnswer (s : State) (x : MbRun) (k : Nat) (ok : Bool) (hdr : List Byte) (taps : List Word) : State :=
  if s.hasLk k = false then s.decline x 6 .none
  else if ok = false then (s.sealRecord { x with status := 4 }).decline x 4 .none
  else if sealHdrBad hdr 1 k 0 (80 + 4 * taps.length) ∨ taps.length ≠ calBlock.length then s.decline x 3 .none
  else if s.blobMine (sealDev hdr) then s.serve x [] (.importCal (calBlock.zip taps))
  else (s.sealRecord { x with status := 4 }).decline x 4 .none

theorem State.importAnswer_eq (s : State) (x : MbRun) (k : Nat) (ok : Bool) (hdr : List Byte) (taps : List Word) :
    (s.authPass 1).importAnswer x k ok hdr taps =
      if Table.get [] s.sec.lks k = [] then (s.authPass 1).decline x 6 .none
      else if ok = false then ((s.authPass 1).sealRecord { x with status := 4 }).decline x 4 .none
      else if sealHdrBad hdr 1 k 0 (80 + 4 * taps.length) = true ∨ taps.length ≠ calBlock.length then
        (s.authPass 1).decline x 3 .none
      else if sealDev hdr = 0xFFFFFFFF ∨ sealDev hdr % 2 ^ 18 = s.deviceId then
        (s.authPass 1).serve x [] (.importCal (calBlock.zip taps))
      else ((s.authPass 1).sealRecord { x with status := 4 }).decline x 4 .none := by
  have hkey : (s.authPass 1).hasLk k = false ↔ Table.get [] s.sec.lks k = [] := by
    rw [← Bool.not_eq_true, State.hasLk_iff, not_not]
    rfl
  have hmine : (s.authPass 1).blobMine (sealDev hdr) = true ↔
      sealDev hdr = 0xFFFFFFFF ∨ sealDev hdr % 2 ^ 18 = s.deviceId := State.blobMine_iff ..
  unfold State.importAnswer
  simp only [hkey, hmine]

theorem exec_importCal_eq {s : State} (h : s.goDiscarded = false) {r : MbReq} (hr : s.mbRefusal 0x22 1 r = 0)
    (k : Fin 16) (ok : Bool) (hdr : List Byte) (taps : List Word) : exec (.importCal r k ok hdr taps) s = next
      ((s.authPass 1).importAnswer { cmd := 0x22, tag := r.tag, ind := true
                                     detail := (Config.freeWord s.freeCtr).toNat, slot := k } k ok hdr taps) :=
  congrArg next (State.go_of_role h one_ne_zero hr fun s x => s.importAnswer { x with slot := k.val } k ok hdr taps)

theorem exec_importCal_of_any {s : State} (h : s.goDiscarded = false) {r : MbReq} (hr : s.mbRefusal 0x22 1 r = 0)
    {k : Fin 16} {hdr : List Byte} {taps : List Word} (hkey : Table.get [] s.sec.lks k ≠ [])
    (hlen : taps.length = calBlock.length) (hhdr : sealHdrBad hdr 1 k 0 (80 + 4 * calBlock.length) = false)
    (hdev : sealDev hdr = 0xFFFFFFFF) : exec (.importCal r k true hdr taps) s = next
      ((s.authPass 1).serve { cmd := 0x22, tag := r.tag, ind := true, detail := (Config.freeWord s.freeCtr).toNat
                              slot := k } [] (.importCal (calBlock.zip taps))) := by
  have hgood : ¬ (sealHdrBad hdr 1 k 0 (80 + 4 * taps.length) = true ∨ taps.length ≠ calBlock.length) := by
    rw [hlen, hhdr]
    simp
  rw [exec_importCal_eq h hr, State.importAnswer_eq, if_neg hkey, if_neg (by decide), if_neg hgood, if_pos (Or.inl hdev)]

theorem exec_deleteLk_eq {s : State} (h : s.goDiscarded = false) {r : MbReq} (hr : s.mbRefusal 0x13 2 r = 0)
    (k : Fin 16) : exec (.deleteLk r k) s = next
      (if Table.get [] s.sec.lks k ≠ [] then
        (s.authPass 2).serve { cmd := 0x13, tag := r.tag, ind := true, detail := (Config.freeWord s.freeCtr).toNat } []
          (.deleteLk k)
      else (s.authPass 2).decline { cmd := 0x13, tag := r.tag, ind := true
                                    detail := (Config.freeWord s.freeCtr).toNat } 6 .none) :=
  congrArg next ((State.go_of_role h two_ne_zero hr _).trans (State.ite_hasLk s 2 k _ _))

theorem exec_discardedGo_eq (r : MbReq) (cmd : BitVec 16) (s : State) : exec (.discardedGo r cmd) s = next
    (if s.goDiscarded = true then s.mbViolation 0xFF cmd.toNat
     else if cmd.toNat ∈ mbServices then s
     else { s with sec.run := some { cmd := cmd.toNat, tag := r.tag, status := 3 } }) := by
  simp only [← List.contains_iff_mem]
  rfl

/-! ### The obligation -/

/-- Settles O59: discarded, refused, unauthorised and accepted requests, then each service of R682. -/
theorem mailboxRequestsAndServices : Obligations.MailboxRequestsAndServices := by
  refine ⟨fun s cmd role r work h => State.go_of_discarded h cmd role r work,
    fun s cmd role r work h hr => State.go_of_refused h hr work,
    fun s cmd role r work h hr => State.go_of_unauthorised h hr work, State.mbRefusal_eq,
    fun s k => ⟨State.authFail_of_few, State.authFail_of_eight, s.authPass_eq k⟩, fun s x pl e n => ⟨rfl, rfl⟩,
    ?status, ?nonce, ?selftest, ?getCerts, ?zeroize, ?zeroizePass, ?takeOwner, ?ownerTaken, ?setUak, ?importLk,
    fun r k s h hr => exec_deleteLk_eq h hr k, ?installPatch, ?advanceRollback, ?releaseOwner, ?random, ?unsealLoad,
    ?sealCal, ?importCal, ?attest, exec_discardedGo_eq, ?discarded, ?deleteHeld,
    fun r k hdr taps s h hr hkey hlen hhdr hdev => exec_importCal_of_any h hr hkey hlen hhdr hdev⟩
  case status => exact fun r s h hr => congrArg next (State.go_of_anyone h hr _)
  case nonce => exact fun r s h hr => congrArg next (State.go_of_anyone h hr _)
  case selftest => exact fun r f alg s h hr => congrArg next (State.go_of_anyone h hr _)
  case getCerts => exact fun r s h hr => congrArg next (State.go_of_anyone h hr _)
  case zeroize =>
    exact fun r full s _ h hr => congrArg next ((State.zeroize_of_none (State.run_of_go h) r full).trans
      (State.go_of_anyone h hr _))
  case zeroizePass =>
    exact fun r full s u hu hpass hquar => congrArg next ((State.zeroize_of_pass hu hpass hquar r full).trans
      (State.zeroize_of_none (s.run_unsealEnded u) r full).symm)
  case takeOwner =>
    exact fun r opk uak ok s h hr howned => congrArg next ((State.go_of_anyone h hr _).trans
      (if_neg (by rw [howned]; exact Bool.false_ne_true)))
  case ownerTaken =>
    exact fun r opk uak ok s h hr howned => congrArg next ((State.go_of_anyone h hr _).trans (if_pos howned))
  case setUak => exact fun r uak ok s h hr => congrArg next (State.go_of_role h two_ne_zero hr _)
  case importLk => exact fun r k key ok s h hr => congrArg next (State.go_of_role h two_ne_zero hr _)
  case installPatch =>
    exact fun r v rom im ok s h hr => congrArg next ((State.go_of_role h two_ne_zero hr _).trans
      (s.installPatch_eq _ v.toNat rom.toNat im ok))
  case advanceRollback => exact fun r s h hr => congrArg next (State.go_of_role h two_ne_zero hr _)
  case releaseOwner => exact fun r s h hr => congrArg next (State.go_of_role h two_ne_zero hr _)
  case random => exact fun r n s h hr => congrArg next (State.go_of_role h one_ne_zero hr _)
  case unsealLoad =>
    exact fun r c k a len s h hr => congrArg next ((State.go_of_role h one_ne_zero hr _).trans (s.ite_hasLk 1 k _ _))
  case sealCal =>
    exact fun r c k a s h hr => congrArg next ((State.go_of_role h one_ne_zero hr _).trans (s.ite_hasLk 1 k _ _))
  case importCal =>
    exact fun r k ok hdr taps s h hr => (exec_importCal_eq h hr k ok hdr taps).trans
      (congrArg next (s.importAnswer_eq _ k ok hdr taps))
  case attest => exact fun r nc s h hr => congrArg next (State.go_of_role h one_ne_zero hr _)
  case discarded => exact fun r cmd s h => (exec_discardedGo_eq r cmd s).trans (congrArg next (if_pos h))
  case deleteHeld =>
    exact fun r k s h hr hkey => (exec_deleteLk_eq h hr k).trans (congrArg next (if_pos hkey))

end Sys2Proof.Machine
end
